-- ==== Sys2Proof/Word.lean ====
section
/-! DEFINITION. The word types of the Skelut XN-2 and their plainest helpers (spec/00_scope.md R3, R4). -/

namespace Sys2Proof

/-- A byte, the smallest addressable unit (R4). -/
abbrev Byte := BitVec 8

/-- A scalar register or a memory doubleword (R14). -/
abbrev W64 := BitVec 64

/-- A 32-bit word: helper registers (R261), program offsets (R23). -/
abbrev W32 := BitVec 32

/-- A lane mask (R14): bit j governs byte j of a vector register (R15). -/
abbrev Mask := BitVec 256

/-- The 256 bytes of a vector register (R16). -/
abbrev VReg := BitVec 2048

/-- A bundle of 384 bits (R69). -/
abbrev BundleWord := BitVec 384

/-- One slot of a bundle, or one Moldiba slot (R73). -/
abbrev SlotWord := BitVec 128

end Sys2Proof
end

