-- ==== Sys2Proof/Config.lean ====
section
/-! DEFINITION. What an implementation of the SKX2-256W fixes, and the free values the spec leaves open.
An `opaque` constant has no body: no proof can see a value of it (R7, *unspecified value*). -/

namespace Sys2Proof.Config

/-- An unspecified value of `w` bits (R7), one for every pair of an epoch and a key.
The epoch is the plain counter `State.epoch`; the key says which value of that step it is.
DESIGN CHOICE, log 2. -/
opaque freeBits : (epoch key w : Nat) → BitVec w

/-- The decision delay Δ in ticks (R301): 512 on the SKX2-256W. -/
def decisionDelay : Nat := 512

/-- The fast approximation of VSQRT, a fixed function of type code and input bits (R145). -/
opaque fastSqrt : (ty : Nat) → (bits : W32) → W32
/-- The fast approximation of VEXP2 (R145). -/
opaque fastExp2 : (ty : Nat) → (bits : W32) → W32
/-- The fast approximation of VLOG2 (R145). -/
opaque fastLog2 : (ty : Nat) → (bits : W32) → W32

/-- The output of the LZ4 block compressor for an external dictionary and an input (R383):
a fixed function on every implementation whose text the spec does not give. -/
opaque lz4Compress : (dict input : List Byte) → List Byte

/-- The matrix engine of a physical core is degraded and caps the planes of float operands where it may (R63; log 29). -/
opaque degradedEngine : (cluster physical : Nat) → Bool

/-- Ticks that some clocks of the SRAM rail take at an operating point: a design figure the spec does not give (R370). -/
opaque sramTicks : (point : BitVec 3) → (clocks : Nat) → Nat

/-- The highest point of a rail with which the module stays within its power limit at a sprint level: a design figure that
the spec does not give (R370, R375). -/
opaque limitPoint : (level rail : Nat) → BitVec 3

/-- The device identity private key, which never leaves the management core (R419). -/
opaque identitySeed : BitVec 256

/-- The device serial number (R419). -/
opaque serialNumber : BitVec 128

/-- The running management firmware, Fuward included (R419). -/
opaque firmware : List Byte

/-- The Hernik vendor key, slot 0 of the key table, in ROM (R418). -/
opaque vendorKey : BitVec 256

/-- The identification register the standard test port shifts out under IDCODE (R380). -/
opaque idcode : W32

/-- Fuward (R411): native dictionary, index stream and the native offset of each Moldiba bundle, or a refusal of the kernel:
as unsealable, or for a loop that becomes too long (`true`). -/
opaque fuward : (moldiba : List Byte) → (entries : List Nat) →
  Except Bool (List BundleWord × List (BitVec 16) × List Nat)

/-- The key slots 1 to 7 that an object writes, each with its key and its NAT bit, when it is a key-install object; the
spec gives no form of such an object (R418, log 22). -/
opaque keyInstall : List Byte → Option (List (Nat × BitVec 256 × Bool))

/-- The bytes of the key table with its filled slots 1 to 7, which the spec does not lay out (R419, log 22). -/
opaque keyTable : List (Nat × BitVec 256 × Bool) → List Byte

/-- What a port carries between devices (R400): a destination position, and a forwarded launch packet, an arrival at a
level-4 barrier with the barrier's number, the end of a member, a member's contribution to a level-4 collective, or the
stop of a device's members for a restart of their stand, with whether all of them are restartable (R294). -/
inductive PortBody where
  | packet (queue seq : Nat) (bytes : List Byte)
  | arrival (queue seq member number : Nat)
  | ended (queue seq member : Nat)
  | data (queue seq num member kind : Nat) (args : List Nat) (vals : List VReg) (bad : Bool)
  | restart (queue seq position : Nat) (ok : Bool)
deriving DecidableEq, Repr

structure PortMessage where
  dest : Nat
  body : PortBody
deriving DecidableEq, Repr

/-- Flits that a port buffers for each virtual channel; the spec gives no number (R402; DESIGN CHOICE, log 14). -/
def portBuffer : Nat := 256

/-- The bytes of a message, which its flits carry 244 at a time; the spec gives no layout (log 14). -/
opaque portEncode : PortMessage → List Byte

/-- The message at the front of the payloads received, and the number of payloads it takes (log 14). -/
opaque portDecode : List (List Byte) → Option (PortMessage × Nat)

/-- Ticks that a level's excess power takes to melt one code of the store (R376): design figures
of the SKX2-256W. -/
def leaseK : Nat → Nat
  | 1 => 8056640
  | 2 => 4028320
  | 3 => 2877371
  | _ => 1

end Sys2Proof.Config
end

