-- ==== Sys2Proof/Syntax.lean ====
section
/-! DEFINITION. The steps of the device: one constructor of `Instr` for each row of spec/opcode_table.json.
A tile operation carries the fields of its slot (R73, R76), a helper instruction its register numbers
(R263), and an event or a register write the objects and the values that it names. -/

namespace Sys2Proof

/-- The fields of a slot other than OP (R73), with the extension X taken apart (R76). -/
structure Slot where
  lat  : BitVec 4
  rnd  : BitVec 3
  sat  : BitVec 1
  pn   : BitVec 1
  pnum : BitVec 4
  d    : BitVec 9
  a    : BitVec 9
  b    : BitVec 9
  c    : BitVec 9
  t    : BitVec 5
  psel : BitVec 2
  msel : BitVec 4
  qual : BitVec 26
  imm  : BitVec 32
deriving DecidableEq, Repr

/-- The slot whose every field is zero. -/
def Slot.zero : Slot := ⟨0, 0, 0, 0, 0, 0, 0, 0, 0, 0, 0, 0, 0, 0⟩

/-- The syndrome registers a trap writes (R166): SCLASS, SYND and EPC. -/
structure TrapRec where
  sclass : BitVec 8
  synd   : BitVec 64
  epc    : BitVec 32
deriving DecidableEq, Repr

/-- The source of a detected hardware error (R187). -/
inductive ErrSource where
  | core | memory | link
deriving DecidableEq, Repr

/-- The three units of a matrix engine (R198). -/
inductive EngUnit where
  | array | planing | tilePort
deriving DecidableEq, Repr

/-- A partition of a logical core (R24). -/
structure TaskRef where
  lcore : Nat
  part  : Nat
deriving DecidableEq, Repr

/-- A lane group of the die-to-die link (R363) or a device port (R400). -/
inductive LinkRef where
  | group (g : Nat)
  | port (k : Nat)
deriving DecidableEq, Repr

/-- What a controller found when it read and rewrote a line (R350). -/
inductive ScrubResult where
  | clean | corrected | uncorrectable
deriving DecidableEq, Repr

/-- A wear register (R381). -/
inductive GrowthReg where
  | core (c k : Nat)
  | link (j : Nat)
  | mem (ch : Nat)
  | heat
  | nand
deriving DecidableEq, Repr

/-- Registers whose writes have no behaviour of their own (R391), by their place. -/
inductive WinReg where
  | qbase (q : Nat) | qcfg (q : Nat) | qtail (q : Nat) | qstat (q : Nat)
  | erwr (f : Nat) | erstat (f : Nat)
  | ntgt (f : Nat) | fstat (f : Nat) | msix (f n : Nat) | ldctl (f : Nat)
  | ldsrc (f : Nat) | ldcode (f : Nat) | ldst (f : Nat) | ldhnd (f : Nat)
  | atnonce (f n : Nat) | ataddr (f : Nat)
  | troot (f : Nat)
  | pkstat | adplot | schage | plstat | plbad | tinvst | ckctl | ckstat | hapbase
  | mdpos | mdq | bootst
  | gstg (n : Nat)
  | railst (r : Nat) | mbud (c : Nat) | mbstat (c : Nat)
  | clmap (c : Nat) | clstat (c : Nat)
  | chcur (d ch : Nat) | chstat (d ch : Nat)
  | ddgst (g : Nat) | pstat (k : Nat) | proute (p : Nat)
  | padGauge (c i w : Nat) | ctlGauge (d i w : Nat)
  | growth (r : GrowthReg)
  | hstat
  | unassigned
deriving DecidableEq, Repr

/-- The outcome a host-memory completion reports (R396). -/
inductive HostReply where
  | data (bytes : List Byte)
  | unsupported | aborted | poisoned
deriving DecidableEq, Repr

/-- The steps of the device. -/
inductive Instr where
  -- class 0b000 (spec/04_scalar_instructions.md)
  | add (f : Slot) | sub (f : Slot) | mul (f : Slot) | mulh (f : Slot) | div (f : Slot) | rem (f : Slot)
  | and (f : Slot) | or (f : Slot) | xor (f : Slot) | andn (f : Slot)
  | shl (f : Slot) | shr (f : Slot) | sra (f : Slot) | rol (f : Slot)
  | min (f : Slot) | max (f : Slot) | cmp (f : Slot) | sel (f : Slot)
  | li (f : Slot) | liHi (f : Slot) | clz (f : Slot) | popc (f : Slot)
  | bfx (f : Slot) | bfi (f : Slot) | plog (f : Slot)
  -- class 0b001
  | br (f : Slot) | call (f : Slot) | ret (f : Slot) | rep (f : Slot) | loopb (f : Slot)
  | endTask (f : Slot) | trap (f : Slot) | eret (f : Slot) | srd (f : Slot) | swr (f : Slot)
  | fence (f : Slot) | nop (f : Slot) | rand (f : Slot) | grow (f : Slot) | shrink (f : Slot)
  | sealBolt (f : Slot)
  -- class 0b010
  | ld (f : Slot) | st (f : Slot) | cas (f : Slot) | amo (f : Slot)
  | vld (f : Slot) | vst (f : Slot) | vldg (f : Slot) | vsts (f : Slot) | vldb (f : Slot)
  -- class 0b011 (spec/05_vector_instructions.md)
  | vadd (f : Slot) | vsub (f : Slot) | vmul (f : Slot) | vfma (f : Slot) | vfms (f : Slot)
  | vmin (f : Slot) | vmax (f : Slot) | vabs (f : Slot) | vneg (f : Slot)
  | vcmp (f : Slot) | vsel (f : Slot) | vand (f : Slot) | vor (f : Slot) | vxor (f : Slot)
  | vshl (f : Slot) | vshr (f : Slot) | vsra (f : Slot)
  -- class 0b100
  | vcvt (f : Slot) | vpack4 (f : Slot) | vbsc (f : Slot)
  | vrcp (f : Slot) | vrsq (f : Slot) | vsqrt (f : Slot) | vexp2 (f : Slot) | vlog2 (f : Slot)
  | vred (f : Slot) | vscan (f : Slot) | vperm (f : Slot)
  | vbcast (f : Slot) | vbcastLane (f : Slot) | vext (f : Slot)
  | viota (f : Slot) | viotaCnt (f : Slot) | klog (f : Slot)
  | spush (f : Slot) | spop (f : Slot) | scnt (f : Slot)
  -- class 0b101 (spec/07_core_matrix.md, spec/08_core_movement.md)
  | fpush (f : Slot) | plane (f : Slot) | mma (f : Slot) | mmag (f : Slot) | mclr (f : Slot)
  | mlda (f : Slot) | mrd (f : Slot) | mst (f : Slot) | mstat (f : Slot) | phase (f : Slot)
  | nset (f : Slot) | nsetRst (f : Slot) | nsetStep (f : Slot) | nsetOff (f : Slot)
  -- class 0b110
  | enqMove (f : Slot) | enqReduce (f : Slot) | enqMailbox (f : Slot) | deq (f : Slot)
  | skmov (f : Slot) | skmovNest (f : Slot) | skgat (f : Slot) | sksct (f : Slot)
  | skchn (f : Slot) | skqset (f : Slot) | tmov (f : Slot)
  | feopSet (f : Slot) | feopClr (f : Slot) | feopWait (f : Slot)
  | zenter (f : Slot) | zsync (f : Slot) | zred (f : Slot) | zleave (f : Slot) | boom (f : Slot)
  | launch (f : Slot) | spec (f : Slot) | decide (f : Slot) | evpost (f : Slot) | cord (f : Slot)
  | pxfer (f : Slot) | pquery (f : Slot)
  | lease (f : Slot) | lrel (f : Slot) | opreq (f : Slot)
  -- Xhsk (R263): register numbers of the R-type form
  | hskEnq (rd rs1 rs2 : BitVec 5) | hskDeq (rd rs1 : BitVec 5)
  | hskFew (rd rs1 : BitVec 5) | hskFewClr (rd rs1 : BitVec 5) | hskFes (rs1 rs2 : BitVec 5)
  | hskMbr (rd rs1 : BitVec 5) | hskMbw (rs1 rs2 : BitVec 5)
  | hskDcc (rd : BitVec 5) | hskDccHi (rd : BitVec 5)
  -- steps of tasks (spec/06_task_traps_bolts.md and the chapters the rows name)
  | brumationEntry
  | trapEntry (r : TrapRec)
  | asyncNoticeTaken
  | errorDetected (who : TaskRef) (src : ErrSource) (addr : BitVec 48) (pa : Nat)
  | boltReplay | sealComplete | sealWatchdog
  | loadWaitServed | fullEmptyWatchdog | streamWaitServed | streamWatchdog
  | deqWaitServed | mailboxWatchdog
  | preemptionRequest (l : Nat) | preemption | taskResume (i : Nat) | taskStart (l : Nat)
  | taskEndComplete | tickBudgetExpiry
  -- steps of the engines of core l
  | tileCommandStart (l : Nat) (u : EngUnit) | stampedCommandStart (l : Nat)
  | tileCommandComplete (l : Nat) (u : EngUnit) | operandWatchdog (l part : Nat)
  | commandMigration (l part : Nat) | migratedPartialAdd (l : Nat)
  | undeclaredBurst (l : Nat) | regulatorPreposition (who : TaskRef)
  | phaseOnset (who : TaskRef) | phaseRampStep (who : TaskRef) | phaseEnd (who : TaskRef)
  | retentionEntry (l : Nat) | retentionExit (l : Nat)
  | skidderChunkMove (l : Nat) | skidderCommandComplete (l : Nat) | sourceWatchdog (l : Nat)
  | chainDescriptorWalk (d ch : Nat)
  | barrierComplete (stand : Nat) | standWatchdog | collectiveComplete (stand : Nat)
  | padGaugeFire (c i : Nat) | controllerGaugeFire (d i : Nat)
  | shedding (c k : Nat) | timeShareSwitch (c k : Nat)
  -- steps of the die
  | decisionTickApply | eventRingInterrupt (fn : Nat) | candidateAgingBlock (l : Nat)
  | rmwService (line : Nat) | translationWalk (c fn : Nat) (va : BitVec 48) (wr : Bool)
  | pxferRelease (plot : Nat) | plsetComplete | tinvComplete
  | memoryScrub (line : Nat) (r : ScrubResult) | budgetInterval
  -- steps of the package
  | dieLinkFlitReceive (g lane : Nat) (crcOk : Bool) | laneSplice (k : LinkRef) | spliceRetrainEnd (k : LinkRef)
  | dieComputeFailure (d : Nat) (cause : BitVec 4) | shoreLoss (d : Nat)
  | railCurrentSample (r : Nat) (amps : BitVec 10) (cap : BitVec 3) | railRampStep (r : Nat)
  | meltUpdate (reading : BitVec 16) | leaseExpiry (who : TaskRef) | leaseEndNotice (who : TaskRef)
  | growthRingUpdate (r : GrowthReg) (metric rate : Int)
  | bankMeasure (ok : Bool) | inputPowerLoss | checkpointEnd (ok : Bool)
  | powerOnReset | bootStage (ok : Bool) | deviceReset
  -- steps at the edge of the device (spec/17_fabric.md)
  | portFlitReceive (k : Nat) (flit : List Byte) | flitResendTimeout (k : Nat)
  | hostBar2Read (fn : Nat) (o : BitVec 38) (n : Nat) | hostBar2Write (fn : Nat) (o : BitVec 38) (bytes : List Byte)
  | hostApertureCompletion (who : TaskRef) (pa : Nat) (r : HostReply)
  | badRegisterAccess (fn : Nat)
  | qheadWrite (fn q : Nat) (v : BitVec 64) | qcfgEnSet (fn q : Nat) (v : BitVec 64) | qstatThaw (fn q : Nat)
  | errdWrite (fn : Nat) (v : BitVec 64) | erbaseWrite (fn : Nat) (v : BitVec 64) | ercfgWrite (fn : Nat) (v : BitVec 64)
  | npayWrite (fn : Nat) (v : BitVec 64)
  | plsetWrite (v : BitVec 64) | adplotEnable (v : BitVec 64) | adplotDisable (v : BitVec 64)
  | tinvPage (fn : BitVec 4) (vpn : BitVec 32) | tinvFunction (fn : BitVec 4) | tinvAll
  | gcmdWrite (v : BitVec 64) | hlprstWrite (v : BitVec 64)
  | ldctlLoad (fn : Nat) | ldctlUnload (fn : Nat) | codeLoadEnd (fn : Nat)
  | atctlGo (fn : Nat) | attestationEnd (fn : Nat)
  | ckctlSave (v : BitVec 64) | ckctlRestore (v : BitVec 64) | hstatSpenWrite (v : BitVec 64)
  | registerWrite (fn : Nat) (r : WinReg) (v : BitVec 64)
  | emptyBundle (sp : Bool)
  | helperRiscvInstruction (w : BitVec 32)
  | managementNotice (q slot tile : Nat) (payload : BitVec 32)
  | bankRunsOut
  -- the helpers' steps without operands, and the test access port (R380); last, since they carry no fields
  | hskSeal | helperSealRelease | helperWatchdog | helperBoltReplay
  | tapBypass | tapIdcode | tapExtest | tapSamplePreload | braddr | brdata | brstat | thaw
deriving DecidableEq, Repr

end Sys2Proof
end

