-- ==== Sys2Proof/Decode.lean ====
section
/-! DEFINITION. The encoding rules of a slot (spec/03_bundle_encoding.md R74 to R77 with the field tables of chapters 04
to 17) with their named defects; the decoder of tile slots and bundles (R64 to R84), of the Xhsk words of the helper cores
(R263) and of the test access port's codes (R380); after it the encoder, from the same tables. -/

namespace Sys2Proof

/-- The register files a field may name (R74). -/
inductive RegFile where
  | g | p | m | v | a | n
deriving DecidableEq, Repr

/-- How many registers a field of the file may name (R74). -/
def RegFile.size : RegFile → Nat
  | .g => 64 | .p => 16 | .m => 16 | .v => 512 | .a => 4 | .n => 8

/-- The field codes of the malformed-field syndrome (R173). -/
inductive FieldCode where
  | lat | rnd | sat | d | a | b | c | psel | msel | qual | imm | pool
deriving DecidableEq, Repr

def FieldCode.code : FieldCode → Nat
  | .lat => 1 | .rnd => 2 | .sat => 3 | .d => 4 | .a => 5 | .b => 6 | .c => 7
  | .psel => 8 | .msel => 9 | .qual => 10 | .imm => 11 | .pool => 12

/-- A defect of one slot, in the order of the table of R83. -/
inductive SlotDefect where
  | reservedOpcode
  | slotClass
  | reservedType (code : BitVec 5)
  | malformedField (f : FieldCode)
deriving DecidableEq, Repr

/-! ### Type sets (R37, R96, R130) -/

/-- Element width in bits of a type code that vectors and memory use (R37, R130); bs9 lanes are 16 bits. -/
def typeWidth (t : BitVec 5) : Nat :=
  match t.toNat with
  | 1 => 8 | 2 => 16 | 3 => 32 | 4 => 64 | 5 => 8 | 6 => 16 | 7 => 32 | 8 => 64
  | 9 => 32 | 10 => 16 | 11 => 16 | 12 => 8 | 13 => 8 | 14 => 4 | 15 => 16 | 16 => 128 | 17 => 4 | 18 => 4
  | _ => 8

/-- Elements of a type in a 256-byte register (R130). -/
def laneCount (t : BitVec 5) : Nat := 2048 / typeWidth t

def setScalar : List Nat := [1, 2, 3, 4, 5, 6, 7, 8]
def setVI : List Nat := [1, 2, 3, 5, 6, 7]
def setVF : List Nat := [9, 10, 11]
def setVA : List Nat := [1, 2, 3, 5, 6, 7, 9, 10, 11]
def setVM : List Nat := [1, 2, 3, 5, 6, 7, 9, 10, 11, 12, 13]
def setVE : List Nat := [1, 2, 3, 5, 6, 7, 9, 10, 11, 12, 13, 14, 17, 18]
def setCvt : List Nat := [1, 2, 3, 5, 6, 7, 9, 10, 11, 12, 13, 14, 15, 17, 18]
def setRmw : List Nat := [3, 4, 7, 8]
def setPattern : List Nat := [5, 6, 7]
def setReadout : List Nat := [0, 1, 2, 3, 5, 6, 7, 9, 10, 11, 12, 13]

def isVF (t : BitVec 5) : Bool := setVF.contains t.toNat
def isVI (t : BitVec 5) : Bool := setVI.contains t.toNat

/-! ### Fields of a slot -/

/-- Bits `hi..lo` of QUAL. -/
def Slot.q (f : Slot) (hi lo : Nat) : Nat := (f.qual.toNat >>> lo) % 2 ^ (hi - lo + 1)
/-- QUAL[0], named IM in the operations that take a second operand (R97, R132). -/
def Slot.im (f : Slot) : Bool := f.qual.getLsbD 0
/-- ORD of R119. -/
def Slot.ord (f : Slot) : Nat := f.q 3 1
/-- SCOPE of R119. -/
def Slot.scope (f : Slot) : Nat := f.q 6 4
/-- WF of R119. -/
def Slot.wf (f : Slot) : Bool := f.qual.getLsbD 7
/-- CLR of R119. -/
def Slot.clr (f : Slot) : Bool := f.qual.getLsbD 8
/-- AOP of R119. -/
def Slot.aop (f : Slot) : Nat := f.q 12 9
/-- CLS of R243. -/
def Slot.cls (f : Slot) : Nat := f.q 1 0
/-- RES of R211. -/
def Slot.res (f : Slot) : Bool := f.qual.getLsbD 17
/-- CON of R211. -/
def Slot.con (f : Slot) : Bool := f.qual.getLsbD 18
/-- ST of R139. -/
def Slot.st (f : Slot) : BitVec 5 := BitVec.ofNat 5 (f.q 4 0)
/-- PART of R139. -/
def Slot.part (f : Slot) : Nat := f.q 7 5
/-- COND of R100 and R137, ROP of R146. -/
def Slot.cond (f : Slot) : Nat := f.q 3 1

/-- No QUAL bit outside the mask is set. -/
def Slot.qualIn (f : Slot) (mask : Nat) : Bool := f.qual.toNat &&& mask == f.qual.toNat
/-- No IMM bit outside the mask is set. -/
def Slot.immIn (f : Slot) (mask : Nat) : Bool := f.imm.toNat &&& mask == f.imm.toNat

/-- How one operation uses the fields of its slot (R74 to R77). -/
structure OpForm where
  /-- Opcode, OP of R73. -/
  op : Nat
  /-- Permitted type codes. -/
  types : List Nat := [0]
  /-- The operation writes a g, p, m or v register, so LAT may be nonzero (R75). -/
  lat : Bool := false
  rnd : Bool
  sat : Bool
  d : Option RegFile := none
  a : Option RegFile := none
  b : Option RegFile := none
  c : Option RegFile := none
  psel : Bool
  msel : Bool
  qual : Bool
  imm : Bool

/-! ### Shared pieces of the forms -/

/-- ORD and SCOPE are one of the permitted combinations of R119. -/
def ordOk (f : Slot) (ords : List Nat) : Bool :=
  ords.contains f.ord && (if f.ord = 0 then f.scope == 0 else decide (f.scope ≤ 5))

/-- The form of a two-operand class 0b000 operation (R96, R97). -/
def formInt (f : Slot) (op : Nat) (sat : Bool) : OpForm :=
  { op, types := setScalar, lat := true, rnd := f.rnd == 0, sat := sat || f.sat == 0,
    d := some .g, a := some .g, b := if f.im then none else some .g,
    psel := f.psel != 3 && (f.im || f.psel == 0), msel := f.msel == 0, qual := f.qualIn 1,
    imm := (f.im && f.psel == 0) || f.imm == 0 }

/-- The form of an operation with no operand beyond the fields given; RND, SAT, PSEL, MSEL, QUAL and IMM zero. DESIGN
CHOICE (log 42): PSEL is zero also in an operation whose rule does not say so. -/
def formPlain (f : Slot) (op : Nat) (lat : Bool) (d a b c : Option RegFile) : OpForm :=
  { op, lat, rnd := f.rnd == 0, sat := f.sat == 0, d, a, b, c,
    psel := f.psel == 0, msel := f.msel == 0, qual := f.qual == 0, imm := f.imm == 0 }

/-- The form of a memory operation: an offset in IMM or the pool (R120, R157). -/
def formMem (f : Slot) (op : Nat) (types : List Nat) (lat : Bool) (d a b c : Option RegFile)
    (msel : Bool) (qual : Bool) : OpForm :=
  { op, types, lat, rnd := f.rnd == 0, sat := f.sat == 0, d, a, b, c, psel := f.psel != 3,
    msel := msel || f.msel == 0, qual, imm := f.psel == 0 || f.imm == 0 }

/-- The second operand of a vector operation under IM (R132). -/
def vecImm (f : Slot) : Bool :=
  if f.im then (if f.psel = 0 then f.immIn (2 ^ typeWidth f.t - 1) else f.imm == 0) else f.imm == 0

/-- The form of a class 0b011 operation (R132, R134). -/
def formVec (f : Slot) (op : Nat) (types : List Nat) (d c : Option RegFile) (rnd sat qual : Bool) : OpForm :=
  { op, types, lat := true, rnd, sat, d, a := some .v, b := if f.im then none else some .v, c,
    psel := f.psel != 3 && (f.im || f.psel == 0), msel := true, qual, imm := vecImm f }

/-- Field C is the random source exactly under RND 6 and 7 (R133). -/
def randomSource (f : Slot) : Option RegFile := if f.rnd = 6 ∨ f.rnd = 7 then some .v else none

/-- A class 0b100 operation without immediate (R134). DESIGN CHOICE (log 42): PSEL is zero also where no rule says so. -/
def formVec1 (f : Slot) (op : Nat) (types : List Nat) (d a b c : Option RegFile) (rnd sat qual imm : Bool)
    (msel : Bool := true) : OpForm :=
  { op, types, lat := d.isSome, rnd, sat, d, a, b, c, psel := f.psel == 0, msel := msel || f.msel == 0, qual, imm }

/-- Blocks of a VF source of VBSC and VPACK4 fit the 224 slots from b0 on (R141). -/
def blocksOk (f : Slot) : Bool := f.immIn 0xFF && decide (f.imm.toNat % 256 + laneCount f.st / 16 ≤ 224)

/-- ROP with its types (R146): 3 to 5 only for VI, 6 and 7 reserved. -/
def ropOk (f : Slot) : Bool := decide (f.cond ≤ 2) || (decide (f.cond ≤ 5) && isVI f.t)

/-- RND of a reduction: only a float add rounds, and never under code 6 (R133, R146). -/
def redRnd (f : Slot) : Bool := if f.cond = 0 ∧ isVF f.t then f.rnd != 6 else f.rnd == 0

/-- A tile command (R208). -/
def formTile (f : Slot) (op : Nat) (types : List Nat) (lat : Bool) (d a b c : Option RegFile)
    (rnd sat qual imm : Bool) : OpForm :=
  { op, types, lat, rnd, sat, d, a, b, c, psel := f.psel == 0, msel := f.msel == 0, qual, imm }

/-- A class 0b110 operation (R243, R279, R316, R332, R373, R376). -/
def formSys (f : Slot) (op : Nat) (lat : Bool) (d a b c : Option RegFile) (qual imm : Bool) : OpForm :=
  { op, lat, rnd := f.rnd == 0, sat := f.sat == 0, d, a, b, c, psel := f.psel == 0, msel := f.msel == 0, qual, imm }

/-- QUAL bits CLS, RES and CON of a skidder command (R243). -/
def skQual : Nat := 0x60003

/-- The form of an operation, with the slot it stands in; none for a step that is no tile operation. -/
def opForm : Instr → Option (Slot × OpForm)
  | .add f => some (f, formInt f 0x000 true)
  | .sub f => some (f, formInt f 0x001 true)
  | .mul f => some (f, formInt f 0x002 true)
  | .mulh f => some (f, formInt f 0x003 false)
  | .div f => some (f, formInt f 0x004 true)
  | .rem f => some (f, formInt f 0x005 false)
  | .and f => some (f, formInt f 0x008 false)
  | .or f => some (f, formInt f 0x009 false)
  | .xor f => some (f, formInt f 0x00A false)
  | .andn f => some (f, formInt f 0x00B false)
  | .shl f => some (f, formInt f 0x010 true)
  | .shr f => some (f, formInt f 0x011 false)
  | .sra f => some (f, formInt f 0x012 false)
  | .rol f => some (f, formInt f 0x013 false)
  | .min f => some (f, formInt f 0x018 false)
  | .max f => some (f, formInt f 0x019 false)
  | .cmp f => some (f, { formInt f 0x01A false with
      d := some .p, qual := f.qualIn 0xF && decide (f.cond ≤ 5) })
  | .sel f => some (f, { formInt f 0x01B false with types := [0], c := some .p })
  | .li f => some (f, { formPlain f 0x020 true (some .g) none none none with
      psel := true, imm := f.psel == 0 || f.imm == 0 })
  | .liHi f => some (f, { formPlain f 0x020 true (some .g) (some .g) none none with
      qual := f.qual == 2, imm := true })
  | .clz f => some (f, { formPlain f 0x021 true (some .g) (some .g) none none with types := setScalar })
  | .popc f => some (f, { formPlain f 0x022 true (some .g) (some .g) none none with types := setScalar })
  | .bfx f => some (f, { formPlain f 0x023 true (some .g) (some .g) none none with
      types := [4, 8]
      imm := f.immIn 0x3F3F && decide (f.imm.toNat % 64 + f.imm.toNat / 256 % 64 + 1 ≤ 64) })
  | .bfi f => some (f, { formPlain f 0x024 true (some .g) (some .g) (some .g) none with
      imm := f.immIn 0x3F3F && decide (f.imm.toNat % 64 + f.imm.toNat / 256 % 64 + 1 ≤ 64) })
  | .plog f => some (f, { formPlain f 0x028 true (some .p) (some .p) (some .p) none with imm := f.immIn 0xF })
  | .br f => some (f, { formPlain f 0x080 false none (if f.im then none else some .g) none none with
      qual := f.qualIn 1, imm := f.im || f.imm == 0 })
  | .call f => some (f, { formPlain f 0x081 true (some .g) (if f.im then none else some .g) none none with
      qual := f.qualIn 1, imm := f.im || f.imm == 0 })
  | .ret f => some (f, formPlain f 0x082 false none (some .g) none none)
  | .rep f => some (f, { formPlain f 0x088 false none (if f.im then none else some .g) none none with
      qual := f.qualIn 0x1FFFFFF, imm := f.im || f.imm == 0 })
  | .loopb f => some (f, { formPlain f 0x089 false none (some .n) none none with imm := f.immIn 0xF })
  | .endTask f => some (f, formPlain f 0x08A false none none none none)
  | .trap f => some (f, { formPlain f 0x090 false none none none none with imm := f.immIn 0xFFFF })
  | .eret f => some (f, formPlain f 0x091 false none none none none)
  | .srd f => some (f, { formPlain f 0x098 true (some .g) none none none with imm := f.immIn 0xFFF })
  | .swr f => some (f, { formPlain f 0x099 false none (some .g) none none with imm := f.immIn 0xFFF })
  | .fence f => some (f, { formPlain f 0x09A false none none none none with
      qual := f.qualIn 0x7E && ordOk f [1, 2, 3] })
  | .nop f => some (f, formPlain f 0x09B false none none none none)
  | .rand f => some (f, { formPlain f 0x0A0 true (some .g) (if f.im then none else some .g) none none with
      qual := f.qualIn 1, psel := f.psel != 3 && (f.im || f.psel == 0)
      imm := (f.im && f.psel == 0) || f.imm == 0 })
  | .grow f => some (f, { formPlain f 0x0A8 true (some .p) none none none with
      imm := decide (1 ≤ f.imm.toNat ∧ f.imm.toNat ≤ 32) })
  | .shrink f => some (f, { formPlain f 0x0A9 false none none none none with
      imm := decide (1 ≤ f.imm.toNat ∧ f.imm.toNat ≤ 32) })
  | .sealBolt f => some (f, formPlain f 0x0B0 false none none none none)
  | .ld f => some (f, formMem f 0x100 setScalar true (some .g) (some .g) none none false
      (f.qualIn 0x1FE && ordOk f [0, 1, 4] && (!(f.wf || f.clr) || decide (f.ord ≤ 1))))
  | .st f => some (f, formMem f 0x101 setScalar false none (some .g) (some .g) none false
      (f.qualIn 0x7E && ordOk f [0, 2]))
  | .cas f => some (f, formMem f 0x108 setRmw true (some .p) (some .g) (some .g) (some .g) false
      (f.qualIn 0x7E && ordOk f [1, 2, 3, 4]))
  | .amo f => some (f, formMem f 0x109 setRmw true (some .g) (some .g) (some .g)
      (if f.aop = 7 then some .g else none) false
      (f.qualIn 0x1E7E && ordOk f [1, 2, 3, 4] && decide (f.aop ≤ 7)))
  | .vld f => some (f, formMem f 0x110 setVE true (some .v) (some .g) none none true
      (f.qualIn 0x1FE && ordOk f [0, 1]))
  | .vst f => some (f, formMem f 0x111 setVE false none (some .g) (some .v) none true
      (f.qualIn 0x7E && ordOk f [0, 2]))
  | .vldg f => some (f, formMem f 0x112 setVM true (some .v) (some .g) (some .v) none true (f.qualIn 0x180))
  | .vsts f => some (f, formMem f 0x113 setVM false none (some .g) (some .v) (some .v) true (f.qualIn 0))
  | .vldb f => some (f, formMem f 0x114 setVM true (some .v) (some .g) none none true
      (f.qualIn 0x1FE && ordOk f [0, 1]))
  | .vadd f => some (f, formVec f 0x180 setVA (some .v) (randomSource f) (isVF f.t || f.rnd == 0) true (f.qualIn 1))
  | .vsub f => some (f, formVec f 0x181 setVA (some .v) (randomSource f) (isVF f.t || f.rnd == 0) true (f.qualIn 1))
  | .vmul f => some (f, formVec f 0x182 setVA (some .v) (randomSource f) (isVF f.t || f.rnd == 0) true (f.qualIn 1))
  | .vfma f => some (f, formVec f 0x183 setVA (some .v) (some .v)
      (if isVF f.t then f.rnd != 6 else f.rnd == 0) true (f.qualIn 1))
  | .vfms f => some (f, formVec f 0x184 setVA (some .v) (some .v)
      (if isVF f.t then f.rnd != 6 else f.rnd == 0) true (f.qualIn 1))
  | .vmin f => some (f, formVec f 0x188 setVA (some .v) none (f.rnd == 0) (f.sat == 0) (f.qualIn 1))
  | .vmax f => some (f, formVec f 0x189 setVA (some .v) none (f.rnd == 0) (f.sat == 0) (f.qualIn 1))
  | .vabs f => some (f, formVec1 f 0x18A setVA (some .v) (some .v) none none (f.rnd == 0)
      (isVI f.t || f.sat == 0) (f.qual == 0) (f.imm == 0))
  | .vneg f => some (f, formVec1 f 0x18B setVA (some .v) (some .v) none none (f.rnd == 0)
      (isVI f.t || f.sat == 0) (f.qual == 0) (f.imm == 0))
  | .vcmp f => some (f, formVec f 0x190 setVA (some .m) none (f.rnd == 0) (f.sat == 0)
      (f.qualIn 0xF && (decide (f.cond ≤ 5) || (f.cond == 6 && isVF f.t))))
  | .vsel f => some (f, formVec f 0x191 setVE (some .v) (some .m) (f.rnd == 0) (f.sat == 0) (f.qualIn 1))
  | .vand f => some (f, formVec f 0x198 setPattern (some .v) none (f.rnd == 0) (f.sat == 0) (f.qualIn 1))
  | .vor f => some (f, formVec f 0x199 setPattern (some .v) none (f.rnd == 0) (f.sat == 0) (f.qualIn 1))
  | .vxor f => some (f, formVec f 0x19A setPattern (some .v) none (f.rnd == 0) (f.sat == 0) (f.qualIn 1))
  | .vshl f => some (f, formVec f 0x1A0 setVI (some .v) none (f.rnd == 0) true (f.qualIn 1))
  | .vshr f => some (f, formVec f 0x1A1 setVI (some .v) none (f.rnd == 0) (f.sat == 0) (f.qualIn 1))
  | .vsra f => some (f, formVec f 0x1A2 setVI (some .v) none (f.rnd == 0) (f.sat == 0) (f.qualIn 1))
  | .vcvt f => some (f, formVec1 f 0x200 setCvt (some .v) (some .v) none (randomSource f) true true
      (f.qualIn 0xFF && decide (f.part < Nat.max (typeWidth f.st) (typeWidth f.t) / Nat.min (typeWidth f.st) (typeWidth f.t)))
      (f.imm == 0))
  | .vpack4 f => some (f, formVec1 f 0x201 [14] (some .v) (some .v) (some .v) (randomSource f) true (f.sat == 0)
      (f.qualIn 0xFF && decide (f.part < 512 / laneCount f.st)) (blocksOk f))
  | .vbsc f => some (f, formVec1 f 0x202 [15] (some .v) (some .v) none none (f.rnd == 0) true
      (f.qualIn 0x1F) (blocksOk f) false)
  | .vrcp f => some (f, formVec1 f 0x208 setVF (some .v) (some .v) none none (f.rnd == 0) true (f.qualIn 1) (f.imm == 0))
  | .vrsq f => some (f, formVec1 f 0x209 setVF (some .v) (some .v) none none (f.rnd == 0) (f.sat == 0) (f.qualIn 1) (f.imm == 0))
  | .vsqrt f => some (f, formVec1 f 0x20A setVF (some .v) (some .v) none (randomSource f) (!f.im || f.rnd != 6)
      (f.sat == 0) (f.qualIn 1) (f.imm == 0))
  | .vexp2 f => some (f, formVec1 f 0x20B setVF (some .v) (some .v) none (randomSource f) (!f.im || f.rnd != 6)
      true (f.qualIn 1) (f.imm == 0))
  | .vlog2 f => some (f, formVec1 f 0x20C setVF (some .v) (some .v) none (randomSource f) (!f.im || f.rnd != 6)
      (f.sat == 0) (f.qualIn 1) (f.imm == 0))
  | .vred f => some (f, formVec1 f 0x210 setVA (some .v) (some .v) none (some .m) (redRnd f)
      (f.cond == 0 || f.sat == 0) (f.qualIn 0xE && ropOk f) (f.imm == 0))
  | .vscan f => some (f, formVec1 f 0x211 setVA (some .v) (some .v) none (some .m) (redRnd f)
      (f.cond == 0 || f.sat == 0) (f.qualIn 0x1E && ropOk f) (f.imm == 0))
  | .vperm f => some (f, formVec1 f 0x218 setVM (some .v) (some .v) (some .v) none (f.rnd == 0) (f.sat == 0)
      (f.qual == 0) (f.imm == 0))
  | .vbcast f => some (f, formVec1 f 0x219 setVM (some .v) (some .g) none none (f.rnd == 0) (f.sat == 0)
      (f.qual == 0) (f.imm == 0))
  | .vbcastLane f => some (f, formVec1 f 0x219 setVM (some .v) (some .v) none none (f.rnd == 0) (f.sat == 0)
      (f.qual == 1) (decide (f.imm.toNat < laneCount f.t)))
  | .vext f => some (f, formVec1 f 0x21A setVM (some .g) (some .v) none none (f.rnd == 0) (f.sat == 0)
      (f.qual == 0) (decide (f.imm.toNat < laneCount f.t)) false)
  | .viota f => some (f, formVec1 f 0x21B setVI (some .v) none none none (f.rnd == 0) (f.sat == 0) (f.qual == 0) true)
  | .viotaCnt f => some (f, formVec1 f 0x21B setVI (some .v) none none (some .m) (f.rnd == 0) (f.sat == 0) (f.qual == 1) true)
  | .klog f => some (f, formVec1 f 0x21C setVE (some .g) (some .m) none none (f.rnd == 0) (f.sat == 0)
      (f.qual == 0) (f.imm == 0) false)
  | .spush f => some (f, formVec1 f 0x220 setVM none (some .v) none none (f.rnd == 0) (f.sat == 0) (f.qual == 0) (f.immIn 7))
  | .spop f => some (f, formVec1 f 0x221 setVM (some .v) none none none (f.rnd == 0) (f.sat == 0) (f.qual == 0) (f.immIn 7))
  | .scnt f => some (f, formVec1 f 0x222 setVM (some .g) none none none (f.rnd == 0) (f.sat == 0) (f.qual == 0) (f.immIn 7) false)
  | .fpush f => some (f, formTile f 0x280 [0] false none (some .g) (some .g) none (f.rnd == 0) (f.sat == 0) (f.qual == 0) (f.imm == 0))
  | .plane f => some (f, formTile f 0x281 [0] false none (some .g) (some .g) (some .g) (f.rnd == 0) (f.sat == 0)
      (f.qualIn 0x601FF) (f.immIn 0xFFFFFF))
  | .mma f => some (f, formTile f 0x288 [0] false (some .a) (some .g) (some .g)
      (if f.qual.getLsbD 10 then some .n else none) true (f.sat == 0)
      (f.qualIn 0x607FF && f.q 9 8 != 3) (f.q 9 8 != 0 || f.imm == 0))
  | .mmag f => some (f, formTile f 0x289 [0] false (some .a) (some .g) (some .g)
      (if f.qual.getLsbD 10 then some .n else none) true (f.sat == 0)
      (f.qualIn 0x607FF && f.q 9 8 != 3) (f.q 9 8 != 0 || f.imm == 0))
  | .mclr f => some (f, formTile f 0x28A [0] false (some .a) none none none (f.rnd == 0) (f.sat == 0) (f.qualIn 0x60000) (f.imm == 0))
  | .mlda f => some (f, formTile f 0x28B [16, 9, 3] false (some .a) (some .g) none none (f.t != 16 || f.rnd == 0)
      (f.sat == 0) (f.qualIn 0x60000) (f.imm == 0))
  | .mrd f => some (f, formTile f 0x290 setReadout true (some .v) (some .a) none none true true (f.qual == 0)
      (f.immIn 0x3FFF && (f.t == 0 || f.imm.toNat % laneCount f.t == 0)))
  | .mst f => some (f, formTile f 0x291 [16] false none (some .a) (some .g) none (f.rnd == 0) (f.sat == 0)
      (f.qualIn 0x60000) (f.immIn 0x7F7F && decide (f.imm.toNat % 128 + f.imm.toNat / 256 % 128 + 1 ≤ 128)))
  | .mstat f => some (f, formTile f 0x292 [0] true (some .g) none none none (f.rnd == 0) (f.sat == 0) (f.qualIn 3) (f.imm == 0))
  | .phase f => some (f, { formTile f 0x298 [0] false none (if f.psel = 0 then some .g else none) none none
      (f.rnd == 0) (f.sat == 0) (f.qual == 0) (f.imm == 0) with psel := f.psel != 3 })
  | .nset f => some (f, formTile f 0x2A0 [0] false none (some .g) none (some .n) (f.rnd == 0) (f.sat == 0) (f.qual == 0) (f.imm == 0))
  | .nsetRst f => some (f, formTile f 0x2A0 [0] false none none none (some .n) (f.rnd == 0) (f.sat == 0) (f.qual == 1) (f.imm == 0))
  | .nsetStep f => some (f, formTile f 0x2A0 [0] false none none none (some .n) (f.rnd == 0) (f.sat == 0) (f.qual == 2) (f.imm == 0))
  | .nsetOff f => some (f, formTile f 0x2A0 [0] true (some .g) none none (some .n) (f.rnd == 0) (f.sat == 0) (f.qual == 3)
      (decide (f.imm.toNat ≤ 2)))
  | .enqMove f => some (f, formSys f 0x300 false none (some .g) none none (f.qualIn skQual) (f.imm == 1))
  | .enqReduce f => some (f, formSys f 0x300 false none (some .g) none none (f.qual == 0) (f.imm == 3))
  | .enqMailbox f => some (f, formSys f 0x300 false none (some .g) none none (f.qual == 0) (f.imm == 4 || f.imm == 5))
  | .deq f => some (f, formSys f 0x301 true (some .g) none none none (f.qual == 0) (decide (f.imm.toNat ≤ 5)))
  | .skmov f => some (f, formSys f 0x308 false none (some .g) (some .g) (some .g) (f.qualIn skQual) (f.imm == 0))
  | .skmovNest f => some (f, formSys f 0x308 false none (some .g) (some .g) (some .n)
      (f.qualIn (skQual + 4) && f.qual.getLsbD 2) (decide (1 ≤ f.imm.toNat ∧ f.imm.toNat < 2 ^ 24)))
  | .skgat f => some (f, formSys f 0x309 false none (some .g) (some .g) (some .v) (f.qualIn (skQual + 0x1F0)) (f.immIn 0xFFFF))
  | .sksct f => some (f, formSys f 0x30A false none (some .g) (some .g) (some .v) (f.qualIn (skQual + 0x1F0)) (f.immIn 0xFFFF))
  | .skchn f => some (f, formSys f 0x30B false none (some .g) none none (f.qualIn 3) (f.immIn 0xF))
  | .skqset f => some (f, formSys f 0x30C false none (some .g) none none (f.qual == 0) (f.imm == 0))
  | .tmov f => some (f, formSys f 0x30D false none (some .g) (some .g) (some .g) (f.qualIn skQual) (f.imm == 0))
  | .feopSet f => some (f, formSys f 0x310 false none (some .g) (some .g) none (f.qualIn skQual) (f.imm == 0))
  | .feopClr f => some (f, formSys f 0x310 false none (some .g) (some .g) none
      (f.qualIn (skQual + 0x30) && f.q 5 4 == 1) (f.imm == 0))
  | .feopWait f => some (f, formSys f 0x310 false none (some .g) (some .g) none
      (f.qualIn (skQual + 0x30) && f.q 5 4 == 2) (f.imm == 0))
  | .zenter f => some (f, formSys f 0x318 false none none none none (f.qual == 0) (decide (1 ≤ f.imm.toNat ∧ f.imm.toNat ≤ 4)))
  | .zsync f => some (f, formSys f 0x319 false none none none none (f.qual == 0) (f.imm == 0))
  | .zred f => some (f, { formSys f 0x31A true (some .v) (some .v) none none (f.qualIn 0xE && ropOk f) (f.imm == 0) with
      types := setVA, rnd := redRnd f, sat := f.cond == 0 || f.sat == 0 })
  | .zleave f => some (f, formSys f 0x31B false none none none none (f.qual == 0) (f.imm == 0))
  | .boom f => some (f, { formSys f 0x31C true (some .g) none none none (f.qual == 0) (f.immIn 7) with types := setVM })
  | .launch f => some (f, formSys f 0x320 false none (some .g) none none (f.qual == 0) (f.immIn 0x3F))
  | .spec f => some (f, formSys f 0x321 false none (some .g) (some .g) none (f.qual == 0) (f.immIn 0xF3F))
  | .decide f => some (f, formSys f 0x322 false none (some .g) none none (f.qual == 0) (f.immIn 0xF00))
  | .evpost f => some (f, formSys f 0x323 false none (some .g) none none (f.qual == 0) (f.immIn 0xFFFF))
  | .cord f => some (f, formSys f 0x324 false none (some .g) none none (f.qual == 0) (f.immIn 0x81FF))
  | .pxfer f => some (f, formSys f 0x328 false none (some .g) (some .g) none (f.qual == 0) (f.imm == 0))
  | .pquery f => some (f, formSys f 0x329 true (some .g) (some .g) none none (f.qual == 0) (f.imm == 0))
  | .lease f => some (f, formSys f 0x330 true (some .g) (some .g) none none (f.qual == 0)
      (Nat.blt 0 f.imm.toNat && Nat.ble f.imm.toNat 3))
  | .lrel f => some (f, formSys f 0x331 false none none none none (f.qual == 0) (f.imm == 0))
  | .opreq f => some (f, formSys f 0x332 false none (some .g) none none (f.qual == 0) (f.immIn 3))
  | .hskEnq .. | .hskDeq .. | .hskFew .. | .hskFewClr .. | .hskFes .. | .hskMbr .. | .hskMbw ..
  | .hskDcc .. | .hskDccHi .. | .hskSeal | .helperSealRelease | .helperWatchdog | .helperBoltReplay
  | .tapBypass | .tapIdcode | .tapExtest | .tapSamplePreload | .braddr | .brdata | .brstat | .thaw
  | .brumationEntry | .trapEntry .. | .asyncNoticeTaken | .errorDetected .. | .boltReplay | .sealComplete
  | .sealWatchdog | .loadWaitServed | .fullEmptyWatchdog | .streamWaitServed | .streamWatchdog
  | .deqWaitServed | .mailboxWatchdog | .preemptionRequest .. | .preemption | .taskResume .. | .taskStart ..
  | .taskEndComplete | .tickBudgetExpiry | .tileCommandStart .. | .stampedCommandStart ..
  | .tileCommandComplete .. | .operandWatchdog .. | .commandMigration .. | .migratedPartialAdd ..
  | .undeclaredBurst .. | .regulatorPreposition .. | .phaseOnset .. | .phaseRampStep .. | .phaseEnd ..
  | .retentionEntry .. | .retentionExit .. | .skidderChunkMove .. | .skidderCommandComplete ..
  | .sourceWatchdog .. | .chainDescriptorWalk .. | .barrierComplete .. | .standWatchdog
  | .collectiveComplete .. | .padGaugeFire .. | .controllerGaugeFire .. | .shedding .. | .timeShareSwitch ..
  | .decisionTickApply | .eventRingInterrupt .. | .candidateAgingBlock .. | .rmwService ..
  | .translationWalk .. | .pxferRelease .. | .plsetComplete | .tinvComplete | .memoryScrub .. | .budgetInterval
  | .dieLinkFlitReceive .. | .laneSplice .. | .spliceRetrainEnd .. | .dieComputeFailure .. | .shoreLoss ..
  | .railCurrentSample .. | .railRampStep .. | .meltUpdate .. | .leaseExpiry .. | .leaseEndNotice ..
  | .growthRingUpdate .. | .bankMeasure .. | .inputPowerLoss | .checkpointEnd .. | .powerOnReset
  | .bootStage .. | .deviceReset | .portFlitReceive .. | .flitResendTimeout .. | .hostBar2Read ..
  | .hostBar2Write .. | .hostApertureCompletion .. | .badRegisterAccess .. | .qheadWrite .. | .qcfgEnSet ..
  | .qstatThaw .. | .errdWrite .. | .erbaseWrite .. | .ercfgWrite .. | .npayWrite .. | .plsetWrite ..
  | .adplotEnable .. | .adplotDisable .. | .tinvPage .. | .tinvFunction .. | .tinvAll | .gcmdWrite ..
  | .hlprstWrite .. | .ldctlLoad .. | .ldctlUnload .. | .codeLoadEnd .. | .atctlGo .. | .attestationEnd ..
  | .ckctlSave .. | .ckctlRestore .. | .hstatSpenWrite .. | .registerWrite .. | .emptyBundle ..
  | .helperRiscvInstruction .. | .managementNotice .. | .bankRunsOut => none

/-- A register field names a register of its file, or is zero when unused (R74). -/
def fieldOk (x : BitVec 9) : Option RegFile → Bool
  | some file => decide (x.toNat < file.size)
  | none => x == 0

/-- The source type that VCVT, VBSC and VPACK4 carry in QUAL[4:0] is permitted (R83, R139). -/
def sourceTypeOk : Instr → Bool
  | .vcvt f => setCvt.contains f.st.toNat
  | .vbsc f | .vpack4 f => setVF.contains f.st.toNat
  | _ => true

/-- The first defect of an operation, given the pool form of its bundle, in the order of R83 and R173. -/
def slotDefect (i : Instr) (poolForm : BitVec 2) : Option SlotDefect :=
  match opForm i with
  | none => none
  | some (f, o) =>
    if !o.types.contains f.t.toNat then some (.reservedType f.t)
    else if !sourceTypeOk i then some (.reservedType f.st)
    else if !(o.lat || f.lat == 0) then some (.malformedField .lat)
    else if !o.rnd then some (.malformedField .rnd)
    else if !o.sat then some (.malformedField .sat)
    else if !fieldOk f.d o.d then some (.malformedField .d)
    else if !fieldOk f.a o.a then some (.malformedField .a)
    else if !fieldOk f.b o.b then some (.malformedField .b)
    else if !fieldOk f.c o.c then some (.malformedField .c)
    else if !(o.psel && (f.psel == 0 || (f.psel == 3 && poolForm == 2) || (f.psel != 3 && poolForm == 1)))
      then some (.malformedField .psel)
    else if !o.msel then some (.malformedField .msel)
    else if !o.qual then some (.malformedField .qual)
    else if !o.imm then some (.malformedField .imm)
    else none

/-- The pool form an operation's PSEL asks for (R72, R77). -/
def poolFormOf (i : Instr) : BitVec 2 :=
  match opForm i with
  | some (f, _) => if f.psel = 0 then 0 else if f.psel = 3 then 2 else 1
  | none => 0

/-! ### The opcode map (R81) -/

/-- One row of the opcode map: an opcode and the operation its slot decodes to. -/
abbrev OpRow := Nat × (Slot → Instr)

/-- LI, or li.hi under QUAL[1] (R102). -/
def pickLi (f : Slot) : Instr := if f.qual.getLsbD 1 then .liHi f else .li f
/-- VBCAST from g, or of one lane under QUAL[0] (R149). -/
def pickVbcast (f : Slot) : Instr := if f.qual.getLsbD 0 then .vbcastLane f else .vbcast f
/-- VIOTA, or the count form under QUAL[0] (R150). -/
def pickViota (f : Slot) : Instr := if f.qual.getLsbD 0 then .viotaCnt f else .viota f
/-- The four forms of NSET by QUAL[1:0] (R256). -/
def pickNset (f : Slot) : Instr :=
  if f.q 1 0 = 0 then .nset f else if f.q 1 0 = 1 then .nsetRst f else if f.q 1 0 = 2 then .nsetStep f else .nsetOff f
/-- ENQ by the engine number in IMM[2:0] (R235). -/
def pickEnq (f : Slot) : Instr :=
  if f.imm.toNat % 8 = 1 then .enqMove f else if f.imm.toNat % 8 = 3 then .enqReduce f else .enqMailbox f
/-- SKMOV, or its nest form under QUAL[2] (R244). -/
def pickSkmov (f : Slot) : Instr := if f.qual.getLsbD 2 then .skmovNest f else .skmov f
/-- FEOP by FOP, QUAL[5:4] (R247); FOP 3 is refused as a malformed field of the last form. -/
def pickFeop (f : Slot) : Instr :=
  if f.q 5 4 = 0 then .feopSet f else if f.q 5 4 = 1 then .feopClr f else .feopWait f

/-- Class 0b000 (R81). -/
def rowsInteger : List OpRow :=
  [(0x000, .add), (0x001, .sub), (0x002, .mul), (0x003, .mulh), (0x004, .div), (0x005, .rem), (0x008, .and),
   (0x009, .or), (0x00A, .xor), (0x00B, .andn), (0x010, .shl), (0x011, .shr), (0x012, .sra), (0x013, .rol),
   (0x018, .min), (0x019, .max), (0x01A, .cmp), (0x01B, .sel), (0x020, pickLi), (0x021, .clz), (0x022, .popc),
   (0x023, .bfx), (0x024, .bfi), (0x028, .plog)]

/-- Class 0b001 (R81). -/
def rowsControl : List OpRow :=
  [(0x080, .br), (0x081, .call), (0x082, .ret), (0x088, .rep), (0x089, .loopb), (0x08A, .endTask), (0x090, .trap),
   (0x091, .eret), (0x098, .srd), (0x099, .swr), (0x09A, .fence), (0x09B, .nop), (0x0A0, .rand), (0x0A8, .grow),
   (0x0A9, .shrink), (0x0B0, .sealBolt)]

/-- Class 0b010 (R81). -/
def rowsMemory : List OpRow :=
  [(0x100, .ld), (0x101, .st), (0x108, .cas), (0x109, .amo), (0x110, .vld), (0x111, .vst), (0x112, .vldg),
   (0x113, .vsts), (0x114, .vldb)]

/-- Class 0b011 (R81). -/
def rowsVector : List OpRow :=
  [(0x180, .vadd), (0x181, .vsub), (0x182, .vmul), (0x183, .vfma), (0x184, .vfms), (0x188, .vmin), (0x189, .vmax),
   (0x18A, .vabs), (0x18B, .vneg), (0x190, .vcmp), (0x191, .vsel), (0x198, .vand), (0x199, .vor), (0x19A, .vxor),
   (0x1A0, .vshl), (0x1A1, .vshr), (0x1A2, .vsra)]

/-- Class 0b100 (R81). -/
def rowsConvert : List OpRow :=
  [(0x200, .vcvt), (0x201, .vpack4), (0x202, .vbsc), (0x208, .vrcp), (0x209, .vrsq), (0x20A, .vsqrt),
   (0x20B, .vexp2), (0x20C, .vlog2), (0x210, .vred), (0x211, .vscan), (0x218, .vperm), (0x219, pickVbcast),
   (0x21A, .vext), (0x21B, pickViota), (0x21C, .klog), (0x220, .spush), (0x221, .spop), (0x222, .scnt)]

/-- Class 0b101 (R81). -/
def rowsMatrix : List OpRow :=
  [(0x280, .fpush), (0x281, .plane), (0x288, .mma), (0x289, .mmag), (0x28A, .mclr), (0x28B, .mlda), (0x290, .mrd),
   (0x291, .mst), (0x292, .mstat), (0x298, .phase), (0x2A0, pickNset)]

/-- Class 0b110 (R81). -/
def rowsSystem : List OpRow :=
  [(0x300, pickEnq), (0x301, .deq), (0x308, pickSkmov), (0x309, .skgat), (0x30A, .sksct), (0x30B, .skchn),
   (0x30C, .skqset), (0x30D, .tmov), (0x310, pickFeop), (0x318, .zenter), (0x319, .zsync), (0x31A, .zred),
   (0x31B, .zleave), (0x31C, .boom), (0x320, .launch), (0x321, .spec), (0x322, .decide), (0x323, .evpost),
   (0x324, .cord), (0x328, .pxfer), (0x329, .pquery), (0x330, .lease), (0x331, .lrel), (0x332, .opreq)]

/-- The rows of an opcode's class, its top three bits (R80); class 0b111 has none. -/
def opcodeRows (op : Nat) : List OpRow :=
  match op / 128 with
  | 0 => rowsInteger
  | 1 => rowsControl
  | 2 => rowsMemory
  | 3 => rowsVector
  | 4 => rowsConvert
  | 5 => rowsMatrix
  | 6 => rowsSystem
  | _ => []

/-- The operation of an opcode with the fields of its slot; none for an unassigned code (R81). -/
def operationOf (op : Nat) (f : Slot) : Option Instr := ((opcodeRows op).lookup op).map (· f)

/-- The slots a class may stand in (R80): in slot B when `inB`. -/
def classAllowed (op : Nat) (inB : Bool) : Bool :=
  match op / 128 with
  | 0 | 2 => true
  | 1 | 6 => !inB
  | _ => inB

/-! ### Slots (R73, R76) -/

/-- OP of a slot. -/
def slotOp (w : SlotWord) : BitVec 10 := w.extractLsb' 118 10

/-- The other fields of a slot. -/
def slotFields (w : SlotWord) : Slot where
  lat := w.extractLsb' 114 4
  rnd := w.extractLsb' 111 3
  sat := w.extractLsb' 110 1
  pn := w.extractLsb' 109 1
  pnum := w.extractLsb' 105 4
  d := w.extractLsb' 96 9
  a := w.extractLsb' 87 9
  b := w.extractLsb' 78 9
  c := w.extractLsb' 69 9
  t := w.extractLsb' 64 5
  psel := w.extractLsb' 62 2
  msel := w.extractLsb' 58 4
  qual := w.extractLsb' 32 26
  imm := w.extractLsb' 0 32

/-- The operation in a slot of a bundle with the given pool form, or the slot's first defect (R83). -/
def decodeSlot (inB : Bool) (poolForm : BitVec 2) (w : SlotWord) : Except SlotDefect Instr :=
  match operationOf (slotOp w).toNat (slotFields w) with
  | none => .error .reservedOpcode
  | some i =>
    if classAllowed (slotOp w).toNat inB then
      match slotDefect i poolForm with
      | some d => .error d
      | none => .ok i
    else .error .slotClass

/-! ### Bundles (R69 to R72, R79) -/

/-- A decoded bundle. -/
structure Bundle where
  sp   : Bool
  pool : BitVec 2
  imm  : BitVec 112
  a    : Option Instr
  b    : Option Instr
deriving DecidableEq, Repr

/-- A defect of a bundle, with the OP field of the slot it lies in (R173). -/
inductive BundleDefect where
  | malformedHeader
  | slot (inB : Bool) (op : BitVec 10) (d : SlotDefect)
  | pairing
deriving DecidableEq, Repr

/-- Header bits [378:368], POOL 0b11, pool bits without a pool, an invalid slot not all zeros (R83). -/
def headerBad (w : BundleWord) : Bool :=
  w.extractLsb' 368 11 != 0 || w.extractLsb' 379 2 == 3
    || (w.extractLsb' 379 2 == 0 && w.extractLsb' 0 112 != 0)
    || (!w.getLsbD 382 && w.extractLsb' 240 128 != 0) || (!w.getLsbD 381 && w.extractLsb' 112 128 != 0)

/-- The g, p, m or v register an operation writes (R79); none where it writes none. -/
def destOf (i : Instr) : Option (RegFile × BitVec 9) :=
  match i with
  | .loopb f => some (.n, f.a)
  | .nset f | .nsetRst f | .nsetStep f => some (.n, f.c)
  | _ => match opForm i with
    | some (f, o) => match o.d with
      | some .a | some .n | none => none
      | some file => some (file, f.d)
    | none => none

/-- The operations that occupy their bundle alone (R79). -/
def standsAlone : Instr → Bool
  | .cas _ | .amo _ | .rep _ | .sealBolt _ | .zsync _ | .zred _ | .boom _ | .endTask _ | .eret _ => true
  | _ => false

/-- A breach of the pairing rules (R79). DESIGN CHOICE (log 42): a write that R14 discards counts as a write. -/
def pairingBad : Option Instr → Option Instr → Bool
  | some x, some y => standsAlone x || standsAlone y || ((destOf x).isSome && destOf x == destOf y)
  | _, _ => false

/-- One slot of a bundle when its valid bit is set. -/
def decodeHalf (valid inB : Bool) (poolForm : BitVec 2) (w : SlotWord) : Except BundleDefect (Option Instr) :=
  if valid then
    match decodeSlot inB poolForm w with
    | .ok i => .ok (some i)
    | .error d => .error (.slot inB (slotOp w) d)
  else .ok none

/-- A bundle, or its first defect in the order of R84. -/
def decodeBundle (w : BundleWord) : Except BundleDefect Bundle :=
  if headerBad w then .error .malformedHeader
  else
    let pool := w.extractLsb' 379 2
    match decodeHalf (w.getLsbD 382) false pool (w.extractLsb' 240 128) with
    | .error d => .error d
    | .ok a =>
      match decodeHalf (w.getLsbD 381) true pool (w.extractLsb' 112 128) with
      | .error d => .error d
      | .ok b =>
        if pairingBad a b then .error .pairing
        else .ok { sp := w.getLsbD 383, pool, imm := w.extractLsb' 0 112, a, b }

/-! ### Helper words (R263) and test-port codes (R380) -/

/-- An Xhsk word; none for every other word, the unlisted custom-0 encodings among them. -/
def decodeXhsk (w : BitVec 32) : Option Instr :=
  let funct7 := (w.extractLsb' 25 7).toNat
  let rs2 := w.extractLsb' 20 5
  let rs1 := w.extractLsb' 15 5
  let funct3 := (w.extractLsb' 12 3).toNat
  let rd := w.extractLsb' 7 5
  if w.extractLsb' 0 7 ≠ 0x0B then none
  else if funct3 = 0 ∧ funct7 = 0 then some (.hskEnq rd rs1 rs2)
  else if funct3 = 1 ∧ funct7 = 0 ∧ rs2 = 0 then some (.hskDeq rd rs1)
  else if funct3 = 2 ∧ funct7 = 0 ∧ rs2 = 0 then some (.hskFew rd rs1)
  else if funct3 = 2 ∧ funct7 = 1 ∧ rs2 = 0 then some (.hskFewClr rd rs1)
  else if funct3 = 3 ∧ funct7 = 0 ∧ rd = 0 then some (.hskFes rs1 rs2)
  else if funct3 = 4 ∧ funct7 = 0 ∧ rs2 = 0 then some (.hskMbr rd rs1)
  else if funct3 = 5 ∧ funct7 = 0 ∧ rd = 0 then some (.hskMbw rs1 rs2)
  else if funct3 = 6 ∧ funct7 = 0 ∧ rs2 = 0 ∧ rs1 = 0 then some (.hskDcc rd)
  else if funct3 = 6 ∧ funct7 = 1 ∧ rs2 = 0 ∧ rs1 = 0 then some (.hskDccHi rd)
  else if funct3 = 6 ∧ funct7 = 2 ∧ rs2 = 0 ∧ rs1 = 0 ∧ rd = 0 then some .hskSeal
  else none

/-- A helper word: Xhsk, or an ordinary RISC-V instruction, whose 16-bit form leaves the upper half zero. -/
def decodeHelper (w : BitVec 32) : Instr :=
  match decodeXhsk w with
  | some i => i
  | none => .helperRiscvInstruction (if w.extractLsb' 0 2 = 3 then w else (w.extractLsb' 0 16).setWidth 32)

/-- A test-port instruction code; every unlisted code acts as BYPASS (R380). -/
def decodeTap (c : BitVec 8) : Instr :=
  if c = 0x02 then .tapIdcode
  else if c = 0x00 then .tapExtest
  else if c = 0x01 then .tapSamplePreload
  else if c = 0x40 then .braddr
  else if c = 0x41 then .brdata
  else if c = 0x42 then .brstat
  else if c = 0x43 then .thaw
  else .tapBypass

/-- The words the device fetches: a slot, a bundle, a helper word, a test-port code. -/
inductive Code where
  | slot (w : SlotWord)
  | bundle (w : BundleWord)
  | helper (w : BitVec 32)
  | tap (c : BitVec 8)
deriving DecidableEq, Repr

/-- The pool form that a slot's PSEL asks for (R72, R77). -/
def poolFormOfPsel (psel : BitVec 2) : BitVec 2 := if psel = 0 then 0 else if psel = 3 then 2 else 1

/-- The one operation of a bundle, or its being empty. -/
def bundleInstr (b : Bundle) : Option Instr :=
  match b.a, b.b with
  | some i, none | none, some i => some i
  | none, none => some (.emptyBundle b.sp)
  | some _, some _ => none

/-- The instruction a fetched word stands for; a lone slot is read in a slot its class permits. -/
def decodeCode : Code → Option Instr
  | .slot w =>
    match decodeSlot (!classAllowed (slotOp w).toNat false) (poolFormOfPsel (slotFields w).psel) w with
    | .ok i => some i
    | .error _ => none
  | .bundle w =>
    match decodeBundle w with
    | .ok b => bundleInstr b
    | .error _ => none
  | .helper w => some (decodeHelper w)
  | .tap c => some (decodeTap c)

/-- The instruction whose bits are `w`: a test-port code of 8 bits, a helper word of 16 or 32, a slot of 128,
a bundle of 384. -/
def decodeTableWord (nbits w : Nat) : Option Instr :=
  match nbits with
  | 8 => decodeCode (.tap (BitVec.ofNat 8 w))
  | 16 | 32 => decodeCode (.helper (BitVec.ofNat 32 w))
  | 128 => decodeCode (.slot (BitVec.ofNat 128 w))
  | 384 => decodeCode (.bundle (BitVec.ofNat 384 w))
  | _ => none

/-! ### The encoder -/

/-- A slot word of an opcode and its fields (R73, R76). -/
def slotWord (op : BitVec 10) (f : Slot) : SlotWord :=
  op ++ f.lat ++ f.rnd ++ f.sat ++ f.pn ++ f.pnum ++ f.d ++ f.a ++ f.b ++ f.c ++ f.t ++ f.psel ++ f.msel ++ f.qual
    ++ f.imm

/-- An R-type word of the custom-0 opcode (R263). -/
def xhskWord (funct7 : BitVec 7) (rs2 rs1 : BitVec 5) (funct3 : BitVec 3) (rd : BitVec 5) : BitVec 32 :=
  funct7 ++ rs2 ++ rs1 ++ funct3 ++ rd ++ (0x0B : BitVec 7)

/-- A bundle of a header and its two slots (R69, R70); a slot not present is all zeros. -/
def bundleWord (sp : Bool) (pool : BitVec 2) (imm : BitVec 112) (a b : Option SlotWord) : BundleWord :=
  BitVec.ofBool sp ++ BitVec.ofBool a.isSome ++ BitVec.ofBool b.isSome ++ pool ++ (0 : BitVec 11) ++ a.getD 0
    ++ b.getD 0 ++ imm

/-- The words of an instruction that has any; none for an event or a register write. -/
def encode (i : Instr) : Option Code :=
  match opForm i with
  | some (f, o) => some (.slot (slotWord (BitVec.ofNat 10 o.op) f))
  | none =>
    match i with
    | .hskEnq rd rs1 rs2 => some (.helper (xhskWord 0 rs2 rs1 0 rd))
    | .hskDeq rd rs1 => some (.helper (xhskWord 0 0 rs1 1 rd))
    | .hskFew rd rs1 => some (.helper (xhskWord 0 0 rs1 2 rd))
    | .hskFewClr rd rs1 => some (.helper (xhskWord 1 0 rs1 2 rd))
    | .hskFes rs1 rs2 => some (.helper (xhskWord 0 rs2 rs1 3 0))
    | .hskMbr rd rs1 => some (.helper (xhskWord 0 0 rs1 4 rd))
    | .hskMbw rs1 rs2 => some (.helper (xhskWord 0 rs2 rs1 5 0))
    | .hskDcc rd => some (.helper (xhskWord 0 0 0 6 rd))
    | .hskDccHi rd => some (.helper (xhskWord 1 0 0 6 rd))
    | .hskSeal => some (.helper (xhskWord 2 0 0 6 0))
    | .tapBypass => some (.tap 0xFF)
    | .tapIdcode => some (.tap 0x02)
    | .tapExtest => some (.tap 0x00)
    | .tapSamplePreload => some (.tap 0x01)
    | .braddr => some (.tap 0x40)
    | .brdata => some (.tap 0x41)
    | .brstat => some (.tap 0x42)
    | .thaw => some (.tap 0x43)
    | .emptyBundle sp => some (.bundle (bundleWord sp 0 0 none none))
    | .helperRiscvInstruction w => if decodeHelper w = i then some (.helper w) else none
    | _ => none

end Sys2Proof
end

