-- ==== Sys2Proof/Machine/Store.lean ====
section
/-! DEFINITION. Sparse stores: lists of (key, value) pairs with keys strictly rising and no entry equal to what an
unlisted key reads as, so that equal contents are equal lists. Memory is one of them, its cells being Host.Cell. -/

namespace Sys2Proof.Machine

/-- A sparse store of values of type `α`. -/
abbrev Sparse (α : Type) := List (Nat × α)

/-- The value at key `k`; `d` gives what an unlisted key reads as. -/
def sget {α : Type} (d : Nat → α) : Sparse α → Nat → α
  | [], k => d k
  | (j, v) :: l, k => if k = j then v else sget d l k

/-- The store without an entry at key `k`. -/
def sdrop {α : Type} (l : Sparse α) (k : Nat) : Sparse α := l.filter (·.1 ≠ k)

/-- The store with `v` at key `k`; a canonical store stays canonical. -/
def sset {α : Type} [DecidableEq α] (d : Nat → α) : Sparse α → Nat → α → Sparse α
  | [], k, v => if v = d k then [] else [(k, v)]
  | (j, w) :: l, k, v =>
    if k = j then (if v = d k then sdrop l k else (k, v) :: l)
    else if k < j then (if v = d k then (j, w) :: sdrop l k else (k, v) :: (j, w) :: l)
    else (j, w) :: sset d l k v

/-- Keys are strictly rising and above `lo`, and no entry holds what an unlisted key reads as. -/
def swfFrom {α : Type} [DecidableEq α] (d : Nat → α) : Nat → Sparse α → Bool
  | _, [] => true
  | lo, (j, w) :: l => decide (lo ≤ j) && decide (w ≠ d j) && swfFrom d (j + 1) l

/-- The canonical form of a store. -/
def swf {α : Type} [DecidableEq α] (d : Nat → α) (l : Sparse α) : Bool := swfFrom d 0 l

/-! ### Memory -/

/-- The bytes of every memory of the device, under one key space (see `Loc`). -/
abbrev Memory := List Host.Cell

/-- What a byte that nothing has written reads as: zero (R350, R271, R420), but for the entry of plot 0, whose
STATE reads 5 (R327). -/
def unlistedByte (k : Nat) : Byte := if k = 0 then 5 else 0

/-- The byte at a key. -/
def Memory.read (m : Memory) (k : Nat) : Byte := sget unlistedByte m k

/-- Memory with one byte written. -/
def Memory.write (m : Memory) (k : Nat) (b : Byte) : Memory := sset unlistedByte m k b

/-- The canonical form of memory. -/
def Memory.wf (m : Memory) : Bool := swf unlistedByte m

/-- Memory with a list of bytes written in order. -/
def Memory.writeCells (m : Memory) : List Host.Cell → Memory
  | [] => m
  | c :: cs => Memory.writeCells (m.write c.1 c.2) cs

/-- `n` bytes from a key on. -/
def Memory.readBytes (m : Memory) (k : Nat) : Nat → List Byte
  | 0 => []
  | n + 1 => m.read k :: Memory.readBytes m (k + 1) n

/-- The cells of consecutive bytes from a key on. -/
def cellsAt (k : Nat) : List Byte → List Host.Cell
  | [] => []
  | b :: bs => (k, b) :: cellsAt (k + 1) bs

/-! ### Keys: where each memory stands in the one key space -/

/-- Die pad of die `d` (256 MiB each). -/
def keyDiePad (d off : Nat) : Nat := 2 ^ 40 + d * 2 ^ 28 + off
/-- Cluster pad of cluster `c` (32 MiB each). -/
def keyClusterPad (c off : Nat) : Nat := 2 ^ 41 + c * 2 ^ 25 + off
/-- Core pad of logical core `l` (2 MiB each). -/
def keyCorePad (l off : Nat) : Nat := 2 ^ 42 + l * 2 ^ 21 + off
/-- Private store of helper `h` (0 loader, 1 storer) of logical core `l` (32 KiB each). -/
def keyHelper (l h off : Nat) : Nat := 2 ^ 43 + (2 * l + h) * 2 ^ 15 + off
/-- Slot `s` of the safe tier, by physical address. -/
def keySafe (s off : Nat) : Nat := 2 ^ 44 + s * 2 ^ 39 + off

/-! ### Bytes and words, least significant byte first (R4) -/

/-- `n` bytes of a number. -/
def bytesOfNat : Nat → Nat → List Byte
  | 0, _ => []
  | n + 1, x => BitVec.ofNat 8 x :: bytesOfNat n (x / 256)

/-- The number a list of bytes holds. -/
def natOfBytes : List Byte → Nat
  | [] => 0
  | b :: bs => b.toNat + 256 * natOfBytes bs

end Sys2Proof.Machine
end

