-- ==== Sys2Proof/Machine/State.lean ====
section
/-! DEFINITION. The state of the SKX2-256W as plain data, its reset, and the reasons a step can stop.
A field's comment names the rule of spec/ that gives it. Fields marked MODEL are the model's own (log 2). -/

namespace Sys2Proof.Machine

/-! ### Parts of a tile task -/

/-- A pending write of a destination register: the bits of `mask` become those of `val` (R29, R131). -/
inductive RegWrite where
  | g (n : Nat) (val : W64)
  | p (n : Nat) (val : Bool)
  | m (n : Nat) (mask val : Mask)
  | v (n : Nat) (mask val : VReg)
deriving DecidableEq, Repr

/-- An open latency window: the clocks `opened` to `closes` (R29). -/
structure Window where
  opened : Nat
  closes : Nat
  write  : RegWrite
deriving DecidableEq, Repr

/-- Register files (R14, R16). g0, p0 and m0 are never stored; registers not listed hold 0. -/
structure TaskRegs where
  g    : Sparse W64
  p    : BitVec 16
  m    : Sparse Mask
  v    : Sparse VReg
  wins : List Window
deriving DecidableEq, Repr

/-- The repeat state of R110: REP offset, the repeated bundle's offset, count, strides, next index. -/
structure RepState where
  off   : Nat
  body  : Nat
  count : Nat
  sd    : BitVec 6
  sa    : BitVec 6
  sb    : BitVec 6
  sc    : BitVec 6
  next  : Nat
deriving DecidableEq, Repr

/-- The loop state of R110: body start, bundles in the body, nest slot. -/
structure LoopState where
  start : Nat
  len   : Nat
  nest  : Nat
deriving DecidableEq, Repr

/-- A pending asynchronous notice (R170, R177, R379). -/
structure Notice where
  sclass : BitVec 8
  synd   : W64
deriving DecidableEq, Repr

/-- What an instruction waits for. -/
inductive WaitKind where
  | fullEmpty (addrs : List (BitVec 48))   -- LD and vector loads with WF: the granules needed (R123, R161)
  | stream (s : Nat) (pop : Bool) (n : Nat)   -- SPUSH and SPOP of n bytes (R153, R154)
  | deq (e : Nat)                  -- DEQ of engines 0 to 3 (R236)
  | mailbox (e : Nat)              -- DEQ of mailboxes 4 and 5 (R236)
  | seal (next : Nat)              -- SEAL, and implied seals; the bolt after it begins at next (R181)
  | rmw                            -- CAS and AMO at the controller (R346)
  | barrier                        -- ZSYNC (R281)
  | collective                     -- ZRED, BOOM (R283)
  | taskEnd                        -- END in stage 2 (R35)
  | allotment                      -- a restarted task's granules (R17, log 44)
  | readout (tile : Nat)           -- MRD, for the tile port (R198, R221)
  | pad (l : Nat)                  -- an access to a core pad at rest (R233)
  | halted                         -- a stand member that has stopped until its stand restarts (R294)
  | stall                          -- a store on a lend or claim, a full queue, a busy tile (R199, R235, R238, R259, R260)
deriving DecidableEq, Repr

/-- A wait, the tick and the partition's clock at which it began; `ready` once it has been served. -/
structure Wait where
  kind  : WaitKind
  since : Nat
  ready : Bool
  clk   : Nat
deriving DecidableEq, Repr

/-- How the slot last executed ended (MODEL): the bundle routine undoes a bundle by it (R171). -/
inductive Fate where
  | retired
  | trapped (r : TrapRec)
  | waits (k : WaitKind)
deriving DecidableEq, Repr

/-- What kind of operation forms a bolt of its own (R180, R283, R376). -/
inductive OwnKind where
  | rmw | collective | lease
deriving DecidableEq, Repr

/-- Flow of control. -/
structure TaskFlow where
  pc        : Nat                  -- halfword offset; 2^32 is any offset out of range (R106)
  nextPc    : Nat                  -- where issue goes once the bundle has retired
  off       : Nat                  -- offset of the bundle that issues
  sp        : Bool                 -- its SP bit (R70); false for a REP (R195)
  pool      : BitVec 112           -- its immediate pool
  inB       : Bool                 -- the slot that executes
  fate      : Fate
  owns      : Option OwnKind       -- it has executed an operation that is a bolt of its own (R180)
  stage     : Nat                  -- KITER.STAGE (R27)
  iter      : W32                  -- KITER.ITER
  repix     : W32                  -- REPIX (R22)
  rep       : Option RepState
  repSh     : Option RepState
  loop      : Option LoopState
  loopSh    : Option LoopState
  clk       : Nat                  -- clocks of the partition since task start
  opClk     : Nat                  -- clock of the last operation issued (R181)
  freed     : Nat                  -- granules of a SHRINK that the next bundle gives up (R19)
  quietAt   : Nat                  -- tick at which 32 clocks have passed since the last operation (R166, R181)
  holdOff   : Nat                  -- tick before which the partition does not issue (R166)
  wait      : Option Wait
  notices   : List Notice
  preempt   : Bool                 -- pre-emption requested (R195)
  safe      : Bool                 -- the bundle that completed last was a pre-emption point (R195)
  redo      : Bool                 -- the bolt has replayed and no bundle has completed since (R188)
deriving DecidableEq, Repr

/-- RW special registers (R22, R28). -/
structure TaskSys where
  rmode  : BitVec 3
  synd   : W64
  sclass : BitVec 8
  epc    : W32
  tvec   : W32
  rlim   : BitVec 4
deriving DecidableEq, Repr

/-- What launch and load give a task (R24 to R26, R34, R302, R324). -/
structure TaskId where
  live    : Bool                   -- the partition runs this task
  queue   : Nat
  packet  : Nat
  seq     : Nat                    -- the node's sequence number
  lcore   : Nat
  part    : Nat
  tile    : Nat
  func    : Nat                    -- translation context (R335)
  kernel  : W64                    -- handle
  tcoord  : W64
  nbind   : BitVec 8
  abind   : BitVec 4
  vstart  : Nat
  vgran   : Nat
  seed    : W64
  ctrbase : W64
  detlvl  : Nat
  clim    : Nat
  dbase   : Nat
  dsize   : Nat
  stream  : Nat                    -- virtual address of the index stream (R64)
  pe      : Nat
  ke      : Nat
  ee      : Nat
  trip    : Nat
  arg     : W64
  budget  : Nat
  started : Nat                    -- tick of the start; of a pre-empted task, the ticks it was resident (R310)
deriving DecidableEq, Repr

/-- Effects that a bolt holds until it seals (R182). -/
inductive HoldItem where
  | store (cells : List Host.Cell)                        -- bytes with their destination keys
  | moved (cells : List Host.Cell)                        -- bytes that an engine or skidder command writes (R186)
  | push (stream : Nat) (bytes : List Byte)               -- SPUSH (R153)
  | post (code : BitVec 16) (payload : W64)               -- EVPOST (R320)
  | launch (queue : Nat) (packet : List Byte)             -- LAUNCH (R317)
  | spec (k queue : Nat) (p0 p1 : List Byte)              -- SPEC (R318)
  | decide (k : Nat) (second : Bool)                      -- DECIDE (R319)
  | cord (gid : BitVec 16) (image : BitVec 256)           -- CORD (R320)
  | pxfer (plot nstate nowner : Nat)                      -- PXFER (R333)
  | opreq (rail : Nat) (op : BitVec 3)                    -- OPREQ (R373)
  | skqset (quanta : W64)                                 -- SKQSET (R248)
  | skchn (ch : Nat) (head : W64) (cls : Nat)             -- SKCHN (R251)
  | zenter (level : Nat)                                  -- ZENTER (R280)
  | zleave                                                -- ZLEAVE
  | mail (part : Nat) (word : W32)                        -- hsk.mbw (R265)
deriving DecidableEq, Repr

/-- A nest slot (R254): ND, WRAP, the six dimensions' bound and index, three strides a dimension. -/
structure NestSlot where
  nd     : Nat
  wrap   : Bool
  bound  : List Nat
  idx    : List Nat
  stride : List Int
deriving DecidableEq, Repr

/-- The bolt-start snapshots (R181). -/
structure BoltSnap where
  fq    : List (BitVec 128)
  loop  : Option LoopState
  nest  : Option NestSlot          -- IDX and WRAP of the loop's slot
  stage : Nat
  iter  : W32
deriving DecidableEq, Repr

/-- An error charged to a bolt (R188, R190). -/
structure Charge where
  src  : ErrSource
  addr : BitVec 48
  pa   : Nat
deriving DecidableEq, Repr

/-- A completion element (R211, R234) and the bolt whose command delivered it; a mailbox word has bolt 0. -/
structure Elem where
  word : W64
  bolt : Nat
deriving DecidableEq, Repr

/-- What one bolt has gathered: its hold, claims, reserved stream bytes, popped elements (R167). -/
structure BoltWork where
  hold     : List HoldItem
  claims   : List Nat              -- keys of claimed granules (R186)
  reserved : List (Nat × Nat × Byte)   -- reserved stream bytes, with their stream and their place in it (R154)
  popped   : List (Nat × Elem)     -- elements and mailbox words popped, with their FIFO (R237)
  mail     : List (Nat × W32 × Nat)   -- inbound words a helper has taken: partition, word, sender's bolt (R265)
  num      : Nat                   -- number of the bolt, which commands carry (R188)
  reads    : List Nat              -- bolts of others whose immediate writes it has read (R353)
  replayed : Bool                  -- the bolt has replayed (R225)
  pushed   : Bool                  -- it executed SPOP or BOOM (R294)
deriving DecidableEq, Repr

/-- An operation that is a bolt of its own: its offset, and the tick at which its bolt seals, which moves BOLTPC on and
clears RETRY (R180, R181). -/
structure OwnBolt where
  kind  : OwnKind
  off   : Nat
  until_ : Option Nat              -- none while a bulk reduction has not written its results (R283)
  snap  : BoltSnap
  next  : Nat                      -- where the next bolt begins
deriving DecidableEq, Repr

/-- What a trap that is abandoned while it waits gives back (R166): the special registers it wrote, the notices that were
pending, an operation whose own bolt had not sealed, and BOLTPC and RETRY. -/
structure TrapEntry where
  sys     : TaskSys
  notices : List Notice
  own     : Option OwnBolt
  boltpc  : Nat
  retry   : Nat
deriving DecidableEq, Repr

/-- Bolt state (R179 to R194). -/
structure TaskBolt where
  boltpc   : Nat
  retry    : Nat
  holdb    : Nat
  handler  : Bool
  shadow   : Option (Nat × Nat × Nat)    -- BOLTPC, RETRY, HOLDB of the interrupted bolt (R166)
  work     : BoltWork
  outer    : Option BoltWork             -- the interrupted bolt's, while the handler runs (R167)
  snap     : BoltSnap
  outSnap  : Option BoltSnap
  charged  : Option Charge               -- to the current bolt
  outCharged : Option Charge             -- to the interrupted bolt (R168)
  returned : List (Nat × Nat × Byte)     -- stream bytes a replay has returned (R154)
  nextNum  : Nat
  rmwNo    : Nat                         -- R126
  own      : Option OwnBolt               -- an operation whose own bolt has not sealed
  before   : Option TrapEntry            -- of the latest trap
  relNo    : Nat                         -- R194
  restartable : Bool
  replays  : Nat                         -- R191
  degr     : BitVec 16                   -- DEGR bits of R312
deriving DecidableEq, Repr

/-- A deferred fault that waits to surface (R232, R241). -/
structure DeferredFault where
  engine : Nat
  bolt   : Nat
  order  : Nat                     -- position of the issuing bundle in program order
  sclass : BitVec 8
  synd   : W64
deriving DecidableEq, Repr

/-- The task's side of the engines (R199, R202, R213, R218, R234). -/
structure TaskEng where
  fq     : List (BitVec 128)       -- format queue, head first
  fifo0  : List Elem
  fifo1  : List Elem
  fifo2  : List Elem
  fifo3  : List Elem
  faults : List DeferredFault
  marks  : BitVec 4                -- initialisation marks (R218)
  tileL  : List Int                -- L of a0 to a3 (R213)
  stampBase : Nat                  -- R216
  order  : Nat                     -- bundles issued, for program order
deriving DecidableEq, Repr

/-- What a collective gave a member (R283): its number, the vector or count it wrote, or the sync-class cause and OBJ
that the member raises. -/
structure CollResult where
  num   : Nat
  val   : VReg
  count : W64
  err   : Option (Nat × Nat)
deriving DecidableEq, Repr

/-- Stand membership (R276) and collectives (R283). -/
structure TaskStand where
  level  : Nat
  act    : Nat
  ent    : BitVec 4
  bst    : Nat
  collNo : Nat
  result : Option CollResult       -- of its latest collective (R283)
  late   : Option Nat              -- OBJ of a watchdog that expired while the task was in its handler (R281)
deriving DecidableEq, Repr

/-- Lease state (R375 to R378). -/
structure TaskLease where
  lvl    : Nat
  granted : Nat                    -- ticks granted to the active lease; REM is what is left of them
  last   : Nat
  since  : Nat                     -- tick the active lease began
  num    : Nat                     -- lease number (R376)
  grant  : Option (Nat × Nat)      -- grant the package holds, under its number
  pend   : Option (Nat × Nat × Nat × Nat)   -- ended lease whose notice is to be posted: cause, level, MELT, ticks
deriving DecidableEq, Repr

/-- A phase declaration (R228) and UBURST (R230). -/
structure TaskPhase where
  int    : Nat
  len    : Nat
  onset  : Nat
  t0     : Nat
  ramp   : Bool
  act    : Bool
  pend   : Bool
  level  : Nat                     -- rate limit of a ramp, in eighths (R229)
  asked  : Bool                    -- the regulator has been asked to pre-position (R229)
  uburst : W32
deriving DecidableEq, Repr

/-- A tile task (R13). -/
structure Task where
  id    : TaskId
  regs  : TaskRegs
  flow  : TaskFlow
  sys   : TaskSys
  bolt  : TaskBolt
  eng   : TaskEng
  stand : TaskStand
  lease : TaskLease
  phase : TaskPhase
deriving DecidableEq, Repr

/-! ### Helper cores (R261 to R266) -/

/-- What a helper does. -/
inductive HelperMode where
  | stopped | running
deriving DecidableEq, Repr

/-- What a helper waits for (R264). -/
inductive HelperWait where
  | deq | few (off rd : Nat) (clear : Bool) | mbr (p : Nat) | mbw (p : Nat) | seal | enq | store | pad (l : Nat)
deriving DecidableEq, Repr

/-- A helper core: the loader (0) or the storer (1) of a logical core. -/
structure Helper where
  lcore   : Nat
  which   : Nat
  mode    : HelperMode
  x       : Sparse W32             -- x1 to x31; x0 reads 0
  pc      : W32
  mstatus : W32
  mie     : W32
  mtvec   : W32
  mscratch : W32
  mepc    : W32
  mcause  : W32
  mtval   : W32
  mcycle  : W64
  minstret : W64
  inTrap  : Bool                   -- in its trap handler (R266)
  boltTrap : Bool                  -- it was in its trap handler when its bolt began (R265)
  faults  : List (Nat × Nat)       -- bolts and tags of failed moves that asked for no complete element (R266, log 25)
  func    : Nat                    -- translation context of its moves (log 16)
  charged : Option ErrSource       -- an error charged to its bolt (R265)
  work    : BoltWork
  holdb   : Nat
  boltpc  : W32
  retry   : Nat
  quietAt : Nat                    -- tick at which 32 clocks have passed since the last instruction (R265)
  wait    : Option (HelperWait × Nat)
  elems   : List Elem              -- elements for hsk.deq
  tags    : Nat                    -- moves enqueued

  inbox   : List (Nat × W32 × Bool × Nat)  -- inbound words: partition, word, sealed, bolt of the sender
  latch   : W32                    -- DCC[63:32] (R264)
deriving DecidableEq, Repr

/-! ### The core's machinery -/

/-- An accumulator element: Q and its tag (R48). -/
structure AElem where
  q   : Int
  tag : BitVec 2
deriving DecidableEq, Repr

/-- An accumulator tile: elements in row-major order, L, flags of R223. While `undef` is some epoch, an unlisted
element is a free value of that epoch (R21); otherwise it is finite zero. -/
structure Tile where
  elems  : Sparse AElem
  undef  : Option Nat
  l      : Int
  clamp  : Bool
  accsat : Bool
  capd   : Bool
deriving DecidableEq, Repr

/-- A conditional stream: committed bytes, each with its place in stream order, the next place, and the counts of
reserved and pending bytes (R152, R154). -/
structure Stream where
  bytes    : List (Nat × Byte)
  next     : Nat
  reserved : Nat
  pending  : Nat
deriving DecidableEq, Repr

/-- Who issued an engine or skidder command: a partition 0 to 15, loader 16, storer 17; and its bolt. -/
structure Issuer where
  part  : Nat
  bolt  : Nat
  order : Nat
  cpos  : W32
  tag   : Nat
deriving DecidableEq, Repr

/-- A tile command in a matrix command queue (R199, R204, R208). -/
structure MCmd where
  who    : Issuer
  op     : Nat
  desc   : BitVec 128
  tile   : Nat
  a      : Nat                     -- core, cluster or die pad key, or record address
  b      : Nat
  c      : Nat
  k      : Nat
  acc    : Bool
  smode  : Nat
  stamp  : Nat
  side   : Bool
  tr     : Bool
  pitch  : Nat
  row    : Nat
  rows   : Nat
  ty     : Nat
  rnd    : Nat
  res    : Bool
  con    : Bool
  pages  : List Nat                -- lent pages (R259)
  groups : Option (List (Nat × Nat))   -- group table once read: rows, B record address (R214)
  oldest : Option Nat              -- tick it became the oldest unstarted command (R210, R216)
  tau    : Option Nat              -- stamped tick (R216)
  passed : Bool
  away   : Option Nat              -- migrated to this core's array (R225)
deriving DecidableEq, Repr

/-- A tile command that a unit runs. -/
structure Running where
  cmd   : MCmd
  since : Nat                      -- tick from which `left` counts
  left  : Nat                      -- clocks of work from then on
  rate  : Nat                      -- clocks in 352 ticks (R229, R230, R370)
  tail  : Nat                      -- ticks that follow the work
deriving DecidableEq, Repr

/-- What a skidder command transfers (R244 to R250). -/
inductive SkKind where
  | mov | nest (n : NestSlot) (run : Nat) | gather (idx : List Nat) (l : Nat) | scatter (idx : List Nat) (l : Nat)
  | tmov | feop (fop : Nat) | desc (bad : Option Nat) (xf outmax : Nat) (dict dlen : Nat)
deriving DecidableEq, Repr

/-- A skidder command (R238, R243). -/
structure SkCmd where
  who   : Issuer
  op    : Nat
  path  : Nat                      -- engine 1 or 2 (R234)
  cls   : Nat
  kind  : SkKind
  src   : W64
  dst   : W64
  len   : Nat                      -- bytes of the whole transfer
  pos   : Nat                      -- bytes done
  func  : Nat
  det   : Nat
  res   : Bool
  con   : Bool
  sib   : Bool                     -- names a sibling pad window (R241)
  since : Nat                      -- tick its wait for the present granule began (R246)
  done  : Bool                     -- every byte has moved
  conDone : Bool
  entered : Nat                    -- tick at which it entered its class queue
deriving DecidableEq, Repr

/-- A kernel resident in a core's dictionary store (R66, R306). -/
structure Resident where
  kernel : W64
  base   : Nat
  size   : Nat
  last   : Nat                     -- tick a task of it last started
deriving DecidableEq, Repr

/-- Rest of a core pad (R233): the tick at which its entry into retention is over, or at which it has left. -/
inductive PadRest where
  | awake | entering (tick : Nat) | leaving (tick : Nat)
deriving DecidableEq, Repr

/-- A logical core (R1, R198). -/
structure Core where
  lcore     : Nat
  full      : Sparse Bool          -- full bit per granule (R258)
  lends     : Sparse Nat           -- lend count per page (R259)
  claims    : Sparse Nat           -- claimed granules, holding 1 + their claimant (R186)
  streams   : List Stream
  tiles     : List Tile
  nests     : List NestSlot
  freeGran  : Nat
  dict      : Sparse BundleWord
  residents : List Resident
  mq        : List MCmd            -- queued tile commands, oldest first
  run       : List Running
  served    : List Nat             -- last served partition of the array, planing unit, tile port
  quanta    : List Nat
  deficit   : List Nat
  visit     : Nat                  -- class being visited (R239)
  arrived   : Bool                 -- the visit has added its quantum
  sq        : List SkCmd           -- skidder commands, oldest first
  phases    : Nat                  -- declared level (R229)
  thrt      : Bool
  thrLvl    : Nat
  excess    : Nat                  -- consecutive windows in excess (R230)
  window    : Nat                  -- tick at which the present window began (R230)
  winClocks : Nat                  -- plane-pair clocks of commands that left the array in it
  winParts  : List TaskRef         -- their partitions
  idle      : Nat                  -- tick of the last command to leave the matrix engine (R225)
  boxes     : Sparse (List W32)    -- outbound mailboxes of the helpers, by 2 * partition + helper (R265)
  rest      : PadRest              -- retention (R233)
  stagger   : Option Nat           -- onset whose first unstamped array start has not come yet (R229)
  touched   : Nat                  -- tick of the last access to the pad
  left      : Nat                  -- tick at which a time-shared core last stopped (R295)
deriving DecidableEq, Repr

/-- A cluster's registers and spare core (R289 to R293, R355). -/
structure Cluster where
  map    : BitVec 48
  shed   : Nat
  spare  : Nat
  tsh    : BitVec 12
  mbud   : W64
  held   : W32
  gauges : Sparse (BitVec 256)
  resident : List Nat              -- per physical core, the logical core resident there (R295)
  sliceEnd : List Nat              -- per physical core, the tick its slice ends (R295)
  used   : Nat                     -- main-memory bytes admitted in the interval (R356)
deriving DecidableEq, Repr

/-! ### The die -/

/-- A chain channel (R251, R321). -/
structure Chain where
  state : Nat
  cur   : W64
  pend  : Option (W64 × Nat × Nat × Nat)   -- pending head: address, class, core, function
  code  : Nat
  reps  : Nat
  done  : W32
  cls   : Nat
  lcore : Nat
  func  : Nat
  tries : Nat
  cmd   : Option SkCmd             -- the data of the present descriptor, while its chunks move
  out   : Nat                      -- bytes written to its DST
deriving DecidableEq, Repr

/-- Controller state of one die. -/
structure Die where
  gauges : Sparse (BitVec 256)
  chains : List Chain
deriving DecidableEq, Repr

/-- A pending read-modify-write at a controller (R346). -/
structure Rmw where
  line  : Nat
  who   : TaskRef
  num   : Nat
  addr  : Nat
  width : Nat
  signed : Bool
  aop   : Nat                      -- 8 stands for CAS
  b     : W64
  c     : W64
  dest  : Nat
  lat   : Nat
deriving DecidableEq, Repr

/-- A logged reply (R193). -/
structure Reply where
  queue  : Nat
  packet : Nat
  tile   : Nat
  num    : Nat
  old    : W64
  ok     : Bool
deriving DecidableEq, Repr

/-- A packet that waits to be accepted by a queue without a ring of its own. -/
structure Appended where
  seq   : Nat
  bytes : List Byte
  spec  : Option (Nat × Nat × Nat) -- the speculation it is a successor of (R318)
  busy  : Bool                     -- its SPEC found (P, k) open
  squash : Bool                    -- a DECIDE has named the other successor
deriving DecidableEq, Repr

/-- A launch queue (R299). -/
structure Queue where
  qbase  : W64
  qcfg   : W64
  qhead  : W32
  qtail  : W32
  seen   : W32                     -- HEAD as the last decision tick left it (R301)
  on     : Bool                    -- EN as the last decision tick left it
  frozen : Bool
  stop   : Bool
  badhd  : Bool
  trig   : Nat
  drops  : W32
  tried  : Option (List Byte)      -- bytes of the packet at TAIL since its first attempt (R315)
  backlog : List Appended          -- packets appended by LAUNCH and SPEC (R317), or forwarded by device 0 (R406)
deriving DecidableEq, Repr

/-- Where a node stands. -/
inductive NodeState where
  | accepted
  | ready (tick : Nat)
  | completing (status : Nat)      -- its completion waits for its decision tick, or for a speculation
  | waiting (status : Nat)         -- its completion record waits for ring space (R314)
  | completed (status : Nat)
deriving DecidableEq, Repr

/-- The first fault of a node (R312). -/
structure FaultInfo where
  tick  : Nat
  tile  : Nat
  det   : Nat
  cause : Nat
  cls   : Nat
deriving DecidableEq, Repr

/-- An accepted packet (R310, R311). -/
structure Node where
  queue  : Nat
  seq    : Nat
  slot   : Nat
  func   : Nat
  packet : List Byte
  state  : NodeState
  entry  : Bool                    -- it holds a packet entry (R315)
  detlvl : Nat
  preds  : List (Nat × Nat)        -- queue and sequence number of its predecessors (R303)
  trigger : Bool                   -- it has taken its trigger (R306)
  started : Sparse Nat             -- tiles started or cancelled, per logical core
  left   : Sparse Nat              -- core counters (R311)
  clusters : Sparse Nat            -- cluster counters
  dies   : Sparse Nat              -- die counters
  device : Nat                     -- device counter
  fault  : Option FaultInfo
  failed : Bool                    -- unstarted tiles are cancelled (R310)
  frozen : Bool                    -- the queue has been frozen for it
  degr   : BitVec 16
  ubrst  : Nat
  repl   : Nat
  spec   : Option (Nat × Nat × Nat)    -- open speculation it is a successor of: issuing queue, sequence, k (R318)
  buffer : List (Nat × TaskRef × HoldItem)   -- buffered effects, with tile and partition (R318)
deriving DecidableEq, Repr

/-- An open speculation (R318). -/
structure Spec where
  queue  : Nat
  seq    : Nat
  k      : Nat
  target : Nat
  first  : Nat                     -- sequence number s
  die    : Nat
deriving DecidableEq, Repr

/-- A package event that waits for its decision tick (R301). -/
inductive EventKind where
  | completion (queue seq : Nat)
  | faultedEnd (queue seq : Nat)
  | ringRegs (fn : Nat) (reg : Nat) (val : W64)       -- ERRD 0, ERBASE 1, ERCFG 2 (R314)
  | thaw (queue : Nat)
  | trigger (queue : Nat)
  | launch (queue : Nat) (packet : List Byte) (det func : Nat)
  | spec (queue k : Nat) (p0 p1 : List Byte) (issuerQ issuerSeq det func die : Nat)
  | decide (issuerQ issuerSeq k : Nat) (second : Bool)
  | doorbell (queue : Nat) (head : W32)
  | enable (queue : Nat) (cfg : W64)
  | record (fn : Nat) (body : BitVec 192)             -- an event record (R313)
  | cord (gid : BitVec 16) (image : BitVec 256)
  | adopt (die cause fcl : Nat)
  | deviceFault (cause : Nat)
deriving DecidableEq, Repr

structure PkgEvent where
  tick  : Nat
  queue : Nat
  seq   : Nat
  kind  : EventKind
deriving DecidableEq, Repr

/-- A live random-number window (R325). -/
structure LiveWindow where
  queue : Nat
  seq   : Nat
  seed  : W64
  first : Nat
  count : Nat
deriving DecidableEq, Repr

/-- A cached translation (R338). -/
structure Xlate where
  cluster : Nat
  fn      : Nat
  va      : Nat
  size    : Nat
  pa      : Nat
  wr      : Bool
deriving DecidableEq, Repr

/-- Registers of a host function (R314, R394, R395, R416, R419, R335). -/
structure FnRegs where
  erbase : W64
  ercfg  : W64
  erwr   : W32
  errd   : W32
  ring   : W64 × W64 × W32         -- ERBASE, ERCFG and ERRD as the last decision tick left them (R301)
  stuck  : Bool                    -- the ring could not be written: records wait for a write of ERBASE (R329)
  waiting : List (BitVec 256 × Option (Nat × Nat))   -- waiting records, and the node each completes
  since  : Nat                     -- records written since the last interrupt (R314)
  first  : Option Nat              -- tick of the first of them
  ntgt   : W64
  fstat  : BitVec 5
  msix   : List W64                -- MSI-X table: address, then data and vector control, of two vectors (R390, R394)
  msixPend : BitVec 2              -- pending-bit array
  bars   : List W64                -- base addresses in BAR0 and BAR2 of its configuration space (R389)
  msixOn : Bool                    -- MSI-X enable of the function's configuration space (R389, R394)
  msixMask : Bool                  -- its function mask
  ldsrc  : W64
  ldcode : W64
  ldop   : Bool                    -- LDCTL.OP
  ldcap  : List W64                -- OP, LDSRC, LDCODE and LDHND as GO found them (log 22)
  ldst   : W64
  ldhnd  : W64
  nonce  : List W64
  atstate : Nat
  ataddr : W64
  atcap  : List W64                -- nonce and address captured at GO (R419)
  troot  : W64
deriving DecidableEq, Repr

/-- A loaded kernel (R413, R416). -/
structure Kernel where
  handle : W64
  pe     : Nat
  ke     : Nat
  ee     : Nat
  tvec   : Nat                     -- as the descriptor gives it: a bundle number in a Moldiba kernel (R409)
  clim   : Nat
  dict   : List BundleWord
  stream : Nat
  gran   : Nat
  abind  : BitVec 4
  nbind  : BitVec 8
  pads   : List (Nat × List Byte)
  loader : Option (List Byte)
  storer : Option (List Byte)
  starts : Option (List Nat)       -- native offset of each Moldiba bundle (R409)
deriving DecidableEq, Repr

/-- A stand or sub-stand of a running node (R273, R277) and its barrier (R281, R291). -/
structure Stand where
  queue : Nat
  seq   : Nat
  level : Nat
  group : Nat                      -- cluster, die, or 0
  lo    : Nat                      -- its first tile on this device
  n     : Nat                      -- its tiles on this device
  base  : Nat                      -- member index of the first tile (R274)
  size  : Nat                      -- members
  phase : Bool                     -- exchange (cluster sub-stands, R277)
  epoch : Nat
  count : Nat                      -- barriers completed
  arrived : List (Nat × Nat × Nat) -- arrivals: member, tick, number of the barrier (R407)
  ended : List Nat                 -- members that have ended
  restart : List (Nat × Bool)      -- devices whose members have stopped for a restart, all restartable or not (R294)
  gauge : Option Nat               -- GID of the cord gauge linked to it (R291)
  fired : Bool
deriving DecidableEq, Repr

/-- A member's contribution to a collective (R283). -/
structure Contribution where
  queue : Nat
  seq   : Nat
  level : Nat
  group : Nat
  num   : Nat
  member : Nat
  tile  : Nat
  who   : Option TaskRef           -- none for a member on another device, or one that has ended (R407)
  here  : Bool                    -- of a member on this device
  kind  : Nat                      -- 0 ZRED, 1 BOOM, 2 ENQ of engine 3
  args  : List Nat                 -- ROP, T, rounding code, SAT, stream and LEN: what the members have to agree on
  data  : List VReg                -- the 256-byte chunks contributed
  dst   : Nat                      -- key of DST (R285)
  bad   : Bool                     -- its descriptor breaks the rules (R285)
  dest  : Nat
  lat   : Nat
  since : Nat
  order : Nat
  cpos  : W32
  bolt  : Nat
deriving DecidableEq, Repr

/-! ### The package and the edge -/

/-- A rail's status (R371). -/
structure Rail where
  cur  : BitVec 10
  ramp : Bool
  cap  : BitVec 3
  req  : BitVec 3
  opc  : BitVec 3
  next : BitVec 3                  -- the point that the step in progress reaches (R372)
  checked : Nat                    -- the last 1,100-tick boundary at which a step could begin (MODEL)
  sampled : Nat                    -- the 1,100-tick interval of its last conversion (R370)
deriving DecidableEq, Repr

/-- A lane group of the die-to-die link, or a device port's lanes (R364, R403). -/
structure LaneGroup where
  crcf  : BitVec 16
  splc  : BitVec 16
  spare : Nat
  state : Nat
  fails : List (Nat × Nat)         -- lane and tick of recent CRC failures (R363)
  same  : Nat                      -- failures of the present flit in a row
  retrained : Nat                  -- tick at which a retrain window ends
deriving DecidableEq, Repr

/-- A device port's link state (R401, R402). -/
structure PortState where
  lanes : LaneGroup
  rxSeq : Nat                      -- SEQ expected next
  txSeq : Nat                      -- SEQ of the next new flit
  stop0 : Bool                     -- received STOP bits
  stop1 : Bool
  buf0  : List (List Byte)         -- receive buffers of VC 0 and 1
  buf1  : List (List Byte)
  sent  : List (Nat × Nat × Nat × List Byte)   -- flits not yet acknowledged: SEQ, position, TYPE, payload
  wait  : List (Nat × Nat × List Byte)   -- new flits held back: position, TYPE, payload
  since : Nat                      -- tick of the last progress in ACK
deriving DecidableEq, Repr

/-- A wear register's METRIC and LIFE (R381). -/
structure Growth where
  metric : BitVec 24
  life   : BitVec 24
  slot   : Nat                     -- the 2^35-tick interval of its last update (R381)
deriving DecidableEq, Repr

/-- Package state. -/
structure Package where
  melt   : BitVec 16
  refz   : Bool
  spen   : Bool
  rails  : List Rail
  groups : List LaneGroup
  fcl    : Nat
  cause  : Nat
  shore  : BitVec 2
  failed : BitVec 2
  state  : Nat
  shtot  : Nat
  adplot : W64
  growth : List (GrowthReg × Growth)
  melted : Nat                     -- the 2,200,000-tick interval of the last update of MELT (R374)
  cycles : List Nat                -- service ticks at which refreeze intervals completed (R382)
  service : Nat                    -- ticks in service before the last power-on (R382)
  corrected : Sparse Nat           -- corrected reads counted per channel (R350)
  banked : Nat                     -- the 2^35-tick interval of the last measurement of the bank (R386)
  plck   : Bool
  cmp    : Bool
  op     : Bool
  bank   : Bool
  valid  : BitVec 4
  newest : Nat                     -- slot of the newest valid image
  ckstate : Nat
  saved  : List (Nat × Nat)        -- per slot, plots copied into the image
  ckslot : Nat
  restoreMap : List (Nat × Nat)
  powered : Bool
  dying  : Bool                    -- input power is lost (R386)
deriving DecidableEq, Repr

/-- The test access port and the brumation pin (R380). -/
structure Tap where
  ir      : BitVec 8
  pending : Option (BitVec 8)      -- an instruction code shifted in and not yet run (MODEL)
  shiftIn : BitVec 64              -- the value shifted in for the next Update-DR (MODEL)
  dr      : BitVec 65
  addr    : W64
  pin     : Bool                   -- BRUM_N high
  stopped : Bool
  ts      : W64
deriving DecidableEq, Repr

/-- Device registers that belong to no function (R307, R330, R338, R395, R397, R405). -/
structure DevRegs where
  schage : W32
  plreq  : Option W64              -- PLSET in progress
  adreq  : Option W64              -- change of ADPLOT in progress (R367)
  rej    : Bool
  plbad  : Nat
  pllast : BitVec 18
  tinv   : Option W64              -- invalidation in progress
  hapbase : W64
  mdpos  : W64
  mdq    : W64
  proute : Sparse W64
  gstg   : List W64
  mbv    : Nat
  booterr : Nat
  bootstage : Nat
  vfs    : Nat                     -- virtual functions enabled in the configuration space (R389, R419)
  ages   : Sparse Nat              -- per logical core, the candidate that stops others from starting (R307)
  interval : Nat                   -- the present 2,200-tick interval (R356)
  early  : List Config.PortBody    -- arrivals and ends for a stand that this device has not formed yet (R407)
  routeWait : List (Nat × Nat × List Byte)   -- traffic that waits for a route: position, TYPE, payload (R404)
deriving DecidableEq, Repr

/-- What leaves the device. -/
inductive Output where
  | msix (fn vec : Nat)
  | readData (fn : Nat) (bytes : List Byte)
  | unsupported (fn : Nat)
  | barData (fn k : Nat) (v : W32) -- a BAR word read in configuration space (R389)
  | health (r : GrowthReg)         -- the source with the smallest LIFE (R382)
  | aperture (fn : Nat) (write : Bool) (bus n : Nat)   -- a request to host memory (R396)
  | portFlit (k : Nat) (flit : List Byte)
  | tap (dr : BitVec 65)
deriving DecidableEq, Repr

/-- What the outside world does (MODEL): a step that it causes or whose time it decides, the level it puts on the
brumation pin with the value it shifts into the test port's data register, an instruction code it shifts in, an access to
a function's BAR0, or an access to the configuration space: the number of virtual functions, a function's MSI-X enable
and mask, or a word of its BARs (log 23). -/
inductive Input where
  | event (i : Instr)
  | pins (brumN : Bool) (shift : BitVec 64)
  | shiftIR (code : BitVec 8)
  | read (fn off n : Nat)          -- of n bytes at an offset of BAR0 (R391)
  | write (fn off n : Nat) (v : BitVec 64)
  | config (vfs : Nat)
  | msixControl (fn : Nat) (on mask : Bool)
  | barRead (fn k : Nat)
  | barWrite (fn k : Nat) (v : BitVec 32)
  | streamError (l : Nat)          -- an uncorrectable error in the stream storage of a logical core (R293)
deriving DecidableEq, Repr

/-- Whose turn it is to issue (MODEL). -/
inductive Turn where
  | task | helper
deriving DecidableEq, Repr

/-- A pre-empted task: the die-pad offset of its block, and what the block holds (R196). -/
structure SavedTask where
  off   : Nat
  task  : Task
  tiles : List (Nat × Tile)
  nests : List (Nat × NestSlot)
deriving DecidableEq, Repr

/-! ### The device -/

structure State where
  task     : Task                  -- the selected tile task
  parked   : List Task             -- every other tile task on a partition
  hlp      : Helper                -- the selected helper core
  parkedH  : List Helper           -- helpers that have been released
  saved    : List SavedTask        -- pre-empted tasks (R196)
  cores    : Sparse Core           -- logical cores; an unlisted one is as after reset
  clusters : Sparse Cluster
  dies     : Sparse Die
  mem      : Memory
  writers  : Sparse Nat            -- per core-pad byte, the unsealed bolt that wrote it at once (R353)
  dcc      : Nat                   -- ticks (R8)
  queues   : Sparse Queue
  nodes    : List Node
  events   : List PkgEvent
  fns      : Sparse FnRegs
  kernels  : List Kernel
  objects  : List (W64 × Nat)      -- loaded objects: handle of kernel 0, kernels
  keys     : List (Nat × BitVec 256 × Bool)   -- filled slots among 1 to 7 of the key table, with NAT (R418)
  stands   : List Stand
  colls    : List Contribution
  specs    : List Spec
  rmwQ     : List Rmw
  replyLog : List Reply
  released : List (Nat × Nat × Nat × Nat)   -- release counts kept beside the reply log: queue, packet, tile, count (R194)
  live     : List LiveWindow
  tlb      : List Xlate
  pkg      : Package
  dev      : DevRegs
  ports    : List PortState
  tap      : Tap
  inputs   : List Input            -- MODEL: what the outside world does next
  outputs  : List Output           -- MODEL: what has left the device
  turn     : Turn                  -- MODEL
  epoch    : Nat                   -- MODEL: counts free values
  poison   : List Nat              -- 64-byte lines of main memory with an uncorrectable error that an agent without a bolt has met (R331, R337)
  oldCode  : Sparse (List Nat)     -- MODEL: earlier values of a resident kernel's halfwords, by address (R68)
deriving DecidableEq, Repr

/-! ### Reset -/

def TaskRegs.reset : TaskRegs := ⟨[], 0, [], [], []⟩

def TaskFlow.reset : TaskFlow where
  pc := 0; nextPc := 0; off := 0; sp := false; pool := 0; inB := false; fate := .retired; owns := none
  stage := 0; iter := 0; repix := 0; rep := none; repSh := none; loop := none; loopSh := none
  clk := 0; opClk := 0; freed := 0; quietAt := 0; holdOff := 0; wait := none; notices := []; preempt := false; safe := false
  redo := false

def TaskSys.reset : TaskSys := ⟨0, 0, 0, 0, 0, 3⟩

def TaskId.reset : TaskId where
  live := false; queue := 0; packet := 0; seq := 0; lcore := 0; part := 0; tile := 0; func := 0; kernel := 0
  tcoord := 0; nbind := 0; abind := 0; vstart := 0; vgran := 0; seed := 0; ctrbase := 0; detlvl := 0
  clim := 0; dbase := 0; dsize := 0; stream := 0; pe := 0; ke := 0; ee := 0; trip := 0; arg := 0; budget := 0
  started := 0

def BoltSnap.reset : BoltSnap := ⟨[], none, none, 0, 0⟩

def BoltWork.reset : BoltWork := ⟨[], [], [], [], [], 0, [], false, false⟩

def TaskBolt.reset : TaskBolt where
  boltpc := 0; retry := 0; holdb := 0; handler := false; shadow := none; work := .reset; outer := none
  snap := .reset; outSnap := none; charged := none; outCharged := none; returned := []; nextNum := 1
  rmwNo := 0; own := none; before := none; relNo := 0; restartable := true; replays := 0; degr := 0

def TaskEng.reset : TaskEng where
  fq := []; fifo0 := []; fifo1 := []; fifo2 := []; fifo3 := []; faults := []
  marks := 0; tileL := [0, 0, 0, 0]; stampBase := 0; order := 0

def TaskStand.reset : TaskStand := ⟨0, 0, 0, 0, 0, none, none⟩
def TaskLease.reset : TaskLease := ⟨0, 0, 0, 0, 0, none, none⟩
def TaskPhase.reset : TaskPhase := ⟨0, 0, 0, 0, false, false, false, 8, false, 0⟩

/-- A partition that runs no task. -/
def Task.reset : Task :=
  ⟨.reset, .reset, .reset, .reset, .reset, .reset, .reset, .reset, .reset⟩

/-- A helper that has not been released; its registers are zero (PRESUMED, log 6). -/
def Helper.reset (lcore which : Nat) : Helper where
  lcore := lcore; which := which; mode := .stopped; x := []; pc := 0
  mstatus := 0x1800; mie := 0; mtvec := 0; mscratch := 0; mepc := 0; mcause := 0; mtval := 0
  mcycle := 0; minstret := 0; inTrap := false; boltTrap := false; faults := []; func := 0; charged := none; work := .reset; holdb := 0; boltpc := 0; retry := 0
  quietAt := 0; wait := none; elems := []; tags := 0; inbox := []; latch := 0

def Tile.reset : Tile := ⟨[], none, 0, false, false, false⟩

def NestSlot.reset : NestSlot :=
  ⟨0, false, List.replicate 6 0, List.replicate 6 0, List.replicate 18 0⟩

def Stream.reset : Stream := ⟨[], 0, 0, 0⟩

/-- A logical core after reset (R17, R248, R258). -/
def Core.reset (l : Nat) : Core where
  lcore := l; full := []; lends := []; claims := []; streams := List.replicate 8 .reset
  tiles := List.replicate 4 .reset; nests := List.replicate 8 .reset; freeGran := 160
  dict := []; residents := []; mq := []; run := []; served := [15, 15, 15]
  quanta := [16384, 8192, 4096, 2048]; deficit := [0, 0, 0, 0]; visit := 0; arrived := false; sq := []
  phases := 0; thrt := false; thrLvl := 0; excess := 0; window := 0; winClocks := 0; winParts := []; idle := 0; boxes := []; rest := .awake; stagger := none; touched := 0; left := 0

/-- A cluster after reset: the identity map, physical core 12 spare (PRESUMED, log 5). -/
def Cluster.reset (c : Nat) : Cluster where
  map := 0xBA9876543210; shed := 0; spare := 12; tsh := 0; mbud := 0; held := 0; gauges := []
  resident := (List.range 13).map (12 * c + ·); sliceEnd := List.replicate 13 0; used := 0

def Chain.reset : Chain := ⟨0, 0, none, 0, 0, 0, 0, 0, 0, 0, none, 0⟩
def Die.reset : Die := ⟨[], List.replicate 16 .reset⟩

def Queue.reset : Queue := ⟨0, 0, 0, 0, 0, false, false, false, false, 0, 0, none, []⟩

def FnRegs.reset : FnRegs where
  erbase := 0; ercfg := 0; erwr := 0; errd := 0; ring := (0, 0, 0); stuck := false; waiting := []; since := 0; first := none
  ntgt := 0; fstat := 0; msix := [0, 0x100000000, 0, 0x100000000]; msixPend := 0; bars := [0, 0]; msixOn := false; msixMask := false; ldsrc := 0; ldcode := 0; ldop := false; ldcap := []; ldst := 0; ldhnd := 0
  nonce := [0, 0, 0, 0]; atstate := 0; ataddr := 0; atcap := []; troot := 0

def Rail.reset : Rail := ⟨0, false, 7, 7, 0, 0, 0, 0⟩
def LaneGroup.reset (spare : Nat) : LaneGroup := ⟨0, 0, spare, 0, [], 0, 0⟩
def PortState.reset : PortState := ⟨.reset 1, 0, 0, false, false, [], [], [], [], 0⟩

def Package.reset : Package where
  melt := 0; refz := false; spen := true; rails := List.replicate 4 .reset
  groups := List.replicate 16 (.reset 2); fcl := 0; cause := 0; shore := 0; failed := 0; state := 0; shtot := 0
  adplot := 0; growth := []; melted := 0; cycles := []; service := 0; corrected := []; banked := 0; plck := true; cmp := false; op := false; bank := false; valid := 0; newest := 0
  ckstate := 0; saved := []; ckslot := 0; restoreMap := []; powered := true; dying := false

/-- IDCODE is the instruction that the standard selects at reset (PRESUMED, log 6). -/
def Tap.reset : Tap := ⟨0x02, none, 0, 0, 0, true, false, 0⟩

def DevRegs.reset : DevRegs where
  schage := 0x00100000; plreq := none; adreq := none; rej := false; plbad := 0; pllast := 0; tinv := none; hapbase := 0
  mdpos := 0; mdq := 0; proute := []; gstg := [0, 0, 0, 0]; mbv := 0; booterr := 0; bootstage := 0; vfs := 0
  ages := []; interval := 0; early := []; routeWait := []

/-- The device right after power-on reset: no task runs, no helper is released, memory lists nothing. -/
def State.reset : State where
  task := .reset; parked := []; hlp := .reset 0 0; parkedH := []; saved := []; cores := []; clusters := []; dies := []
  mem := []; writers := []; dcc := 0; queues := []; nodes := []; events := []; fns := []; kernels := []; objects := []; keys := []
  stands := []; colls := []; specs := []; rmwQ := []; replyLog := []; released := []; live := []; tlb := []
  pkg := .reset; dev := .reset; ports := List.replicate 8 .reset; tap := .reset; inputs := []; outputs := []
  turn := .task; epoch := 0; poison := []; oldCode := []

/-! ### Stops -/

/-- The machine stops. -/
inductive Fault where
  /-- Raised by `step` alone, once the package has powered down after a loss of input power (R386): no rail runs.
  Safe: POWER_ON_RESET on the tape is the only step that goes on. -/
  | poweredDown
deriving DecidableEq, Repr

/-- No meaning. -/
inductive Refusal where
  /-- Raised by `exec` for an instruction without a meaning. Safe: the model stops where the device goes on. -/
  | notModelled (mnemonic : String)
deriving DecidableEq, Repr

end Sys2Proof.Machine
end

