-- ==== Sys2Proof/Machine/Flags.lean ====
section
/-! DEFINITION. Number formats, rounding, overflow and comparison (spec/02_number_formats.md R37 to R56): every
result is an exact value, rounded once and limited once. -/

namespace Sys2Proof.Machine

/-! ### Exact values -/

/-- A value of a floating or integer format: NaN, an infinity, or (−1)^neg × m × 2^e. A zero keeps its sign (R40). -/
inductive FVal where
  | nan
  | inf (neg : Bool)
  | fin (neg : Bool) (m : Nat) (e : Int)
deriving DecidableEq, Repr

/-- An integer as an exact value. -/
def FVal.ofInt (n : Int) : FVal := .fin (decide (n < 0)) n.natAbs 0

/-- A finite value in units of 2^e0, for e0 at most its exponent. -/
def scaleTo (neg : Bool) (m : Nat) (e e0 : Int) : Int :=
  let n : Int := m * 2 ^ (e - e0).toNat
  if neg then -n else n

def FVal.neg : FVal → FVal
  | .nan => .nan
  | .inf s => .inf (!s)
  | .fin s m e => .fin (!s) m e

def FVal.isNeg : FVal → Bool
  | .nan => false
  | .inf s => s
  | .fin s _ _ => s

def FVal.isZero : FVal → Bool
  | .fin _ 0 _ => true
  | _ => false

def FVal.isNan : FVal → Bool
  | .nan => true
  | _ => false

/-- Sum by IEEE 754; an exact zero of unlike signs is −0 only under code 3 (R136). -/
def FVal.add (rnd : Nat) : FVal → FVal → FVal
  | .nan, _ | _, .nan => .nan
  | .inf s, .inf s' => if s = s' then .inf s else .nan
  | .inf s, _ => .inf s
  | _, .inf s => .inf s
  | .fin s m e, .fin s' m' e' =>
    let e0 := min e e'
    let n := scaleTo s m e e0 + scaleTo s' m' e' e0
    if n = 0 then .fin (if s = s' then s else decide (rnd = 3)) 0 0
    else .fin (decide (n < 0)) n.natAbs e0

/-- Product by IEEE 754. -/
def FVal.mul : FVal → FVal → FVal
  | .nan, _ | _, .nan => .nan
  | .inf s, .inf s' => .inf (s != s')
  | .inf s, .fin s' m _ | .fin s' m _, .inf s => if m = 0 then .nan else .inf (s != s')
  | .fin s m e, .fin s' m' e' => .fin (s != s') (m * m') (e + e')

/-- The order of two values that are not NaN: −1, 0 or 1, with −0 equal to +0. -/
def FVal.cmp : FVal → FVal → Int
  | .inf s, .inf s' => if s = s' then 0 else if s then -1 else 1
  | .inf s, _ => if s then -1 else 1
  | _, .inf s => if s then 1 else -1
  | .fin s m e, .fin s' m' e' =>
    let e0 := min e e'
    let d := scaleTo s m e e0 - scaleTo s' m' e' e0
    if d < 0 then -1 else if d = 0 then 0 else 1
  | _, _ => 0

/-! ### Floating formats (R39 to R44) -/

/-- Exponent and fraction widths and bias. -/
structure FloatFmt where
  ebits : Nat
  fbits : Nat
  bias  : Nat
deriving DecidableEq, Repr

/-- The floating formats by type code (R37). -/
def floatFmt : Nat → Option FloatFmt
  | 9 => some ⟨8, 23, 127⟩
  | 10 => some ⟨5, 10, 15⟩
  | 11 => some ⟨8, 7, 127⟩
  | 12 => some ⟨4, 3, 7⟩
  | 13 => some ⟨5, 2, 15⟩
  | 14 => some ⟨2, 1, 1⟩
  | 15 => some ⟨5, 4, 15⟩
  | _ => none

/-- Width of an integer type and whether it is signed (R38). -/
def intFmt : Nat → Option (Nat × Bool)
  | 1 => some (8, true)
  | 2 => some (16, true)
  | 3 => some (32, true)
  | 4 => some (64, true)
  | 5 => some (8, false)
  | 6 => some (16, false)
  | 7 => some (32, false)
  | 8 => some (64, false)
  | 17 => some (4, true)
  | 18 => some (4, false)
  | _ => none

/-- A pattern read as a two's-complement or unsigned integer of `w` bits. -/
def intOf (w : Nat) (signed : Bool) (bits : Nat) : Int :=
  let u := bits % 2 ^ w
  if signed && decide (2 ^ (w - 1) ≤ u) then (u : Int) - 2 ^ w else u

/-- The patterns that are not numbers: NaN or infinity by type (R39, R41, R42, R44). -/
def specialOf (t : Nat) (fmt : FloatFmt) (e m : Nat) (neg : Bool) : Option FVal :=
  match t with
  | 14 => none
  | 12 => if e = 15 ∧ m = 7 then some .nan else none
  | 15 => if e = 31 ∧ m = 15 then some .nan else none
  | _ => if e = 2 ^ fmt.ebits - 1 then some (if m = 0 then .inf neg else .nan) else none

/-- The value of a pattern of a type (R38 to R44). -/
def valueOf (t : Nat) (bits : Nat) : FVal :=
  match floatFmt t with
  | some fmt =>
    let m := bits % 2 ^ fmt.fbits
    let e := bits / 2 ^ fmt.fbits % 2 ^ fmt.ebits
    let neg := t != 15 && decide (bits / 2 ^ (fmt.fbits + fmt.ebits) % 2 = 1)
    match specialOf t fmt e m neg with
    | some x => x
    | none =>
      if e = 0 then .fin neg m (1 - (fmt.bias : Int) - fmt.fbits)
      else .fin neg (2 ^ fmt.fbits + m) ((e : Int) - fmt.bias - fmt.fbits)
  | none =>
    match intFmt t with
    | some (w, signed) => .ofInt (intOf w signed bits)
    | none => .fin false 0 0

/-- The canonical NaN of a type, or what replaces it (R54, R55). -/
def nanOf : Nat → Nat
  | 9 => 0x7FC00000
  | 10 => 0x7E00
  | 11 => 0x7FC0
  | 12 => 0x7F
  | 13 => 0x7E
  | 15 => 0x1FF
  | _ => 0

/-- The largest finite magnitude of a floating type, as a pattern. -/
def maxOf : Nat → Nat
  | 9 => 0x7F7FFFFF
  | 10 => 0x7BFF
  | 11 => 0x7F7F
  | 12 => 0x7E
  | 13 => 0x7B
  | 14 => 7
  | 15 => 0x1FE
  | _ => 0

/-- The pattern of the positive infinity. -/
def infOf : Nat → Nat
  | 9 => 0x7F800000
  | 10 => 0x7C00
  | 11 => 0x7F80
  | 13 => 0x7C
  | _ => 0

/-- The sign bit of a floating type. -/
def signOf (t : Nat) (neg : Bool) : Nat :=
  match floatFmt t with
  | some fmt => if neg && t != 15 then 2 ^ (fmt.ebits + fmt.fbits) else 0
  | none => 0

/-! ### Rounding (R50 to R52) -/

/-- Random bits for code 6: the width and the value of the element of C (R51). -/
abbrev RandomBits := Option (Nat × Nat)

/-- The fraction r/b has `d` bit positions down to its lowest nonzero bit, or more than `w` (R51). -/
def fractionBits (r b w : Nat) : Nat :=
  ((List.range w).find? fun d => r * 2 ^ (d + 1) % b = 0).elim w (· + 1)

/-- A positive magnitude a/b rounded to an integer under a rounding code, for a value of the given sign;
with whether the larger neighbour was chosen or no rounding took place. -/
def roundMag (rnd : Nat) (neg : Bool) (a b : Nat) (rand : RandomBits) : Nat × Bool :=
  let q := a / b
  let r := a % b
  if r = 0 then (q, true)
  else
    let up := match rnd with
      | 1 => false
      | 2 => !neg
      | 3 => neg
      | 4 => decide (b ≤ 2 * r)
      | 5 => decide (q % 2 = 0)
      | 6 => match rand with
        | some (w, c) =>
          let k := fractionBits r b w
          decide (2 ^ k ≤ r * 2 ^ k / b + c % 2 ^ k)
        | none => decide (b < 2 * r) || (decide (b = 2 * r) && decide (q % 2 = 1))
      | _ => decide (b < 2 * r) || (decide (b = 2 * r) && decide (q % 2 = 1))
    (if up then q + 1 else q, up)

/-- floor(log2 (a/b)) for positive a and b. -/
def log2Ratio (a b : Nat) : Int :=
  let k : Int := (Nat.log2 a : Int) - Nat.log2 b
  if k < 0 then (if b ≤ a * 2 ^ (-k).toNat then k else k - 1)
  else (if b * 2 ^ k.toNat ≤ a then k else k - 1)

/-- The ratio a·2^e / b as a pair of naturals. -/
def ratioShift (a b : Nat) (e : Int) : Nat × Nat :=
  if e < 0 then (a, b * 2 ^ (-e).toNat) else (a * 2 ^ e.toNat, b)

/-- The pattern of n·2^lsb in a floating format, n·2^lsb being representable (R39 to R44). -/
def packFloat (fmt : FloatFmt) (n : Nat) (lsb : Int) : Nat :=
  let emin : Int := 1 - (fmt.bias : Int)
  if n < 2 ^ fmt.fbits then n
  else if n = 2 ^ (fmt.fbits + 1) then ((lsb + fmt.fbits + 1 - emin).toNat + 1) * 2 ^ fmt.fbits
  else ((lsb + fmt.fbits - emin).toNat + 1) * 2 ^ fmt.fbits + (n - 2 ^ fmt.fbits)

/-- What an overflowing finite result becomes in a floating type (R53). -/
def overflowFloat (t rnd : Nat) (sat neg up : Bool) : Nat :=
  let mx := maxOf t + signOf t neg
  let inf := infOf t + signOf t neg
  if t = 14 then mx
  else if t = 15 then (if sat then 0x1FE else 0x1FF)
  else if sat then mx
  else if t = 12 then 0x7F
  else match rnd with
    | 1 | 5 => mx
    | 2 => if neg then mx else inf
    | 3 => if neg then inf else mx
    | 6 => if up then inf else mx
    | _ => inf

/-- The exact value (−1)^neg × a/b × 2^e rounded into a floating type and limited (R50 to R53); `none` of the
special inputs. A result of zero keeps the sign. -/
def roundFloat (t : Nat) (fmt : FloatFmt) (rnd : Nat) (sat neg : Bool) (a b : Nat) (e : Int) (rand : RandomBits) : Nat :=
  if a = 0 then signOf t neg
  else
    let emin : Int := 1 - (fmt.bias : Int)
    let lsb := max (log2Ratio a b + e) emin - fmt.fbits
    let (x, y) := ratioShift a b (e - lsb)
    let (n, up) := roundMag rnd neg x y rand
    let p := packFloat fmt n lsb
    if t = 15 ∧ neg then (if n = 0 then 0 else 0x1FF)
    else if maxOf t < p then overflowFloat t rnd sat neg up
    else p + signOf t neg

/-- Limits of an integer type. -/
def intMin (w : Nat) (signed : Bool) : Int := if signed then -(2 ^ (w - 1)) else 0
def intMax (w : Nat) (signed : Bool) : Int := if signed then 2 ^ (w - 1) - 1 else 2 ^ w - 1

/-- An integer limited to a type: clamped, or wrapped to its low bits (R53). -/
def limitInt (w : Nat) (signed sat : Bool) (n : Int) : Int :=
  if n < intMin w signed then (if sat then intMin w signed else intOf w signed (n % 2 ^ w).toNat)
  else if intMax w signed < n then (if sat then intMax w signed else intOf w signed (n % 2 ^ w).toNat)
  else n

/-- The low `w` bits of the two's-complement form of an integer. -/
def patternOf (w : Nat) (n : Int) : Nat := (n % 2 ^ w).toNat

/-- Converts a value, divided by `den`, into a pattern of a type (R50 to R55, R140). -/
def convertTo (t rnd : Nat) (sat : Bool) (rand : RandomBits) (x : FVal) (den : Nat := 1) : Nat :=
  match floatFmt t with
  | some fmt =>
    match x with
    | .nan => nanOf t
    | .inf neg =>
      match t with
      | 12 => if sat then maxOf t + signOf t neg else 0x7F
      | 14 => maxOf t + signOf t neg
      | 15 => if neg then 0x1FF else if sat then 0x1FE else 0x1FF
      | _ => infOf t + signOf t neg
    | .fin neg m e => roundFloat t fmt rnd sat neg m den e rand
  | none =>
    match intFmt t with
    | none => 0
    | some (w, signed) =>
      match x with
      | .nan => 0
      | .inf neg => patternOf w (if neg then intMin w signed else intMax w signed)
      | .fin neg m e =>
        let (a, b) := ratioShift m den e
        let n := (roundMag rnd neg a b rand).1
        patternOf w (limitInt w signed sat (if neg then -(n : Int) else n))

/-- An exact value rounded to an integer (R59): used for planed integers and contributions. -/
def roundInt (rnd : Nat) (neg : Bool) (m den : Nat) (e : Int) : Int :=
  let (a, b) := ratioShift m den e
  let n := (roundMag (if rnd = 6 then 0 else rnd) neg a b none).1
  if neg then -(n : Int) else n

/-! ### Rounding codes and comparisons -/

/-- RND with a code 7 resolved by RMODE.DRND (R50). -/
def effRnd (s : State) (rnd : BitVec 3) : Nat := if rnd = 7 then s.task.sys.rmode.toNat else rnd.toNat

/-- The effective code where there is no random source: 6 acts as 0 (R52, R133). -/
def effRnd0 (s : State) (rnd : BitVec 3) : Nat := if effRnd s rnd = 6 then 0 else effRnd s rnd

/-- A condition of CMP and VCMP on the order −1, 0, 1 of two comparable values (R100, R137). -/
def condHolds (cond : Nat) (ord : Int) : Bool :=
  match cond with
  | 0 => ord == 0
  | 1 => ord != 0
  | 2 => decide (ord < 0)
  | 3 => decide (ord ≤ 0)
  | 4 => decide (0 < ord)
  | 5 => decide (0 ≤ ord)
  | _ => false

/-- A condition of VCMP on two values of a vector type (R137). -/
def condValues (cond : Nat) (a b : FVal) : Bool :=
  if a.isNan || b.isNan then cond == 1 || cond == 6
  else if cond = 6 then false
  else condHolds cond (a.cmp b)

/-- The order of two integers. -/
def intOrd (a b : Int) : Int := if a < b then -1 else if a = b then 0 else 1

/-- VMIN and VMAX on values with their patterns: −0 below +0, the other operand of one NaN (R136). -/
def minMax (isMax : Bool) (t : Nat) (a b : Nat) : Nat :=
  let x := valueOf t a
  let y := valueOf t b
  if x.isNan then (if y.isNan then nanOf t else b)
  else if y.isNan then a
  else
    let c := x.cmp y
    let less := decide (c < 0) || (decide (c = 0) && x.isNeg && !y.isNeg)
    if less != isMax then a else b

end Sys2Proof.Machine
end

