-- ==== Sys2Proof/Machine/Regs.lean ====
section
/-! DEFINITION. Accessors of the sparse parts of State, the scalar registers, predicates, masks and vector registers
with their latency windows (spec/01_tile_task.md R14 to R31), and package events (R301). -/

namespace Sys2Proof.Machine

/-! ### Parts of the device -/

/-- A logical core; its record carries its number. -/
def State.core (s : State) (l : Nat) : Core := { sget Core.reset s.cores l with lcore := l }
def State.setCore (s : State) (c : Core) : State := { s with cores := sset Core.reset s.cores c.lcore c }
def State.cluster (s : State) (c : Nat) : Cluster := sget Cluster.reset s.clusters c
def State.setCluster (s : State) (c : Nat) (x : Cluster) : State :=
  { s with clusters := sset Cluster.reset s.clusters c x }
def State.die (s : State) (d : Nat) : Die := sget (fun _ => Die.reset) s.dies d
def State.setDie (s : State) (d : Nat) (x : Die) : State :=
  { s with dies := sset (fun _ => Die.reset) s.dies d x }
def State.queue (s : State) (q : Nat) : Queue := sget (fun _ => Queue.reset) s.queues q
def State.setQueue (s : State) (q : Nat) (x : Queue) : State :=
  { s with queues := sset (fun _ => Queue.reset) s.queues q x }
def State.fn (s : State) (f : Nat) : FnRegs := sget (fun _ => FnRegs.reset) s.fns f
def State.setFn (s : State) (f : Nat) (x : FnRegs) : State :=
  { s with fns := sset (fun _ => FnRegs.reset) s.fns f x }

/-- The core of the selected task. -/
def State.myCore (s : State) : Core := s.core s.task.id.lcore
def State.myCluster (s : State) : Nat := s.task.id.lcore / 12
def State.myDie (s : State) : Nat := s.task.id.lcore / 96

/-! ### Updates of the selected task -/

def State.setTask (s : State) (t : Task) : State := { s with task := t }
def State.setRegs (s : State) (r : TaskRegs) : State := { s with task := { s.task with regs := r } }
def State.setFlow (s : State) (f : TaskFlow) : State := { s with task := { s.task with flow := f } }
def State.setSys (s : State) (y : TaskSys) : State := { s with task := { s.task with sys := y } }
def State.setId (s : State) (i : TaskId) : State := { s with task := { s.task with id := i } }
def State.setBolt (s : State) (b : TaskBolt) : State := { s with task := { s.task with bolt := b } }
def State.setEng (s : State) (e : TaskEng) : State := { s with task := { s.task with eng := e } }
def State.setStand (s : State) (z : TaskStand) : State := { s with task := { s.task with stand := z } }
def State.setLease (s : State) (l : TaskLease) : State := { s with task := { s.task with lease := l } }
def State.setPhase (s : State) (p : TaskPhase) : State := { s with task := { s.task with phase := p } }
def State.setWork (s : State) (w : BoltWork) : State := s.setBolt { s.task.bolt with work := w }
def State.setPkg (s : State) (x : Package) : State := { s with pkg := x }
def State.setMem (s : State) (m : Memory) : State := { s with mem := m }

/-! ### Every task, whichever is selected -/

/-- The selected task and the parked ones. -/
def State.tasks (s : State) : List Task := s.task :: s.parked

def Task.is (t : Task) (r : TaskRef) : Bool := t.id.live && t.id.lcore == r.lcore && t.id.part == r.part

/-- A change of the task of one partition, wherever it stands. -/
def State.onTask (s : State) (r : TaskRef) (f : Task → Task) : State :=
  if s.task.is r then { s with task := f s.task }
  else { s with parked := s.parked.map fun t => if t.is r then f t else t }

/-- A change of every live task. -/
def State.onTasks (s : State) (f : Task → Task) : State :=
  { s with
    task := if s.task.id.live then f s.task else s.task
    parked := s.parked.map fun t => if t.id.live then f t else t }

/-- The task of one partition. -/
def State.taskAt (s : State) (r : TaskRef) : Option Task := s.tasks.find? (·.is r)

/-- Selects the task of a partition: the task selected before is parked (MODEL). -/
def State.select (s : State) (r : TaskRef) : State :=
  if s.task.is r then s
  else match s.parked.find? (·.is r) with
    | none => s
    | some t => { s with task := t, parked := s.parked.filter (fun u => !u.is r) ++
        (if s.task.id.live then [s.task] else []) }

def Task.ref (t : Task) : TaskRef := ⟨t.id.lcore, t.id.part⟩

/-- A change of a helper core, wherever it stands. -/
def State.onHelper (s : State) (l w : Nat) (f : Helper → Helper) : State :=
  if s.hlp.lcore = l ∧ s.hlp.which = w then { s with hlp := f s.hlp }
  else if s.parkedH.any fun h => h.lcore == l && h.which == w then
    { s with parkedH := s.parkedH.map fun h => if h.lcore = l ∧ h.which = w then f h else h }
  else if f (Helper.reset l w) = Helper.reset l w then s
  else { s with parkedH := s.parkedH ++ [f (Helper.reset l w)] }

/-- A helper core; one never released is as after reset. -/
def State.helperAt (s : State) (l w : Nat) : Helper :=
  if s.hlp.lcore = l ∧ s.hlp.which = w then s.hlp
  else (s.parkedH.find? fun h => h.lcore = l ∧ h.which = w).getD (Helper.reset l w)

/-- Selects a helper core (MODEL). -/
def State.selectHelper (s : State) (l w : Nat) : State :=
  if s.hlp.lcore = l ∧ s.hlp.which = w then s
  else { s with
    hlp := s.helperAt l w
    parkedH := s.hlp :: s.parkedH.filter fun h => ¬(h.lcore = l ∧ h.which = w) }

/-- The module's sprint level (R375). -/
def State.sprint (s : State) : Nat := (s.tasks.map fun t => if t.id.live then t.lease.lvl else 0).foldl Nat.max 0

/-- The lower of two operating points. -/
def lowerPoint (a b : BitVec 3) : BitVec 3 := if a.toNat ≤ b.toNat then a else b

/-- The point that drives a rail's clock: a step that lowers the point lowers the clock at its start, one that raises it
raises the clock at its end (R372). -/
def Rail.drive (x : Rail) : BitVec 3 := if x.ramp then lowerPoint x.next x.opc else x.opc

/-- Some rail is capped below its request (R370). -/
def Package.capped (x : Package) : Bool := x.rails.any fun r => decide (r.cap.toNat < r.req.toNat)

/-- Every running task is flagged while some rail is capped (R370). -/
def State.flagCapped (s : State) : State :=
  if s.pkg.capped then s.onTasks fun t => { t with bolt := { t.bolt with degr := t.bolt.degr ||| 4 } } else s

/-- The caps follow a power limit that has been lowered (R377). -/
def State.lowerCaps (s : State) : State :=
  State.flagCapped (s.setPkg { s.pkg with
    rails := s.pkg.rails.zipIdx.map fun (x, r) => { x with cap := lowerPoint x.cap (Config.limitPoint s.sprint r) } })

/-! ### Registers and latency windows -/

/-- The file and number of the register a window is open on. -/
def RegWrite.target : RegWrite → Nat × Nat
  | .g n _ => (0, n)
  | .p n _ => (1, n)
  | .m n _ _ => (2, n)
  | .v n _ _ => (3, n)

/-- A window on the register is open and was opened in an earlier clock: a read is unspecified (R29, R30). -/
def TaskRegs.open (r : TaskRegs) (clk : Nat) (target : Nat × Nat) : Bool :=
  r.wins.any fun w => w.write.target == target && decide (w.opened < clk)

def TaskRegs.storedG (r : TaskRegs) (n : Nat) : W64 := sget (fun _ => 0) r.g n
def TaskRegs.storedM (r : TaskRegs) (n : Nat) : Mask := sget (fun _ => 0) r.m n
def TaskRegs.storedV (r : TaskRegs) (n : Nat) : VReg := sget (fun _ => 0) r.v n

/-- A scalar register: g0 reads 0 (R14). -/
def State.g (s : State) (n : Nat) : W64 :=
  if n = 0 then 0
  else if s.task.regs.open s.task.flow.clk (0, n) then Config.freeBits s.epoch n 64
  else s.task.regs.storedG n

/-- A predicate: p0 reads 1. -/
def State.p (s : State) (n : Nat) : Bool :=
  if n = 0 then true
  else if s.task.regs.open s.task.flow.clk (1, n) then (Config.freeBits s.epoch (64 + n) 1).getLsbD 0
  else s.task.regs.p.getLsbD n

/-- A lane mask: m0 reads all ones. -/
def State.m (s : State) (n : Nat) : Mask :=
  if n = 0 then BitVec.allOnes 256
  else if s.task.regs.open s.task.flow.clk (2, n) then Config.freeBits s.epoch (80 + n) 256
  else s.task.regs.storedM n

/-- A vector register. -/
def State.v (s : State) (n : Nat) : VReg :=
  if s.task.regs.open s.task.flow.clk (3, n) then Config.freeBits s.epoch (96 + n) 2048
  else s.task.regs.storedV n

/-- The effect of a closed window on the register files; writes to constant registers are discarded (R14). -/
def TaskRegs.apply (r : TaskRegs) : RegWrite → TaskRegs
  | .g n val => if n = 0 then r else { r with g := sset (fun _ => 0) r.g n val }
  | .p n val => if n = 0 then r else
      { r with p := if val then r.p ||| BitVec.twoPow 16 n else r.p &&& ~~~ BitVec.twoPow 16 n }
  | .m n mask val => if n = 0 then r else
      { r with m := sset (fun _ => 0) r.m n ((r.storedM n &&& ~~~ mask) ||| (val &&& mask)) }
  | .v n mask val =>
      { r with v := sset (fun _ => 0) r.v n ((r.storedV n &&& ~~~ mask) ||| (val &&& mask)) }

/-- Applies the windows of each register all of whose windows have closed before clock `clk`, in program order;
the register then holds the result of the last writer (R29, R30). -/
def TaskRegs.settle (r : TaskRegs) (clk : Nat) : TaskRegs :=
  let due := fun (w : Window) => r.wins.all fun x => x.write.target != w.write.target || decide (x.closes < clk)
  let r' := (r.wins.filter due).foldl (fun acc w => acc.apply w.write) { r with wins := [] }
  { r' with wins := r.wins.filter fun w => !due w }

/-- Applies every window: all have closed (R31). -/
def TaskRegs.close (r : TaskRegs) : TaskRegs :=
  r.wins.foldl (fun acc w => acc.apply w.write) { r with wins := [] }

/-- The clock at whose start every window has closed. -/
def TaskRegs.closedAt (r : TaskRegs) (clk : Nat) : Nat :=
  r.wins.foldl (fun acc w => Nat.max acc (w.closes + 1)) clk

/-- A constant register, whose writes are discarded and open no window (R14). -/
def RegWrite.discarded : RegWrite → Bool
  | .g n _ => n == 0
  | .p n _ => n == 0
  | .m n _ _ => n == 0
  | .v _ _ _ => false

/-- Opens a latency window of bound `lat` on a destination at the present clock (R29). -/
def State.put (s : State) (lat : Nat) (w : RegWrite) : State :=
  if w.discarded then s
  else s.setRegs { s.task.regs with
    wins := s.task.regs.wins ++ [⟨s.task.flow.clk, s.task.flow.clk + lat, w⟩] }

/-- Granules of the register names the task holds: v0 to v(16·VGRAN − 1) (R17). -/
def State.vLimit (s : State) : Nat := 16 * s.task.id.vgran

/-- The present clock of the partition. -/
def State.clk (s : State) : Nat := s.task.flow.clk

/-! ### Package events (R301) -/

/-- Adds an event that arises now and is applied at its decision tick. -/
def State.event (s : State) (queue seq : Nat) (kind : EventKind) : State :=
  { s with events := s.events ++ [⟨s.dcc + Config.decisionDelay, queue, seq, kind⟩] }

/-- The 24 bytes of a record behind TIME (R312, R313): KIND and the words at 0x08, 0x10 and 0x18. -/
def recordBody (kind : Nat) (w1 w2 w3 : Nat) : BitVec 192 :=
  BitVec.ofNat 192 ((w1 % 2 ^ 56 + kind * 2 ^ 56) + w2 % 2 ^ 64 * 2 ^ 64 + w3 % 2 ^ 64 * 2 ^ 128)

/-- Posts a record to a function's event ring. -/
def State.post (s : State) (fn kind w1 w2 w3 : Nat) : State :=
  s.event 0 0 (.record fn (recordBody kind w1 w2 w3))

/-- Something leaves the device. -/
def State.emit (s : State) (o : Output) : State := { s with outputs := s.outputs ++ [o] }

/-- The vector or its function is masked (R394; PRESUMED, log 6). -/
def FnRegs.masked (r : FnRegs) (vec : Nat) : Bool := r.msixMask || (r.msix.getD (2 * vec + 1) 0).getLsbD 32

/-- An MSI-X message is raised: sent, or pending while its vector is masked, or lost while MSI-X is not enabled (R394;
PRESUMED, log 6). -/
def State.raiseMsix (s : State) (fn vec : Nat) : State :=
  let r := s.fn fn
  if !r.msixOn then s
  else if r.masked vec then s.setFn fn { r with msixPend := r.msixPend ||| BitVec.twoPow 2 vec }
  else s.emit (.msix fn vec)

/-- The pending message of a vector that is masked no more is sent. -/
def State.sendPending (s : State) (fn vec : Nat) : State :=
  let r := s.fn fn
  if r.msixOn && r.msixPend.getLsbD vec && !r.masked vec then
    (s.setFn fn { r with msixPend := r.msixPend &&& ~~~ BitVec.twoPow 2 vec }).emit (.msix fn vec)
  else s

/-- A bit of FSTAT is set; MSI-X vector 1 is raised when it becomes set (R394, R395). -/
def State.setFstat (s : State) (fn bit : Nat) : State :=
  let r := s.fn fn
  if r.fstat.getLsbD bit then s
  else (s.setFn fn { r with fstat := r.fstat ||| BitVec.twoPow 5 bit }).raiseMsix fn 1

end Sys2Proof.Machine
end

