-- ==== Sys2Proof/Machine/Operands.lean ====
section
/-! DEFINITION. The operand forms of a slot: immediates and the pool (R72, R97, R120, R132), typed scalar operands
(R96), vector elements and the mask bits that govern them (R15, R16, R130, R131). -/

namespace Sys2Proof.Machine

/-! ### Immediates and the pool -/

/-- Pool operand P0 or P1, sign-extended from 56 bits (R72). -/
def poolOperand (pool : BitVec 112) (second : Bool) : W64 :=
  (if second then pool.extractLsb' 56 56 else pool.extractLsb' 0 56).signExtend 64

/-- The pool operand that PSEL 1 or 2 selects. -/
def State.poolSel (s : State) (f : Slot) : W64 := poolOperand s.task.flow.pool (f.psel == 2)

/-- The offset of a memory operation: IMM sign-extended, or the pool (R120, R158). -/
def State.offset (s : State) (f : Slot) : W64 := if f.psel = 0 then f.imm.signExtend 64 else s.poolSel f

/-- The address of a memory operation (R120). -/
def State.ea (s : State) (f : Slot) : W64 := s.g f.a.toNat + s.offset f

/-! ### Scalar operands (R96, R97) -/

/-- A type code names a signed integer. -/
def isSigned (t : BitVec 5) : Bool := t.toNat ∈ [1, 2, 3, 4]

/-- OperandB of the pseudocode (R97): T = 0 extends an immediate as an s type does. -/
def State.operandB (s : State) (f : Slot) : W64 :=
  if f.im then
    if f.psel = 0 then (if isSigned f.t || f.t == 0 then f.imm.signExtend 64 else f.imm.setWidth 64)
    else s.poolSel f
  else s.g f.b.toNat

/-- The low `w` bits of a register read as T reads them. -/
def typed (t : BitVec 5) (x : W64) : Int := intOf (typeWidth t) (isSigned t) x.toNat

/-- A result of type T extended to a register (R96). -/
def extended (r : Int) : W64 := BitVec.ofInt 64 r

/-! ### Vector elements (R16, R130, R131) -/

/-- Element `i` of a register at element width `w` bits. -/
def elemBits (w : Nat) (x : VReg) (i : Nat) : Nat := x.toNat / 2 ^ (w * i) % 2 ^ w

/-- An element of a type; a bs9 lane ignores its upper bits. -/
def elem (t : BitVec 5) (x : VReg) (i : Nat) : Nat :=
  elemBits (typeWidth t) x i % (if t = 15 then 2 ^ 9 else 2 ^ typeWidth t)

/-- Gov(m, i): the mask bit that governs element `i` at element width `w` bits. -/
def gov (w : Nat) (m : Mask) (i : Nat) : Bool := m.getLsbD (i * w / 8)

/-- Lanes `0` to `n − 1` packed into one number. -/
def packLanes (w : Nat) (f : Nat → Nat) : Nat → Nat
  | 0 => 0
  | n + 1 => packLanes w f n + f n % 2 ^ w * 2 ^ (w * n)

/-- A register built lane by lane. -/
def vregOf (w : Nat) (f : Nat → Nat) : VReg := BitVec.ofNat 2048 (packLanes w f (2048 / w))

/-- The bits of the lanes that satisfy a predicate. -/
def laneMask (w : Nat) (on : Nat → Bool) : VReg := vregOf w fun i => if on i then 2 ^ w - 1 else 0

/-- The mask that MSEL selects. -/
def State.msel (s : State) (f : Slot) : Mask := s.m f.msel.toNat

/-- Opens the window of a vector result: the elements MSEL governs become `val i` (R131). -/
def State.putLanes (s : State) (f : Slot) (val : Nat → Nat) : State :=
  let w := typeWidth f.t
  s.put f.lat.toNat (.v f.d.toNat (laneMask w (gov w (s.msel f))) (vregOf w val))

/-- The pattern of the second operand of element `i` (R132). -/
def State.secondBits (s : State) (f : Slot) (i : Nat) : Nat :=
  if f.im then (if f.psel = 0 then f.imm.toNat else (s.poolSel f).toNat) % 2 ^ typeWidth f.t
  else elem f.t (s.v f.b.toNat) i

/-- The random bits that lane `i` of the source type takes from v[C] under code 6 (R51, R133). -/
def State.randomBits (s : State) (f : Slot) (t : BitVec 5) (i : Nat) : RandomBits :=
  if (f.rnd = 6 ∨ f.rnd = 7) ∧ effRnd s f.rnd = 6 then some (typeWidth t, elemBits (typeWidth t) (s.v f.c.toNat) i)
  else none

/-- Elements of a register that a mask governs, in increasing order. -/
def governed (w : Nat) (m : Mask) : List Nat := (List.range (2048 / w)).filter (gov w m)

/-! ### Results of scalar operations -/

/-- Opens the window of a scalar result. -/
def State.putG (s : State) (f : Slot) (x : W64) : State := s.put f.lat.toNat (.g f.d.toNat x)
/-- Opens the window of a predicate result. -/
def State.putP (s : State) (f : Slot) (x : Bool) : State := s.put f.lat.toNat (.p f.d.toNat x)

end Sys2Proof.Machine
end

