-- ==== Sys2Proof/Machine/Access.lean ====
section
/-! DEFINITION. Reaching memory: the windows of a generic pointer (spec/01_tile_task.md R32, R33), translation
(spec/13_die_memory.md R335 to R338), plot states (R327 to R329), full bits, claims and lends
(spec/08_core_movement.md R258 to R260), held bytes (R185), and visible writes with their gauges (R290, R349). -/

namespace Sys2Proof.Machine

/-- A failed check of an access (R357 to R359). -/
structure MemFault where
  cause  : Nat
  reason : Nat
  addr   : BitVec 48
deriving DecidableEq, Repr

/-! ### Windows (R32, R33) -/

/-- Where an access lands: a virtual address, or a pad with a byte offset. -/
inductive Place where
  | global (va : Nat)
  | corePad (l off : Nat) (sibling : Bool)
  | clusterPad (c off : Nat)
  | diePad (d off : Nat)
deriving DecidableEq, Repr

/-- The cluster sub-stand of the selected task is in its exchange phase (R277, R278). -/
def State.exchange (s : State) : Bool :=
  s.stands.any fun z => z.queue == s.task.id.queue && z.seq == s.task.id.seq && z.level == 1
    && z.group == s.myCluster && z.phase

/-- The window an access of `n` bytes belongs to, or the reason it is refused (R33). -/
def placeOf (l die : Nat) (exchange : Bool) (ptr : W64) (n : Nat) : Except Nat Place :=
  let a := ptr.toNat % 2 ^ 48
  if ptr.toNat / 2 ^ 48 ≠ 0 then .error 13
  else if a < 0xF00000000000 then (if 0xF00000000000 < a + n then .error 12 else .ok (.global a))
  else if a < 0xF00000200000 then
    let off := a - 0xF00000000000
    if 2 ^ 21 < off + n then .error 12 else .ok (.corePad l off false)
  else if 0xF10000000000 ≤ a ∧ a < 0xF10000000000 + 12 * 2 ^ 21 then
    let k := (a - 0xF10000000000) / 2 ^ 21
    let off := (a - 0xF10000000000) % 2 ^ 21
    if 2 ^ 21 < off + n then .error 12
    else if k = l % 12 then .ok (.corePad l off false)
    else if exchange then .ok (.corePad (l / 12 * 12 + k) off true) else .error 9
  else if 0xF20000000000 ≤ a ∧ a < 0xF20002000000 then
    let off := a - 0xF20000000000
    if 2 ^ 25 < off + n then .error 12 else .ok (.clusterPad (l / 12) off)
  else if 0xF30000000000 ≤ a ∧ a < 0xF30010000000 then
    let off := a - 0xF30000000000
    if 2 ^ 28 < off + n then .error 12
    else if 2 ^ 27 < off + n then .error 10 else .ok (.diePad die off)
  else .error 11

/-- The die whose pad a logical core's die-pad window names: the surviving die after adoption (R32, R366). -/
def State.padDie (s : State) (l : Nat) : Nat :=
  if s.pkg.state = 1 ∧ s.pkg.failed.getLsbD (l / 96) then 1 - l / 96 else l / 96

/-- The window of an access by the selected task. -/
def State.place (s : State) (ptr : W64) (n : Nat) : Except Nat Place :=
  placeOf s.task.id.lcore (s.padDie s.task.id.lcore) s.exchange ptr n

/-- A cluster of the failed die after adoption (R366). -/
def State.adopted (s : State) (c : Nat) : Bool := s.pkg.state == 1 && s.pkg.failed.getLsbD (c / 8)

/-- The key of a cluster-pad byte: after adoption, in every second plot of the ADPLOT run (R366, R367). -/
def State.clusterKey (s : State) (c off : Nat) : Nat :=
  if s.adopted c then
    (s.pkg.adplot.toNat % 2 ^ 18 + 2 * (16 * (c % 8) + off / 2 ^ 21) + c / 8) * 2 ^ 21 + off % 2 ^ 21
  else keyClusterPad c off

/-- The keys of `n` consecutive bytes of a cluster pad. -/
def State.clusterKeys (s : State) (c off n : Nat) : List Nat := (List.range n).map fun i => s.clusterKey c (off + i)

/-- The offset in a cluster's pad of the byte at a key. -/
def State.clusterOff (s : State) (c k : Nat) : Option Nat :=
  if s.adopted c then
    let p := k / 2 ^ 21 - s.pkg.adplot.toNat % 2 ^ 18
    if s.pkg.adplot.toNat % 2 ^ 18 ≤ k / 2 ^ 21 ∧ p % 2 = c / 8 ∧ p / 2 / 16 = c % 8
      then some (p / 2 % 16 * 2 ^ 21 + k % 2 ^ 21) else none
  else if keyClusterPad c 0 ≤ k ∧ k < keyClusterPad c 0 + 2 ^ 25 then some (k - keyClusterPad c 0) else none

/-- The key of a pad byte that an engine names by its offset (R366). -/
def State.padKey (s : State) (k : Nat) : Nat :=
  match (List.range 16).find? fun c => decide (keyClusterPad c 0 ≤ k ∧ k < keyClusterPad c 0 + 2 ^ 25) with
  | some c => s.clusterKey c (k - keyClusterPad c 0)
  | none => k

/-! ### Translation (R336 to R338) -/

/-- The eight bytes at a physical address. -/
def Memory.word (m : Memory) (pa : Nat) : Nat := natOfBytes (m.readBytes pa 8)

/-- Bits `hi..lo` of a number. -/
def bitsOf (x hi lo : Nat) : Nat := x / 2 ^ lo % 2 ^ (hi - lo + 1)

/-- The index of a virtual address at a level of the walk. -/
def walkIndex (va : Nat) : Nat → Nat
  | 0 => bitsOf va 47 39
  | 1 => bitsOf va 38 30
  | 2 => bitsOf va 29 21
  | _ => bitsOf va 20 16

/-- The size of a page that a leaf of a level maps. -/
def leafSize : Nat → Nat
  | 1 => 2 ^ 30
  | 2 => 2 ^ 21
  | _ => 2 ^ 16

/-- A found translation: page base, size, writability. -/
structure Leaf where
  pa   : Nat
  size : Nat
  wr   : Bool
deriving DecidableEq, Repr

/-- The walk from a table at level `lv`, with `fuel` levels left, or the reason it fails (R337). -/
def walkFrom (m : Memory) (poison : List Nat) (va : Nat) (write : Bool) (lv t : Nat) : Nat → Except Nat Leaf
  | 0 => .error 14
  | fuel + 1 =>
    let e := m.word (t + 8 * walkIndex va lv)
    let leaf := bitsOf e 1 1 = 1
    let next := bitsOf e 38 8 * 256
    if poison.contains ((t + 8 * walkIndex va lv) / 64) then .error 14
    else if bitsOf e 0 0 = 0 then .error 1
    else if bitsOf e 63 39 ≠ 0 ∨ bitsOf e 7 3 ≠ 0 ∨ (lv = 0 ∧ leaf) ∨ (lv = 3 ∧ ¬leaf) ∨ (¬leaf ∧ bitsOf e 2 2 = 1)
      then .error 14
    else if leaf then
      if next % leafSize lv ≠ 0 then .error 14
      else if write ∧ bitsOf e 2 2 = 0 then .error 2
      else .ok ⟨next, leafSize lv, bitsOf e 2 2 = 1⟩
    else if next % (if lv < 2 then 4096 else 256) ≠ 0 ∨ 2 ^ 38 ≤ next then .error 14
    else walkFrom m poison va write (lv + 1) next fuel

/-- A walk in the context of a function (R335, R337). -/
def State.walk (s : State) (fn va : Nat) (write : Bool) : Except Nat Leaf :=
  let r := (s.fn fn).troot.toNat
  if r % 2 = 0 then .error 1
  else if 2 ^ 38 ≤ bitsOf r 38 12 * 4096 then .error 14
  else walkFrom s.mem s.poison va write 0 (bitsOf r 38 12 * 4096) 4

/-- The physical address of a virtual one: a cached translation is used until it is invalidated (R338). -/
def State.translate (s : State) (cluster fn va : Nat) (write : Bool) : Except Nat Nat :=
  match s.tlb.find? fun x => x.cluster == cluster && x.fn == fn && decide (x.va ≤ va ∧ va < x.va + x.size) with
  | some x => if write && !x.wr then .error 2 else .ok (x.pa + (va - x.va))
  | none =>
    match s.walk fn va write with
    | .ok x => .ok (x.pa + va % x.size)
    | .error r => .error r

/-! ### Plots (R326 to R329) -/

def State.plotEntry (s : State) (p : Nat) : Nat := s.mem.word (8 * p)
def State.plotState (s : State) (p : Nat) : Nat := s.plotEntry p % 8
def State.plotOwner (s : State) (p : Nat) : Nat := bitsOf (s.plotEntry p) 15 8

/-- ReasonOf a plot state (R333). -/
def plotReason : Nat → Nat
  | 0 => 3
  | 1 => 4
  | 2 => 5
  | 3 => 6
  | 4 => 7
  | _ => 8

/-- A plot table entry with a new state and owner; the gauge link stays (R327). Errors met in the plot before count no
longer. -/
def State.setPlot (s : State) (p state owner : Nat) : State :=
  let e := s.plotEntry p
  { s with poison := s.poison.filter fun x => x / 32768 ≠ p }.setMem (s.mem.writeCells (cellsAt (8 * p) (bytesOfNat 8 (e - e % 8 + state + owner * 256 - bitsOf e 15 8 * 256))))

/-- Whether a plot accepts a scalar or vector access of a task (R328). -/
def State.plotAccepts (s : State) (l pa : Nat) (ordered : Bool) : Except Nat Unit :=
  let st := s.plotState (pa / 2 ^ 21)
  if st = 1 ∧ s.plotOwner (pa / 2 ^ 21) = l then .ok ()
  else if st = 2 ∧ ordered then .ok () else .error (plotReason st)

/-- A write by an agent of a logical core that was checked earlier is refused when its plot has become foreign (R331,
R333). -/
def State.stillOpen (s : State) (l k : Nat) : Bool :=
  decide (2 ^ 39 ≤ k) || s.plotState (k / 2 ^ 21) == 2 || s.plotState (k / 2 ^ 21) == 3
    || (s.plotState (k / 2 ^ 21) == 1 && s.plotOwner (k / 2 ^ 21) == l)

/-! ### One access of a task, checked in the order of R120 and R329 -/

/-- How an access treats the place it reaches. -/
structure AccessForm where
  write   : Bool := false
  ordered : Bool := false
  fe      : Bool := false      -- WF or CLR
  rmw     : Bool := false
deriving DecidableEq, Repr

/-- The key of the first byte of a piece that lies in one page. -/
def State.resolvePiece (s : State) (fm : AccessForm) (pl : Place) : Except MemFault Nat :=
  match pl with
  | .corePad l off _ => if fm.rmw then .error ⟨4, 0, 0⟩ else .ok (keyCorePad l off)
  | .clusterPad c off =>
    if fm.fe then .error ⟨3, 0, 0⟩ else if fm.rmw then .error ⟨4, 0, 0⟩ else .ok (s.clusterKey c off)
  | .diePad d off =>
    if fm.fe then .error ⟨3, 0, 0⟩ else if fm.rmw then .error ⟨4, 0, 0⟩ else .ok (keyDiePad d off)
  | .global va =>
    match s.translate s.myCluster s.task.id.func va (fm.write || fm.rmw) with
    | .error r => .error ⟨7, r, BitVec.ofNat 48 va⟩
    | .ok pa =>
      if fm.fe then .error ⟨3, 0, 0⟩
      else if fm.rmw then
        (if s.plotState (pa / 2 ^ 21) = 2 then .ok pa else .error ⟨4, 0, 0⟩)
      else match s.plotAccepts s.task.id.lcore pa fm.ordered with
        | .ok _ => .ok pa
        | .error r => .error ⟨5, r, BitVec.ofNat 48 va⟩

/-- The keys of `n` consecutive bytes (R121, R159); an access may run over the edge of one 64 KiB page. DESIGN CHOICE
(log 43): both pages of a VLD or VST are translated and checked whatever the mask. -/
def State.resolve (s : State) (fm : AccessForm) (ptr : W64) (n align : Nat) : Except MemFault (List Nat) :=
  let here := ptr.setWidth 48
  match s.place ptr n with
  | .error r => .error ⟨1, r, here⟩
  | .ok pl =>
    if ptr.toNat % align ≠ 0 then .error ⟨2, 0, here⟩
    else
      match s.resolvePiece fm pl with
      | .error e => .error { e with addr := here }
      | .ok k =>
        match pl with
        | .global va =>
          let room := 65536 - va % 65536
          if n ≤ room then .ok ((List.range n).map (k + ·))
          else match s.resolvePiece fm (.global (va + room)) with
            | .error e => .error { e with addr := BitVec.ofNat 48 (va + room) }
            | .ok k' => .ok ((List.range room).map (k + ·) ++ (List.range (n - room)).map (k' + ·))
        | .clusterPad c off => .ok (s.clusterKeys c off n)
        | _ => .ok ((List.range n).map (k + ·))

/-! ### Full bits, claims and lends (R186, R258 to R260) -/

/-- A key lies in a core pad: the logical core and the byte offset. -/
def corePadOf (k : Nat) : Option (Nat × Nat) :=
  if 2 ^ 42 ≤ k ∧ k < 2 ^ 42 + 192 * 2 ^ 21 then some ((k - 2 ^ 42) / 2 ^ 21, (k - 2 ^ 42) % 2 ^ 21) else none

/-- A key lies in the selected task's own core pad. -/
def State.ownPad (s : State) (k : Nat) : Bool :=
  match corePadOf k with
  | some (l, _) => l == s.task.id.lcore
  | none => false

def Core.isFull (c : Core) (gr : Nat) : Bool := sget (fun _ => false) c.full gr
def Core.setFull (c : Core) (gr : Nat) (b : Bool) : Core := { c with full := sset (fun _ => false) c.full gr b }
def Core.lend (c : Core) (page : Nat) : Nat := sget (fun _ => 0) c.lends page
def Core.setLend (c : Core) (page n : Nat) : Core := { c with lends := sset (fun _ => 0) c.lends page n }
/-- The claimant of a granule, plus one; 0 when it is not claimed. -/
def Core.claim (c : Core) (gr : Nat) : Nat := sget (fun _ => 0) c.claims gr
def Core.setClaim (c : Core) (gr n : Nat) : Core := { c with claims := sset (fun _ => 0) c.claims gr n }

/-- The mark of a claimant: a task by its core and partition, a helper as partition 16 or 17. -/
def claimMark (l part : Nat) : Nat := 18 * l + part + 1

/-- The granule reads as full to a claimant (R186). -/
def Core.fullFor (c : Core) (gr mark : Nat) : Bool :=
  c.isFull gr && (c.claim gr == 0 || c.claim gr == mark)

/-- The granules that a list of keys touches, with their logical core. -/
def granulesOf (ks : List Nat) : List (Nat × Nat) :=
  (ks.filterMap fun k => (corePadOf k).map fun x => (x.1, x.2 / 16)).dedup

/-- A write to a granule stalls: it is claimed by another agent, or it is full in a lent page (R186, R260).
`mark` is 0 for an engine, a skidder or a chain. -/
def State.writeStalls (s : State) (mark : Nat) (g : Nat × Nat) : Bool :=
  let c := s.core g.1
  (c.claim g.2 != 0 && c.claim g.2 != mark) || (c.isFull g.2 && c.lend (g.2 / 128) != 0)

/-- Sets the full bits of the granules that keys touch. -/
def State.fillGranules (s : State) : List (Nat × Nat) → State
  | [] => s
  | g :: gs => State.fillGranules (s.setCore ((s.core g.1).setFull g.2 true)) gs

/-! ### Held bytes (R121, R167, R185, R318) -/

def cellsLookup (k : Nat) : List Host.Cell → Option Byte
  | [] => none
  | c :: cs => match cellsLookup k cs with
    | some b => some b
    | none => if c.1 = k then some c.2 else none

/-- The byte that a hold covers at a key: the last one held. -/
def holdLookup (k : Nat) : List HoldItem → Option Byte
  | [] => none
  | i :: is => match holdLookup k is with
    | some b => some b
    | none => match i with
      | .store cells => cellsLookup k cells
      | .moved cells => cellsLookup k cells
      | _ => none

/-- The node of the selected task. -/
def State.myNode (s : State) : Option Node :=
  s.nodes.find? fun n => n.queue == s.task.id.queue && n.seq == s.task.id.seq

/-- The byte a load of the selected task sees: the handler's hold, the bolt's, its node's buffer, memory. -/
def State.loadByte (s : State) (k : Nat) : Byte :=
  match holdLookup k s.task.bolt.work.hold with
  | some b => b
  | none =>
    match s.task.bolt.outer.bind fun w => holdLookup k w.hold with
    | some b => b
    | none =>
      match s.myNode.bind fun n => holdLookup k (n.buffer.map (·.2.2)) with
      | some b => b
      | none => s.mem.read k

/-- A load of the bytes at some keys, least significant first. -/
def State.loadKeys (s : State) (ks : List Nat) : Nat := natOfBytes (ks.map s.loadByte)

/-! ### Visible writes (R290, R349) -/

/-- Field of a gauge block. -/
def gaugeField (x : BitVec 256) (hi lo : Nat) : Nat := bitsOf x.toNat hi lo
/-- A gauge block with one field replaced. -/
def gaugeSet (x : BitVec 256) (hi lo v : Nat) : BitVec 256 :=
  BitVec.ofNat 256 (x.toNat - bitsOf x.toNat hi lo * 2 ^ lo + v % 2 ^ (hi - lo + 1) * 2 ^ lo)

/-- COUNT with bytes added, saturating at 2^40 − 1. -/
def gaugeCount (x : BitVec 256) (n : Nat) : BitVec 256 :=
  gaugeSet x 247 208 (Nat.min (gaugeField x 247 208 + n) (2 ^ 40 - 1))

def gaugeArmed (x : BitVec 256) : Bool := gaugeField x 6 6 == 1

/-- Bytes of a write that lie in the range of a pad gauge of cluster `c` (R290). -/
def State.padGaugeBytes (s : State) (c : Nat) (x : BitVec 256) (ks : List Nat) : Nat :=
  (ks.filter fun k => (s.clusterOff c k).any fun o =>
    decide (16 * gaugeField x 84 64 ≤ o ∧ o < 16 * gaugeField x 116 96 + 16)).length

/-- Bytes of a write that lie in the range of a controller gauge (R349). -/
def ctlGaugeBytes (x : BitVec 256) (ks : List Nat) : Nat :=
  (ks.filter fun k =>
    let base := gaugeField x 115 98 * 2 ^ 21
    decide (base + 16 * gaugeField x 80 64 ≤ k ∧ k < base + 16 * gaugeField x 97 81 + 16 ∧ k < base + 2 ^ 21)).length

/-- Every armed gauge counts the bytes of a write that becomes visible. -/
def State.countGauges (s : State) (ks : List Nat) : State :=
  { s with
    clusters := s.clusters.map fun (c, x) => (c, { x with gauges := x.gauges.map fun (i, b) =>
      (i, if gaugeArmed b then gaugeCount b (s.padGaugeBytes c b ks) else b) })
    dies := s.dies.map fun (d, x) => (d, { x with gauges := x.gauges.map fun (i, b) =>
      (i, if gaugeArmed b then gaugeCount b (ctlGaugeBytes b ks) else b) }) }

/-- A core pad is neither in retention nor entering or leaving it (R233). -/
def Core.awake (c : Core) (now : Nat) : Bool :=
  match c.rest with
  | .awake => true
  | .entering _ => false
  | .leaving t => decide (t ≤ now)

/-- The first core pad at rest that holds some of the keys: an access to it stalls (R233). -/
def State.asleep (s : State) (ks : List Nat) : Option Nat :=
  if s.cores.all fun c => c.2.awake s.dcc then none
  else (ks.filterMap fun k => (corePadOf k).map (·.1)).find? fun l => !(s.core l).awake s.dcc

/-- Core pads that hold some of the keys are accessed (R233). -/
def State.touch (s : State) (ks : List Nat) : State :=
  ((granulesOf ks).map (·.1)).dedup.foldl (fun (acc : State) l => acc.setCore { acc.core l with touched := s.dcc }) s

/-- The number under which a bolt of a claimant is recorded as the writer of a byte (R353). -/
def boltId (mark num : Nat) : Nat := mark * 2 ^ 32 + num

/-- The bolt recorded as the writer of core-pad bytes; 0 for none. -/
def State.setWriter (s : State) (id : Nat) (ks : List Nat) : State :=
  { s with writers := (ks.filter fun k => (corePadOf k).isSome).foldl (fun w k => sset (fun _ => 0) w k id) s.writers }

/-- A bolt that has sealed or been discarded is no writer any more. -/
def State.forgetWriter (s : State) (id : Nat) : State := { s with writers := s.writers.filter (·.2 ≠ id) }

/-- The unsealed bolts of others that wrote some of the bytes a claimant reads. -/
def State.writersOf (s : State) (mark : Nat) (ks : List Nat) : List Nat :=
  (ks.filterMap fun k =>
    let w := sget (fun _ => 0) s.writers k
    if w = 0 ∨ w / 2 ^ 32 = mark then none else some w).dedup

/-- The bolt has read bytes that the given bolts wrote (R353). -/
def BoltWork.sawWriters (w : BoltWork) (ids : List Nat) : BoltWork := { w with reads := (w.reads ++ ids).dedup }

/-- The selected task reads some bytes. -/
def State.noteReads (s : State) (ks : List Nat) : State :=
  let ids := s.writersOf (claimMark s.task.id.lcore s.task.id.part) ks
  let s1 := s.touch ks
  if ids.isEmpty then s1 else s1.setWork (s1.task.bolt.work.sawWriters ids)

/-- The bolt of the selected task, as a writer. -/
def State.myBoltId (s : State) : Nat := boltId (claimMark s.task.id.lcore s.task.id.part) s.task.bolt.work.num

/-- A key lies in a page of the index stream of a kernel that is resident on some core. -/
def State.isCode (s : State) (k : Nat) : Bool :=
  s.cores.any fun c => c.2.residents.any fun r => s.kernels.any fun n => n.handle == r.kernel &&
    (List.range 16).any fun f => (List.range (n.clim / 32768 + 2)).any fun i =>
      match s.translate (c.1 / 12) f (n.stream + Nat.min (65536 * i) (2 * n.clim)) false with
      | .ok pa => pa / 65536 == k / 65536
      | .error _ => false

/-- The halfwords that a write changes in the stream of a resident kernel keep their earlier values: a later fetch may
still read one of them (R68). -/
def State.keepOldCode (s : State) (cells : List Host.Cell) : State :=
  if s.cores.all (·.2.residents.isEmpty) then s
  else
    let changed := cells.filter fun c => decide (c.1 < 2 ^ 38) && s.mem.read c.1 != c.2 && s.isCode c.1
    { s with oldCode := (changed.flatMap fun c => [c.1 - 1, c.1]).dedup.foldl (fun o k =>
        sset (fun _ => []) o k (sget (fun _ => []) o k ++ [natOfBytes (s.mem.readBytes k 2)])) s.oldCode }

/-- A write becomes visible: the bytes change, full bits of pad granules are set, gauges count (R258, R290, R349). -/
def State.show (s : State) (cells : List Host.Cell) : State :=
  let ks := cells.map (·.1)
  (((((s.keepOldCode cells).setMem (s.mem.writeCells cells)).fillGranules (granulesOf ks)).countGauges ks).setWriter 0 ks).touch ks

/-- An immediate write of a bolt (R182, R353). -/
def State.showOf (s : State) (id : Nat) (cells : List Host.Cell) : State := (s.show cells).setWriter id (cells.map (·.1))

/-- An unspecified value in every byte of a range (R293, R331). -/
def State.scramble (s : State) (k n : Nat) : State :=
  s.setMem (s.mem.writeCells ((List.range n).map fun i => (k + i, Config.freeBits s.epoch (2 ^ 20 + i) 8)))

/-- Main-memory bytes charged to a cluster's budget; a request over it waits for the next interval (R356). -/
def State.chargeBudget (s : State) (c n : Nat) : State :=
  let x := s.cluster c
  let late := x.mbud.getLsbD 24 && decide (0 < x.used ∧ x.mbud.toNat % 2 ^ 24 * 256 < x.used + n)
  s.setCluster c (if late then { x with used := n, held := x.held + 1 } else { x with used := x.used + n })

/-- The runs of consecutive keys in a list: where each begins, and its length. -/
def runsOf : List Nat → List (Nat × Nat)
  | [] => []
  | k :: ks => match runsOf ks with
    | [] => [(k, 1)]
    | (a, n) :: rs => if a = k + 1 then (k, n + 1) :: rs else (k, 1) :: (a, n) :: rs

/-- The requests to host memory that an access to some keys makes: those of the aperture, at their bus addresses, with the
requester ID of the function (R396). -/
def State.bus (s : State) (fn : Nat) (write : Bool) (ks : List Nat) : State :=
  let mine := ks.filter fun k => decide (2 ^ 38 ≤ k ∧ k < 2 ^ 39)
  { s with outputs := s.outputs ++ (runsOf mine).map fun (k, n) =>
      .aperture fn write (s.dev.hapbase.toNat / 2 ^ 38 * 2 ^ 38 + k - 2 ^ 38) n }

/-- The main-memory bytes among some keys are charged to a cluster (R356). -/
def State.chargeKeys (s : State) (c : Nat) (ks : List Nat) : State :=
  let n := (ks.filter fun k => decide (k < 2 ^ 38)).length
  if n = 0 then s else s.chargeBudget c n

end Sys2Proof.Machine
end

