-- ==== Sys2Proof/Machine/Nests.lean ====
section
/-! DEFINITION. Nest slots: images, index points, offsets and steps (spec/08_core_movement.md R254, R255); the pieces of
skidder commands (R244, R245). -/

namespace Sys2Proof.Machine

/-- P, the number of index points (R255). -/
def NestSlot.points (n : NestSlot) : Nat := (n.bound.take n.nd).foldl (· * ·) 1

/-- off_s at the present point (R255). -/
def NestSlot.offset (n : NestSlot) (s : Nat) : Int :=
  (List.range n.nd).foldl (fun acc d => acc + n.idx.getD d 0 * n.stride.getD (3 * d + s) 0) 0

/-- Every index zero and WRAP clear (R255). -/
def NestSlot.rewind (n : NestSlot) : NestSlot := { n with idx := List.replicate 6 0, wrap := false }

/-- Increments the first index that stays below its bound, zeroing those before it; true when none does. -/
def stepIndices : List Nat → List Nat → List Nat × Bool
  | b :: bs, i :: is =>
    if i + 1 < b then ((i + 1) :: is, false)
    else let (js, w) := stepIndices bs is; (0 :: js, w)
  | _, is => (is, true)

/-- The next step passes the last point and sets WRAP (R111, R255). -/
def NestSlot.wraps (n : NestSlot) : Bool := n.points != 0 && (stepIndices (n.bound.take n.nd) n.idx).2

/-- One step; past the last point the slot is at its first point with WRAP set (R255). -/
def NestSlot.step (n : NestSlot) : NestSlot :=
  if n.points = 0 then n
  else
    let (idx, w) := stepIndices (n.bound.take n.nd) n.idx
    { n with idx, wrap := n.wrap || w }

/-- The 128-byte image of a slot (R254). -/
def NestSlot.image (n : NestSlot) : List Byte :=
  bytesOfNat 8 (n.nd + if n.wrap then 8 else 0)
    ++ (List.range 6).flatMap (fun d => bytesOfNat 8 (n.bound.getD d 0 + n.idx.getD d 0 * 2 ^ 24))
    ++ (List.range 18).flatMap (fun i => bytesOfNat 4 (patternOf 32 (n.stride.getD i 0)))

/-- The slot an image describes, valid or not. -/
def nestFields (b : List Byte) : NestSlot :=
  let word := fun o n => natOfBytes ((b.drop o).take n)
  { nd := word 0 8 % 8
    wrap := bitsOf (word 0 8) 3 3 == 1
    bound := (List.range 6).map fun d => bitsOf (word (8 + 8 * d) 8) 23 0
    idx := (List.range 6).map fun d => bitsOf (word (8 + 8 * d) 8) 47 24
    stride := (List.range 18).map fun i => intOf 32 true (word (56 + 4 * i) 4) }

/-- The byte offset of the first field that breaks the rules of R254: reserved bits are zero, dimensions not in use
are zero, and an index lies below its bound, or is 0 under a bound of 0 (R253). -/
def nestDefect (b : List Byte) : Option Nat :=
  let n := nestFields b
  let word := fun o k => natOfBytes ((b.drop o).take k)
  let dim := fun d =>
    let bound := n.bound.getD d 0
    let idx := n.idx.getD d 0
    if n.nd ≤ d ∧ bound ≠ 0 then some (8 + 8 * d)
    else if idx ≠ 0 ∧ (n.nd ≤ d ∨ bound ≤ idx) then some (8 + 8 * d + 3)
    else if word (8 + 8 * d + 6) 2 ≠ 0 then some (8 + 8 * d + 6) else none
  if 6 < n.nd ∨ 16 ≤ word 0 8 then some 0
  else match (List.range 6).findSome? dim with
    | some o => some o
    | none => (List.range 18).findSome? fun i =>
      if n.nd ≤ i / 3 ∧ n.stride.getD i 0 ≠ 0 then some (56 + 4 * i) else none

/-! ### The pieces of a command (R244, R245) -/

/-- Index point `j` of a nest, dimension 0 fastest (R255). -/
def indexPoint : List Nat → Nat → List Nat
  | [], _ => []
  | b :: bs, j => j % b :: indexPoint bs (j / b)

/-- A slot at its index point `j`. -/
def NestSlot.at (n : NestSlot) (j : Nat) : NestSlot := { n with idx := indexPoint (n.bound.take n.nd) j }

/-- Source and destination of the byte at a position of a command, and the bytes from there on that follow it in both. -/
def SkCmd.at (c : SkCmd) (pos : Nat) : W64 × W64 × Nat :=
  let w := BitVec.ofNat 64
  match c.kind with
  | .nest n run =>
    let p := n.at (pos / run)
    (c.src + BitVec.ofInt 64 (p.offset 0) + w (pos % run), c.dst + BitVec.ofInt 64 (p.offset 1) + w (pos % run),
      run - pos % run)
  | .gather idx l => (c.src + w (idx.getD (pos / l) 0 * l + pos % l), c.dst + w pos, l - pos % l)
  | .scatter idx l => (c.src + w pos, c.dst + w (idx.getD (pos / l) 0 * l + pos % l), l - pos % l)
  | _ => (c.src + w pos, c.dst + w pos, c.len - pos)

/-- The pieces of the next `left` bytes from a position on. -/
def SkCmd.pieces (c : SkCmd) : (fuel pos left : Nat) → List (W64 × W64 × Nat)
  | 0, _, _ => []
  | fuel + 1, pos, left =>
    if left = 0 then []
    else
      let (a, b, n) := c.at pos
      let k := Nat.min n left
      (a, b, k) :: c.pieces fuel (pos + k) (left - k)

/-- Bytes of output that a transform may write; none for a plain copy. -/
def SkCmd.outSize (c : SkCmd) : Option Nat :=
  match c.kind with
  | .desc _ xf outmax _ _ => if xf = 0 then none else some outmax
  | _ => none

/-- Address and size of a transform's dictionary. -/
def SkCmd.dictRange (c : SkCmd) : Nat × Nat :=
  match c.kind with
  | .desc _ _ _ dict dlen => (dict, if dict = 0 then 0 else dlen)
  | _ => (0, 0)

end Sys2Proof.Machine
end

