-- ==== Sys2Proof/Machine/Ports.lean ====
section
/-! DEFINITION. Sending through the device ports (spec/17_fabric.md R400 to R405): CRC-32, flits, flow control, routes. -/

namespace Sys2Proof.Machine

/-- One byte of the CRC-32 of IEEE 802.3, least significant bit first. -/
def crcByte (c : W32) (b : Byte) : W32 :=
  (List.range 8).foldl (fun (x : W32) _ => if x.getLsbD 0 then (x >>> 1) ^^^ 0xEDB88320 else x >>> 1) (c ^^^ b.setWidth 32)

/-- CRC-32 of IEEE 802.3 (R401). -/
def crc32 (bs : List Byte) : W32 := ~~~ bs.foldl crcByte (BitVec.allOnes 32)

/-- The virtual channel of a flit TYPE: 1 carries collective data (R401). -/
def channelOf (type : Nat) : Nat := if type = 3 then 1 else 0

/-- The buffer of a virtual channel has fewer than 64 free flits (R402). -/
def bufferLow (b : List (List Byte)) : Bool := decide (Config.portBuffer < b.length + 64)

/-- A flit of a port (R401). -/
def PortState.flit (p : PortState) (seq type : Nat) (payload : List Byte) : List Byte :=
  let header := type * 2 ^ 56 + channelOf type * 2 ^ 48 + seq % 65536 * 2 ^ 32 + (p.rxSeq + 65535) % 65536 * 2 ^ 16
    + (bufferLow p.buf0).toNat * 2 ^ 15 + (bufferLow p.buf1).toNat * 2 ^ 14 + (payload.length - 1) % 256
  let body := bytesOfNat 8 header ++ (payload ++ List.replicate (244 - payload.length) 0)
  body ++ bytesOfNat 4 (crc32 body).toNat

def State.port (s : State) (k : Nat) : PortState := s.ports.getD k .reset
def State.setPort (s : State) (k : Nat) (p : PortState) : State := { s with ports := s.ports.set k p }

/-- The port holds new flits of a TYPE back: the receiver has asserted STOP, or the port retrains (R402, R403). -/
def PortState.holds (p : PortState) (type : Nat) : Bool :=
  p.lanes.state == 1 || (if channelOf type = 1 then p.stop1 else p.stop0)

/-- Sends a new flit toward a position, or keeps it behind those that wait. -/
def State.portSend (s : State) (k pos type : Nat) (payload : List Byte) : State :=
  let p := s.port k
  if p.holds type || p.wait.any (fun w => channelOf w.2.1 == channelOf type) then
    s.setPort k { p with wait := p.wait ++ [(pos, type, payload)] }
  else
    (s.setPort k { p with
      txSeq := (p.txSeq + 1) % 65536
      sent := p.sent ++ [(p.txSeq, pos, type, payload)]
      since := if p.sent.isEmpty then s.dcc else p.since }).emit (.portFlit k (p.flit p.txSeq type payload))

/-- The port toward a position, if its route is valid and the port is not retired (R404). -/
def State.route (s : State) (pos : Nat) : Option Nat :=
  let r := (sget (fun _ => 0) s.dev.proute pos : W64).toNat
  if r / 128 % 2 = 1 ∧ (s.port (r % 8)).lanes.state ≠ 2 then some (r % 8) else none

/-- Sends a payload toward a position, or keeps it until a route exists (R404). -/
def State.sendTo (s : State) (pos type : Nat) (payload : List Byte) : State :=
  match s.route pos with
  | some k => s.portSend k pos type payload
  | none => { s with dev := { s.dev with routeWait := s.dev.routeWait ++ [(pos, type, payload)] } }

/-- Payloads that wait go the way that the routes now give, or wait for one. -/
def State.sendEach (s : State) (l : List (Nat × Nat × List Byte)) : State :=
  l.foldl (fun acc x => acc.sendTo x.1 x.2.1 x.2.2) s

/-- The traffic of a port that is retired, unacknowledged or held back, goes another way or waits for one (R403, R404). -/
def State.reroute (s : State) (k : Nat) : State :=
  let p := s.port k
  (s.setPort k { p with sent := [], wait := [] }).sendEach (p.sent.map (·.2) ++ p.wait)

/-- The traffic toward a position that has not gone out, at the ports and without a route. -/
def State.unsent (s : State) (pos : Nat) : List (Nat × Nat × List Byte) :=
  s.ports.flatMap (fun p => p.wait.filter (·.1 = pos)) ++ s.dev.routeWait.filter (·.1 = pos)

/-- The route toward a position has changed: traffic for it that has not gone out takes the new one (R404). -/
def State.retake (s : State) (pos : Nat) : State :=
  State.sendEach { s with
    ports := s.ports.map fun p => { p with wait := p.wait.filter (·.1 ≠ pos) }
    dev := { s.dev with routeWait := s.dev.routeWait.filter (·.1 ≠ pos) } } (s.unsent pos)

/-- POS and the number of devices of a multi-device stand (R405). -/
def State.position (s : State) : Nat × Nat := (s.dev.mdpos.toNat % 64, s.dev.mdpos.toNat / 256 % 64 + 1)

/-- The flit TYPE of a message. -/
def bodyType : Config.PortBody → Nat
  | .packet .. => 1
  | .arrival .. => 2
  | .ended .. => 2
  | .restart .. => 2
  | .data .. => 3

/-- `n` bytes at a time. -/
def chunks (n : Nat) : (fuel : Nat) → List Byte → List (List Byte)
  | 0, _ => []
  | fuel + 1, b => if b.isEmpty then [] else b.take n :: chunks n fuel (b.drop n)

/-- The payloads of a message: at most 244 bytes each (R401). -/
def payloadsOf (m : Config.PortMessage) : List (List Byte) :=
  chunks 244 (Config.portEncode m).length (Config.portEncode m)

/-- Sends a message to one position. -/
def State.sendMessage (s : State) (pos : Nat) (b : Config.PortBody) : State :=
  s.sendEach ((payloadsOf ⟨pos, b⟩).map fun pl => (pos, bodyType b, pl))

/-- Sends a message to every other position of the multi-device stand. -/
def State.sendAll (s : State) (b : Config.PortBody) : State :=
  ((List.range s.position.2).filter (· ≠ s.position.1)).foldl (fun acc p => acc.sendMessage p b) s

end Sys2Proof.Machine
end

