-- ==== Sys2Proof/Machine/Slices.lean ====
section
/-! DEFINITION. Launch packets, their placement on the logical cores (spec/12_die_scheduling.md R302, R304), and the
counters of a node (R310, R311). -/

namespace Sys2Proof.Machine

/-! ### Packets (R302) -/

/-- Bits `hi..lo` of the eight bytes at an offset of a packet. -/
def packetField (p : List Byte) (off hi lo : Nat) : Nat := bitsOf (natOfBytes ((p.drop off).take 8)) hi lo

def packetND (p : List Byte) : Nat := packetField p 0x18 62 60
/-- The number of index points of dimension `d`. -/
def packetBound (p : List Byte) (d : Nat) : Nat := packetField p 0x18 (10 * d + 9) (10 * d) + 1
def packetDim (p : List Byte) (j : Nat) : Nat := packetField p 0x20 (3 * j + 2) (3 * j)
def packetStand (p : List Byte) : Nat := packetField p 0x20 27 25
def packetDet (p : List Byte) : Nat := packetField p 0x20 19 18

/-- T, the number of tiles (R304). -/
def packetTiles (p : List Byte) : Nat := (List.range (packetND p)).foldl (fun acc d => acc * packetBound p d) 1

/-- The first tile of logical core `i`'s slice (R304). -/
def sliceStart (tiles i : Nat) : Nat := i * tiles / 192

/-- The coordinates of tile `r` along the walk's remaining dimensions, as fields of TCOORD (R304, R25). -/
def coordinates (p : List Byte) (r : Nat) : List Nat → Nat
  | [] => 0
  | j :: js =>
    let d := packetDim p j
    r % packetBound p d * 2 ^ (10 * d) + coordinates p (r / packetBound p d) js

/-- TCOORD of a tile. -/
def packetCoord (p : List Byte) (t : Nat) : W64 := BitVec.ofNat 64 (coordinates p t (List.range (packetND p)))

def Node.tiles (n : Node) : Nat := packetTiles n.packet

/-- Tiles of a node on a core. -/
def Node.sliceSize (n : Node) (l : Nat) : Nat := sliceStart n.tiles (l + 1) - sliceStart n.tiles l

/-! ### Hosts -/

/-- A die's compute has failed. -/
def State.dieFailed (s : State) (d : Nat) : Bool := s.pkg.failed.getLsbD d

/-- The logical core whose host a logical core runs on: after adoption its partner on the surviving die (R366). -/
def State.partner (s : State) (l : Nat) : Nat :=
  if s.pkg.state = 1 ∧ s.dieFailed (l / 96) then (l + 96) % 192 else l

/-- Cluster and physical index of a logical core's host (R292). -/
def State.hostOf (s : State) (l : Nat) : Nat × Nat :=
  let p := s.partner l
  (p / 12, (s.cluster (p / 12)).map.toNat / 16 ^ (p % 12) % 16)

/-- The logical cores that a physical core hosts. -/
def State.hostedBy (s : State) (c k : Nat) : List Nat := (List.range 192).filter fun l => s.hostOf l == (c, k)

/-- A logical core shares its host with another. -/
def State.timeShared (s : State) (l : Nat) : Bool := s.pkg.state == 1 || (s.cluster (l / 12)).tsh.getLsbD (l % 12)

/-- A logical core has a host: its die's compute works, or has been adopted. -/
def State.hosted (s : State) (l : Nat) : Bool := s.pkg.state == 1 || !s.dieFailed (l / 96)

/-- A logical core is the resident one of its host (R295). -/
def State.resident (s : State) (l : Nat) : Bool :=
  s.hosted l && (!s.timeShared l || (s.cluster (s.hostOf l).1).resident.getD (s.hostOf l).2 l == l)

/-- A logical core runs now: it is resident, and within its slice (R295). -/
def State.runs (s : State) (l : Nat) : Bool :=
  s.resident l && (!s.timeShared l || decide (s.dcc < (s.cluster (s.hostOf l).1).sliceEnd.getD (s.hostOf l).2 0))

end Sys2Proof.Machine
end

