-- ==== Sys2Proof/Machine/Bolts.lean ====
section
/-! DEFINITION. Bolts: holding and releasing effects, the conditions and the completion of a seal, what a replay
discards (spec/06_task_traps_bolts.md R179 to R194), and the end of a task with the counters of its node
(spec/12_die_scheduling.md R310, R311). -/

namespace Sys2Proof.Machine

/-! ### Holding -/

/-- Places an effect in the current bolt's hold (R10, R182). -/
def State.hold (s : State) (i : HoldItem) (bytes : Nat) : State :=
  s.setBolt { s.task.bolt with
    work := { s.task.bolt.work with hold := s.task.bolt.work.hold ++ [i] }
    holdb := s.task.bolt.holdb + bytes }

/-- An operation that adds `n` bytes would pass the hold limit (R183). -/
def State.overHold (s : State) (n : Nat) : Bool := decide (65536 < s.task.bolt.holdb + n)

/-! ### Nodes (R310, R311) -/

def State.onNode (s : State) (q seq : Nat) (f : Node → Node) : State :=
  { s with nodes := s.nodes.map fun n => if n.queue = q ∧ n.seq = seq then f n else n }

def State.nodeAt (s : State) (q seq : Nat) : Option Node :=
  s.nodes.find? fun n => n.queue == q && n.seq == seq

def counter (c : Sparse Nat) (i : Nat) : Nat := sget (fun _ => 0) c i
def setCounter (c : Sparse Nat) (i v : Nat) : Sparse Nat := sset (fun _ => 0) c i v

/-- `k` tiles of a node on logical core `l` complete or are cancelled: a level combines upwards only when its lower
counter returns to zero (R311). -/
def Node.count (n : Node) (l k : Nat) : Node :=
  let core := counter n.left l - k
  let n1 := { n with left := setCounter n.left l core }
  if core ≠ 0 then n1
  else
    let cl := counter n1.clusters (l / 12) - 1
    let n2 := { n1 with clusters := setCounter n1.clusters (l / 12) cl }
    if cl ≠ 0 then n2
    else
      let d := counter n2.dies (l / 96) - 1
      let n3 := { n2 with dies := setCounter n2.dies (l / 96) d }
      if d ≠ 0 then n3 else { n3 with device := n3.device - 1 }

/-- The device counter reaching zero is a package event (R311). -/
def State.counted (s : State) (q seq : Nat) (f : Node → Node) : State :=
  let before := ((s.nodeAt q seq).elim 0 (·.device))
  let s1 := s.onNode q seq f
  let after := ((s1.nodeAt q seq).elim 0 (·.device))
  if before ≠ 0 ∧ after = 0 then s1.event q seq (.completion q seq) else s1

/-- Counts a tile. -/
def State.countTile (s : State) (q seq l : Nat) : State := s.counted q seq (·.count l 1)

/-- Every tile of a node that has not started is cancelled (R310). -/
def Node.cancelUnstarted (n : Node) : Node :=
  (List.range 192).foldl (fun (acc : Node) l =>
    let k := n.sliceSize l - counter n.started l
    if k = 0 then acc else ({ acc with started := setCounter acc.started l (n.sliceSize l) }).count l k) n

/-! ### Streams (R152 to R156) -/

def Core.stream (c : Core) (i : Nat) : Stream := c.streams.getD i .reset
def Core.setStream (c : Core) (i : Nat) (x : Stream) : Core := { c with streams := c.streams.set i x }

/-- The bytes of one stream among reserved or returned bytes. -/
def bytesOf (i : Nat) (l : List (Nat × Nat × Byte)) : List (Nat × Byte) :=
  l.filterMap fun x => if x.1 = i then some x.2 else none

/-- A byte at its place in stream order. -/
def insertByte (b : Nat × Byte) : List (Nat × Byte) → List (Nat × Byte)
  | [] => [b]
  | c :: cs => if b.1 ≤ c.1 then b :: c :: cs else c :: insertByte b cs

/-- Bytes appended to a stream. -/
def Stream.append (x : Stream) (bs : List Byte) : Stream :=
  { x with bytes := x.bytes ++ bs.zipIdx.map (fun b => (x.next + b.2, b.1)), next := x.next + bs.length }

/-- Stream bytes that a task has reserved or got back leave their streams for good, or return to the front of
the committed bytes, in their original order (R154). -/
def Core.settleStreams (c : Core) (l : List (Nat × Nat × Byte)) (giveBack : Bool) : Core :=
  (List.range 8).foldl (fun acc i =>
    let bs := bytesOf i l
    let x := acc.stream i
    acc.setStream i { x with
      bytes := if giveBack then bs.foldr insertByte x.bytes else x.bytes
      reserved := x.reserved - bs.length }) c

/-! ### Releasing (R181, R182, R194) -/

/-- Who releases an effect. -/
structure Releaser where
  queue : Nat
  seq   : Nat
  slot  : Nat
  tile  : Nat
  func  : Nat
  det   : Nat
  lcore : Nat
  part  : Nat
deriving DecidableEq, Repr

def Task.releaser (t : Task) : Releaser :=
  ⟨t.id.queue, t.id.seq, t.id.packet, t.id.tile, t.id.func, t.id.detlvl, t.id.lcore, t.id.part⟩

/-- The four quanta of a SKQSET word; a field of 0 leaves its quantum (R248). -/
def quantaOf (old : List Nat) (w : W64) : List Nat :=
  (List.range 4).map fun i =>
    let q := bitsOf w.toNat (16 * i + 15) (16 * i)
    if q = 0 then old.getD i 0 else 64 * q

/-- A released chain head: the channel starts, is restarted, or records a pending head (R251). -/
def Chain.head (c : Chain) (addr : W64) (cls lcore fn : Nat) : Chain :=
  if c.state = 1 then { c with pend := some (addr, cls, lcore, fn) }
  else { c with state := 1, cur := addr, cls, lcore, func := fn, tries := 0 }

/-- The lowest level still set in ENT (R280). -/
def lowestLevel (ent : BitVec 4) : Nat :=
  if ent.getLsbD 0 then 1 else if ent.getLsbD 1 then 2 else if ent.getLsbD 2 then 3 else if ent.getLsbD 3 then 4 else 0

def TaskStand.enter (z : TaskStand) (level : Nat) : TaskStand :=
  { z with ent := z.ent ||| BitVec.twoPow 4 (level - 1), act := level }

def TaskStand.leave (z : TaskStand) : TaskStand :=
  let e := z.ent &&& ~~~ BitVec.twoPow 4 (z.act - 1)
  { z with ent := e, act := lowestLevel e }

/-- The mailbox from a helper to a partition (R234, R265). -/
def Core.box (c : Core) (part which : Nat) : List W32 := sget (fun _ => []) c.boxes (2 * part + which)
def Core.setBox (c : Core) (part which : Nat) (b : List W32) : Core :=
  { c with boxes := sset (fun _ => []) c.boxes (2 * part + which) b }

/-- A word enters the mailbox from a helper to a partition (R234, R265). -/
def State.deliverMail (s : State) (l part which : Nat) (w : W32) : State :=
  let c := s.core l
  s.setCore (c.setBox part which (c.box part which ++ [w]))

/-- A plot change applied at the release of a PXFER, if the entry still shows the releasing owner (R333). -/
def State.transferPlot (s : State) (l plot nstate nowner : Nat) : State :=
  if s.plotState plot = 1 ∧ s.plotOwner plot = l then s.setPlot plot nstate nowner else s

/-- The task of a releaser, where it still runs. -/
def Releaser.of (r : Releaser) (t : Task) : Bool :=
  t.id.live && t.id.queue == r.queue && t.id.seq == r.seq && t.id.tile == r.tile

/-- Held bytes become visible, and are charged to the cluster, by a request where they lie in the host aperture; those whose plot has become foreign since they were checked
are refused (R333, R356, log 26). -/
def State.showOpen (s : State) (l fn : Nat) (cells : List Host.Cell) : State :=
  let open_ := cells.filter fun c => s.stillOpen l c.1
  ((s.chargeKeys (l / 12) (open_.map (·.1))).bus fn true (open_.map (·.1))).show open_

/-- One held effect becomes visible. -/
def State.releaseItem (s : State) (r : Releaser) : HoldItem → State
  | .store cells => s.showOpen r.lcore r.func cells
  | .moved cells => s.showOpen r.lcore r.func cells
  | .push i bs =>
    let c := s.core r.lcore
    let x := c.stream i
    s.setCore (c.setStream i { x.append bs with pending := x.pending - bs.length })
  | .post code payload =>
    s.event r.queue r.seq (.record r.func (recordBody 0x02
      (r.queue * 2 ^ 46 + r.slot * 2 ^ 32 + r.seq) (code.toNat * 2 ^ 32 + r.tile) payload.toNat))
  | .launch q pk => s.event r.queue r.seq (.launch q pk r.det r.func)
  | .spec k q p0 p1 => s.event r.queue r.seq (.spec q k p0 p1 r.queue r.seq r.det r.func (r.lcore / 96))
  | .decide k b => s.event r.queue r.seq (.decide r.queue r.seq k b)
  | .cord gid img => s.event r.queue r.seq (.cord gid img)
  | .pxfer plot st ow => s.transferPlot r.lcore plot st ow
  | .opreq rail op =>
    State.flagCapped (s.setPkg { s.pkg with rails := s.pkg.rails.modify rail fun x => { x with req := op } })
  | .skqset q =>
    let c := s.core r.lcore
    s.setCore { c with quanta := quantaOf c.quanta q }
  | .skchn ch head cls =>
    let d := s.die (r.lcore / 96)
    s.setDie (r.lcore / 96) { d with chains := d.chains.modify ch fun c => c.head head cls r.lcore r.func }
  | .zenter level => s.onTask ⟨r.lcore, r.part⟩ fun t => if r.of t then { t with stand := t.stand.enter level } else t
  | .zleave => s.onTask ⟨r.lcore, r.part⟩ fun t => if r.of t then { t with stand := t.stand.leave } else t
  | .mail part w => s.deliverMail r.lcore part (r.part - 16) w

/-- The release count kept in the shore for a task (R194). -/
def State.releasedCount (s : State) (r : Releaser) : Nat :=
  ((s.released.find? fun x => x.1 == r.queue && x.2.1 == r.slot && x.2.2.1 == r.tile).map (·.2.2.2)).getD 0

def State.setReleased (s : State) (r : Releaser) (n : Nat) : State :=
  { s with released := (r.queue, r.slot, r.tile, n) ::
      s.released.filter fun x => !(x.1 == r.queue && x.2.1 == r.slot && x.2.2.1 == r.tile) }

/-- Level changes touch nothing outside their task: a restarted task makes them again (log 17). -/
def HoldItem.own : HoldItem → Bool
  | .zenter _ => true
  | .zleave => true
  | _ => false

/-- An effect of a task in buffered mode goes to the speculation hold instead of being released (R318). -/
def State.bufferItem (s : State) (r : Releaser) (i : HoldItem) : State :=
  s.onNode r.queue r.seq fun n => { n with buffer := n.buffer ++ [(r.tile, ⟨r.lcore, r.part⟩, i)] }

/-- An effect that is not made again: pending stream bytes leave their stream (R153, R194). -/
def State.dropItem (s : State) (r : Releaser) : HoldItem → State
  | .push i bs =>
    let c := s.core r.lcore
    s.setCore (c.setStream i { c.stream i with pending := (c.stream i).pending - bs.length })
  | _ => s

/-- Held effects leave in held order, each under its release number; one below the recorded count is discarded (R194). -/
def State.releaseAll (s : State) (r : Releaser) (out : State → HoldItem → State) (no : Nat) : List HoldItem → State
  | [] => s
  | i :: is =>
    let s1 := if no < s.releasedCount r && !i.own then s.dropItem r i
      else State.setReleased (out s i) r (Nat.max (no + 1) (s.releasedCount r))
    s1.releaseAll r out (no + 1) is

/-! ### Seals (R181) -/

/-- Commands of the current bolt that a core still has. -/
def Core.boltBusy (c : Core) (part bolt : Nat) : Bool :=
  c.mq.any (fun x => x.who.part == part && x.who.bolt == bolt)
    || c.run.any (fun x => x.cmd.who.part == part && x.cmd.who.bolt == bolt)
    || c.sq.any (fun x => x.who.part == part && x.who.bolt == bolt && !x.done)

/-- Some page of a range lies in a plot. -/
def State.rangeNames (s : State) (cluster func : Nat) (a : W64) (n plot : Nat) : Bool :=
  decide (a.toNat < 0xF00000000000) && (List.range (n / 65536 + 2)).any fun i =>
    match s.translate cluster func (a.toNat + Nat.min (65536 * i) n) false with
    | .ok pa => pa / 2 ^ 21 == plot
    | .error _ => false

/-- A skidder command names a plot: some page of one of its ranges, the dictionary's among them, lies in it. -/
def State.skNames (s : State) (c : SkCmd) (cluster plot : Nat) : Bool :=
  let names := fun (a : W64) n => decide (0 < n) && s.rangeNames cluster c.func a n plot
  (c.pieces (c.len + 1) 0 c.len).any (fun p => names p.1 p.2.2 || (c.outSize == none && names p.2.1 p.2.2))
    || c.outSize.any (names c.dst) || names (BitVec.ofNat 64 c.dictRange.1) c.dictRange.2

/-- The key of a chain descriptor, whose reads accept owned, common and host plots (R329); chains address the pads of the
walking core (R251). -/
def State.chainKey (s : State) (l func : Nat) (a : W64) : Option Nat :=
  match placeOf l (s.padDie l) false a 64 with
  | .error _ => none
  | .ok (.corePad l' off _) => some (keyCorePad l' off)
  | .ok (.clusterPad c off) => some (s.clusterKey c off)
  | .ok (.diePad d off) => some (keyDiePad d off)
  | .ok (.global va) =>
    match s.translate (l / 12) func va false with
    | .ok pa => if s.plotState (pa / 2 ^ 21) ∈ [1, 2, 3] then some pa else none
    | .error _ => none

/-- Some descriptor that a chain has still to walk from an address on, up to one it would come to again, lies in a plot
or names it. -/
def State.chainNames (s : State) (l func plot : Nat) : (fuel : Nat) → (seen : List W64) → W64 → Bool
  | 0, _, _ => false
  | fuel + 1, seen, a =>
    match s.chainKey l func a with
    | none => false
    | some k =>
      let w := fun o => s.mem.word (k + o)
      let names := fun o n => decide (0 < n) && s.rangeNames (l / 12) func (BitVec.ofNat 64 (w o)) n plot
      k / 2 ^ 21 == plot || w 8 % 2 == 1 && (names 0x10 (w 0x20 % 2 ^ 32)
        || names 0x18 (if bitsOf (w 8) 7 4 = 0 then w 0x20 % 2 ^ 32 else w 0x20 / 2 ^ 32)
        || names 0x30 (if w 0x30 = 0 then 0 else w 0x38)
        || (w 0 != 0 && !seen.contains (BitVec.ofNat 64 (w 0))
          && s.chainNames l func plot fuel (a :: seen) (BitVec.ofNat 64 (w 0))))

/-- A chain of a logical core that names a plot, by its present or by its pending head. -/
def State.chainHolds (s : State) (l plot : Nat) (c : Chain) : Bool :=
  (c.state == 1 && c.lcore == l && s.chainNames l c.func plot (2 ^ 32) [] c.cur)
    || c.pend.any fun p => p.2.2.1 == l && s.chainNames l p.2.2.2 plot (2 ^ 32) [] p.1

/-- Nothing that a held PXFER has to drain is left: writes of the logical core's agents on their way to the controller,
and the skidder commands and chains that name the plot (R333). -/
def State.drained (s : State) (l plot : Nat) : Bool :=
  !((s.core l).sq.any fun c => !c.done && s.skNames c (l / 12) plot)
    && !(s.rmwQ.any fun r => r.who.lcore == l && r.addr / 2 ^ 21 == plot)
    && !((s.die (l / 96)).chains.any (s.chainHolds l plot))

/-- Bytes buffered in a die's speculation hold (R309, R318). -/
def holdBytes : List HoldItem → Nat
  | [] => 0
  | i :: is => holdBytes is + match i with
    | .store cells => cells.length
    | .moved cells => cells.length
    | .push _ bs => bs.length
    | .post .. => 32
    | .launch .. => 128
    | .spec .. => 256
    | .cord .. => 32
    | _ => 16

/-- The task of a node runs in buffered mode (R318). -/
def State.buffered (s : State) : Bool := (s.myNode.bind (·.spec)).isSome

/-- The effects that the speculation hold of a die pad keeps (R309). -/
def State.heldBy (s : State) (d : Nat) : List HoldItem :=
  s.nodes.flatMap fun n => (n.buffer.filter fun x => x.2.1.lcore / 96 == d).map (·.2.2)

/-- Speculations of a die: those open, and those released whose decision tick is to come (R301, R318). -/
def State.specsOf (s : State) (d : Nat) : Nat :=
  (s.specs.filter (·.die = d)).length + (s.events.filter fun e => match e.kind with
    | .spec _ _ _ _ _ _ _ _ die => die == d
    | _ => false).length

/-- The speculation hold has room, and no seventeenth speculation would open (R181, R318). -/
def State.specRoom (s : State) : Bool :=
  let work := s.task.bolt.work.hold
  (!s.buffered || decide (holdBytes work + holdBytes (s.heldBy s.myDie) ≤ 2 ^ 25))
    && (s.buffered || decide (s.specsOf s.myDie
      + (work.filter fun i => match i with | .spec .. => true | _ => false).length ≤ 16))

/-- A held effect can be released now: a store that would stall, one to a pad at rest, or a transfer whose plot is not
drained, waits (R186, R233, R260, R333). -/
def State.itemReady (s : State) (mark l : Nat) : HoldItem → Bool
  | .store cells => (s.asleep (cells.map (·.1))).isNone && !(granulesOf (cells.map (·.1))).any (s.writeStalls mark)
  | .moved cells => (s.asleep (cells.map (·.1))).isNone && !(granulesOf (cells.map (·.1))).any (s.writeStalls 0)
  | .pxfer plot _ _ => s.drained l plot
  | _ => true

/-- Whether the waits of a seal other than the 32 clocks are over (R181). -/
def State.sealConditions (s : State) : Bool :=
  let t := s.task
  !s.myCore.boltBusy t.id.part t.bolt.work.num && s.specRoom
    && t.bolt.work.hold.all (s.itemReady (claimMark t.id.lcore t.id.part) t.id.lcore)

/-- The 32 clocks after the results of an operation that is a bolt of its own are over (R180, R283). -/
def OwnBolt.over (o : OwnBolt) (now : Nat) : Bool := o.until_.any fun t => decide (t ≤ now)

/-- Every wait of a seal is over; the own bolt of an earlier operation seals first (R180, log 44). -/
def State.sealReady (s : State) : Bool :=
  decide (s.task.flow.quietAt ≤ s.dcc) && s.task.bolt.own.all (·.over s.dcc) && s.sealConditions

/-- The nest slot of a core. -/
def Core.nest (c : Core) (i : Nat) : NestSlot := c.nests.getD i .reset
def Core.setNest (c : Core) (i : Nat) (x : NestSlot) : Core := { c with nests := c.nests.set i x }

/-- The bolt-start snapshots (R181). -/
def State.snapshot (s : State) : BoltSnap where
  fq := s.task.eng.fq
  loop := s.task.flow.loop
  nest := s.task.flow.loop.map fun l => s.myCore.nest l.nest
  stage := s.task.flow.stage
  iter := s.task.flow.iter

/-- Claimed granules resolve: empty at a seal, full at a replay (R186). -/
def State.resolveClaims (s : State) (full : Bool) : List Nat → State
  | [] => s
  | k :: ks =>
    let s1 := match corePadOf k with
      | some (l, off) => s.setCore (((s.core l).setClaim (off / 16) 0).setFull (off / 16) full)
      | none => s
    s1.resolveClaims full ks

/-- Words that a bolt sent to the helpers become readable (R235). -/
def sealInbox (part bolt : Nat) (h : Helper) : Helper :=
  { h with inbox := h.inbox.map fun (p, w, sealed, b) => (p, w, sealed || (p == part && b == bolt), b) }

/-- Words that a replayed bolt sent are removed (R235). -/
def unsendInbox (part bolt : Nat) (h : Helper) : Helper :=
  { h with inbox := h.inbox.filter fun (p, _, sealed, b) => sealed || !(p == part && b == bolt) }

def State.onHelpers (s : State) (l : Nat) (f : Helper → Helper) : State :=
  (s.onHelper l 0 f).onHelper l 1 f

/-- A fresh bolt. -/
def BoltWork.fresh (num : Nat) : BoltWork := { BoltWork.reset with num }

/-- The held effects of the current bolt leave: released, or buffered while the node is speculative (R181, R318). -/
def State.releaseHold (s : State) : State :=
  let t := s.task
  let r := t.releaser
  let items := t.bolt.work.hold
  let s1 := s.releaseAll r (if s.buffered then fun s i => s.bufferItem r i else fun s i => s.releaseItem r i) t.bolt.relNo items
  s1.setBolt { s1.task.bolt with relNo := t.bolt.relNo + items.length }

/-- The completion of a seal; the next bolt begins at `next` (R181). Stream bytes that a replay returned and no pop took
again stay reserved to the task: DESIGN CHOICE (log 11). -/
def State.sealNow (s : State) (next : Nat) : State :=
  let t := s.task
  let w := t.bolt.work
  let s1 := s.releaseHold
  let s2 := s1.setCore (s1.myCore.settleStreams w.reserved false)
  let s2 := s2.forgetWriter (boltId (claimMark t.id.lcore t.id.part) w.num)
  let s3 := (s2.resolveClaims false w.claims).onHelpers t.id.lcore (sealInbox t.id.part w.num)
  let s4 := s3.setEng { s3.task.eng with marks := 0 }
  let s5 := if s4.task.stand.bst = 2 then s4 else s4.setStand { s4.task.stand with result := none }
  let s6 := s5.setLease { s5.task.lease with grant := none }
  s6.setBolt { s6.task.bolt with
    boltpc := next
    retry := 0
    holdb := if t.bolt.handler then (t.bolt.shadow.elim 0 (·.2.2)) else 0
    work := .fresh t.bolt.nextNum
    nextNum := t.bolt.nextNum + 1
    snap := s6.snapshot
    own := none
    restartable := t.bolt.restartable && !w.pushed }

/-! ### Cancelling commands and discarding a bolt (R188, R189) -/

/-- Lend counts of a command's pages fall (R259). -/
def Core.unlend (c : Core) : List Nat → Core
  | [] => c
  | p :: ps => (c.setLend p (c.lend p - 1)).unlend ps

/-- MMA and MMAG, which run on the array (R198). -/
def arrayOp (op : Nat) : Bool := op == 0x288 || op == 0x289

/-- Clocks of work that a running command has done by a tick. -/
def Running.done (r : Running) (now : Nat) : Nat := Nat.min r.left ((now - r.since) * r.rate / 352)

/-- The tick at which a running command ends. -/
def Running.ends (r : Running) : Nat := r.since + (352 * r.left + r.rate - 1) / r.rate + r.tail

/-- A command of core `home` has left the array it ran on, its own or a neighbour's: its clocks and its partition count
to that array's window, and the array is idle from now on (R225, R230). -/
def State.leaveArray (s : State) (home : Nat) (r : Running) : State :=
  if arrayOp r.cmd.op then
    let c := s.core (r.cmd.away.getD home)
    s.setCore { c with
      winClocks := c.winClocks + (r.done s.dcc - r.done c.window)
      winParts := (⟨home, r.cmd.who.part⟩ :: c.winParts).dedup
      idle := s.dcc }
  else s

/-- Cancels the engine and skidder commands that satisfy a test, with their lend marks (R188). -/
def Core.cancel (c : Core) (now : Nat) (who : Issuer → Bool) : Core :=
  let c1 := c.unlend ((c.mq.filter (fun x => who x.who)).flatMap (·.pages)
    ++ (c.run.filter (fun x => who x.cmd.who)).flatMap (·.cmd.pages))
  { c1 with
    idle := now
    mq := c1.mq.filter (fun x => !who x.who)
    run := c1.run.filter (fun x => !who x.cmd.who)
    sq := c1.sq.filter (fun x => !who x.who) }

/-- A core's engine and skidder commands that satisfy a test are cancelled. -/
def State.cancel (s : State) (l : Nat) (who : Issuer → Bool) : State :=
  let c := s.core l
  (c.run.filter fun r => who r.cmd.who).foldl (fun acc r => acc.leaveArray l r) (s.setCore (c.cancel s.dcc who))

/-- Bytes of pending pushes leave their streams (R153). -/
def Core.dropPushes (c : Core) : List HoldItem → Core
  | [] => c
  | .push i bs :: is =>
    (c.setStream i { c.stream i with pending := (c.stream i).pending - bs.length }).dropPushes is
  | _ :: is => c.dropPushes is

/-- The selected task's bolt of some work, as a writer. -/
def State.writerOf (s : State) (w : BoltWork) : Nat := boltId (claimMark s.task.id.lcore s.task.id.part) w.num

/-- What a bolt has gathered is discarded: holds and pending pushes vanish, claims return to full, words sent to
the helpers are removed (R186, R189). -/
def State.discardWork (s : State) (w : BoltWork) : State :=
  let t := s.task
  let s1 := s.setCore (s.myCore.dropPushes w.hold)
  ((s1.resolveClaims true w.claims).onHelpers t.id.lcore (unsendInbox t.id.part w.num)).forgetWriter (s.writerOf w)

/-! ### The end of a task (R35, R169, R310, R377) -/

/-- Log entries and release counts of a task are freed when its completion is counted (R193). -/
def State.freeLog (s : State) (r : Releaser) : State :=
  { s with
    replyLog := s.replyLog.filter fun x => !(x.queue == r.queue && x.packet == r.slot && x.tile == r.tile)
    released := s.released.filter fun x => !(x.1 == r.queue && x.2.1 == r.slot && x.2.2.1 == r.tile) }

/-- The first fault of a node, in order of tick and then TILE (R312). -/
def Node.withFault (n : Node) (f : FaultInfo) : Node :=
  { n with
    failed := true
    fault := match n.fault with
      | some g => if g.tick < f.tick ∨ (g.tick = f.tick ∧ g.tile ≤ f.tile) then some g else some f
      | none => some f }

/-- A task of a node ends as faulted; the node's unstarted tiles are cancelled on the decision tick (R301, R310). -/
def State.failNode (s : State) (q seq : Nat) (f : FaultInfo) : State := s.onNode q seq (·.withFault f)

/-- REM: ticks left of the active lease (R378). -/
def State.remaining (s : State) (l : TaskLease) : Nat := l.granted - (s.dcc - l.since)

/-- A lease ends (R377). -/
def TaskLease.ended (l : TaskLease) (last : Nat) : TaskLease :=
  if l.lvl = 0 then l else { l with lvl := 0, granted := 0, last, since := 0 }

/-- A phase declaration ends, keeping what was declared (R228, R231). -/
def TaskPhase.ended (p : TaskPhase) : TaskPhase :=
  { p with ramp := false, act := false, pend := false, level := 8, asked := false }

/-- The clock of a point of the matrix rail, in units of 50 MHz (R370). -/
def matrixPoint (opc : BitVec 3) : Nat := [18, 22, 26, 30, 33, 36, 40, 44].getD opc.toNat 44

/-- The present clock of the matrix rail, in units of 50 MHz: a tick is 44 of them (R8). -/
def State.matrixClock (s : State) : Nat := matrixPoint ((s.pkg.rails.map Rail.drive).getD 0 0)

/-- Ticks that some matrix-rail clocks take. -/
def State.matrixTicks (s : State) (clocks : Nat) : Nat := (44 * clocks + s.matrixClock - 1) / s.matrixClock

/-- The rate of a core's array in clocks a 352 ticks: the rail's clock, and the eighths of a ramp or a throttle (R229,
R230). -/
def State.arrayRate (s : State) (l : Nat) : Nat :=
  let c := s.core l
  Nat.min (8 * s.matrixClock) (44 * (s.tasks.filter fun t => t.id.live && t.id.lcore == l && t.phase.act && t.phase.ramp).foldl
    (fun acc t => Nat.min acc (Nat.max 1 t.phase.level)) (if c.thrt then Nat.max 1 c.thrLvl else 8))

/-- The rate of a command of core `h` on the unit that runs it. -/
def State.unitRate (s : State) (h : Nat) (c : MCmd) : Nat :=
  if arrayOp c.op then s.arrayRate (c.away.getD h) else 8 * s.matrixClock

/-- The commands of core `h` go on at the present rates; the work of its array commands so far counts to the present
windows. -/
def State.rerateRuns (s : State) (h : Nat) : State :=
  let c := s.core h
  let s1 := (c.run.filter fun r => arrayOp r.cmd.op).foldl (fun (acc : State) r =>
    let n := acc.core (r.cmd.away.getD h)
    acc.setCore { n with winClocks := n.winClocks + (r.done s.dcc - r.done n.window) }) s
  if c.run.isEmpty then s
  else s1.setCore { s1.core h with run := c.run.map fun r =>
    { r with since := Nat.max r.since s.dcc, left := r.left - r.done s.dcc, rate := s.unitRate h r.cmd } }

/-- The commands on a core's array, its neighbours' among them, go on at the present rate. -/
def State.rerate (s : State) (l : Nat) : State :=
  (List.range 12).foldl (fun acc i => acc.rerateRuns (l / 12 * 12 + i)) s

/-- The engine's declared level from the active declarations of its partitions (R229); a throttle level rises with
it, and falls as declarations end (R230). -/
def State.refreshLevel (s : State) (l : Nat) : State :=
  let level := Nat.min 8 ((s.tasks.filter fun t => t.id.live && t.id.lcore == l && t.phase.act).map
    (fun t => Nat.min 8 t.phase.int)).sum
  let c := s.core l
  State.rerate (s.setCore { c with
    phases := level
    thrLvl := if c.thrt then
        (if c.thrLvl < level then level
         else if level < c.phases then (if level = 0 then 2 else level) else c.thrLvl)
      else c.thrLvl }) l

/-- Resources return to the core and the node's counters fall. -/
def State.leaveCore (s : State) (r : Releaser) (granules : Nat) : State :=
  let c := s.core r.lcore
  let s1 := s.setCore { c with freeGran := c.freeGran + granules }
  let s2 := (s1.freeLog r).refreshLevel r.lcore
  let s3 := { s2 with stands := s2.stands.map fun (z : Stand) =>
    if z.queue = r.queue ∧ z.seq = r.seq ∧ z.lo ≤ r.tile ∧ r.tile < z.lo + z.n then
      { z with ended := z.ended ++ [z.base + (r.tile - z.lo)] } else z }
  let far := (s3.stands.find? fun (z : Stand) => z.queue == r.queue && z.seq == r.seq && z.level == 4).map fun z =>
    s3.sendAll (.ended r.queue r.seq (z.base + r.tile))
  (far.getD s3).countTile r.queue r.seq r.lcore

/-- The selected task ends; its sums go to its node (R312). -/
def State.closeTask (s : State) : State :=
  let t := s.task
  let s1 := s.onNode t.id.queue t.id.seq fun n => { n with
    ubrst := n.ubrst + t.phase.uburst.toNat
    repl := n.repl + t.bolt.replays
    degr := n.degr ||| t.bolt.degr }
  let s2 := s1.setTask { t with
    id := { t.id with live := false }
    lease := t.lease.ended 6
    phase := t.phase.ended }
  s2.leaveCore t.releaser (t.id.vgran + t.flow.freed)

/-- The selected task stops: its unsealed effects of both holds are discarded, its claims resolve, its reserved stream
bytes return, its commands are cancelled, and it waits at no controller (R169, R293, R310). -/
def State.abandon (s : State) : State :=
  let t := s.task
  let s1 := s.discardWork t.bolt.work
  let s2 := t.bolt.outer.elim s1 s1.discardWork
  let back := t.bolt.returned ++ (t.bolt.outer.elim [] (·.reserved)) ++ t.bolt.work.reserved
  let s3 := ((s2.setCore (s2.myCore.settleStreams back true)).cancel t.id.lcore fun w => w.part == t.id.part).setBolt
    { s2.task.bolt with returned := [], work := .fresh t.bolt.work.num, outer := none }
  { s3 with
    rmwQ := s3.rmwQ.filter fun x => x.who ≠ t.ref
    colls := s3.colls.map fun (x : Contribution) => if x.who = some t.ref then { x with who := none } else x }

/-- Stream bytes that a pre-empted task still reserves are committed again when it is dropped (R154). -/
def State.returnSaved (s : State) (x : SavedTask) : State :=
  s.setCore ((s.core x.task.id.lcore).settleStreams x.task.bolt.returned true)

/-- The selected task ends as faulted (R169, R310). -/
def State.endFaulted (s : State) (cls cause det : Nat) : State :=
  let t := s.task
  let s3 := s.abandon
  let s4 := s3.failNode t.id.queue t.id.seq ⟨s.dcc, t.id.tile, det, cause, cls⟩
  (s4.closeTask).event t.id.queue t.id.seq (.faultedEnd t.id.queue t.id.seq)

end Sys2Proof.Machine
end

