-- ==== Sys2Proof/Machine/Ops.lean ====
section
/-! DEFINITION. The shared operations of tile instructions: syndromes (R173 to R178), fetching halfwords (R64, R85,
R86), issue-time checks (R20, R21, R78), taking a trap (R165, R166, R169), taking a notice (R170), waiting, and the
return from a handler (R168, R110). -/

namespace Sys2Proof.Machine

/-- What a meaning answers. -/
abbrev Out := Host.Outcome State Fault Refusal

/-! ### Syndromes -/

/-- [63:56] CAUSE, [55:54] SLOT, [53:44] OP, [43:32] DETAIL, [31:0] INFO (R173, R174, R176). -/
def syndWord (cause slot op detail info : Nat) : W64 :=
  BitVec.ofNat 64 (cause % 256 * 2 ^ 56 + slot % 4 * 2 ^ 54 + op % 1024 * 2 ^ 44 + detail % 4096 * 2 ^ 32 + info % 2 ^ 32)

/-- The sync-class and hardware-error forms: CAUSE, SLOT or SOURCE above bit 47, an object below (R175, R178). -/
def syndObj (cause slot obj : Nat) : W64 :=
  BitVec.ofNat 64 (cause % 256 * 2 ^ 56 + slot % 4 * 2 ^ 54 + obj % 2 ^ 48)

/-- The memory-class form (R357); REASON has four bits, so code 16 is written as its low four (log 9). -/
def syndMem (e : MemFault) (slot acc : Nat) : W64 :=
  BitVec.ofNat 64 (e.cause % 256 * 2 ^ 56 + slot % 4 * 2 ^ 54 + acc % 4 * 2 ^ 52 + e.reason % 16 * 2 ^ 48 + e.addr.toNat)

/-- The engine-class form (R232). -/
def syndEngine (cause slot op tile detail cpos : Nat) : W64 :=
  BitVec.ofNat 64 (cause % 256 * 2 ^ 56 + slot % 4 * 2 ^ 54 + op % 1024 * 2 ^ 44 + tile % 4 * 2 ^ 42
    + detail % 1024 * 2 ^ 32 + cpos % 2 ^ 32)

/-- The power-class form (R379). -/
def syndPower (cause slot lvl melt ticks : Nat) : W64 :=
  BitVec.ofNat 64 (cause % 256 * 2 ^ 56 + slot % 4 * 2 ^ 54 + lvl % 4 * 2 ^ 52 + melt % 65536 * 2 ^ 32
    + Nat.min ticks (2 ^ 32 - 1))

/-- The hardware-error form (R178). -/
def syndHard (cause source limit addr : Nat) : W64 :=
  BitVec.ofNat 64 (cause % 256 * 2 ^ 56 + source % 16 * 2 ^ 52 + limit % 16 * 2 ^ 48 + addr % 2 ^ 48)

/-! ### Fetching (R64, R85, R86, R329) -/

/-- The halfword at an offset of the selected task's index stream; none when its translation fails. One that a store has
changed reads as any of its values (R68). -/
def State.half (s : State) (o : Nat) : Option Nat :=
  let va := s.task.id.stream + 2 * o
  if 0xF00000000000 ≤ va + 1 then none
  else match s.translate s.myCluster s.task.id.func va false with
    | .error _ => none
    | .ok pa =>
      if s.plotState (pa / 2 ^ 21) ∈ [1, 2, 3] then
        let now := natOfBytes (s.mem.readBytes pa 2)
        some (match sget (fun _ => []) s.oldCode pa with
          | [] => now
          | old => (now :: old).getD ((Config.freeBits s.epoch (2 ^ 27 + o) 16).toNat % (old.length + 1)) now)
      else none

/-- The halfwords at `n` offsets from `o` on, or the first offset that cannot be read. -/
def State.halves (s : State) (o : Nat) : Nat → Except Nat (List Nat)
  | 0 => .ok []
  | n + 1 =>
    match s.half o with
    | none => .error o
    | some h => match s.halves (o + 1) n with
      | .error x => .error x
      | .ok hs => .ok (h :: hs)

/-- A literal bundle from its 24 halfwords, the low bits first (R65). -/
def literalOf : List Nat → Nat
  | [] => 0
  | h :: hs => h + 65536 * literalOf hs

/-- The bundle at an offset and the offset after it, or CAUSE and INFO of the first defect (R64, R84, R85). -/
def State.fetchBundle (s : State) (o : Nat) : Except (Nat × Nat) (BundleWord × Nat) :=
  if s.task.id.clim ≤ o then .error (2, s.task.id.clim)
  else match s.half o with
    | none => .error (3, o)
    | some h =>
      if h = 0xFFFF then
        if s.task.id.clim < o + 25 then .error (2, s.task.id.clim)
        else match s.halves (o + 1) 24 with
          | .error x => .error (3, x)
          | .ok hs => .ok (BitVec.ofNat 384 (literalOf hs), o + 25)
      else if h < s.task.id.dsize then .ok (sget (fun _ => 0) s.myCore.dict (s.task.id.dbase + h), o + 1)
      else .error (1, h)

/-- The OP of a class 0b001 operation, if slot A of a bundle holds one (R109, R112). -/
def controlOp (b : Bundle) : Option Nat :=
  match b.a.bind opForm with
  | some (_, o) => if o.op / 128 = 1 then some o.op else none
  | none => none

/-- The length of a bundle by its first halfword (R64). DESIGN CHOICE (log 42): one that is only measured and is an invalid
index counts as one halfword. -/
def bundleLength (h : Nat) : Nat := if h = 0xFFFF then 25 else 1

/-- The offsets of `n` bundles in sequence from an offset on, and the offset after them, or the offset of a bundle
whose first halfword cannot be read, with whether it lies beyond CLIM (R109, R111). -/
def State.bodyOffsets (s : State) (o : Nat) : Nat → Except (Nat × Bool) (List Nat × Nat)
  | 0 => .ok ([], o)
  | n + 1 =>
    if s.task.id.clim ≤ o then .error (o, true)
    else match s.half o with
      | none => .error (o, false)
      | some h => match s.bodyOffsets (o + bundleLength h) n with
        | .ok (os, e) => .ok (o :: os, e)
        | .error e => .error e

/-! ### Taking a trap -/

/-- The EPC of a fault: the bundle's offset, or the REP's while it repeats (R165). -/
def State.faultPc (s : State) : Nat := s.task.flow.rep.elim s.task.flow.off (·.off)

/-- The low 32 bits of an offset; a transfer out of range reads 0xFFFF_FFFF (R106). -/
def offWord (o : Nat) : W32 := if 2 ^ 32 ≤ o then BitVec.allOnes 32 else BitVec.ofNat 32 o

/-- The end of the bolt of an operation of its own: BOLTPC moves on and RETRY is 0 (R180, R181). -/
def TaskBolt.endOwn (b : TaskBolt) : TaskBolt := match b.own with
  | none => b
  | some o => { b with boltpc := o.next, retry := 0, own := none }

/-- Entry to the handler: issue has stopped, every window has closed and 32 clocks have passed; the repeat and loop
states move to their shadows, the bolt's state to the bolt shadow, the syndrome is written and issue goes on at TVEC
(R166, R167, R110, R31). -/
def State.enterHandler (s : State) (r : TrapRec) : State :=
  let t := s.task
  let s1 := s.setRegs t.regs.close
  let s2 := s1.setSys { t.sys with synd := r.synd, sclass := r.sclass, epc := r.epc }
  let s3 := s2.setFlow { t.flow with
    pc := t.sys.tvec.toNat, nextPc := t.sys.tvec.toNat
    clk := t.regs.closedAt t.flow.clk
    holdOff := Nat.max t.flow.quietAt (s.dcc + (t.regs.closedAt t.flow.clk - t.flow.clk))
    rep := none, repSh := t.flow.rep, loop := none, loopSh := t.flow.loop, wait := none, safe := false, fate := .trapped r }
  let b := t.bolt.endOwn
  s3.setBolt { b with
    handler := true
    shadow := some (b.boltpc, b.retry, b.holdb)
    boltpc := t.sys.tvec.toNat
    retry := 0
    outer := some t.bolt.work
    outSnap := some t.bolt.snap
    work := .fresh t.bolt.nextNum
    nextNum := t.bolt.nextNum + 1
    snap := s3.snapshot
    before := some ⟨t.sys, t.flow.notices, t.bolt.own, t.bolt.boltpc, t.bolt.retry⟩ }

/-- TAKING A TRAP. An error already charged to the bolt supersedes it (R166, R170); in handler mode it is a double
trap, which ends the task as faulted (R169); otherwise the handler is entered. -/
def State.takeTrap (s : State) (r : TrapRec) : State :=
  if s.task.bolt.charged.isSome then s.setFlow { s.task.flow with fate := .trapped r }
  else if s.task.bolt.handler then
    let s1 := s.setFlow { s.task.flow with fate := .trapped r }
    s1.endFaulted 5 0x1A (bitsOf r.synd.toNat 63 56 * 256 + r.sclass.toNat)
  else s.enterHandler r

/-- A trap of a class at the bundle that issues. -/
def State.trap (s : State) (sclass : Nat) (synd : W64) : State :=
  s.takeTrap ⟨BitVec.ofNat 8 sclass, synd, offWord s.faultPc⟩

def State.slotNo (s : State) : Nat := if s.task.flow.inB then 1 else 0

/-- Instruction-class trap of the executing slot (R173). -/
def State.trapInstr (s : State) (op cause detail info : Nat) : State :=
  s.trap 5 (syndWord cause s.slotNo op detail info)
/-- Instruction-class trap of the bundle as a whole. -/
def State.trapBundle (s : State) (cause info : Nat) : State := s.trap 5 (syndWord cause 2 0 0 info)
/-- Memory-class trap; `acc` is 0 read, 1 write, 2 read-modify-write, 3 none (R357). -/
def State.trapMem (s : State) (e : MemFault) (acc : Nat) : State := s.trap 1 (syndMem e s.slotNo acc)
/-- Sync-class trap (R175). -/
def State.trapSync (s : State) (cause obj : Nat) : State := s.trap 6 (syndObj cause s.slotNo obj)
/-- Precise engine-class trap: SLOT is 1, CPOS the bundle's offset (R232). -/
def State.trapEngine (s : State) (op cause tile detail : Nat) : State :=
  s.trap 3 (syndEngine cause 1 op tile detail s.task.flow.off)
/-- Determinism-class trap (R176, R323). -/
def State.trapDet (s : State) (op cause : Nat) : State :=
  s.trap 8 (syndWord cause s.slotNo op (s.task.id.detlvl * 1024) 0)
/-- Hold limit exceeded (R183). -/
def State.trapHold (s : State) (op bytes : Nat) : State := s.trapInstr op 0x19 0 bytes

/-- Holds an effect, or traps before it holds anything (R183). -/
def State.holdOrTrap (s : State) (op bytes : Nat) (i : HoldItem) : State :=
  if s.overHold bytes then s.trapHold op bytes else s.hold i bytes

/-! ### Notices (R165, R170) -/

/-- The notice of the lowest SCLASS code, earliest first. -/
def firstNotice (l : List Notice) : Option Notice :=
  l.foldl (fun acc n => match acc with
    | none => some n
    | some m => if n.sclass.toNat < m.sclass.toNat then some n else some m) none

/-- A pending asynchronous notice is taken at a bundle boundary outside the handler; EPC is the next bundle, a
waiting instruction, or the REP whose repetition comes next. -/
def State.takeNotice (s : State) : State :=
  match firstNotice s.task.flow.notices with
  | none => s
  | some n =>
    if s.task.bolt.handler then s
    else
      let epc := s.task.flow.rep.elim s.task.flow.pc (·.off)
      let s1 := s.setFlow { s.task.flow with
        notices := s.task.flow.notices.erase n
        repix := s.task.flow.rep.elim s.task.flow.repix fun r => BitVec.ofNat 32 r.next }
      let s2 := s1.enterHandler ⟨n.sclass, n.synd, offWord epc⟩
      s2.setBolt { s2.task.bolt with
        before := s2.task.bolt.before.map fun e => { e with notices := s.task.flow.notices } }

/-! ### Waiting -/

/-- Two waits are the same: a load that waits for several granules goes on with one watchdog (R123, R161). -/
def WaitKind.sameAs : WaitKind → WaitKind → Bool
  | .fullEmpty _, .fullEmpty _ => true
  | x, y => x == y

/-- The bundle waits: it has not completed, and its wait keeps the tick it began (R123, R153). -/
def State.waitFor (s : State) (k : WaitKind) : State :=
  s.setFlow { s.task.flow with
    fate := .waits k
    wait := some ⟨k, match s.task.flow.wait with
      | some w => if w.kind.sameAs k then w.since else s.dcc
      | none => s.dcc, false, match s.task.flow.wait with
      | some w => w.clk
      | none => s.task.flow.clk⟩ }

/-- The deferred fault whose command was issued first in program order, of the engines in `es` (R232, R241). -/
def TaskEng.oldestFault (e : TaskEng) (es : List Nat) : Option DeferredFault :=
  (e.faults.filter fun x => es.contains x.engine).foldl (fun acc x => match acc with
    | none => some x
    | some y => if x.order < y.order then some x else some y) none

/-- Raises a deferred fault at the bundle that issues and consumes it (R232). -/
def State.surface (s : State) (x : DeferredFault) : State :=
  let s1 := s.setEng { s.task.eng with faults := s.task.eng.faults.erase x }
  s1.takeTrap ⟨x.sclass, x.synd, offWord s.faultPc⟩

/-- The oldest deferred fault of a command of the current bolt. -/
def State.boltFault (s : State) : Option DeferredFault :=
  TaskEng.oldestFault { s.task.eng with faults := s.task.eng.faults.filter (·.bolt = s.task.bolt.work.num) } [0, 1, 2, 3]

/-- The fault of one of its bolt's commands that a seal raises, once those commands have ended (R181). -/
def State.sealFault (s : State) : Option DeferredFault :=
  if s.myCore.boltBusy s.task.id.part s.task.bolt.work.num then none else s.boltFault

/-- At least 32 clocks have passed since the last operation issued: windows that have closed settle (R29, R181). -/
def State.afterQuiet (s : State) : State :=
  let clk := Nat.max s.task.flow.clk (s.task.flow.opClk + 32)
  (s.setRegs (s.task.regs.settle clk)).setFlow { s.task.flow with clk }

/-- The effect of a seal before an operation that implies one, or of SEAL itself: it raises a deferred fault, waits
until the seal can complete, or completes it with the next bolt at `next` and goes on (R180, R181). -/
def State.sealThen (s : State) (next : Nat) (k : State → State) : State :=
  match s.sealFault with
  | some x => s.surface x
  | none => if s.sealReady then k (s.afterQuiet.sealNow next) else s.waitFor (.seal next)

/-- The effect of SEAL before an operation that forms a bolt of its own (R180, R283, R376); one that begins the bolt that
replays has sealed already. -/
def State.sealOwn (s : State) (k : State → State) : State :=
  if s.task.flow.redo then k s else s.sealThen s.task.flow.off k

/-! ### Issue-time checks (R20, R21, R78, R84) -/

/-- The stepped value of a register field: a field of file v moves by the repetition's index times its stride
(R107, R108). -/
def stepped (file : Option RegFile) (x : BitVec 9) (stride : BitVec 6) (j : Nat) : Int :=
  if file = some .v then (x.toNat : Int) + j * stride.toInt else x.toNat

/-- The defect of one field: beyond the allotment, an unbound tile or nest slot; CAUSE, DETAIL, INFO. -/
def fieldDefect (vLimit : Nat) (abind : BitVec 4) (nbind : BitVec 8) (code : Nat) (file : Option RegFile)
    (x : Int) : Option (Nat × Nat × Nat) :=
  match file with
  | some .v => if x < 0 ∨ 511 < x ∨ (vLimit : Int) ≤ x then some (0x10, code, patternOf 32 x) else none
  | some .a => if abind.getLsbD x.toNat then none else some (0x11, 1, x.toNat)
  | some .n => if nbind.getLsbD x.toNat then none else some (0x11, 2, x.toNat)
  | _ => none

/-- The issue-time defect of an operation whose v fields move by `strides` (D, A, B, C) in repetition `j`:
CAUSE, OP, DETAIL, INFO. DESIGN CHOICE (log 42): of several, the field of lowest code is named. -/
def State.steppedDefect (s : State) (i : Instr) (sd sa sb sc : BitVec 6) (j : Nat) : Option (Nat × Nat × Nat × Nat) :=
  match opForm i with
  | none => none
  | some (f, o) =>
    let bad := fieldDefect s.vLimit s.task.id.abind s.task.id.nbind
    match (bad 4 o.d (stepped o.d f.d sd j)).or ((bad 5 o.a (stepped o.a f.a sa j)).or
        ((bad 6 o.b (stepped o.b f.b sb j)).or (bad 7 o.c (stepped o.c f.c sc j)))) with
    | some (cause, detail, info) => some (cause, o.op, detail, info)
    | none => none

/-- The issue-time defect of an operation: CAUSE, OP, DETAIL, INFO. -/
def State.issueDefect (s : State) (i : Instr) : Option (Nat × Nat × Nat × Nat) := s.steppedDefect i 0 0 0 0 0

/-- An operation executes when p[PNUM] XOR PN is 1 (R78). -/
def State.executes (s : State) (f : Slot) : Bool := s.p f.pnum.toNat != (f.pn == 1)

/-- An operation of a slot: its issue-time checks, then its effect, or nothing when it is suppressed (R78). -/
def guarded (i : Instr) (f : Slot) (s : State) (effect : State) : Out :=
  .next (match s.issueDefect i with
    | some (cause, op, detail, info) => s.trapInstr op cause detail info
    | none => if s.executes f then effect else s)

/-! ### The return from a handler (R168, R110) -/

/-- A bolt has gathered something that a seal resolves. -/
def BoltWork.pending (w : BoltWork) : Bool :=
  !w.hold.isEmpty || !w.claims.isEmpty || !w.reserved.isEmpty || !w.popped.isEmpty

/-- The handler's bolt has something to seal: held bytes or bytes charged to its hold, commands in flight, claims, reserved
bytes, popped elements or words for a helper (R167, R168; DESIGN CHOICE, log 44). -/
def State.handlerHolds (s : State) : Bool :=
  let b := s.task.bolt
  b.work.pending || b.holdb != b.shadow.elim 0 (·.2.2) || s.myCore.boltBusy s.task.id.part b.work.num
    || (List.range 2).any fun w => (s.helperAt s.task.id.lcore w).inbox.any fun x =>
      x.1 == s.task.id.part && !x.2.2.1 && x.2.2.2 == b.work.num

/-- An offset is one of the first `n` bundles in sequence from another on (R110). -/
def State.inBody (s : State) (epc : Nat) : (n : Nat) → (o : Nat) → Bool
  | 0, _ => false
  | n + 1, o => o == epc || (decide (o < s.task.id.clim) && match s.half o with
    | none => false
    | some h => s.inBody epc n (o + bundleLength h))

/-- Leaves handler mode: the bolt's state and the repeat and loop shadows come back, and issue goes on at EPC,
unless an error charged to the interrupted bolt makes it replay. -/
def State.leaveHandler (s : State) : State :=
  let t := s.task
  let epc := t.sys.epc.toNat
  let (bpc, retry, holdb) := t.bolt.shadow.getD (epc, 0, 0)
  let loop := t.flow.loopSh.filter fun l => s.inBody epc l.len l.start
  let rep := t.flow.repSh.filter (·.off = epc)
  let s1 := s.setFlow { t.flow with
    nextPc := rep.elim epc (·.body)
    rep, repSh := none, loop, loopSh := none }
  s1.setBolt { t.bolt with
    handler := false
    shadow := none
    boltpc := bpc
    retry
    holdb
    work := t.bolt.outer.getD (.fresh t.bolt.nextNum)
    nextNum := t.bolt.nextNum + 1
    outer := none
    snap := t.bolt.outSnap.getD s.snapshot
    outSnap := none
    charged := t.bolt.outCharged
    outCharged := none
    own := none }

/-- THE RETURN FROM A TRAP: a handler bolt that has gathered anything seals first (R168). -/
def State.returnFromTrap (s : State) : State :=
  if s.handlerHolds then s.sealThen s.task.flow.nextPc State.leaveHandler else s.leaveHandler

end Sys2Proof.Machine
end

