-- ==== Sys2Proof/Machine/Lanes.lean ====
section
/-! DEFINITION. Reductions, lane moves, masks and conditional streams (spec/05_vector_instructions.md R146 to R156). -/

namespace Sys2Proof.Machine

/-! ### Reductions (R146, R147, R284) -/

/-- The identity of a reduction, as a pattern. -/
def identityOf (rop t : Nat) : Nat :=
  match rop with
  | 0 => signOf t true
  | 1 => match intFmt t with
    | some (w, signed) => patternOf w (intMax w signed)
    | none => infOf t
  | 2 => match intFmt t with
    | some (w, signed) => patternOf w (intMin w signed)
    | none => infOf t + signOf t true
  | 3 => match intFmt t with
    | some (w, _) => 2 ^ w - 1
    | none => 0
  | _ => 0

/-- Combine on patterns; integer add is done exactly elsewhere. -/
def combine (rop t rnd : Nat) (sat : Bool) (x y : Nat) : Nat :=
  match rop with
  | 0 => convertTo t rnd sat none ((valueOf t x).add rnd (valueOf t y))
  | 1 => minMax false t x y
  | 2 => minMax true t x y
  | 3 => x &&& y
  | 4 => x ||| y
  | _ => x ^^^ y

/-- An integer add, which is exact until its end. -/
def exactAdd (rop t : Nat) : Bool := rop == 0 && (intFmt t).isSome

/-- The exact integer of a pattern. -/
def intValueOf (t x : Nat) : Int :=
  match intFmt t with
  | some (w, signed) => intOf w signed x
  | none => 0

/-- An exact sum limited once (R53). -/
def limitedSum (t : Nat) (sat : Bool) (n : Int) : Nat := convertTo t 0 sat none (.ofInt n)

/-- Halves of a list combined `k` times over, element i with element i + h. -/
def halves (op : Nat → Nat → Nat) : Nat → List Nat → List Nat
  | 0, xs => xs
  | k + 1, xs => halves op k (List.zipWith op (xs.take (xs.length / 2)) (xs.drop (xs.length / 2)))

/-- The elements that enter a reduction. -/
def State.reduced (s : State) (f : Slot) : List Nat :=
  (List.range (laneCount f.t)).map fun i =>
    if gov (typeWidth f.t) (s.m f.c.toNat) i then elem f.t (s.v f.a.toNat) i else identityOf f.cond f.t.toNat

/-- VRED (R146). -/
def execVred (f : Slot) (s : State) : Out :=
  let t := f.t.toNat
  let xs := s.reduced f
  let r := if exactAdd f.cond t then limitedSum t (f.sat == 1) (xs.map (intValueOf t)).sum
    else (halves (combine f.cond t (effRnd0 s f.rnd) (f.sat == 1)) (Nat.log2 xs.length) xs).headD 0
  guarded (.vred f) f s (s.put f.lat.toNat (.v f.d.toNat
    (laneMask (typeWidth f.t) fun i => i == 0 && gov (typeWidth f.t) (s.msel f) 0)
    (BitVec.ofNat 2048 r)))

/-- Running results of a scan: those before each element, and those after it. -/
def scanList {α : Type} (op : α → α → α) (acc : α) : List α → List (α × α)
  | [] => []
  | x :: xs => (acc, op acc x) :: scanList op (op acc x) xs

/-- VSCAN (R147). -/
def execVscan (f : Slot) (s : State) : Out :=
  let t := f.t.toNat
  let xs := s.reduced f
  let excl := f.qual.getLsbD 4
  let ys := if exactAdd f.cond t then
      (scanList (· + ·) 0 (xs.map (intValueOf t))).map fun p => limitedSum t (f.sat == 1) (if excl then p.1 else p.2)
    else
      (scanList (combine f.cond t (effRnd0 s f.rnd) (f.sat == 1)) (identityOf f.cond t) xs).map fun p =>
        if excl then p.1 else p.2
  guarded (.vscan f) f s (s.putLanes f fun i => ys.getD i 0)

/-! ### Lane moves (R148 to R151) -/

/-- VPERM (R148). -/
def execVperm (f : Slot) (s : State) : Out :=
  guarded (.vperm f) f s (s.putLanes f fun i =>
    elemBits (typeWidth f.t) (s.v f.a.toNat) (elemBits 8 (s.v f.b.toNat) i % laneCount f.t))

/-- VBCAST of a scalar (R149). -/
def execVbcast (f : Slot) (s : State) : Out :=
  guarded (.vbcast f) f s (s.putLanes f fun _ => (s.g f.a.toNat).toNat)

/-- VBCAST of a lane (R149). -/
def execVbcastLane (f : Slot) (s : State) : Out :=
  guarded (.vbcastLane f) f s (s.putLanes f fun _ => elemBits (typeWidth f.t) (s.v f.a.toNat) (f.imm.toNat % 256))

/-- VEXT (R149). -/
def execVext (f : Slot) (s : State) : Out :=
  guarded (.vext f) f s (s.putG f
    (extended (intOf (typeWidth f.t) (isSigned f.t) (elemBits (typeWidth f.t) (s.v f.a.toNat) (f.imm.toNat % 256)))))

/-- VIOTA (R150). -/
def execViota (f : Slot) (s : State) : Out :=
  guarded (.viota f) f s (s.putLanes f fun i => patternOf (typeWidth f.t) (f.imm.toInt + i))

/-- VIOTA counting the selected lanes before each lane (R150). -/
def execViotaCnt (f : Slot) (s : State) : Out :=
  let m := s.m f.c.toNat
  guarded (.viotaCnt f) f s (s.putLanes f fun i =>
    patternOf (typeWidth f.t) (f.imm.toInt + ((List.range i).filter (gov (typeWidth f.t) m)).length))

/-- KLOG (R151). -/
def execKlog (f : Slot) (s : State) : Out :=
  let on := governed (typeWidth f.t) (s.m f.a.toNat)
  guarded (.klog f) f s (s.putG f (BitVec.ofNat 64
    (on.getLast?.getD 0xFFFF * 2 ^ 32 + on.head?.getD 0xFFFF * 2 ^ 16 + on.length)))

/-! ### Conditional streams (R152 to R156) -/

/-- The stream that IMM names. -/
def streamNo (f : Slot) : Nat := f.imm.toNat % 8

/-- Free bytes of a stream (R152). -/
def State.streamFree (s : State) (i : Nat) : Nat :=
  let x := s.myCore.stream i
  65536 - (x.bytes.length + x.reserved + x.pending)

/-- The bytes available to the selected task: those a replay returned to it, then those committed (R154). -/
def State.streamAvailable (s : State) (i : Nat) : List (Nat × Byte) :=
  bytesOf i s.task.bolt.returned ++ (s.myCore.stream i).bytes

/-- The first `n` of the returned bytes of a stream, and the rest of all returned bytes. -/
def takeReturned (i : Nat) : Nat → List (Nat × Nat × Byte) → List (Nat × Nat × Byte)
  | _, [] => []
  | 0, l => l
  | n + 1, x :: l => if x.1 = i then takeReturned i n l else x :: takeReturned i (n + 1) l

/-- SPUSH (R153). -/
def State.pushStream (s : State) (f : Slot) : State :=
  let i := streamNo f
  let w := typeWidth f.t
  let bytes := (governed w (s.msel f)).flatMap fun j => bytesOfNat (w / 8) (elemBits w (s.v f.a.toNat) j)
  let b := bytes.length
  if b = 0 then s
  else if s.overHold b then s.trapHold 0x220 b
  else if s.streamFree i < b then s.waitFor (.stream i false b)
  else
    let c := s.myCore
    let x := c.stream i
    (s.setCore (c.setStream i { x with pending := x.pending + b })).hold (.push i bytes) b

/-- SPUSH (R153). -/
def execSpush (f : Slot) (s : State) : Out := guarded (.spush f) f s (s.pushStream f)

/-- Reserves the first `b` available bytes to the current bolt (R154). -/
def State.reserve (s : State) (i b : Nat) : State :=
  let bytes := (s.streamAvailable i).take b
  let back := Nat.min b (bytesOf i s.task.bolt.returned).length
  let c := s.myCore
  let x := c.stream i
  let s1 := s.setCore (c.setStream i { x with bytes := x.bytes.drop (b - back), reserved := x.reserved + (b - back) })
  let w := s1.task.bolt.work
  s1.setBolt { s1.task.bolt with
    returned := takeReturned i back s1.task.bolt.returned
    work := { w with reserved := w.reserved ++ bytes.map fun x => (i, x), pushed := true } }

/-- SPOP (R154). -/
def State.popStream (s : State) (f : Slot) : State :=
  let i := streamNo f
  let w := typeWidth f.t
  let lanes := governed w (s.msel f)
  let b := lanes.length * (w / 8)
  if b = 0 then s
  else if (s.streamAvailable i).length < b then s.waitFor (.stream i true b)
  else
    let bytes := ((s.streamAvailable i).take b).map (·.2)
    let record := fun j => natOfBytes ((bytes.drop (lanes.findIdx (· == j) * (w / 8))).take (w / 8))
    (s.reserve i b).putLanes f record

/-- SPOP (R154). -/
def execSpop (f : Slot) (s : State) : Out := guarded (.spop f) f s (s.popStream f)

/-- SCNT (R155). -/
def execScnt (f : Slot) (s : State) : Out :=
  guarded (.scnt f) f s (s.putG f
    (BitVec.ofNat 64 ((s.streamAvailable (streamNo f)).length / (typeWidth f.t / 8))))

end Sys2Proof.Machine
end

