-- ==== Sys2Proof/Machine/Planes.lean ====
section
/-! DEFINITION. The arithmetic of the matrix engine: format descriptors (spec/07_core_matrix.md R202, R203), planed
records (R205 to R207, spec/02_number_formats.md R57, R58), block products (R59 to R61), accumulator elements (R48,
R49, R60) and readout (R62). -/

namespace Sys2Proof.Machine

/-! ### Format descriptors (R202, R203) -/

abbrev Desc := BitVec 128

def Desc.field (d : Desc) (hi lo : Nat) : Nat := bitsOf (BitVec.toNat d) hi lo
def Desc.ty (d : Desc) (side : Bool) : Nat := if side then Desc.field d 38 34 else Desc.field d 29 25
def Desc.planes (d : Desc) (side : Bool) : Nat := (if side then Desc.field d 42 39 else Desc.field d 33 30) + 1
def Desc.scaled (d : Desc) (side : Bool) : Bool := if side then Desc.field d 44 44 == 1 else Desc.field d 43 43 == 1
/-- L, the LSB exponent. -/
def Desc.lsbe (d : Desc) : Int := intOf 9 true (Desc.field d 63 55)
def Desc.uses (d : Desc) : Nat := Desc.field d 7 0

/-- Types that a descriptor accepts as operands (R37). -/
def matrixTypes : List Nat := [1, 2, 5, 6, 9, 10, 11, 12, 13, 14, 17, 18]

/-- The plane counts R57 permits. -/
def planesOk (ty p : Nat) : Bool :=
  match ty with
  | 14 => p == 5
  | 17 | 18 => p == 4
  | 1 | 5 => p == 8
  | 2 | 6 => p == 16
  | _ => decide (2 ≤ p ∧ p ≤ 16)

/-- The rule of the block-scale bits: set only for the small floats, and always for e2m1. -/
def scaledOk (ty : Nat) (bs : Bool) : Bool := if bs then [12, 13, 14].contains ty else ty != 14

/-- The lowest bit position among the offending fields of a descriptor (R203). -/
def Desc.defect (d : Desc) : Option Nat :=
  if Desc.field d 24 8 ≠ 0 then some 8
  else if !matrixTypes.contains (Desc.ty d false) then some 25
  else if !planesOk (Desc.ty d false) (Desc.planes d false) then some 30
  else if !matrixTypes.contains (Desc.ty d true) then some 34
  else if !planesOk (Desc.ty d true) (Desc.planes d true) then some 39
  else if !scaledOk (Desc.ty d false) (Desc.scaled d false) then some 43
  else if !scaledOk (Desc.ty d true) (Desc.scaled d true) then some 44
  else if !(setReadout.contains (Desc.field d 54 50) && Desc.field d 54 50 != 0) then some 50
  else if Desc.lsbe d < -160 ∨ 63 < Desc.lsbe d then some 55
  else none

/-- One use of the head of a format queue, and the queue after it (R204). -/
def takeUse : List Desc → Option (Desc × List Desc)
  | [] => none
  | d :: ds => some (d, if Desc.uses d = 0 then ds else BitVec.ofNat 128 (BitVec.toNat d - 1) :: ds)

/-- RecSize (R205). -/
def recSize (p : Nat) : Nat := (p + 4) * 1024 + 256

/-! ### Planing (R57, R58, R61, R207) -/

/-- The class bits Z, P and M of a planed element (R205). -/
structure ClassBits where
  z : Bool
  p : Bool
  m : Bool
deriving DecidableEq, Repr

/-- S and X of a BS9 scale (R44). -/
def scaleParts (sc : Nat) : Nat × Int := if sc / 16 = 0 then (sc % 16, -18) else (16 + sc % 16, (sc / 16 : Nat) - 19)

/-- The exponent of the largest finite nonzero element of a block. -/
def blockTop (xs : List FVal) : Option Int :=
  xs.foldl (fun acc x => match x with
    | .fin _ m e => if m = 0 then acc else some (match acc with
      | none => Nat.log2 m + e
      | some t => max t (Nat.log2 m + e))
    | _ => acc) none

/-- log2 U of a block (R58); types that are not aligned have a fixed exponent (R59). -/
def alignExp (ty p : Nat) (xs : List FVal) : Int :=
  if ty = 14 then -1
  else if (intFmt ty).isSome then 0
  else match blockTop xs with
    | some m => m - p + 2
    | none => 0

/-- The planed integer of an element in units of 2^u, and whether it was clamped (R57, R58). -/
def planed (ty p arnd : Nat) (u : Int) (x : FVal) : Int × Bool :=
  match x with
  | .fin neg m e =>
    let q := roundInt arnd neg m 1 (e - u)
    if (floatFmt ty).isNone || ty = 14 then (q, false)
    else
      let top : Int := 2 ^ (p - 1) - 1
      if q < -top then (-top, true) else if top < q then (top, true) else (q, false)
  | _ => (0, false)

/-- The class bits PLANE writes; the Z bit of a NaN is open (R205) and is `free`. -/
def classOf (x : FVal) (scale : Option Nat) (q : Int) (free : Bool) : ClassBits :=
  match x with
  | .nan => ⟨free, true, true⟩
  | .inf neg => if scale = some 0 then ⟨free, true, true⟩ else ⟨false, !neg, neg⟩
  | .fin neg m _ =>
    if m = 0 ∨ scale = some 0 then ⟨true, false, false⟩
    else if q = 0 then ⟨true, !neg, neg⟩ else ⟨false, false, false⟩

/-- A planed block: its integers, classes, factor record, and whether an integer was clamped. The scale has no part in
the integers (R58, R207). -/
structure PlanedBlock where
  qs    : List Int
  cls   : List ClassBits
  fac   : Nat
  clamp : Bool
deriving DecidableEq, Repr

/-- A factor record (R206). -/
def factorRecord (nb : Bool) (x : Int) (sig : Nat) : Nat := (if nb then 2 ^ 15 else 0) + patternOf 10 x * 32 + sig % 32

/-- The plane count of a float operand on an engine that caps it (R63); e2m1 and integers are never capped. -/
def cappedCount (ty p : Nat) : Nat := if (floatFmt ty).isSome ∧ ty ≠ 14 then Nat.min p 8 else p

/-- Planes one block of 16 source patterns, aligned with `p` planes; S and X beside a NaN-block mark are open (`freeFac`). -/
def planeBlock (ty p arnd : Nat) (scale : Option Nat) (freeFac : Nat) (freeZ : Nat → Bool) (xs : List Nat) : PlanedBlock :=
  let vs := xs.map (valueOf ty)
  let u := alignExp ty p vs
  let qc := vs.map (planed ty p arnd u)
  let qs := qc.map (·.1)
  { qs
    cls := (List.range 16).map fun i => classOf (vs.getD i .nan) scale (qs.getD i 0) (freeZ i)
    fac := match scale with
      | none => factorRecord false u 1
      | some 0x1FF => 2 ^ 15 + freeFac % 2 ^ 15
      | some sc => let (sg, x) := scaleParts sc; factorRecord false (x + u) sg
    clamp := qc.any (·.2) }

/-- Eight bits of a byte. -/
def byteOfBits (f : Nat → Bool) : Byte := BitVec.ofNat 8 (packLanes 1 (fun i => (f i).toNat) 8)

/-- The 64 planed integers and classes of a line of a record. -/
def lineQs (bs : List PlanedBlock) : List Int := bs.flatMap (·.qs)
def lineCls (bs : List PlanedBlock) : List ClassBits := bs.flatMap (·.cls)

/-- The bytes of a plane over 128 lines of 64 bits. -/
def planeBytes (lines : List (List Bool)) : List Byte :=
  lines.flatMap fun l => (List.range 8).map fun c => byteOfBits fun i => l.getD (8 * c + i) false

/-- The checksum words of a record: column sums (R205). -/
def checksumWords (lines : List (List Int)) : List Nat :=
  (List.range 64).map fun k => patternOf 32 (lines.map fun l => l.getD k 0).sum

/-- The bytes of a planed record of 128 lines of four blocks (R205). -/
def recordBytes (p : Nat) (lines : List (List PlanedBlock)) : List Byte :=
  let qs := lines.map lineQs
  let cls := lines.map lineCls
  (List.range p).flatMap (fun t => planeBytes (qs.map fun l => l.map fun q => (patternOf p q).testBit t))
    ++ planeBytes (cls.map fun l => l.map (·.z)) ++ planeBytes (cls.map fun l => l.map (·.p))
    ++ planeBytes (cls.map fun l => l.map (·.m))
    ++ lines.flatMap (fun l => l.flatMap fun b => bytesOfNat 2 b.fac)
    ++ (checksumWords qs).flatMap (bytesOfNat 4)

/-- The pattern of source element (r, k) (R207). -/
def sourceElem (rd : Nat → Byte) (base pitch : Nat) (tr : Bool) (ty r k : Nat) : Nat :=
  let w := typeWidth (BitVec.ofNat 5 ty)
  let bit := if tr then 8 * (k * pitch) + r * w else 8 * (r * pitch) + k * w
  if w = 4 then (rd (base + bit / 8)).toNat / 2 ^ (bit % 8) % 16
  else natOfBytes ((List.range (w / 8)).map fun i => rd (base + bit / 8 + i))

/-- Scale number `i` of a scale array, or the index of its word when the word's bit 63 is set (R45). -/
def scaleAt (rd : Nat → Byte) (base i : Nat) : Except Nat Nat :=
  let word := natOfBytes ((List.range 8).map fun j => rd (base + 8 * (i / 7) + j))
  if word / 2 ^ 63 ≠ 0 then .error (i / 7) else .ok (word / 2 ^ (9 * (i % 7)) % 512)

/-! ### Reading records (R205, R206) -/

/-- The class of a scaled element (R61). -/
inductive ScaledClass where
  | zero
  | finite (neg : Bool)
  | inf (neg : Bool)
  | nan
deriving DecidableEq, Repr

/-- What the array takes of an element: its integer and its class. -/
def takenElem (q : Int) (c : ClassBits) : Int × ScaledClass :=
  if c.p && c.m then (0, .nan)
  else if c.z then (0, if c.p then .finite false else if c.m then .finite true else .zero)
  else if c.p then (0, .inf false)
  else if c.m then (0, .inf true)
  else (q, .finite (decide (q < 0)))

/-- A line of a record: 64 elements as the array takes them, the integers that its planes hold, and the factor records of
its blocks. -/
structure RecLine where
  elems : List (Int × ScaledClass)
  raw   : List Int
  facs  : List Nat
deriving DecidableEq, Repr

/-- Line `r` of the record of `p` planes at a key. -/
def readLine (m : Memory) (key p : Nat) (unsigned : Bool) (r : Nat) : RecLine :=
  let bit := fun plane k => (m.read (key + plane * 1024 + 8 * r + k / 8)).getLsbD (k % 8)
  let held := fun k => intOf p (!unsigned) (packLanes 1 (fun t => (bit t k).toNat) p)
  { elems := (List.range 64).map fun k => takenElem (held k) ⟨bit p k, bit (p + 1) k, bit (p + 2) k⟩
    raw := (List.range 64).map held
    facs := (List.range 4).map fun b => natOfBytes (m.readBytes (key + (p + 3) * 1024 + 8 * r + 2 * b) 2) }

/-- The checksum row of a record. -/
def readChecksum (m : Memory) (key p : Nat) : List Nat :=
  (List.range 64).map fun k => natOfBytes (m.readBytes (key + (p + 4) * 1024 + 4 * k) 4)

/-- Block `b` of a line: 16 elements. -/
def RecLine.block (l : RecLine) (b : Nat) : List (Int × ScaledClass) := (l.elems.drop (16 * b)).take 16

/-! ### Block products and accumulation (R59 to R61) -/

def facNan (f : Nat) : Bool := decide (2 ^ 15 ≤ f)
def facExp (f : Nat) : Int := intOf 10 true (f / 32)
def facSig (f : Nat) : Nat := f % 32

/-- The class of a product (R61). -/
def productClass : ScaledClass → ScaledClass → ScaledClass
  | .nan, _ | _, .nan => .nan
  | .inf _, .zero | .zero, .inf _ => .nan
  | .inf s, .inf s' => .inf (s != s')
  | .inf s, .finite s' | .finite s, .inf s' => .inf (s != s')
  | .zero, _ | _, .zero => .zero
  | .finite s, .finite s' => .finite (s != s')

/-- D, the exact block dot product. -/
def dotProduct (a b : List (Int × ScaledClass)) : Int := (List.zipWith (fun x y => x.1 * y.1) a b).sum

/-- The tag of a block's contribution: 0 finite, 1 +∞, 2 −∞, 3 NaN. -/
def blockTag (fa fb : Nat) (a b : List (Int × ScaledClass)) : BitVec 2 :=
  let cs := List.zipWith (fun x y => productClass x.2 y.2) a b
  let pos := cs.contains (.inf false)
  let neg := cs.contains (.inf true)
  if facNan fa || facNan fb || cs.contains .nan || (pos && neg) then 3 else if pos then 1 else if neg then 2 else 0

/-- The rounded contribution of a block pair in units of 2^L. -/
def contribution (l : Int) (rnd fa fb : Nat) (d : Int) : Int :=
  roundInt rnd (decide (d < 0)) (d.natAbs * facSig fa * facSig fb) 1 (facExp fa + facExp fb - l)

/-- Two tags together (R61). -/
def joinTags (a b : BitVec 2) : BitVec 2 := a ||| b

def accMin : Int := -(2 ^ 95)
def accMax : Int := 2 ^ 95 - 1

/-- An integer limited to 96 bits, and whether it was (R60). -/
def accLimit (q : Int) : Int × Bool := if q < accMin then (accMin, true) else if accMax < q then (accMax, true) else (q, false)

/-- An element with a contribution added, and whether the sum saturated. -/
def AElem.add (x : AElem) (tag : BitVec 2) (c : Int) : AElem × Bool :=
  let t := joinTags x.tag tag
  if t ≠ 0 then (⟨0, t⟩, false)
  else let (q, sat) := accLimit (x.q + c); (⟨q, 0⟩, sat)

/-- The contributions of a line pair of one K step, block by block. -/
def addLines (l : Int) (rnd : Nat) (a b : RecLine) (x : AElem × Bool) : AElem × Bool :=
  (List.range 4).foldl (fun acc k =>
    let fa := a.facs.getD k 0
    let fb := b.facs.getD k 0
    let (y, sat) := acc.1.add (blockTag fa fb (a.block k) (b.block k))
      (contribution l rnd fa fb (dotProduct (a.block k) (b.block k)))
    (y, acc.2 || sat)) x

/-! ### Tiles (R48, R49, R21) -/

/-- What an unlisted element of a tile reads as: finite zero, or an unspecified element of the epoch the tile's contents
became unspecified in. -/
def Tile.default (t : Tile) (k : Nat) : AElem :=
  match t.undef with
  | none => ⟨0, 0⟩
  | some e =>
    let x : BitVec 98 := Config.freeBits e (2 ^ 24 + k) 98
    if x.setWidth 2 = 0 then ⟨(x.extractLsb' 2 96).toInt, 0⟩ else ⟨0, x.setWidth 2⟩

/-- Element `k` of a tile, row-major. -/
def Tile.elem (t : Tile) (k : Nat) : AElem := sget t.default t.elems k

/-- A tile whose every element is finite zero, with an LSB exponent and clear flags (R219). -/
def Tile.cleared (l : Int) : Tile := ⟨[], none, l, false, false, false⟩

/-- A tile with all its elements given. -/
def Tile.filled (t : Tile) (f : Nat → AElem) : Tile :=
  { t with undef := none, elems := (List.range 16384).filterMap fun k => if f k = ⟨0, 0⟩ then none else some (k, f k) }

/-- The 16 bytes of an element (R49). -/
def AElem.image (x : AElem) : List Byte := bytesOfNat 12 (patternOf 96 x.q) ++ [x.tag.setWidth 8, 0, 0, 0]

/-- The element of a 16-byte image, or nothing when it breaks R49. -/
def elemOfImage (b : List Byte) : Option AElem :=
  let q := intOf 96 true (natOfBytes (b.take 12))
  let hi := natOfBytes (b.drop 12)
  if 4 ≤ hi ∨ (hi ≠ 0 ∧ q ≠ 0) then none else some ⟨q, BitVec.ofNat 2 hi⟩

/-- The element of a loaded f32 or s32, and whether it saturated (R220). -/
def elemOfValue (l : Int) (rnd : Nat) : FVal → AElem × Bool
  | .nan => (⟨0, 3⟩, false)
  | .inf neg => (⟨0, if neg then 2 else 1⟩, false)
  | .fin neg m e => let (q, sat) := accLimit (roundInt rnd neg m 1 (e - l)); (⟨q, 0⟩, sat)

/-- V of an element under the scales of a descriptor (R62); a zero reads as +0. -/
def readoutValue (d : Desc) (l : Int) (x : AElem) : FVal :=
  let sa := valueOf 9 (Desc.field d 95 64)
  let sb := valueOf 9 (Desc.field d 127 96)
  let base : FVal := if x.tag = 3 then .nan else if x.tag = 1 then .inf false else if x.tag = 2 then .inf true
    else .fin (decide (x.q < 0)) x.q.natAbs l
  match (base.mul sa).mul sb with
  | .fin neg m e => .fin (neg && m != 0) m e
  | v => v

end Sys2Proof.Machine
end

