-- ==== Sys2Proof/Machine/Matrix.lean ====
section
/-! DEFINITION. Class 0b101: the instructions of the matrix engine and of the nest slots, at issue
(spec/07_core_matrix.md R198 to R223, R228; spec/08_core_movement.md R256). -/

namespace Sys2Proof.Machine

/-! ### Address ranges (R209) -/

/-- The key of a range that lies in the own core pad, or in the cluster or die pad where `anyPad` permits them; `padKey`
maps the keys of an adopted cluster's pad. -/
def State.padRange (s : State) (anyPad : Bool) (addr : W64) (n align : Nat) : Option Nat :=
  if addr.toNat % align ≠ 0 then none
  else match s.place addr n with
    | .ok (.corePad l off false) => some (keyCorePad l off)
    | .ok (.clusterPad c off) => if anyPad then some (keyClusterPad c off) else none
    | .ok (.diePad d off) => if anyPad then some (keyDiePad d off) else none
    | _ => none

/-- The 2 KiB pages of a core pad that a range of keys lies in. -/
def pagesOf (key n : Nat) : List Nat :=
  match corePadOf key with
  | some (_, off) => (List.range ((off + n - 1) / 2048 - off / 2048 + 1)).map (off / 2048 + ·)
  | none => []

/-! ### Entering the queue (R199, R204, R259) -/

/-- A tile command takes one use of the head descriptor, or traps (R204). -/
def State.withDesc (s : State) (op tile : Nat) (k : Desc → List Desc → State) : State :=
  match takeUse s.task.eng.fq with
  | none => s.trapEngine op 0x01 tile 0
  | some (d, fq) => k d fq

/-- The issuer of a command that enters a queue now; its tag is the tick of entry. -/
def State.issuer (s : State) : Issuer :=
  ⟨s.task.id.part, s.task.bolt.work.num, s.task.eng.order, BitVec.ofNat 32 s.task.flow.off, s.dcc⟩

/-- Counts a command for the program order of deferred faults. -/
def State.countCommand (s : State) : State := s.setEng { s.task.eng with order := s.task.eng.order + 1 }

/-- Lend counts of pages rise. -/
def Core.lendPages (c : Core) : List Nat → Core
  | [] => c
  | p :: ps => (c.setLend p (c.lend p + 1)).lendPages ps

/-- A tile command that enters its queue: it adds the bytes it will hold, or stalls for an entry or for a lend. -/
def State.enqueueTile (s : State) (fq : List Desc) (c : MCmd) (held : Nat) (marks : TaskEng → TaskEng) : State :=
  let core := s.myCore
  if s.overHold held then s.trapHold c.op held
  else if 16 ≤ (core.mq.filter fun x => x.who.part = s.task.id.part).length ∨ c.pages.any (fun p => decide (3 ≤ core.lend p))
    then s.waitFor .stall
  else
    let s1 := s.setCore { core.lendPages c.pages with mq := core.mq ++ [c] }
    let s2 := s1.setEng (marks { s1.task.eng with fq })
    (s2.setBolt { s2.task.bolt with holdb := s2.task.bolt.holdb + held }).countCommand

/-- A command with the fields that every tile command has. -/
def State.command (s : State) (f : Slot) (op : Nat) (d : Desc) (tile : Nat) : MCmd where
  who := s.issuer
  op; desc := d; tile
  a := 0; b := 0; c := 0; k := 1; acc := false; smode := 0; stamp := 0; side := false; tr := false; pitch := 0
  row := 0; rows := 0; ty := f.t.toNat; rnd := effRnd0 s f.rnd; res := f.res; con := f.con; pages := []
  groups := none; oldest := none; tau := none; passed := false; away := none

/-- The initialising of a tile at retirement: its mark and its L (R213, R218). -/
def initTile (tile : Nat) (l : Int) (e : TaskEng) : TaskEng :=
  { e with marks := e.marks ||| BitVec.twoPow 4 tile, tileL := e.tileL.set tile l }

/-! ### FPUSH, PLANE -/

/-- FPUSH (R203). -/
def execFpush (f : Slot) (s : State) : Out :=
  let d : Desc := s.g f.b.toNat ++ s.g f.a.toNat
  guarded (.fpush f) f s
    (if 8 ≤ s.task.eng.fq.length then s.trapEngine 0x280 0x02 0 0
     else match Desc.defect d with
      | some bit => s.trapEngine 0x280 0x03 0 bit
      | none => s.setEng { s.task.eng with fq := s.task.eng.fq ++ [d] })

/-- Bytes from the first to past the last source element of a PLANE (R207). -/
def sourceExtent (tr : Bool) (pitch w k : Nat) : Nat :=
  if tr then (64 * k - 1) * pitch + 128 * w / 8 else 127 * pitch + 64 * k * w / 8

/-- The runs of bytes that hold the source elements of a PLANE: its rows, or its K positions under TR (R207). -/
def sourceRuns (a : Nat) (tr : Bool) (pitch w k : Nat) : List (Nat × Nat) :=
  if tr then (List.range (64 * k)).map fun i => (a + i * pitch, 128 * w / 8)
  else (List.range 128).map fun r => (a + r * pitch, 64 * k * w / 8)

/-- PLANE (R207). -/
def execPlane (f : Slot) (s : State) : Out :=
  guarded (.plane f) f s (s.withDesc 0x281 0 fun d fq =>
    let side := f.qual.getLsbD 0
    let tr := f.qual.getLsbD 1
    let k := f.q 8 2 + 1
    let pitch := f.imm.toNat % 2 ^ 24
    let ty := Desc.ty d side
    let w := typeWidth (BitVec.ofNat 5 ty)
    let p := Desc.planes d side
    let bs := Desc.scaled d side
    let extent := sourceExtent tr pitch w k
    let words := (512 * k + 6) / 7
    match s.padRange true (s.g f.a.toNat) extent (Nat.max 1 (w / 8)) with
    | none => s.trapEngine 0x281 0x06 0 1
    | some a =>
      match if bs then s.padRange true (s.g f.c.toNat) (8 * words) 8 else some 0 with
      | none => s.trapEngine 0x281 0x06 0 3
      | some c =>
        match s.padRange false (s.g f.b.toNat) (k * recSize p) 256 with
        | none => s.trapEngine 0x281 0x06 0 4
        | some b =>
          let arnd := Desc.field d 49 47
          let cmd := { s.command f 0x281 d 0 with
            a, b, c, k, side, tr, pitch
            rnd := effRnd0 s (BitVec.ofNat 3 arnd)
            pages := ((sourceRuns a tr pitch w k).flatMap (fun r => pagesOf r.1 r.2)
              ++ (if bs then pagesOf c (8 * words) else [])).dedup }
          s.enqueueTile fq cmd 0 id)

/-! ### MMA and MMAG (R212 to R218) -/

/-- The offset of an address stream of the nest slot a command names. -/
def State.nestOffset (s : State) (f : Slot) (stream : Nat) : Int :=
  if f.qual.getLsbD 10 then (s.myCore.nest f.c.toNat).offset stream else 0

/-- MMA and MMAG: addresses, the initialisation mark, the exponent, then the queue. -/
def State.multiply (s : State) (f : Slot) (op : Nat) (grouped : Bool) : State :=
  let tile := f.d.toNat % 4
  s.withDesc op tile fun d fq =>
    let k := f.q 6 0 + 1
    let acc := f.qual.getLsbD 7
    let bOff := s.nestOffset f 1
    let l := s.task.eng.tileL.getD tile 0
    let aLen := k * recSize (Desc.planes d false)
    let bLen := if grouped then 8 else k * recSize (Desc.planes d true)
    match s.padRange false (s.g f.a.toNat + BitVec.ofInt 64 (s.nestOffset f 0)) aLen 256 with
    | none => s.trapEngine op 0x06 tile 1
    | some a =>
      match if grouped then s.padRange false (s.g f.b.toNat) bLen 16
          else s.padRange false (s.g f.b.toNat + BitVec.ofInt 64 bOff) bLen 256 with
      | none => s.trapEngine op 0x06 tile 2
      | some b =>
        if acc && !s.task.eng.marks.getLsbD tile then s.trapEngine op 0x04 tile 0
        else if acc && Desc.lsbe d != l then s.trapEngine op 0x05 tile (patternOf 9 l)
        else
          let cmd := { s.command f op d tile with
            a, b, k, acc, c := patternOf 64 bOff, smode := f.q 9 8, stamp := f.imm.toNat
            pages := (pagesOf a aLen ++ pagesOf b bLen).dedup }
          s.enqueueTile fq cmd 0 (if acc then id else initTile tile (Desc.lsbe d))

/-- MMA (R212). -/
def execMma (f : Slot) (s : State) : Out := guarded (.mma f) f s (s.multiply f 0x288 false)
/-- MMAG (R214). -/
def execMmag (f : Slot) (s : State) : Out := guarded (.mmag f) f s (s.multiply f 0x289 true)

/-! ### The tile port (R219 to R223) -/

/-- MCLR (R219). -/
def execMclr (f : Slot) (s : State) : Out :=
  let tile := f.d.toNat % 4
  guarded (.mclr f) f s (s.withDesc 0x28A tile fun d fq =>
    s.enqueueTile fq (s.command f 0x28A d tile) 0 (initTile tile (Desc.lsbe d)))

/-- Bytes of a whole tile in memory (R220). -/
def tileBytes (ty : Nat) : Nat := if ty = 16 then 262144 else 65536

/-- MLDA (R220). -/
def execMlda (f : Slot) (s : State) : Out :=
  let tile := f.d.toNat % 4
  let n := tileBytes f.t.toNat
  guarded (.mlda f) f s (s.withDesc 0x28B tile fun d fq =>
    match s.padRange true (s.g f.a.toNat) n 16 with
    | none => s.trapEngine 0x28B 0x06 tile 1
    | some a =>
      s.enqueueTile fq { s.command f 0x28B d tile with a, pages := pagesOf a n } 0 (initTile tile (Desc.lsbe d)))

/-- The unit a tile command runs on. -/
def unitTakes (u : EngUnit) (op : Nat) : Bool :=
  match u with
  | .array => arrayOp op
  | .planing => op == 0x281
  | .tilePort => op == 0x28A || op == 0x28B || op == 0x290 || op == 0x291

def unitIndex : EngUnit → Nat
  | .array => 0
  | .planing => 1
  | .tilePort => 2

/-- The core runs a command for a neighbour. -/
def State.guest (s : State) (l : Nat) : Bool :=
  (List.range 12).any fun i => (s.core (l / 12 * 12 + i)).run.any fun r => r.cmd.away == some l

/-- A unit runs no command, a neighbour's on the array among them (R198). -/
def State.unitFree (s : State) (l : Nat) (u : EngUnit) : Bool :=
  !((s.core l).run.any fun r => unitTakes u r.cmd.op && r.cmd.away.isNone) && (u != .array || !s.guest l)

/-- An MRD of a partition can take the tile port: every earlier command of the partition has started, those that name the
tile are complete, no guest is to be sent home, and the port is free (R198, R199, R221, R227). -/
def State.readoutReady (s : State) (l part tile : Nat) : Bool :=
  let c := s.core l
  !(c.mq.any fun x => x.who.part == part)
    && !(c.run.any fun x => x.cmd.who.part == part && x.cmd.op != 0x281 && x.cmd.tile == tile)
    && !s.guest l && s.unitFree l .tilePort

/-- Distance of a partition from the one served last, going up with wrap-around (R200). -/
def turnOf (served part : Nat) : Nat := (part + 15 - served) % 16

/-- The partition that the tile port has served last. -/
def Core.portServed (c : Core) : Nat := c.served.getD 2 15

/-- An MRD of another partition, ready as well, comes before a candidate of the tile port (R200). -/
def State.readoutFirst (s : State) (l part : Nat) : Bool :=
  s.tasks.any fun t => t.id.live && t.id.lcore == l && t.flow.wait.any fun w => match w.kind with
    | .readout k => decide (turnOf (s.core l).portServed t.id.part < turnOf (s.core l).portServed part)
        && s.readoutReady l t.id.part k
    | _ => false

/-- MRD runs on the tile port in its turn, once every earlier command on the tile is complete (R200, R221). -/
def execMrd (f : Slot) (s : State) : Out :=
  let tile := f.a.toNat % 4
  let e := f.imm.toNat % 2 ^ 14
  guarded (.mrd f) f s (s.withDesc 0x290 tile fun d fq =>
    let ty := if f.t = 0 then Desc.field d 54 50 else f.t.toNat
    let w := typeWidth (BitVec.ofNat 5 ty)
    let n := 2048 / w
    if e % n ≠ 0 then s.trapInstr 0x290 0x08 11 0
    else if !s.readoutReady s.task.id.lcore s.task.id.part tile || s.readoutFirst s.task.id.lcore s.task.id.part then
      s.waitFor (.readout tile)
    else
      let t := s.myCore.tiles.getD tile .reset
      let s1 := s.setCore { s.myCore with served := s.myCore.served.set 2 s.task.id.part }
      (s1.setEng { s1.task.eng with fq }).put f.lat.toNat (.v f.d.toNat (BitVec.allOnes 2048)
        (vregOf w fun i => convertTo ty (effRnd0 s f.rnd) (f.sat == 1) none (readoutValue d t.l (t.elem (e + i))))))

/-- MST (R222). -/
def execMst (f : Slot) (s : State) : Out :=
  let tile := f.a.toNat % 4
  let row := f.imm.toNat % 128
  let rows := f.imm.toNat / 256 % 128 + 1
  guarded (.mst f) f s (s.withDesc 0x291 tile fun d fq =>
    match s.padRange true (s.g f.b.toNat) (2048 * rows) 16 with
    | none => s.trapEngine 0x291 0x06 tile 4
    | some b =>
      s.enqueueTile fq { s.command f 0x291 d tile with b, row, rows } (if s.ownPad b then 0 else 2048 * rows) id)

/-- Tile commands of the selected partition not yet complete. -/
def State.pending (s : State) : Nat :=
  (s.myCore.mq.filter fun x => x.who.part = s.task.id.part).length
    + (s.myCore.run.filter fun x => x.cmd.who.part = s.task.id.part).length

/-- Four bits, one for each bound tile that satisfies a test. -/
def State.tileBits (s : State) (test : Tile → Bool) : Nat :=
  packLanes 1 (fun k => (s.task.id.abind.getLsbD k && test (s.myCore.tiles.getD k .reset)).toNat) 4

/-- Some element of a tile has a tag other than finite. -/
def Tile.special (t : Tile) : Bool := (List.range 16384).any fun k => (t.elem k).tag != 0

/-- MSTAT (R223). -/
def execMstat (f : Slot) (s : State) : Out :=
  let word := s.pending * 2 ^ 32 + s.task.eng.fifo0.length * 2 ^ 24 + s.tileBits (·.capd) * 2 ^ 20
    + s.tileBits Tile.special * 2 ^ 12 + s.tileBits (·.clamp) * 2 ^ 8 + s.tileBits (·.accsat) * 2 ^ 4
  guarded (.mstat f) f s
    (if f.qual.getLsbD 1 && s.pending != 0 then s.waitFor .stall
     else
      let s1 := s.putG f (BitVec.ofNat 64 word)
      if f.qual.getLsbD 0 then
        let c := s1.myCore
        s1.setCore { c with tiles := (List.range 4).map fun k =>
          let t := c.tiles.getD k .reset
          if s.task.id.abind.getLsbD k then { t with clamp := false, accsat := false, capd := false } else t }
      else s1)

/-! ### PHASE (R228) -/

/-- A declaration made at a tick; one of INT or LEN 0 only ends the declaration, and PHSTAT shows its fields (R228,
R387). -/
def TaskPhase.declare (p : TaskPhase) (x : W64) (t0 : Nat) : TaskPhase :=
  let int := bitsOf x.toNat 39 36
  let len := bitsOf x.toNat 35 20
  let onset := bitsOf x.toNat 19 0
  let on := decide (int ≠ 0 ∧ len ≠ 0)
  { p.ended with int, len, onset, t0, ramp := on && decide (64 * onset < 4400), pend := on }

/-- PHASE (R228). -/
def execPhase (f : Slot) (s : State) : Out :=
  guarded (.phase f) f s
    (let x := if f.psel = 0 then s.g f.a.toNat else s.poolSel f
     (s.setPhase (s.task.phase.declare x s.dcc)).refreshLevel s.task.id.lcore)

/-! ### NSET (spec/08_core_movement.md R256) -/

/-- NSET: loads a nest image from the own core pad. -/
def execNset (f : Slot) (s : State) : Out :=
  let ptr := s.g f.a.toNat
  guarded (.nset f) f s
    (match s.place ptr 128 with
     | .error r => s.trapMem ⟨1, r, ptr.setWidth 48⟩ 0
     | .ok pl =>
      if ptr.toNat % 16 ≠ 0 then s.trapMem ⟨2, 0, ptr.setWidth 48⟩ 0
      else match pl with
        | .corePad l off false =>
          if !s.myCore.awake s.dcc then s.waitFor (.pad l) else
          let image := (List.range 128).map fun i => s.loadByte (keyCorePad l off + i)
          match nestDefect image with
          | some o => s.trapEngine 0x2A0 0x20 0 o
          | none =>
            let s1 := s.noteReads ((List.range 128).map (keyCorePad l off + ·))
            s1.setCore (s1.myCore.setNest f.c.toNat (nestFields image))
        | _ => s.trapMem ⟨1, 16, ptr.setWidth 48⟩ 0)

/-- nset.rst. -/
def execNsetRst (f : Slot) (s : State) : Out :=
  guarded (.nsetRst f) f s (s.setCore (s.myCore.setNest f.c.toNat (s.myCore.nest f.c.toNat).rewind))

/-- nset.step. -/
def execNsetStep (f : Slot) (s : State) : Out :=
  guarded (.nsetStep f) f s (s.setCore (s.myCore.setNest f.c.toNat (s.myCore.nest f.c.toNat).step))

/-- nset.off. -/
def execNsetOff (f : Slot) (s : State) : Out :=
  guarded (.nsetOff f) f s (s.putG f (BitVec.ofInt 64 ((s.myCore.nest f.c.toNat).offset (f.imm.toNat % 4))))

end Sys2Proof.Machine
end

