-- ==== Sys2Proof/Machine/Codec.lean ====
section
/-! DEFINITION. The chipper's transforms: the plane-run codec (spec/15_package.md R384) and the LZ4 block format (R383). -/

namespace Sys2Proof.Machine

/-- What a transform wrote, and the CODE with which it failed: 3 output over OUTMAX, 4 malformed input (R249). -/
structure Transformed where
  out  : List Byte
  code : Option Nat
deriving DecidableEq, Repr

/-- Output held to a capacity. -/
def transformed (cap : Nat) (out : List Byte) (code : Option Nat) : Transformed :=
  if cap < out.length then ⟨out.take cap, some 3⟩ else ⟨out, code⟩

/-! ### Plane runs (R384) -/

/-- Expansion, with at most `fuel` tokens; `acc` is the output so far. -/
def expandRuns (cap : Nat) (acc : List Byte) : Nat → List Byte → Transformed
  | _, [] => transformed cap acc none
  | 0, _ => transformed cap acc none
  | fuel + 1, t :: rest =>
    let t := t.toNat
    if cap < acc.length then transformed cap acc none
    else if t < 0x80 then
      if rest.length < t + 1 then transformed cap acc (some 4)
      else expandRuns cap (acc ++ rest.take (t + 1)) fuel (rest.drop (t + 1))
    else if t < 0xC0 then expandRuns cap (acc ++ List.replicate (t - 0x7F) 0) fuel rest
    else if t < 0xFF then
      match rest with
      | [] => transformed cap acc (some 4)
      | b :: more => expandRuns cap (acc ++ List.replicate (t - 0xBE) b) fuel more
    else
      match rest with
      | a :: b :: more => expandRuns cap (acc ++ List.replicate (natOfBytes [a, b] + 65) 0) fuel more
      | _ => transformed cap acc (some 4)

/-- Length of the run of a byte at the start of a list. -/
def runLength (b : Byte) : List Byte → Nat
  | [] => 0
  | c :: cs => if c = b then runLength b cs + 1 else 0

/-- The token of rule 1, 2 or 3 at a position, and the bytes it covers. -/
def runToken : List Byte → Option (List Byte × Nat)
  | [] => none
  | b :: bs =>
    let n := runLength b (b :: bs)
    if b = 0 then
      let z := Nat.min n 65600
      if 65 ≤ z then some (0xFF :: bytesOfNat 2 (z - 65), z)
      else if 2 ≤ z then some ([BitVec.ofNat 8 (0x7F + z)], z) else none
    else
      let r := Nat.min n 64
      if 3 ≤ r then some ([BitVec.ofNat 8 (0xBE + r), b], r) else none

/-- A literal token for the gathered bytes, if there are any. -/
def literalToken (lits : List Byte) : List Byte :=
  if lits.isEmpty then [] else BitVec.ofNat 8 (lits.length - 1) :: lits

/-- Compression, greedy and exact; `lits` are the literal bytes gathered, `fuel` the input length. -/
def compressRuns (lits : List Byte) : Nat → List Byte → List Byte
  | _, [] => literalToken lits
  | 0, _ => literalToken lits
  | fuel + 1, b :: bs =>
    match runToken (b :: bs) with
    | some (tok, n) => literalToken lits ++ tok ++ compressRuns [] fuel ((b :: bs).drop n)
    | none =>
      if lits.length = 127 then literalToken (lits ++ [b]) ++ compressRuns [] fuel bs
      else compressRuns (lits ++ [b]) fuel bs

/-! ### LZ4 blocks (R383; the block format is an outside standard, log 12) -/

/-- A length whose four-bit field is `n`, with the bytes that extend it; nothing when the input ends. -/
def lz4Length (n : Nat) : List Byte → Option (Nat × List Byte)
  | bs => if n < 15 then some (n, bs) else more 15 bs
where
  more (acc : Nat) : List Byte → Option (Nat × List Byte)
    | [] => none
    | b :: bs => if b = 255 then more (acc + 255) bs else some (acc + b.toNat, bs)

/-- A match of `n` bytes at a distance back in what precedes it. -/
def lz4Match (off : Nat) : Nat → List Byte → List Byte
  | 0, acc => acc
  | n + 1, acc => lz4Match off n (acc ++ [acc.getD (acc.length - off) 0])

/-- Expansion of an LZ4 block: `acc` holds the dictionary and the output so far, `skip` the dictionary's length. -/
def expandLz4 (cap skip : Nat) (acc : List Byte) : Nat → List Byte → Transformed
  | 0, _ => transformed cap (acc.drop skip) (some 4)
  | _, [] => transformed cap (acc.drop skip) (some 4)
  | fuel + 1, t :: rest =>
    let out := acc.drop skip
    if cap < out.length then transformed cap out none
    else match lz4Length (t.toNat / 16) rest with
      | none => transformed cap out (some 4)
      | some (n, r1) =>
        if r1.length < n then transformed cap out (some 4)
        else
          let acc1 := acc ++ r1.take n
          match r1.drop n with
          | [] => transformed cap (acc1.drop skip) none
          | lo :: hi :: r2 =>
            let off := natOfBytes [lo, hi]
            if off = 0 ∨ acc1.length < off then transformed cap (acc1.drop skip) (some 4)
            else match lz4Length (t.toNat % 16) r2 with
              | none => transformed cap (acc1.drop skip) (some 4)
              | some (m, r3) =>
                let m := Nat.min (m + 4) (cap + skip + 1 - Nat.min acc1.length (cap + skip + 1))
                expandLz4 cap skip (lz4Match off m acc1) fuel r3
          | _ => transformed cap (acc1.drop skip) (some 4)

/-- The transform of a move descriptor: XF 1 to 4 (R249). -/
def transform (xf cap : Nat) (dict input : List Byte) : Transformed :=
  match xf with
  | 1 => transformed cap (Config.lz4Compress dict input) none
  | 2 => expandLz4 cap dict.length dict (input.length + 1) input
  | 3 => transformed cap (compressRuns [] input.length input) none
  | _ => expandRuns cap [] input.length input

end Sys2Proof.Machine
end

