-- ==== Sys2Proof/Machine/Skidder.lean ====
section
/-! DEFINITION. The skidder (spec/08_core_movement.md R234, R238 to R250): what a command's next chunk reads and writes,
when it is ready, which chunk comes next under deficit round-robin, and how a chunk moves. -/

namespace Sys2Proof.Machine

/-! ### Addresses (R241, R328) -/

/-- Whose accesses a transfer makes: walking core, translation context, whether sibling windows are open to it. -/
structure SkCtx where
  lcore : Nat
  func  : Nat
  sib   : Bool
deriving DecidableEq, Repr

/-- The physical address of a byte that the skidder reaches in the global window (R328). -/
def State.skByte (s : State) (x : SkCtx) (write : Bool) (va : Nat) : Except Nat Nat :=
  match s.translate (x.lcore / 12) x.func va write with
  | .error r => .error r
  | .ok pa =>
    let st := s.plotState (pa / 2 ^ 21)
    if st = 2 ∨ st = 3 ∨ (st = 1 ∧ s.plotOwner (pa / 2 ^ 21) = x.lcore) then .ok pa else .error (plotReason st)

/-- The keys of a global range page by page, up to the first byte that cannot be reached. -/
def State.skPages (s : State) (x : SkCtx) (write : Bool) : (fuel va n : Nat) → List Nat × Option MemFault
  | 0, _, _ => ([], none)
  | fuel + 1, va, n =>
    if n = 0 then ([], none)
    else match s.skByte x write va with
      | .error r => ([], some ⟨8, r, BitVec.ofNat 48 va⟩)
      | .ok pa =>
        let here := Nat.min n (65536 - va % 65536)
        let (ks, e) := s.skPages x write fuel (va + here) (n - here)
        ((List.range here).map (pa + ·) ++ ks, e)

/-- The keys of a range, up to the first byte that cannot be reached. -/
def State.skKeys (s : State) (x : SkCtx) (write : Bool) (addr : W64) (n : Nat) : List Nat × Option MemFault :=
  if n = 0 then ([], none)
  else match placeOf x.lcore (s.padDie x.lcore) x.sib addr n with
    | .error r => ([], some ⟨8, r, addr.setWidth 48⟩)
    | .ok (.global va) => s.skPages x write (n / 65536 + 2) va n
    | .ok (.corePad l off _) => ((List.range n).map (keyCorePad l off + ·), none)
    | .ok (.clusterPad c off) => (s.clusterKeys c off n, none)
    | .ok (.diePad d off) => ((List.range n).map (keyDiePad d off + ·), none)

/-- The bytes of a range, or the first fault. -/
def State.skRead (s : State) (x : SkCtx) (addr : W64) (n : Nat) : Except MemFault (List Byte) :=
  match s.skKeys x false addr n with
  | (ks, none) => .ok (ks.map s.mem.read)
  | (_, some e) => .error e

/-! ### Faults (R241, R246, R250) -/

/-- A deferred fault of a skidder command. -/
inductive SkFault where
  | transfer (e : MemFault) (acc : Nat)
  | engine (cause detail : Nat)
deriving DecidableEq, Repr

/-- The cause a helper's fault element carries (R264). -/
def SkFault.cause : SkFault → Nat
  | .transfer .. => 8
  | .engine cause _ => cause

/-- SCLASS and SYND of the fault when it surfaces. -/
def SkFault.synd (f : SkFault) (c : SkCmd) : BitVec 8 × W64 :=
  match f with
  | .transfer e acc => (1, syndMem e 2 acc)
  | .engine cause detail => (3, syndEngine cause 2 c.op 0 detail c.who.cpos.toNat)

/-! ### What the next chunk does (R239, R240) -/

/-- The transfer of a chain, which counts as partition 18 and up (R251). -/
def SkCmd.ofChain (c : SkCmd) : Bool := decide (18 ≤ c.who.part)

/-- The claimant that a command acts for; a chain acts for none. -/
def SkCmd.mark (c : SkCmd) (l : Nat) : Nat := if c.ofChain then 0 else claimMark l c.who.part

/-- Bytes of the full granules from an own-pad offset on, at most `16 * fuel` (R239). -/
def Core.fullRun (x : Core) (mark : Nat) : (fuel off : Nat) → Nat
  | 0, _ => 0
  | fuel + 1, off => if x.fullFor (off / 16) mark then 16 + x.fullRun mark fuel (off + 16) else 0

/-- The own-pad offset of an own-pad address, through either window. -/
def ownOffset (l : Nat) (a : W64) : Nat :=
  match placeOf l 0 false a 1 with
  | .ok (.corePad _ off _) => off
  | _ => 0

/-- Size of the next chunk (R239). -/
def Core.skSize (x : Core) (c : SkCmd) : Nat :=
  let left := Nat.min 2048 (c.len - c.pos)
  match c.kind with
  | .tmov => x.fullRun (c.mark x.lcore) (left / 16) (ownOffset x.lcore c.src + c.pos)
  | .feop 2 => 0
  | .desc (some _) .. => 0
  | _ => left

/-- What a chunk does: granules claimed, granules filled, bytes written in order, and how it ends. -/
structure SkPlan where
  size   : Nat
  claims : List Nat
  fills  : List Nat
  cells  : List Host.Cell
  fault  : Option SkFault
deriving DecidableEq, Repr

/-- The cells that a list of destination pieces takes, up to the first fault. -/
def State.skCells (s : State) (x : SkCtx) : List (W64 × List Byte) → List Host.Cell × Option SkFault
  | [] => ([], none)
  | (a, bs) :: ps =>
    match s.skKeys x true a bs.length with
    | (ks, some e) => (ks.zip bs, some (.transfer e 1))
    | (ks, none) => let (cs, f) := s.skCells x ps; (ks.zip bs ++ cs, f)

/-- The bytes that source pieces hold, each beside its destination, or the first fault. -/
def State.skSources (s : State) (x : SkCtx) : List (W64 × W64 × Nat) → Except MemFault (List (W64 × List Byte))
  | [] => .ok []
  | (a, b, n) :: ps =>
    match s.skRead x a n with
    | .error e => .error e
    | .ok bs => match s.skSources x ps with
      | .error e => .error e
      | .ok r => .ok ((b, bs) :: r)

def SkCmd.ctx (c : SkCmd) (l : Nat) : SkCtx := ⟨l, c.func, c.sib⟩

/-- A dictionary is absent, or it lies in one window (R249). -/
def State.dictOk (s : State) (x : SkCtx) (dict dlen : Nat) : Bool :=
  dict == 0 || dlen == 0 || match placeOf x.lcore (s.padDie x.lcore) x.sib (BitVec.ofNat 64 dict) dlen with
    | .ok _ => true
    | .error _ => false

/-- The whole output of a transform, or the fault of its operands. -/
def State.transformed (s : State) (x : SkCtx) (src : W64) (len xf outmax dict dlen : Nat) : Except SkFault Transformed :=
  if s.dictOk x dict dlen then
    match s.skRead x (BitVec.ofNat 64 dict) (if dict = 0 then 0 else dlen) with
    | .error e => .error (.transfer e 0)
    | .ok d => match s.skRead x src len with
      | .error e => .error (.transfer e 0)
      | .ok input => .ok (transform xf outmax d input)
  else .error (.engine 0x23 0x30)

/-- The granules of a part of the own core pad, as keys. -/
def granuleKeys (l off n : Nat) : List Nat := (List.range (n / 16)).map fun i => keyCorePad l (off + 16 * i)

/-- What the next chunk of a command on core `l` does. A transform reads its input and writes its output with its last
chunk (log 13). -/
def State.skPlan (s : State) (l : Nat) (c : SkCmd) : SkPlan :=
  let core := s.core l
  let n := core.skSize c
  let plain : SkPlan := ⟨n, [], [], [], none⟩
  let copy := fun (claims : List Nat) =>
    match s.skSources (c.ctx l) (c.pieces (n + 1) c.pos n) with
    | .error e => { plain with fault := some (.transfer e 0) }
    | .ok ps => let (cells, f) := s.skCells (c.ctx l) ps; { plain with claims, cells, fault := f }
  match c.kind with
  | .feop fop =>
    let gs := granuleKeys l (ownOffset l c.src + c.pos) n
    if fop = 0 then { plain with fills := gs }
    else { plain with claims := gs.filter fun k =>
      fop = 1 ∧ core.fullFor (k % 2 ^ 21 / 16) (c.mark l) ∧ core.claim (k % 2 ^ 21 / 16) = 0 }
  | .tmov =>
    let off := ownOffset l c.src + c.pos
    copy ((granuleKeys l off n).filter fun k => core.claim (k % 2 ^ 21 / 16) = 0)
  | .desc (some bad) _ _ _ _ => { plain with fault := some (.engine 0x23 bad) }
  | .desc none xf outmax dict dlen =>
    if xf = 0 then copy []
    else if c.pos + n < c.len then plain
    else match s.transformed (c.ctx l) c.src c.len xf outmax dict dlen with
      | .error f => { plain with fault := some f }
      | .ok t =>
        let (cells, f) := s.skCells (c.ctx l) [(c.dst, t.out)]
        { plain with
          cells
          fault := f.or (t.code.map fun k => .engine 0x23 (if k = 3 then 0x3FF else 0x3FE)) }
  | _ => copy []

/-! ### Readiness (R238, R239, R211) -/

/-- Elements of a partition on an engine: present, reserved, and owed by commands that have started (R211). -/
def Task.occupancy (t : Task) (e : Nat) : Nat :=
  let fifo := match e with | 0 => t.eng.fifo0 | 1 => t.eng.fifo1 | 2 => t.eng.fifo2 | _ => t.eng.fifo3
  let taken := fun (w : BoltWork) => (w.popped.filter (·.1 = e)).length
  fifo.length + taken t.bolt.work + t.bolt.outer.elim 0 taken

/-- Elements that a skidder command still owes. -/
def SkCmd.owed (c : SkCmd) : Nat := c.res.toNat + (c.con && !c.conDone).toNat

/-- The FIFO has room for what a command requests, or the command has started. -/
def State.skRoom (s : State) (l : Nat) (c : SkCmd) : Bool :=
  let owed := (((s.core l).sq.filter fun x =>
    x.who.part = c.who.part ∧ x.path = c.path ∧ (0 < x.pos ∨ x.done)).map SkCmd.owed).sum
  let here := if c.who.part < 16 then (s.taskAt ⟨l, c.who.part⟩).elim 0 (·.occupancy c.path)
    else (s.helperAt l (c.who.part - 16)).elems.length + (s.helperAt l (c.who.part - 16)).work.popped.length
  decide (0 < c.pos ∨ c.owed = 0 ∨ here + owed + c.owed ≤ 32)

/-- The bytes that the next `n` bytes of a command read. -/
def State.skFetches (s : State) (l : Nat) (c : SkCmd) (n : Nat) : List Nat :=
  match c.kind with
  | .feop _ => []
  | _ => (c.pieces (n + 1) c.pos n).flatMap fun p => (s.skKeys (c.ctx l) false p.1 p.2.2).1

/-- The core-pad bytes that the next chunk reads through its source (R353). -/
def State.skSourceKeys (s : State) (l : Nat) (c : SkCmd) (n : Nat) : List Nat :=
  (s.skFetches l c n).filter fun k => (corePadOf k).isSome

/-- The core-pad bytes that the next chunk of a command reads, writes, fills or claims. -/
def State.skTouches (s : State) (l : Nat) (c : SkCmd) : List Nat :=
  let p := s.skPlan l c
  s.skSourceKeys l c p.size ++ p.cells.map (·.1) ++ p.fills ++ p.claims

/-- Every granule that FEOP.wait names is full. -/
def Core.allFull (x : Core) (c : SkCmd) : Bool :=
  (granuleKeys x.lcore (ownOffset x.lcore c.src) c.len).all fun k => x.fullFor (k % 2 ^ 21 / 16) (c.mark x.lcore)

/-- A command takes its place by the tick at which it entered. -/
def insertCmd (c : SkCmd) : List SkCmd → List SkCmd
  | [] => [c]
  | x :: xs => if c.entered < x.entered then c :: x :: xs else x :: insertCmd c xs

/-- The transfers of the chains that a core's skidder walks (R251). -/
def State.chainCmds (s : State) (l : Nat) : List SkCmd :=
  (s.die (l / 96)).chains.filterMap fun c => if c.state = 1 ∧ c.lcore = l then c.cmd else none

/-- Every command of a core's skidder, its chains' among them, oldest first. -/
def State.skCmds (s : State) (l : Nat) : List SkCmd := (s.chainCmds l).foldl (fun acc c => insertCmd c acc) (s.core l).sq

/-- The oldest commands of their partitions in their classes that have bytes to move. -/
def firstCommands : List SkCmd → List SkCmd → List SkCmd
  | _, [] => []
  | seen, c :: cs =>
    if c.done then firstCommands seen cs
    else if seen.any fun x => x.who.part == c.who.part && x.cls == c.cls then firstCommands seen cs
    else c :: firstCommands (c :: seen) cs

/-- A first command is ready: its full bits and the FIFO permit it, and none of its writes stalls (R239, R240;
a stalled chunk keeps no other command back, log 13). -/
def State.skReady (s : State) (l : Nat) (c : SkCmd) : Bool :=
  let core := s.core l
  let wants := match c.kind with
    | .tmov => c.len == 0 || core.skSize c != 0
    | .feop 2 => core.allFull c
    | _ => true
  let p := s.skPlan l c
  wants && s.skRoom l c && (s.asleep (s.skTouches l c)).isNone &&
    !(granulesOf ((p.cells.map (·.1)).filter fun k => c.ofChain || (corePadOf k).any (·.1 == l))).any (s.writeStalls 0) &&
    !(granulesOf p.fills).any (s.writeStalls 0) &&
    !(granulesOf (p.cells.map (·.1))).any fun g => (granulesOf p.claims).contains g

/-! ### Deficit round-robin (R239) -/

/-- The command whose chunk comes next, its size, and the core with its deficits; `info` holds the ready commands, `all`
every command. -/
def Core.drr (info : List (SkCmd × Nat)) (all : List SkCmd) : Nat → Core → Option (Core × SkCmd × Nat)
  | 0, _ => none
  | fuel + 1, x =>
    let k := x.visit
    let old := x.deficit.getD k 0
    let leave := fun d => { x with deficit := x.deficit.set k d, visit := (k + 1) % 4, arrived := false }
    match info.find? fun i => i.1.cls == k with
    | none => Core.drr info all fuel (leave (if x.arrived && all.any (fun c => c.cls == k && !c.done) then old else 0))
    | some (c, n) =>
      let d := if x.arrived then old else old + x.quanta.getD k 0
      if n ≤ d then some ({ x with deficit := x.deficit.set k (d - n), arrived := true }, c, n)
      else Core.drr info all fuel (leave d)

/-- The ready commands of a core, with the sizes of their chunks. -/
def State.skInfo (s : State) (l : Nat) : List (SkCmd × Nat) :=
  ((firstCommands [] (s.skCmds l)).filter (s.skReady l)).map fun c => (c, (s.core l).skSize c)

/-- The next chunk of a core's skidder, if a command is ready. -/
def State.skNext (s : State) (l : Nat) : Option (Core × SkCmd × Nat) :=
  let info := s.skInfo l
  if info.isEmpty || !s.resident l then none else Core.drr info (s.skCmds l) 512 (s.core l)

/-! ### Moving a chunk -/

/-- A command is gone from its core; the next TMOV of its partition and class begins to wait (R246). -/
def State.skRemove (s : State) (l : Nat) (c : SkCmd) : State :=
  let x := s.core l
  s.setCore { x with sq := (x.sq.erase c).map fun y =>
    if y.who.part = c.who.part ∧ y.cls = c.cls then { y with since := s.dcc } else y }

/-- A change of the bolt that issued a command; its held writes were charged then (R184). -/
def State.onIssuer (s : State) (l : Nat) (who : Issuer) (f : BoltWork → BoltWork) : State :=
  let g := fun (w : BoltWork) => if w.num = who.bolt then f w else w
  if who.part < 16 then s.onTask ⟨l, who.part⟩ fun t =>
    { t with bolt := { t.bolt with work := g t.bolt.work, outer := t.bolt.outer.map g } }
  else s.onHelper l (who.part - 16) fun h => { h with work := g h.work }

/-- An element enters the FIFO of an engine. -/
def TaskEng.addElem (e : TaskEng) (engine : Nat) (x : Elem) : TaskEng :=
  match engine with
  | 0 => { e with fifo0 := e.fifo0 ++ [x] }
  | 1 => { e with fifo1 := e.fifo1 ++ [x] }
  | 2 => { e with fifo2 := e.fifo2 ++ [x] }
  | _ => { e with fifo3 := e.fifo3 ++ [x] }

/-- A completion element (R211, R234). -/
def elemWord (kind tile op cpos : Nat) : W64 :=
  BitVec.ofNat 64 (kind * 2 ^ 60 + tile % 4 * 2 ^ 58 + op % 1024 * 2 ^ 48 + cpos % 2 ^ 32)

/-- Delivers a skidder element of a kind: to the partition's FIFO, or to the helper with the move's tag (R264). -/
def State.skElem (s : State) (l : Nat) (c : SkCmd) (kind : Nat) : State :=
  if c.who.part < 16 then s.onTask ⟨l, c.who.part⟩ fun t =>
    { t with eng := t.eng.addElem c.path ⟨elemWord kind 0 c.op c.who.cpos.toNat, c.who.bolt⟩ }
  else s.onHelper l (c.who.part - 16) fun h =>
    { h with elems := h.elems ++ [⟨BitVec.ofNat 64 (kind * 2 ^ 28 + c.who.tag % 65536), c.who.bolt⟩] }

/-- A command is abandoned with a deferred fault, which surfaces later (R232); a helper's leaves a fault element in the
place of its complete element, and where it asked for none, a fault for hsk.seal to raise (R264, R266, log 25). -/
def State.skFail (s : State) (l : Nat) (c : SkCmd) (f : SkFault) : State :=
  let s1 := s.skRemove l c
  if c.who.part < 16 then s1.onTask ⟨l, c.who.part⟩ fun t =>
    { t with eng := { t.eng with faults := t.eng.faults ++ [
      ⟨c.path, c.who.bolt, c.who.order, (f.synd c).1, (f.synd c).2⟩] } }
  else s1.onHelper l (c.who.part - 16) fun h =>
    if c.res then
      { h with elems := h.elems ++ [⟨BitVec.ofNat 64 (3 * 2 ^ 28 + f.cause * 2 ^ 16 + c.who.tag % 65536), c.who.bolt⟩] }
    else { h with faults := h.faults ++ [(c.who.bolt, c.who.tag % 65536)] }

/-- Claims granules of the own pad for the issuing bolt (R186). -/
def State.skClaim (s : State) (l : Nat) (c : SkCmd) (ks : List Nat) : State :=
  let x := ks.foldl (fun (x : Core) k => x.setClaim (k % 2 ^ 21 / 16) (c.mark l)) (s.core l)
  (s.setCore x).onIssuer l c.who fun w => { w with claims := w.claims ++ ks }

/-- Writes the cells of a chunk: own-pad cells at once, the others into the hold (R240); a chain's all at once (R251). -/
def State.skWrite (s : State) (l : Nat) (c : SkCmd) (cells : List Host.Cell) : State :=
  if c.ofChain then ((s.chargeKeys (l / 12) (cells.map (·.1))).bus c.func true (cells.map (·.1))).show cells else
  let mine := cells.filter fun x => (corePadOf x.1).any (·.1 == l)
  let rest := cells.filter fun x => !(corePadOf x.1).any (·.1 == l)
  let s1 := if mine.isEmpty then s else s.showOf (boltId (c.mark l) c.who.bolt) mine
  if rest.isEmpty then s1 else s1.onIssuer l c.who fun w => { w with hold := w.hold ++ [.moved rest] }

/-- The skidder's visits are as at the start of a round. -/
def Core.atRest (x : Core) : Bool := x.visit == 0 && !x.arrived && x.deficit == [0, 0, 0, 0]

/-- The skidder goes idle when no command is ready: its visits restart at class 0 with no deficit (R239). -/
def State.skIdle (s : State) (l : Nat) : State :=
  if !(s.core l).atRest && (s.skInfo l).isEmpty then
    s.setCore { s.core l with deficit := [0, 0, 0, 0], visit := 0, arrived := false }
  else s

/-- An idle period of a skidder begins with the clock in which no command is ready, for whatever reason (R239). -/
def State.restSkidders (s : State) : State := (s.cores.map (·.1)).foldl State.skIdle s

/-- The issuing bolt has read the source bytes of a chunk. -/
def State.skReads (s : State) (l : Nat) (c : SkCmd) (ks : List Nat) : State :=
  let ids := if c.ofChain then [] else s.writersOf (c.mark l) ks
  let s1 := s.touch ks
  if ids.isEmpty then s1 else s1.onIssuer l c.who (·.sawWriters ids)

/-- The reads, claims and writes of a chunk. -/
def State.skEffect (s : State) (l : Nat) (c : SkCmd) (p : SkPlan) : State :=
  let reads := s.skFetches l c p.size
  let s0 := (s.chargeKeys (l / 12) reads).bus c.func false reads
  let s1 := (s0.skReads l c (s.skSourceKeys l c p.size)).skClaim l c p.claims
  (s1.fillGranules (granulesOf p.fills)).skWrite l c p.cells

/-- Moves the next chunk of a command, whose size has been taken from its class's deficit. -/
def State.skMove (s : State) (l : Nat) (c : SkCmd) : State :=
  let p := s.skPlan l c
  let s2 := s.skEffect l c p
  match p.fault with
  | some f => s2.skFail l c f
  | none =>
    let last := match c.kind with | .feop 2 => true | _ => c.pos + p.size == c.len
    let c' := { c with
      pos := c.pos + p.size
      since := s.dcc
      done := last
      conDone := c.conDone || last }
    let x := s2.core l
    let s3 := s2.setCore { x with sq := x.sq.map fun y => if y = c then c' else y }
    if last && c.con && !c.conDone then s3.skElem l c 1 else s3

end Sys2Proof.Machine
end

