-- ==== Sys2Proof/Machine/Movement.lean ====
section
/-! DEFINITION. The instructions of the skidder and the engine FIFOs, at issue: ENQ of a move and of a mailbox word, DEQ,
SKMOV, SKGAT, SKSCT, SKCHN, SKQSET, TMOV, FEOP (spec/08_core_movement.md R235 to R248; charges R184). -/

namespace Sys2Proof.Machine

/-! ### Ranges at issue (R241, R184) -/

/-- A range passes the window check at issue; one of no bytes names none. -/
def State.skRangeOk (s : State) (a : W64) (n : Nat) : Bool :=
  n == 0 || match s.place a n with
    | .ok _ => true
    | .error _ => false

/-- A range lies wholly in the own core pad. -/
def State.ownRange (s : State) (a : W64) (n : Nat) : Bool :=
  n == 0 || match s.place a n with
    | .ok (.corePad _ _ sib) => !sib
    | _ => false

/-- A range lies in a sibling pad window. -/
def State.sibRange (s : State) (a : W64) (n : Nat) : Bool :=
  match s.place a n with
  | .ok (.corePad _ _ sib) => sib
  | _ => false

/-- A command of the selected task before its details. -/
def State.skCommand (s : State) (f : Slot) (op path : Nat) (kind : SkKind) (src dst : W64) (len : Nat) : SkCmd where
  who := s.issuer
  op; path; cls := f.q 1 0; kind; src; dst; len
  pos := 0; func := s.task.id.func; det := s.task.id.detlvl
  res := f.res; con := f.con
  sib := false; since := s.dcc; done := false; conDone := false; entered := s.dcc

/-- A command enters the queue of its class: it is charged first, and waits while its partition has 16 outstanding
(R184, R238). -/
def State.skEnqueue (s : State) (c : SkCmd) (charge : Nat) : State :=
  let core := s.myCore
  if s.overHold charge then s.trapHold c.op charge
  else if 16 ≤ (core.sq.filter fun x => x.who.part = c.who.part).length then s.waitFor .stall
  else
    let s1 := s.setCore { core with sq := core.sq ++ [c] }
    (s1.setBolt { s1.task.bolt with holdb := s1.task.bolt.holdb + charge }).countCommand

/-- The trap for an operand address of a skidder instruction (R253). -/
def State.trapSk (s : State) (op detail : Nat) : State := s.trapEngine op 0x22 0 detail

/-! ### SKMOV (R244) -/

/-- SKMOV with NE = 0. -/
def State.moveBytes (s : State) (f : Slot) : State :=
  let dst := s.g f.a.toNat
  let src := s.g f.b.toNat
  let n := (s.g f.c.toNat).toNat
  if 2 ^ 32 ≤ n then s.trapSk 0x308 3
  else if !s.skRangeOk dst n then s.trapSk 0x308 1
  else if !s.skRangeOk src n then s.trapSk 0x308 2
  else s.skEnqueue { s.skCommand f 0x308 1 .mov src dst n with sib := s.sibRange dst n || s.sibRange src n }
    (if s.ownRange dst n then 0 else n)

/-- SKMOV with NE = 0. -/
def execSkmov (f : Slot) (s : State) : Out := guarded (.skmov f) f s (s.moveBytes f)

/-- The least and the greatest offset of a stream over a slot's index points. -/
def NestSlot.extent (n : NestSlot) (stream : Nat) : Int × Int :=
  (List.range n.nd).foldl (fun acc d =>
    let x : Int := ((n.bound.getD d 0 : Int) - 1) * n.stride.getD (3 * d + stream) 0
    (acc.1 + min 0 x, acc.2 + max 0 x)) (0, 0)

/-- SKMOV with NE = 1: the slot is captured as it stands (R257). -/
def State.moveNest (s : State) (f : Slot) : State :=
  let dst := s.g f.a.toNat
  let src := s.g f.b.toNat
  let n := s.myCore.nest f.c.toNat
  let run := f.imm.toNat % 2 ^ 24
  let len := n.points * run
  let (slo, shi) := n.extent 0
  let (dlo, dhi) := n.extent 1
  let from_ := src + BitVec.ofInt 64 slo
  let to_ := dst + BitVec.ofInt 64 dlo
  let sLen := if len = 0 then 0 else (shi - slo).toNat + run
  let dLen := if len = 0 then 0 else (dhi - dlo).toNat + run
  if !s.skRangeOk to_ dLen then s.trapSk 0x308 1
  else if !s.skRangeOk from_ sLen then s.trapSk 0x308 2
  else s.skEnqueue { s.skCommand f 0x308 1 (.nest n run) src dst len with
    sib := s.sibRange to_ dLen || s.sibRange from_ sLen } (if s.ownRange to_ dLen then 0 else len)

/-- SKMOV with NE = 1. -/
def execSkmovNest (f : Slot) (s : State) : Out := guarded (.skmovNest f) f s (s.moveNest f)

/-! ### SKGAT and SKSCT (R245) -/

/-- The rows of a gather or scatter: source and destination of each. -/
def rowsOf (a b : W64) (l : Nat) (scatter : Bool) (idx : List Nat) : List (W64 × W64) :=
  (List.range idx.length).map fun i =>
    let near := BitVec.ofNat 64 (i * l)
    let far := BitVec.ofNat 64 (idx.getD i 0 * l)
    if scatter then (b + near, a + far) else (b + far, a + near)

/-- SKGAT and SKSCT: each row range is checked, and the first that fails is reported. -/
def State.moveRows (s : State) (f : Slot) (op : Nat) (scatter : Bool) : State :=
  let l := f.imm.toNat % 2 ^ 16 + 1
  let idx := (List.range (f.q 8 4 + 1)).map (elemBits 32 (s.v f.c.toNat))
  let rows := rowsOf (s.g f.a.toNat) (s.g f.b.toNat) l scatter idx
  match rows.findIdx? fun r => !(s.skRangeOk r.1 l && s.skRangeOk r.2 l) with
  | some i => s.trapSk op (4 + i)
  | none =>
    s.skEnqueue { s.skCommand f op 2 (if scatter then .scatter idx l else .gather idx l) (s.g f.b.toNat) (s.g f.a.toNat)
        (idx.length * l) with sib := rows.any fun r => s.sibRange r.1 l || s.sibRange r.2 l }
      (if rows.all fun r => s.ownRange r.2 l then 0 else idx.length * l)

/-- SKGAT (R245). -/
def execSkgat (f : Slot) (s : State) : Out := guarded (.skgat f) f s (s.moveRows f 0x309 false)
/-- SKSCT (R245). -/
def execSksct (f : Slot) (s : State) : Out := guarded (.sksct f) f s (s.moveRows f 0x30A true)

/-! ### SKCHN, SKQSET (R251, R248) -/

/-- SKCHN (R251). -/
def execSkchn (f : Slot) (s : State) : Out :=
  guarded (.skchn f) f s (s.holdOrTrap 0x30B 16 (.skchn (f.imm.toNat % 16) (s.g f.a.toNat) (f.q 1 0)))

/-- SKQSET (R248). -/
def execSkqset (f : Slot) (s : State) : Out :=
  guarded (.skqset f) f s (s.holdOrTrap 0x30C 16 (.skqset (s.g f.a.toNat)))

/-! ### TMOV, FEOP (R246, R247) -/

/-- TMOV. -/
def State.moveTokens (s : State) (f : Slot) : State :=
  let dst := s.g f.a.toNat
  let src := s.g f.b.toNat
  let n := (s.g f.c.toNat).toNat
  if n % 16 ≠ 0 ∨ 2 ^ 21 < n then s.trapSk 0x30D 3
  else if src.toNat % 16 ≠ 0 ∨ !s.ownRange src n then s.trapSk 0x30D 2
  else if !s.skRangeOk dst n then s.trapSk 0x30D 1
  else s.skEnqueue { s.skCommand f 0x30D 1 .tmov src dst n with sib := s.sibRange dst n }
    (if s.ownRange dst n then 0 else n)

/-- TMOV (R246). -/
def execTmov (f : Slot) (s : State) : Out := guarded (.tmov f) f s (s.moveTokens f)

/-- FEOP with one FOP. -/
def State.fullOp (s : State) (f : Slot) (fop : Nat) : State :=
  let a := s.g f.a.toNat
  let n := (s.g f.b.toNat).toNat
  if a.toNat % 16 ≠ 0 then s.trapSk 0x310 1
  else if n % 16 ≠ 0 ∨ 2 ^ 21 < n then s.trapSk 0x310 2
  else if !s.ownRange a n then s.trapSk 0x310 1
  else s.skEnqueue (s.skCommand f 0x310 1 (.feop fop) a a n) 0

/-- FEOP.set (R247). -/
def execFeopSet (f : Slot) (s : State) : Out := guarded (.feopSet f) f s (s.fullOp f 0)
/-- FEOP.clr (R247). -/
def execFeopClr (f : Slot) (s : State) : Out := guarded (.feopClr f) f s (s.fullOp f 1)
/-- FEOP.wait (R247). -/
def execFeopWait (f : Slot) (s : State) : Out := guarded (.feopWait f) f s (s.fullOp f 2)

/-! ### ENQ (R235, R249, R250) -/

/-- A move descriptor (R249). -/
structure MoveDesc where
  next   : Nat
  ctrl   : Nat                     -- the word at 0x08
  src    : W64
  dst    : W64
  outmax : Nat
  len    : Nat
  status : Nat                     -- the word at 0x28
  dict   : Nat
  dlen   : Nat
deriving DecidableEq, Repr

/-- The descriptor that 64 bytes hold. -/
def moveDesc (b : List Byte) : MoveDesc :=
  let word := fun o => natOfBytes ((b.drop o).take 8)
  { next := word 0, ctrl := word 8, src := BitVec.ofNat 64 (word 0x10), dst := BitVec.ofNat 64 (word 0x18)
    outmax := word 0x20 / 2 ^ 32, len := word 0x20 % 2 ^ 32, status := word 0x28, dict := word 0x30, dlen := word 0x38 }

/-- XF (R249). -/
def MoveDesc.xf (d : MoveDesc) : Nat := bitsOf d.ctrl 7 4

/-- Bytes a move may write (R250). -/
def MoveDesc.room (d : MoveDesc) : Nat := if d.xf = 0 then d.len else d.outmax

/-- The byte of the lowest set bit among bits `hi..lo` of the word at an offset. -/
def lowByte (off x hi lo : Nat) : Option Nat :=
  (((List.range (hi + 1)).drop lo).find? x.testBit).map fun i => off + i / 8

/-- The first byte that holds an offending bit of a bad descriptor (R250, R253). -/
def MoveDesc.defect (d : MoveDesc) : Option Nat :=
  let xd := d.xf = 1 ∨ d.xf = 2
  (if lowByte 8 d.ctrl 3 2 = none then none else some 8).or
    ((if 4 < d.xf then some 8 else none).or
    ((lowByte 8 d.ctrl 63 8).or
    ((if d.xf = 0 ∧ d.outmax ≠ 0 then some 0x24 else none).or
    ((lowByte 0x28 d.status 63 40).or
    ((if ¬xd ∧ d.dict ≠ 0 then some 0x30 else none).or
    (if (¬xd ∧ d.dlen ≠ 0) ∨ 65536 < d.dlen then some 0x38 else none))))))

/-- The command kind of a move descriptor under a determinism level (R250, R383). -/
def MoveDesc.kind (d : MoveDesc) (det : Nat) : SkKind :=
  .desc (d.defect.or (if d.xf = 1 ∧ det = 3 then some 0x3FD else none)) d.xf d.outmax d.dict d.dlen

/-- The keys of a descriptor's 64 bytes in the own core pad, the cluster pad or the die pad. -/
def State.descKeys (s : State) (a : W64) : Option (List Nat) :=
  (s.padRange true a 64 64).map fun k => (List.range 64).map fun i => s.padKey (k + i)

/-- ENQ of a move, which waits where its descriptor lies in a pad at rest (R233). -/
def State.enqueueMove (s : State) (f : Slot) : State :=
  match s.descKeys (s.g f.a.toNat) with
  | none => s.trapSk 0x300 1
  | some ks =>
    let d := moveDesc (ks.map s.mem.read)
    if let some l := s.asleep ks then s.waitFor (.pad l)
    else if !s.skRangeOk d.src d.len then s.trapSk 0x300 2
    else if !s.skRangeOk d.dst d.room then s.trapSk 0x300 3
    else (s.noteReads ks).skEnqueue { s.skCommand f 0x300 1 (d.kind s.task.id.detlvl) d.src d.dst d.len with
      sib := s.sibRange d.src d.len || s.sibRange d.dst d.room } (if s.ownRange d.dst d.room then 0 else d.room)

/-- ENQ of a move (R235). -/
def execEnqMove (f : Slot) (s : State) : Out := guarded (.enqMove f) f s (s.enqueueMove f)

/-- The helper a mailbox engine names: 0 the loader, 1 the storer. -/
def mailHelper (f : Slot) : Nat := f.imm.toNat % 8 - 4

/-- ENQ of a mailbox word: eight words fill the mailbox. -/
def State.enqueueMail (s : State) (f : Slot) : State :=
  let l := s.task.id.lcore
  let part := s.task.id.part
  let w := mailHelper f
  if 8 ≤ ((s.helperAt l w).inbox.filter fun x => x.1 = part).length then s.waitFor .stall
  else s.onHelper l w fun h =>
    { h with inbox := h.inbox ++ [(part, (s.g f.a.toNat).setWidth 32, false, s.task.bolt.work.num)] }

/-- ENQ of a mailbox word (R235). -/
def execEnqMailbox (f : Slot) (s : State) : Out := guarded (.enqMailbox f) f s (s.enqueueMail f)

/-! ### DEQ (R236) -/

/-- The elements of an engine's FIFO (R234). -/
def TaskEng.fifo (e : TaskEng) (engine : Nat) : List Elem :=
  match engine with
  | 0 => e.fifo0
  | 1 => e.fifo1
  | 2 => e.fifo2
  | _ => e.fifo3

/-- The FIFO of an engine with other elements. -/
def TaskEng.setFifo (e : TaskEng) (engine : Nat) (l : List Elem) : TaskEng :=
  match engine with
  | 0 => { e with fifo0 := l }
  | 1 => { e with fifo1 := l }
  | 2 => { e with fifo2 := l }
  | _ => { e with fifo3 := l }

/-- The elements that wait for DEQ of an engine, mailbox words among them. -/
def State.elements (s : State) (engine : Nat) : List Elem :=
  if engine < 4 then s.task.eng.fifo engine
  else (s.myCore.box s.task.id.part (engine - 4)).map fun w => ⟨w.setWidth 64, 0⟩

/-- The elements of an engine, or the words of its mailbox, put in place. -/
def State.setElements (s : State) (engine : Nat) (l : List Elem) : State :=
  if engine < 4 then s.setEng (s.task.eng.setFifo engine l)
  else s.setCore (s.myCore.setBox s.task.id.part (engine - 4) (l.map fun x => x.word.setWidth 32))

/-- A command of the selected task is outstanding on an engine (R236). -/
def State.outstanding (s : State) (engine : Nat) : Bool :=
  let c := s.myCore
  let part := s.task.id.part
  match engine with
  | 0 => c.mq.any (·.who.part == part) || c.run.any (·.cmd.who.part == part)
  | 3 => s.colls.any fun x => x.queue == s.task.id.queue && x.seq == s.task.id.seq && x.tile == s.task.id.tile && x.kind == 2
  | e => c.sq.any fun x => x.who.part == part && x.path == e

/-- DEQ of an engine. -/
def State.dequeue (s : State) (f : Slot) : State :=
  let e := f.imm.toNat % 8
  match s.task.eng.oldestFault [e] with
  | some x => s.surface x
  | none =>
    match s.elements e with
    | x :: rest =>
      let s1 := s.setElements e rest
      let w := s1.task.bolt.work
      (s1.setWork { w with popped := w.popped ++ [(e, x)] }).putG f x.word
    | [] =>
      if 4 ≤ e then s.waitFor (.mailbox e)
      else if s.outstanding e then s.waitFor (.deq e)
      else s.trapEngine 0x301 0x21 0 e

/-- DEQ (R236). -/
def execDeq (f : Slot) (s : State) : Out := guarded (.deq f) f s (s.dequeue f)

end Sys2Proof.Machine
end

