-- ==== Sys2Proof/Machine/Packets.lean ====
section
/-! DEFINITION. The stands that the tasks of a packet belong to (spec/10_cluster_stands.md R273 to R277). -/

namespace Sys2Proof.Machine

/-! ### Stands (R273 to R277) -/

/-- The logical cores of the stand or sub-stand of a level that contains a logical core. -/
def scopeCores (level l : Nat) : Nat × Nat :=
  match level with
  | 1 => (l / 12 * 12, l / 12 * 12 + 12)
  | 2 => (l / 96 * 96, l / 96 * 96 + 96)
  | _ => (0, 192)

/-- The group number of a level's stand that contains a logical core. -/
def groupOf (level l : Nat) : Nat := match level with | 1 => l / 12 | 2 => l / 96 | _ => 0

/-- The tiles of the packet in a stand, first and past the last. -/
def standTiles (tiles level l : Nat) : Nat × Nat :=
  let (lo, hi) := scopeCores level l
  (sliceStart tiles lo, sliceStart tiles hi)

/-- Tiles of the packet of the selected task. -/
def State.myTiles (s : State) : Nat := s.myNode.elim 0 Node.tiles

/-- SIZE and MIDX of a task in the stand of a level (R274, R276). -/
def State.membership (s : State) (t : Task) (tiles level : Nat) : Nat × Nat :=
  let (lo, hi) := standTiles tiles level t.id.lcore
  if level = 4 then (tiles * s.position.2, s.position.1 * tiles + t.id.tile) else (hi - lo, t.id.tile - lo)

/-- The synchronisation state of a node's stand of a level and group. -/
def State.standAt (s : State) (q seq level group : Nat) : Option Stand :=
  s.stands.find? fun z => z.queue == q && z.seq == seq && z.level == level && z.group == group

/-- A change of the stand of a level and group of a node. -/
def State.onStand (s : State) (q seq level group : Nat) (f : Stand → Stand) : State :=
  { s with stands := s.stands.map fun (z : Stand) =>
    if z.queue = q ∧ z.seq = seq ∧ z.level = level ∧ z.group = group then f z else z }

/-- ZMEMB (R276). -/
def State.zmemb (s : State) : Nat :=
  let z := s.task.stand
  if z.level = 0 then 0
  else
    let (size, midx) := s.membership s.task s.myTiles z.act
    z.level * 2 ^ 61 + z.act * 2 ^ 58 + z.ent.toNat * 2 ^ 54 + z.bst * 2 ^ 52 + size % 2 ^ 24 * 2 ^ 24 + midx % 2 ^ 24

/-- ZPHASE (R277). -/
def State.zphase (s : State) : Nat :=
  if s.task.stand.level = 0 then 0
  else match s.standAt s.task.id.queue s.task.id.seq 1 s.myCluster with
    | some z => z.epoch % 128 * 2 + z.phase.toNat
    | none => 0

end Sys2Proof.Machine
end

