-- ==== Sys2Proof/Machine/Retire.lean ====
section
/-! DEFINITION. What follows a bundle that has completed (spec/06_task_traps_bolts.md R171, R180, R195): passes of a
loop, repetitions, registers given up, pre-emption points. -/

namespace Sys2Proof.Machine

/-! ### Loops (R111) -/

/-- The bundle at an offset is the last of the loop's body. -/
def State.lastOfBody (s : State) (l : LoopState) (o : Nat) : Bool :=
  match s.bodyOffsets l.start (l.len - 1) with
  | .ok (_, e) => e == o
  | .error _ => false

/-- The end of a pass: the slot steps, and the next pass begins unless that step sets WRAP. -/
def State.endPass (s : State) (l : LoopState) : State :=
  let n := s.myCore.nest l.nest
  let s1 := s.setCore (s.myCore.setNest l.nest n.step)
  if n.wraps then s1.setFlow { s1.task.flow with loop := none }
  else s1.setFlow { s1.task.flow with nextPc := l.start }

/-! ### Retirement (R171, R19, R195) -/

/-- What a SHRINK released is given up before the next bundle issues: the registers, once the outstanding writes to them
have ended, and the granules, which other partitions may take from then on (R19, R20, R117). -/
def State.giveUp (s : State) : State :=
  if s.task.flow.freed = 0 then s
  else
    let r := s.task.regs
    let late := fun (w : Window) => decide (w.write.target.1 = 3 ∧ s.vLimit ≤ w.write.target.2)
    let s1 := s.setRegs { r with v := r.v.filter fun x => decide (x.1 < s.vLimit), wins := r.wins.filter fun w => !late w }
    let s2 := s1.setCore { s1.myCore with freeGran := s1.myCore.freeGran + s.task.flow.freed }
    s2.setFlow { s2.task.flow with
      freed := 0, clk := (r.wins.filter late).foldl (fun acc w => Nat.max acc (w.closes + 1)) s2.task.flow.clk }

/-- No engine or skidder command of a partition is outstanding and no result is undequeued (R195). -/
def State.enginesIdle (s : State) : Bool :=
  let c := s.myCore
  let part := s.task.id.part
  let e := s.task.eng
  !c.mq.any (·.who.part == part) && !c.run.any (·.cmd.who.part == part) && !c.sq.any (·.who.part == part)
    && e.fifo0.isEmpty && e.fifo1.isEmpty && e.fifo2.isEmpty && e.fifo3.isEmpty
    && e.faults.isEmpty

/-- A bulk reduction of the selected task has not completed (R285). -/
def State.reducing (s : State) : Bool := s.colls.any fun c => c.who == some s.task.ref && c.kind == 2

/-- The partition passes on from a bundle that has completed: repetitions and passes go on (R108, R111), a pre-emption
point is noted (R195), and what follows an operation that is a bolt of its own belongs to the next one (R180). `rep` and `loop` are the
states the bundle issued under. -/
def State.retire (s : State) (rep : Option RepState) (loop : Option LoopState) (hasOp : Bool) : State :=
  let off := s.task.flow.off
  let quiet := if hasOp then Nat.max s.task.flow.quietAt (s.dcc + 32) else s.task.flow.quietAt
  let s1 := match rep with
    | some r =>
      if r.next + 1 < r.count then s.setFlow { s.task.flow with
        rep := some { r with next := r.next + 1 }, nextPc := r.body }
      else s.setFlow { s.task.flow with rep := none, repix := 0 }
    | none => s
  let inBody := loop.any fun l => !s1.lastOfBody l off
  let s2 := match loop with
    | some l => if s1.lastOfBody l off then s1.endPass l else s1
    | none => s1
  let repeats := rep.isSome || s2.task.flow.rep.isSome
  let s3 := s2.setFlow { s2.task.flow with
    pc := s2.task.flow.nextPc
    clk := s2.task.flow.clk + 1
    opClk := if hasOp then s2.task.flow.clk else s2.task.flow.opClk
    quietAt := quiet
    wait := none
    owns := none
    redo := false
    safe := s2.task.flow.sp && !repeats && !inBody && !s2.task.bolt.handler && s2.enginesIdle }
  match s.task.flow.owns with
  | none => s3
  | some kind =>
    let s4 := s3.sealNow s3.task.flow.pc
    let s5 := s4.setBolt { s4.task.bolt with
      boltpc := s.task.bolt.boltpc, retry := s.task.bolt.retry
      own := some ⟨kind, off, if s4.reducing then none else some quiet, s.task.bolt.snap, s3.task.flow.pc⟩ }
    match kind with
    | .collective => s5.setStand { s5.task.stand with result := s3.task.stand.result }
    | .lease => s5.setLease { s5.task.lease with grant := s3.task.lease.grant }
    | .rmw => s5

/-- The clock of a partition once a wait has lasted to the present tick (R29, log 3). -/
def Wait.clock (w : Wait) (now clk : Nat) : Nat := Nat.max clk (w.clk + (now - w.since))

/-- The clocks of the selected task's wait pass. -/
def State.passWait (s : State) : State :=
  s.setFlow { s.task.flow with clk := s.task.flow.wait.elim s.task.flow.clk fun w => w.clock s.dcc s.task.flow.clk }

/-- The selected task's waiting bundle completes. -/
def State.completeWait (s : State) : State := s.passWait.retire s.task.flow.rep s.task.flow.loop true

end Sys2Proof.Machine
end

