-- ==== Sys2Proof/Machine/Stands.lean ====
section
/-! DEFINITION. Stands (spec/10_cluster_stands.md R273 to R288): ZENTER, ZLEAVE, ZSYNC, the collectives ZRED, BOOM and
ENQ of engine 3, and the steps that complete or abandon what their members wait for. -/

namespace Sys2Proof.Machine

/-! ### Levels (R280) -/

/-- The stand state after the changes of level that a hold carries. -/
def pendingStand (z : TaskStand) : List HoldItem → TaskStand
  | [] => z
  | .zenter level :: is => pendingStand (z.enter level) is
  | .zleave :: is => pendingStand z.leave is
  | _ :: is => pendingStand z is

/-- The pending active level. -/
def State.pendingAct (s : State) : Nat := (pendingStand s.task.stand s.task.bolt.work.hold).act

/-- ZENTER (R280). -/
def execZenter (f : Slot) (s : State) : Out :=
  let level := f.imm.toNat % 8
  guarded (.zenter f) f s
    (if s.task.stand.level = 0 then s.trapSync 0x11 0
     else if level < s.pendingAct then s.holdOrTrap 0x318 16 (.zenter level) else s.trapSync 0x12 level)

/-- ZLEAVE (R280). -/
def execZleave (f : Slot) (s : State) : Out :=
  guarded (.zleave f) f s
    (if s.task.stand.level = 0 then s.trapSync 0x11 0
     else if s.pendingAct ≠ s.task.stand.level then s.holdOrTrap 0x31B 16 .zleave else s.trapSync 0x12 0)

/-! ### Stands of a node -/

/-- The stands and sub-stands of a node, as they are at its start (R273, R274, R277). -/
def State.newStands (s : State) (n : Node) : List Stand :=
  (List.range (packetStand n.packet)).flatMap fun i =>
    let level := i + 1
    ((List.range 192).map (groupOf level)).dedup.filterMap fun g =>
      let l := if level = 1 then 12 * g else if level = 2 then 96 * g else 0
      let (lo, hi) := standTiles n.tiles level l
      if lo = hi then none
      else some {
        queue := n.queue, seq := n.seq, level, group := g, lo, n := hi - lo
        base := if level = 4 then s.position.1 * n.tiles else 0
        size := if level = 4 then n.tiles * s.position.2 else hi - lo
        phase := false, epoch := 0, count := 0, arrived := [], ended := [], restart := [], gauge := none, fired := false }

/-- The stand of a level that the selected task belongs to. -/
def State.myStand (s : State) (level : Nat) : Option Stand :=
  s.standAt s.task.id.queue s.task.id.seq level (groupOf level s.task.id.lcore)

def State.onMyStand (s : State) (level : Nat) (f : Stand → Stand) : State :=
  s.onStand s.task.id.queue s.task.id.seq level (groupOf level s.task.id.lcore) f

/-- The index of the selected task in a stand. -/
def State.memberOf (s : State) (z : Stand) : Nat := z.base + (s.task.id.tile - z.lo)

def State.setBst (s : State) (b : Nat) : State := s.setStand { s.task.stand with bst := b }

/-- The live task that is a member of a stand and has a member index. -/
def State.member (s : State) (z : Stand) (m : Nat) : Option Task :=
  s.tasks.find? fun t => t.id.live && t.id.queue == z.queue && t.id.seq == z.seq && t.id.tile + z.base == m + z.lo
    && decide (z.lo ≤ t.id.tile ∧ t.id.tile < z.lo + z.n)

/-! ### Barriers (R281) -/

/-- Arrives at the stand of the active level; an arrival at a multi-device stand goes to every device (R407). -/
def State.arrive (s : State) : State :=
  let level := s.task.stand.act
  match s.myStand level with
  | none => s
  | some z =>
    let m := s.memberOf z
    let s1 := s.onMyStand level fun z => { z with arrived := z.arrived ++ [(m, s.dcc, z.count)] }
    (if level = 4 then s1.sendAll (.arrival s.task.id.queue s.task.id.seq m z.count) else s1).setBst 1

/-- A watchdog that expired while the task was in its handler traps at the instruction that is issued again (R281). -/
def State.trapLate (s : State) (obj : Nat) : State :=
  (s.setStand { s.task.stand with late := none }).trapSync 0x10 obj

/-- ZSYNC (R281). -/
def execZsync (f : Slot) (s : State) : Out :=
  guarded (.zsync f) f s
    (if s.task.stand.level = 0 then s.trapSync 0x11 0
     else if let some obj := s.task.stand.late then s.trapLate obj
     else if s.task.stand.bst = 2 then s.setBst 0
     else if s.task.stand.bst = 1 then s.waitFor .barrier
     else s.sealThen s.task.flow.nextPc fun t => State.waitFor t.arrive .barrier)

/-- A member of a stand has a skidder command that names a sibling pad and is not complete (R241). -/
def State.sibBusy (s : State) (z : Stand) : Bool :=
  s.tasks.any fun t => t.id.live && t.id.queue == z.queue && t.id.seq == z.seq && decide (z.lo ≤ t.id.tile ∧ t.id.tile < z.lo + z.n)
    && (s.core t.id.lcore).sq.any fun c => c.sib && c.who.part == t.id.part

/-- The arrivals at the stand's next barrier. -/
def Stand.present (z : Stand) : List (Nat × Nat × Nat) := z.arrived.filter fun a => a.2.2 == z.count

/-- Members that have neither arrived nor ended. -/
def Stand.missing (z : Stand) : List Nat :=
  (List.range z.size).filter fun m => !(z.present.any (·.1 == m)) && !z.ended.contains m

/-- A barrier of a stand can complete. -/
def State.barrierReady (s : State) (z : Stand) : Bool :=
  !z.present.isEmpty && z.missing.isEmpty && (z.gauge.isNone || z.fired) && !s.sibBusy z

/-- A stand lies within another of the same node. -/
def Stand.within (x z : Stand) : Bool :=
  x.queue == z.queue && x.seq == z.seq && decide (z.lo ≤ x.lo ∧ x.lo + x.n ≤ z.lo + z.n)

/-- The barrier is over for a member: its ZSYNC completes, or completes when its handler returns to it. -/
def State.passBarrier (s : State) (t : Task) : State :=
  let s1 := s.select t.ref
  if s1.task.flow.wait.any fun w => w.kind == .barrier then State.completeWait (s1.setBst 0) else s1.setBst 2

/-- BARRIER_COMPLETE: every cluster sub-stand within the stand flips its phase, and every member goes on (R277, R281). -/
def State.completeBarrier (s : State) (z : Stand) : State :=
  let s1 := { s with stands := s.stands.map fun (x : Stand) =>
    let y := if x.level = 1 ∧ x.within z then { x with phase := !x.phase, epoch := (x.epoch + 1) % 128 } else x
    if x = z then { y with count := z.count + 1, arrived := z.arrived.filter fun a => a.2.2 != z.count, fired := false } else y }
  z.present.foldl (fun acc a => ((acc.member z a.1).map acc.passBarrier).getD acc) s1

/-- BARRIER_COMPLETE: the first stand at or after a place in the list whose barrier can complete. -/
def execBarrierComplete (stand : Nat) (s : State) : Out :=
  .next (match (s.stands.drop stand).find? s.barrierReady with
    | some z => s.completeBarrier z
    | none => s)

/-! ### Collectives (R283) -/

/-- What a collective leaves to its bundle: the kind of window it writes, and the window's bound. -/
structure CollDest where
  kind : Nat
  dest : Nat
  lat  : Nat
deriving DecidableEq, Repr

/-- A collective of the selected task ends with a result: it writes, takes its sequence number and forms a bolt of its
own, or it raises a trap (R283). A task that executed BOOM is marked for R294. -/
def State.finishCollective (s : State) (d : CollDest) (r : CollResult) : State :=
  let s1 := s.setBst 0
  match r.err with
  | some (cause, obj) => (s1.setStand { s1.task.stand with result := none }).trapSync cause obj
  | none =>
    let s2 := s1.setStand { s1.task.stand with collNo := r.num + 1, result := some r }
    let s3 := if d.kind = 0 then s2.put d.lat (.v d.dest (BitVec.allOnes 2048) r.val)
      else if d.kind = 1 then
        State.put (s2.setWork { s2.task.bolt.work with pushed := true }) d.lat (.g d.dest r.count)
      else s2
    s3.setFlow { s3.task.flow with owns := some .collective }

/-- The selected task's contribution of a kind to the collective of its present number. -/
def State.contributionOf (s : State) (z : Stand) (kind : Nat) (args : List Nat) (data : List VReg) : Contribution where
  queue := z.queue; seq := z.seq; level := z.level; group := z.group; num := s.task.stand.collNo
  member := s.memberOf z; tile := s.task.id.tile; who := some s.task.ref; here := true
  kind; args; data; dst := 0; bad := false; dest := 0; lat := 0
  since := s.dcc; order := s.task.eng.order; cpos := BitVec.ofNat 32 s.task.flow.off; bolt := s.task.bolt.work.num

/-- A contribution joins its collective; one to a multi-device stand goes to every device (R407). -/
def State.contribute (s : State) (c : Contribution) : State :=
  let s1 := { s with colls := s.colls ++ [c] }
  if c.level = 4 then s1.sendAll (.data c.queue c.seq c.num c.member c.kind c.args c.data c.bad) else s1

/-- ZRED and BOOM; a task in buffered mode waits for its node to win (R318): the answer of a replay or of a return from
the handler, a renewed wait, or the seal and the contribution, at the level that the seal leaves active. -/
def State.collective (s : State) (level : TaskStand → Nat) (d : CollDest) (args : List Nat) (data : List VReg) : State :=
  let z := s.task.stand
  if z.level = 0 then s.trapSync 0x11 0
  else if s.buffered then s.waitFor .stall
  else match z.result.filter (·.num = z.collNo) with
    | some r => s.finishCollective d r
    | none =>
      if z.bst = 1 then s.waitFor .collective
      else s.sealOwn fun t =>
        match t.myStand (level t.task.stand) with
        | none => t.trapSync 0x11 0
        | some x =>
          let c := { t.contributionOf x d.kind args data with dest := d.dest, lat := d.lat }
          State.waitFor ((t.contribute c).setBst 1) .collective

/-- What ZRED's members have to agree on. -/
def redArgs (s : State) (f : Slot) : List Nat := [f.cond, f.t.toNat, effRnd0 s f.rnd, f.sat.toNat]

/-- ZRED (R284). -/
def execZred (f : Slot) (s : State) : Out :=
  guarded (.zred f) f s
    (s.collective (·.act) ⟨0, f.d.toNat, f.lat.toNat⟩ (redArgs s f) [s.v f.a.toNat])

/-- BOOM (R287). -/
def execBoom (f : Slot) (s : State) : Out :=
  guarded (.boom f) f s
    (s.collective (fun _ => 1) ⟨1, f.d.toNat, f.lat.toNat⟩ [f.t.toNat, f.imm.toNat % 8] [])

/-! ### ENQ of engine 3 (R285) -/

/-- A bulk-reduction descriptor: the words at 0x00, 0x08, 0x10 and 0x18. -/
structure RedDesc where
  src : W64
  dst : W64
  len : Nat
  w10 : Nat
  w18 : Nat
deriving DecidableEq, Repr

def redDesc (b : List Byte) : RedDesc :=
  let word := fun o => natOfBytes ((b.drop o).take 8)
  ⟨BitVec.ofNat 64 (word 0), BitVec.ofNat 64 (word 8), word 0x10 % 2 ^ 32, word 0x10, word 0x18⟩

/-- Types that a reduction's operation permits (R146). -/
def redTypeOk (rop t : Nat) : Bool :=
  let isInt := (intFmt t).isSome
  match rop with
  | 0 | 1 | 2 => setVA.contains t
  | 3 | 4 | 5 => setVA.contains t && isInt
  | _ => false

/-- RND or SAT of a descriptor is set where the operation has none of it: nothing rounds but a floating add, and nothing
saturates but an add (R146, R285). -/
def redModes (rop t rnd sat : Nat) : Bool :=
  (rnd == 0 || (rop == 0 && (intFmt t).isNone)) && (sat == 0 || rop == 0)

/-- The first byte of a bulk-reduction descriptor that holds an offending bit or field (R253, R285). -/
def State.redDefect (s : State) (d : RedDesc) : Option Nat :=
  let badRange := fun (a : W64) => a.toNat % 256 ≠ 0 ∨ !s.ownRange a (Nat.max 1 d.len)
  let badLen := d.len % 256 ≠ 0 ∨ d.len = 0 ∨ 2 ^ 21 < d.len
  if !badLen ∧ badRange d.src then some 0
  else if !badLen ∧ badRange d.dst then some 8
  else if badLen then some 0x10
  else (lowByte 0x10 d.w10 63 32).or (
    if !redTypeOk (bitsOf d.w18 10 8) (bitsOf d.w18 4 0) ∨ bitsOf d.w18 7 5 ≠ 0 then
      some (if bitsOf d.w18 4 0 ∈ setVA ∧ bitsOf d.w18 7 5 = 0 then 0x19 else 0x18)
    else if bitsOf d.w18 13 11 = 6 ∨ !redModes (bitsOf d.w18 10 8) (bitsOf d.w18 4 0) (bitsOf d.w18 13 11) (bitsOf d.w18 14 14)
      then some 0x19
    else lowByte 0x18 d.w18 63 15)

/-- The 256-byte chunks at a key. -/
def chunksAt (m : Memory) (key n : Nat) : List VReg :=
  (List.range n).map fun i => BitVec.ofNat 2048 (natOfBytes (m.readBytes (key + 256 * i) 256))

/-- The contribution of ENQ of engine 3, after its seal: a bad descriptor is a deferred fault, and a mismatch for the
other members. -/
def State.enqueueReduction (s : State) (f : Slot) (x : Stand) : State :=
  let key := s.padRange false (s.g f.a.toNat) 32 32
  let d := redDesc (match key with | some k => s.mem.readBytes k 32 | none => [])
  let bad := match key with | some _ => s.redDefect d | none => some 0
  let args := [bitsOf d.w18 10 8, bitsOf d.w18 4 0, effRnd0 s (BitVec.ofNat 3 (bitsOf d.w18 13 11)), bitsOf d.w18 14 14, d.len]
  let data := match bad, s.padRange false d.src d.len 256 with
    | none, some k => chunksAt s.mem k (d.len / 256)
    | _, _ => []
  let c := { s.contributionOf x 2 args data with
    dst := (s.padRange false d.dst d.len 256).getD 0
    bad := bad.isSome }
  let keys := (key.elim [] fun k => (List.range 32).map (k + ·)) ++ (List.range (256 * data.length)).map
    ((s.padRange false d.src d.len 256).getD 0 + ·)
  let s1 := (s.noteReads keys).contribute c
  let fault := fun o : Nat => DeferredFault.mk 3 c.bolt c.order 3 (syndEngine 0x23 2 0x300 0 o c.cpos.toNat)
  let s2 := match bad with
    | some o => s1.setEng { s1.task.eng with faults := s1.task.eng.faults ++ [fault o] }
    | none => s1
  s2.countCommand

/-- Delivers the complete element of a bulk reduction. -/
def reduceElem (bolt : Nat) (cpos : W32) (e : TaskEng) : TaskEng := e.addElem 3 ⟨elemWord 2 0 0x300 cpos.toNat, bolt⟩

/-- ENQ of engine 3: a collective that does not keep its task waiting. A replay that re-issues its number joins the
contribution that stands, or takes the element again from the record. -/
def State.reduceBulk (s : State) (f : Slot) : State :=
  let z := s.task.stand
  let took := fun (t : State) =>
    State.setFlow (t.setStand { t.task.stand with collNo := z.collNo + 1 }) { t.task.flow with owns := some .collective }
  if z.level = 0 then s.trapSync 0x11 0
  else if s.buffered then s.waitFor .stall
  else if z.result.any (fun r => r.num == z.collNo) then
    took (s.setEng (reduceElem s.task.bolt.work.num (BitVec.ofNat 32 s.task.flow.off) s.task.eng))
  else if s.colls.any fun c => c.who == some s.task.ref && c.num == z.collNo && c.kind == 2 then
    took { s with colls := s.colls.map fun c =>
      if c.who = some s.task.ref ∧ c.num = z.collNo then { c with bolt := s.task.bolt.work.num } else c }
  else if !s.myCore.awake s.dcc then s.waitFor (.pad s.task.id.lcore)
  else s.sealOwn fun t =>
    match t.myStand t.task.stand.act with
    | none => t.trapSync 0x11 0
    | some x => took (t.enqueueReduction f x)

/-- ENQ of engine 3 (R235, R285). -/
def execEnqReduce (f : Slot) (s : State) : Out := guarded (.enqReduce f) f s (s.reduceBulk f)

/-! ### Completing a collective (R283 to R287) -/

/-- A contribution was made to a stand. -/
def Contribution.to (c : Contribution) (z : Stand) : Bool :=
  c.queue == z.queue && c.seq == z.seq && c.level == z.level && c.group == z.group

/-- A contribution of a member of a stand on this device, to whichever of its stands (R283). -/
def Contribution.of (c : Contribution) (z : Stand) : Bool :=
  c.here && c.queue == z.queue && c.seq == z.seq && decide (z.lo ≤ c.tile ∧ c.tile < z.lo + z.n)

/-- A contribution at its place in the order of members. -/
def insertContribution (c : Contribution) : List Contribution → List Contribution
  | [] => [c]
  | x :: xs => if c.member ≤ x.member then c :: x :: xs else x :: insertContribution c xs

/-- The contributions of a stand's members to the collective of the lowest number outstanding in it, by member index;
those that name another stand meet it as well (R283). -/
def State.contributions (s : State) (z : Stand) : List Contribution :=
  match ((s.colls.filter (·.to z)).map (·.num)).min? with
  | none => []
  | some n => ((s.colls.filter fun c => c.num == n && (c.to z || c.of z)).map fun c =>
      if c.here then { c with member := z.base + (c.tile - z.lo) } else c).foldr insertContribution []

/-- The lowest member that disagrees with the member of lowest index: on the kind, on what the kind has to agree on, or on
the stand. -/
def disagreeing : List Contribution → Option Nat
  | [] => none
  | c :: cs => (cs.find? fun x => x.kind != c.kind || x.args != c.args || x.bad || c.bad || x.level != c.level).map (·.member)

/-- A contribution is one of those that a collective takes. -/
def Contribution.taken (c : Contribution) (cs : List Contribution) : Bool :=
  cs.any fun x => x.queue == c.queue && x.seq == c.seq && x.num == c.num && x.here == c.here
    && (if c.here then x.tile == c.tile else x.member == c.member)

/-- The outcome that every participant raises: a member that ended, or members that disagree. -/
def collError (z : Stand) (cs : List Contribution) : Option (Nat × Nat) :=
  match (List.range z.size).find? fun m => !(cs.any (·.member == m)) with
  | some m => some (0x14, m)
  | none => (disagreeing cs).map fun m => (0x13, m)

/-- Neighbours combined, an odd last one carried over (R284). -/
def pairUp (op : Nat → Nat → Nat) : List Nat → List Nat
  | x :: y :: rest => op x y :: pairUp op rest
  | xs => xs

/-- The reduction tree of R284, with at most `fuel` levels. -/
def reduceTree (op : Nat → Nat → Nat) : Nat → List Nat → Nat
  | 0, xs => xs.headD 0
  | fuel + 1, xs => if xs.length ≤ 1 then xs.headD 0 else reduceTree op fuel (pairUp op xs)

/-- One chunk reduced element by element across the members. -/
def reduceChunk (rop t rnd : Nat) (sat : Bool) (xs : List VReg) : VReg :=
  let ty : BitVec 5 := BitVec.ofNat 5 t
  vregOf (typeWidth ty) fun i =>
    let ys := xs.map fun v => elem ty v i
    if exactAdd rop t then limitedSum t sat (ys.map (intValueOf t)).sum
    else reduceTree (combine rop t rnd sat) ys.length ys

/-- Every chunk of a reduction. -/
def reduceAll (args : List Nat) (cs : List Contribution) : List VReg :=
  let k := (cs.map (·.data.length)).headD 0
  (List.range k).map fun i =>
    reduceChunk (args.getD 0 0) (args.getD 1 0) (args.getD 2 0) (args.getD 3 0 == 1) (cs.map fun c => c.data.getD i 0)

/-- Records of a list of bytes, `w` bytes each. -/
def recordsOf (w : Nat) : (fuel : Nat) → List Byte → List (List Byte)
  | 0, _ => []
  | fuel + 1, bs => if bs.length < w then [] else bs.take w :: recordsOf w fuel (bs.drop w)

/-- The shares of `c` cores in a list of records, in groups of `n` (R287). -/
def shares (n c : Nat) (r : List (List Byte)) : List (List (List Byte)) :=
  let f := r.length / n
  (List.range c).map fun j =>
    let lo := j * f / c
    let hi := (j + 1) * f / c
    (r.drop (lo * n)).take ((hi - lo) * n) ++ (if j + 1 = c then r.drop (f * n) else [])

/-- BOOM: the streams after the rebalance with the count of records of each core, or the first core whose share does not
fit. Bytes that make no whole record stay behind their core's share (log 15). -/
def State.rebalance (s : State) (cores : List Nat) (i w n : Nat) : Except Nat (List (Nat × List Byte × Nat)) :=
  let own := cores.map fun l => ((s.core l).stream i).bytes.map (·.2)
  let rs := own.flatMap fun bs => recordsOf w bs.length bs
  let out := (cores.zip own).zip (shares n cores.length rs) |>.map fun ((l, bs), sh) =>
    (l, sh.flatten ++ bs.drop (bs.length / w * w), sh.length)
  match out.find? fun x => decide (65536 < ((s.core x.1).stream i).reserved + x.2.1.length) with
  | some x => .error (x.1 % 12)
  | none => .ok out

/-- A bulk reduction of the selected task has its results, or has none: its own bolt seals 32 clocks later (R283). -/
def State.ownResult (s : State) : State :=
  s.setBolt { s.task.bolt with own := s.task.bolt.own.map fun o =>
    if o.until_ = none then { o with until_ := some (s.dcc + 32) } else o }

/-- Gives one local participant its result: a waiting member's bundle completes or traps, a member in its handler keeps
the result, and a bulk reduction writes DST and delivers its element, or leaves a deferred fault. -/
def State.giveResult (s : State) (c : Contribution) (r : CollResult) (data : List VReg) : State :=
  match c.who with
  | none => s
  | some who =>
    let s1 := s.select who
    if !s1.task.is who then s
    else if c.kind = 2 then
      let s1 := s1.ownResult
      if c.bad then s1
      else match r.err with
        | some (cause, obj) => s1.setEng { s1.task.eng with faults := s1.task.eng.faults ++ [
            DeferredFault.mk 3 c.bolt c.order 6 (syndObj cause 2 obj)] }
        | none =>
          let s2 := s1.show (cellsAt c.dst (data.flatMap fun v => bytesOfNat 256 v.toNat))
          let s3 := s2.setEng (reduceElem c.bolt c.cpos s2.task.eng)
          if s3.task.bolt.own.isSome then s3.setStand { s3.task.stand with result := some r } else s3
    else if s1.task.flow.wait.any fun w => w.kind == .collective then
      let s2 := s1.finishCollective ⟨c.kind, c.dest, c.lat⟩ r
      match r.err with
      | some _ => s2
      | none => s2.completeWait
    else s1.setStand { s1.task.stand with bst := 2, result := some r }

/-- A bulk reduction's local destinations take the write, and its FIFOs the element (R240, R211). -/
def State.reductionReady (s : State) (c : Contribution) : Bool :=
  c.kind != 2 || c.bad || match c.who.bind s.taskAt with
    | none => true
    | some t => decide (t.occupancy 3 < 32)
      && !(granulesOf ((List.range (c.args.getD 4 0 / 16)).map fun i => c.dst + 16 * i)).any (s.writeStalls 0)

/-- Every member of a stand has issued the collective of the lowest number or has ended. -/
def State.collectiveReady (s : State) (z : Stand) : Bool :=
  let cs := s.contributions z
  !cs.isEmpty && (List.range z.size).all (fun m => cs.any (·.member == m) || z.ended.contains m)
    && cs.all s.reductionReady

/-- COLLECTIVE_COMPLETE of a stand. -/
def State.completeCollective (s : State) (z : Stand) : State :=
  let cs := s.contributions z
  let c0 := cs.headD { s.contributionOf z 0 [] [] with who := none }
  let s1 := { s with colls := s.colls.filter fun c => !c.taken cs }
  let give := fun (t : State) (r : Contribution → CollResult) (data : List VReg) =>
    cs.foldl (fun acc c => acc.giveResult c (r c) data) t
  match collError z cs with
  | some e => give s1 (fun c => ⟨c.num, 0, 0, some e⟩) []
  | none =>
    if c0.kind = 1 then
      let ty : BitVec 5 := BitVec.ofNat 5 (c0.args.getD 0 0)
      let i := c0.args.getD 1 0
      let cores := (cs.filterMap fun c => c.who.map (·.lcore)).dedup
      match s1.rebalance cores i (typeWidth ty / 8) (2048 / typeWidth ty) with
      | .error k => give s1 (fun c => ⟨c.num, 0, 0, some (0x15, k)⟩) []
      | .ok out =>
        let s2 := out.foldl (fun (acc : State) x =>
          let k := acc.core x.1
          acc.setCore (k.setStream i (Stream.append { k.stream i with bytes := [] } x.2.1))) s1
        give s2 (fun c => ⟨c.num, 0, BitVec.ofNat 64
          ((out.find? fun x => c.who.any (·.lcore == x.1)).elim 0 (·.2.2)), none⟩) []
    else
      let data := reduceAll c0.args cs
      give s1 (fun c => ⟨c.num, data.headD 0, 0, none⟩) data

/-- COLLECTIVE_COMPLETE: the first stand at or after a place in the list whose collective can complete. -/
def execCollectiveComplete (stand : Nat) (s : State) : Out :=
  .next (match (s.stands.drop stand).find? s.collectiveReady with
    | some z => s.completeCollective z
    | none => s)

/-! ### The stand watchdog (R281, R283) -/

/-- A wait that began at a tick has lasted 2^26 ticks. -/
def State.expired26 (s : State) (since : Nat) : Bool := decide (since + 2 ^ 26 ≤ s.dcc)

/-- The first member of a stand whose arrival has waited too long; watchdogs count while their core is resident (R295). -/
def State.lateArrival (s : State) : Option (Stand × Nat) :=
  s.stands.findSome? fun z => (z.present.find? fun a =>
    s.expired26 a.2.1 && decide (z.base ≤ a.1 ∧ a.1 < z.base + z.n) && (s.member z a.1).any fun t => s.resident t.id.lcore).map
      fun a => (z, a.1)

/-- The first local contribution that has waited too long. -/
def State.lateContribution (s : State) : Option Contribution :=
  s.colls.find? fun c => c.who.any (fun r => s.resident r.lcore) && s.expired26 c.since

/-- OBJ of the stand watchdog: members missing, and the level. -/
def watchdogObj (z : Stand) (missing : Nat) : Nat := missing % 2 ^ 24 * 2 ^ 24 + z.level

/-- A watchdog withdraws an arrival, and its ZSYNC traps, at once or when it is issued again after the handler. -/
def State.abandonBarrier (s : State) (z : Stand) (m : Nat) : State :=
  let s1 := { s with stands := s.stands.map fun (x : Stand) =>
    if x = z then { x with arrived := x.arrived.filter (·.1 ≠ m) } else x }
  match s1.member z m with
  | none => s1
  | some t =>
    let s2 := State.setBst (s1.select t.ref) 0
    if s2.task.flow.wait.any fun w => w.kind == .barrier then
      s2.trapSync 0x10 (watchdogObj z z.missing.length)
    else s2.setStand { s2.task.stand with late := some (watchdogObj z z.missing.length) }

/-- A watchdog withdraws a contribution, whose task traps, at once or when its collective is issued again after the
handler, or takes a deferred fault for a bulk reduction. -/
def State.abandonCollective (s : State) (c : Contribution) : State :=
  let s1 := { s with colls := s.colls.erase c }
  match s.standAt c.queue c.seq c.level c.group, c.who with
  | some z, some _ =>
    let have_ := s.contributions z
    let missing := ((List.range z.size).filter fun m => !(have_.any (·.member == m)) && !z.ended.contains m).length
    let r : CollResult := ⟨c.num, 0, 0, some (0x10, watchdogObj z missing)⟩
    s1.giveResult c r []
  | _, _ => s1

/-- STAND_WATCHDOG: the first wait at a stand that has lasted 2^26 ticks ends. -/
def execStandWatchdog (s : State) : Out :=
  .next (match s.lateArrival with
    | some (z, m) => s.abandonBarrier z m
    | none => match s.lateContribution with
      | some c => s.abandonCollective c
      | none => s)

end Sys2Proof.Machine
end

