-- ==== Sys2Proof/Machine/Begin.lean ====
section
/-! DEFINITION. The state a tile task begins in (spec/01_tile_task.md R14 to R22, spec/12_die_scheduling.md R302, R324),
kernels and their residency (R66, R306, R413, R414), and the physical host of a logical core (spec/10_cluster_stands.md
R292, R295, spec/15_package.md R366). -/

namespace Sys2Proof.Machine

/-! ### Kernels -/

def State.kernelAt (s : State) (h : W64) : Option Kernel := s.kernels.find? fun k => k.handle == h

/-- The native offset of a packet's program position: a Moldiba bundle number is mapped (R409). -/
def Kernel.entry (k : Kernel) (n : Nat) : Nat :=
  match k.starts with
  | none => n
  | some l => l.getD n k.clim

/-- A packet's program position names a bundle of the kernel (R303, R409). -/
def Kernel.entryOk (k : Kernel) (n : Nat) : Bool :=
  match k.starts with
  | none => decide (n < k.clim)
  | some l => decide (n < l.length)

/-- The descriptor's TVEC of a Moldiba kernel names one of its bundles (R409). -/
def Kernel.handlerOk (k : Kernel) : Bool := k.starts.isNone || k.entryOk k.tvec

def Kernel.helpers (k : Kernel) : Bool := k.loader.isSome || k.storer.isSome

/-- The object of a kernel: its handle without the kernel index (R416). -/
def objectOf (h : W64) : W64 := h &&& 0xFFFFFFFFFFFFFF00

/-! ### Dictionary store and pad images (R66, R306) -/

/-- A range of the dictionary store overlaps none of the residents. -/
def dictFree (rs : List Resident) (base n : Nat) : Bool :=
  decide (base + n ≤ 8192) && rs.all fun r => decide (base + n ≤ r.base ∨ r.base + r.size ≤ base)

/-- The lowest free range of `n` entries, with room among the four residents. -/
def dictFit (rs : List Resident) (n : Nat) : Option Nat :=
  if 4 ≤ rs.length then none
  else (((0 :: rs.map fun r => r.base + r.size).mergeSort fun a b => decide (a ≤ b)).find? fun b => dictFree rs b n)

/-- Evicts the residents of `idle`, least recently started first, until `n` entries fit. -/
def dictEvict (n : Nat) : (idle : List Resident) → List Resident → Option (Nat × List Resident)
  | idle, rs =>
    match dictFit rs n with
    | some b => some (b, rs)
    | none => match idle with
      | [] => none
      | r :: more => dictEvict n more (rs.erase r)

/-- The kernel has a task on the core. -/
def State.kernelBusy (s : State) (l : Nat) (h : W64) : Bool :=
  s.tasks.any fun t => t.id.live && t.id.lcore == l && t.id.kernel == h

/-- Where a kernel lies, or would lie after evictions, in a core's dictionary store, with the residents that stay. -/
def State.dictPlace (s : State) (l : Nat) (k : Kernel) : Option (Nat × List Resident) :=
  let rs := (s.core l).residents
  match rs.find? fun r => r.kernel == k.handle with
  | some r => some (r.base, rs)
  | none =>
    let idle := (rs.filter fun r => !s.kernelBusy l r.kernel).mergeSort fun a b => decide (a.last ≤ b.last)
    dictEvict k.dict.length idle rs

/-- The bytes and full bits of a kernel's pad images (R94, R306). -/
def State.writePads (s : State) (l : Nat) (k : Kernel) : State :=
  k.pads.foldl (fun acc (off, bs) =>
    let cells := cellsAt (keyCorePad l off) bs
    (acc.setMem (acc.mem.writeCells cells)).fillGranules (granulesOf (cells.map (·.1)))) s

/-- A helper image is written into a private store, which releases the helper (R261, R414). -/
def State.writeHelper (s : State) (l w func : Nat) (image : Option (List Byte)) : State :=
  match image with
  | none => s
  | some bs =>
    (s.setMem (s.mem.writeCells (cellsAt (keyHelper l w 0) bs))).onHelper l w fun _ =>
      { Helper.reset l w with mode := .running, func }

/-- KERNEL_RESIDENCY_LOAD: the kernel's entries, pad images and helper images, unless it is resident already; its base. -/
def State.makeResident (s : State) (l func : Nat) (k : Kernel) : Option (State × Nat) :=
  (s.dictPlace l k).map fun (base, rs) =>
    let c := s.core l
    if c.residents.any fun r => r.kernel == k.handle then
      (s.setCore { c with residents := c.residents.map fun (r : Resident) =>
        if r.kernel = k.handle then { r with last := s.dcc } else r }, base)
    else
      let dict := (List.range k.dict.length).foldl
        (fun (d : Sparse BundleWord) i => sset (fun _ => 0) d (base + i) (k.dict.getD i 0)) c.dict
      let s1 := s.setCore { c with dict, residents := rs ++ [⟨k.handle, base, k.dict.length, s.dcc⟩] }
      ((((s1.writePads l k).writeHelper l 0 func k.loader).writeHelper l 1 func k.storer), base)

/-- A candidate whose object carries helper images waits for the tasks of another such object (R414). -/
def State.helpersClash (s : State) (l : Nat) (k : Kernel) : Bool :=
  k.helpers && s.tasks.any fun t => t.id.live && t.id.lcore == l && objectOf t.id.kernel != objectOf k.handle
    && (s.kernelAt t.id.kernel).any Kernel.helpers

/-! ### Resources (R21, R306) -/

/-- The lowest free partition of a core. -/
def State.freePart (s : State) (l : Nat) : Option Nat :=
  (List.range 16).find? fun p => !(s.tasks.any fun t => t.is ⟨l, p⟩)

/-- Tiles and nest slots are bound to no partition of the core. -/
def State.unbound (s : State) (l : Nat) (abind : BitVec 4) (nbind : BitVec 8) : Bool :=
  s.tasks.all fun t => !(t.id.live && t.id.lcore == l && (t.id.abind &&& abind != 0 || t.id.nbind &&& nbind != 0))

/-! ### The start state (R14 to R22, R27, R34) -/

/-- An unspecified nest slot (R21). -/
def NestSlot.unspecified (epoch i : Nat) : NestSlot :=
  let x : BitVec 1024 := Config.freeBits epoch (2 ^ 26 + i) 1024
  let n := nestFields (bytesOfNat 128 x.toNat)
  { n with nd := n.nd % 7 }

/-- The contents of the bound tiles and nest slots are unspecified at a start (R21). -/
def State.unspecifyBound (s : State) (l : Nat) (abind : BitVec 4) (nbind : BitVec 8) : State :=
  let c := s.core l
  s.setCore { c with
    tiles := (List.range 4).map fun k =>
      if abind.getLsbD k then { Tile.reset with undef := some s.epoch } else c.tiles.getD k .reset
    nests := (List.range 8).map fun k =>
      if nbind.getLsbD k then NestSlot.unspecified s.epoch k else c.nest k }

/-- The launch level and the stand state of a task at its start (R276). -/
def TaskStand.atStart (level : Nat) : TaskStand :=
  { TaskStand.reset with level, act := level, ent := if level = 0 then 0 else BitVec.twoPow 4 (level - 1) }

/-- A task with an identity at the beginning of stage 0. -/
def Task.begin_ (id : TaskId) (level : Nat) (tvec : Nat) (now : Nat) : Task where
  id := { id with live := true, started := now }
  regs := { TaskRegs.reset with g := sset (fun _ => 0) [] 1 id.arg }
  flow := { TaskFlow.reset with pc := id.pe, nextPc := id.pe }
  sys := { TaskSys.reset with tvec := BitVec.ofNat 32 tvec }
  bolt := { TaskBolt.reset with boltpc := id.pe }
  eng := { TaskEng.reset with stampBase := now }
  stand := TaskStand.atStart level
  lease := .reset
  phase := .reset

/-- The identity of tile `t` of a node on a partition (R24 to R26, R302, R324). -/
def State.identity (s : State) (n : Node) (k : Kernel) (l part tile base : Nat) : TaskId where
  live := true; queue := n.queue; packet := n.slot; seq := n.seq; lcore := l; part; tile; func := n.func; kernel := k.handle
  tcoord := packetCoord n.packet tile
  nbind := k.nbind; abind := k.abind; vstart := k.gran; vgran := k.gran
  seed := BitVec.ofNat 64 (packetField n.packet 0x28 63 0)
  ctrbase := BitVec.ofNat 64 (packetField n.packet 0x30 63 0 + tile * packetField n.packet 0x38 31 0)
  detlvl := n.detlvl; clim := k.clim; dbase := base; dsize := k.dict.length; stream := k.stream
  pe := k.entry (packetField n.packet 0x08 31 0)
  ke := k.entry (packetField n.packet 0x08 63 32)
  ee := k.entry (packetField n.packet 0x10 31 0)
  trip := packetField n.packet 0x10 63 32
  arg := BitVec.ofNat 64 (packetField n.packet 0x50 63 0)
  budget := packetField n.packet 0x20 63 32
  started := s.dcc

/-- Bits 0 and 2 of DEGR that a task starts with: time-sharing and a capped rail (R312, R370). -/
def State.startDegr (s : State) (l : Nat) : BitVec 16 :=
  (if s.timeShared l then 1 else 0) ||| (if s.pkg.capped then 4 else 0)

/-- A task takes its partition; the task selected before is parked. -/
def State.addTask (s : State) (t : Task) : State :=
  { s with task := t, parked := s.parked ++ (if s.task.id.live then [s.task] else []) }

/-! ### A restart (R36, R194) -/

/-- The selected task takes the granules of its start, when the pool has them (R17). -/
def State.regain (s : State) : State :=
  let t := s.task
  let c := s.core t.id.lcore
  if t.id.vstart ≤ c.freeGran then
    (s.setCore { c with freeGran := c.freeGran - t.id.vstart }).setTask { t with
      id := { t.id with vgran := t.id.vstart }, flow := { t.flow with wait := none } }
  else s

/-- The selected task begins again at stage 0 with the identity it has. It returns the granules it holds, and waits for
its allotment of the start: DESIGN CHOICE (log 44). -/
def State.restartTask (s : State) : State :=
  let t := s.task
  let c := s.core t.id.lcore
  let s1 := s.setCore { c with freeGran := c.freeGran + t.id.vgran + t.flow.freed }
  let s2 := s1.unspecifyBound t.id.lcore t.id.abind t.id.nbind
  let tvec := (s.kernelAt t.id.kernel).elim t.sys.tvec.toNat fun k => k.entry k.tvec
  let n := Task.begin_ { t.id with vgran := 0 } t.stand.level tvec s.dcc
  (s2.onNode t.id.queue t.id.seq fun x => { x with ubrst := x.ubrst + t.phase.uburst.toNat }).setTask { n with
    flow := { n.flow with wait := some ⟨.allotment, s.dcc, false, 0⟩ }
    bolt := { n.bolt with replays := t.bolt.replays, degr := t.bolt.degr ||| s.startDegr t.id.lcore ||| 0x20 } }

end Sys2Proof.Machine
end

