-- ==== Sys2Proof/Machine/Helper.lean ====
section
/-! DEFINITION. Helper cores (spec/08_core_movement.md R261 to R266): exceptions, the memory map, Xhsk, and their bolts. -/

namespace Sys2Proof.Machine

/-! ### Registers and exceptions (R266) -/

/-- Register `n` of the selected helper; x0 reads 0. -/
def State.hx (s : State) (n : Nat) : W32 := if n = 0 then 0 else sget (fun _ => 0) s.hlp.x n

def State.setHlp (s : State) (h : Helper) : State := { s with hlp := h }

/-- A register write; one to x0 is discarded. -/
def State.setHx (s : State) (n : Nat) (v : W32) : State :=
  if n = 0 then s else s.setHlp { s.hlp with x := sset (fun _ => 0) s.hlp.x n v }

/-- Partition number of the selected helper (R238). -/
def State.hPart (s : State) : Nat := 16 + s.hlp.which

/-- The instruction is over and issue goes on at a pc. -/
def State.hGo (s : State) (pc : W32) : State :=
  s.setHlp { s.hlp with
    pc, wait := none
    quietAt := s.dcc + 32
    mcycle := s.hlp.mcycle + 1, minstret := s.hlp.minstret + 1 }

/-- The helper goes on with the next instruction. -/
def State.hNext (s : State) (len : Nat) : State := s.hGo (s.hlp.pc + BitVec.ofNat 32 len)

/-- The helper waits at its instruction, keeping the tick at which the wait began. -/
def State.hWait (s : State) (k : HelperWait) : State :=
  s.setHlp { s.hlp with
    mcycle := s.hlp.mcycle + 1
    wait := some (k, match s.hlp.wait with
      | some (k', since) => if k' = k then since else s.dcc
      | none => s.dcc) }

/-- TAKING A HELPER'S EXCEPTION (R266): the machine-mode entry of the privileged specification. One in the trap handler
stops the helper and posts its record (R313). -/
def State.hTrap (s : State) (cause : Nat) (tval : W32) : State :=
  let h := s.hlp
  let s1 := s.setHlp { h with
    mepc := h.pc, mcause := BitVec.ofNat 32 cause, mtval := tval
    mstatus := (h.mstatus &&& 0xFFFFFF77) ||| ((h.mstatus &&& 8) <<< 4)
    pc := h.mtvec &&& 0xFFFFFFFC, wait := none, inTrap := true
    mcycle := h.mcycle + 1
    mode := if h.inTrap then .stopped else h.mode }
  if h.inTrap then s1.post 0 0x06 (h.which * 256 + h.lcore) cause h.pc.toNat else s1

/-! ### The memory map (R262, R309) -/

/-- The key that a helper address names for `n` bytes: own core pad, cluster pad, or the die pad below its reserved
ranges. -/
def State.hKey (s : State) (a : W32) (n : Nat) : Option Nat :=
  let x := a.toNat
  let l := s.hlp.lcore
  if x + n ≤ 0x200000 then some (keyCorePad l x)
  else if 0x10000000 ≤ x ∧ x + n ≤ 0x12000000 then some (s.clusterKey (l / 12) (x - 0x10000000))
  else if 0x20000000 ≤ x ∧ x + n ≤ 0x28000000 then some (keyDiePad (s.padDie l) (x - 0x20000000))
  else none

/-- The bytes from a key on lie in the own core pad, which is at rest: an access to it stalls (R233). -/
def State.hAsleep (s : State) (k : Nat) : Bool := (s.asleep [k]).isSome

/-- The selected helper waits for its core's pad. -/
def State.hWaitPad (s : State) : State := s.hWait (.pad s.hlp.lcore)

/-- A byte that the helper reads: one its bolt holds, else memory. -/
def State.hByte (s : State) (k : Nat) : Byte := (holdLookup k s.hlp.work.hold).getD (s.mem.read k)

/-- The claimant of the selected helper. -/
def State.hMark (s : State) : Nat := claimMark s.hlp.lcore s.hPart

/-- The selected helper reads bytes from a key on (R353). -/
def State.hReads (s : State) (k n : Nat) : State :=
  let ks := (List.range n).map (k + ·)
  let s1 := s.touch ks
  s1.setHlp { s1.hlp with work := s1.hlp.work.sawWriters (s.writersOf s.hMark ks) }

/-- A load of `n` bytes, or the exception it raises (R262). -/
def State.hLoad (s : State) (a : W32) (n : Nat) : Except (Nat × W32) Nat :=
  if a.toNat % n ≠ 0 then .error (4, a)
  else match s.hKey a n with
    | none => .error (5, a)
    | some k => .ok (natOfBytes ((List.range n).map fun i => s.hByte (k + i)))

/-- An effect enters the helper's hold, or raises exception 26 (R265). -/
def State.hHold (s : State) (i : HoldItem) (n len : Nat) : State :=
  if 65536 < s.hlp.holdb + n then s.hTrap 26 (BitVec.ofNat 32 n)
  else
    let w := s.hlp.work
    (s.setHlp { s.hlp with holdb := s.hlp.holdb + n, work := { w with hold := w.hold ++ [i] } }).hNext len

/-- A store (R262): at once in the own core pad, where it stalls on claims and lends, held anywhere else. -/
def State.hStore (s : State) (a : W32) (n : Nat) (v : W32) (len : Nat) : State :=
  if a.toNat % n ≠ 0 then s.hTrap 6 a
  else match s.hKey a n with
    | none => s.hTrap 7 a
    | some k =>
      let cells := cellsAt k (bytesOfNat n v.toNat)
      if (corePadOf k).isSome then
        if s.hAsleep k then s.hWaitPad
        else if (granulesOf (cells.map (·.1))).any (s.writeStalls s.hMark) then s.hWait .store
        else (s.showOf (boltId s.hMark s.hlp.work.num) cells).hNext len
      else s.hHold (.store cells) n len

/-! ### Moves (R264) -/

/-- Skidder commands of the selected helper that have not completed. -/
def State.hMoves (s : State) : List SkCmd := (s.core s.hlp.lcore).sq.filter fun c => c.who.part = s.hPart

/-- A range passes the window check of R241 for the helper's core, which is never in an exchange phase. -/
def State.hRangeOk (s : State) (a : W64) (n : Nat) : Bool :=
  n == 0 || match placeOf s.hlp.lcore (s.padDie s.hlp.lcore) false a n with
    | .ok _ => true
    | .error _ => false

/-- A range lies wholly in the own core pad. -/
def State.hOwnRange (s : State) (a : W64) (n : Nat) : Bool :=
  n == 0 || match placeOf s.hlp.lcore (s.padDie s.hlp.lcore) false a n with
    | .ok (.corePad _ _ _) => true
    | _ => false

/-- hsk.enq (R264); bits of the control word other than [1:0], [8] and [9] are ignored (log 6). -/
def execHskEnq (rd rs1 rs2 : BitVec 5) (s : State) : Out :=
  let a := s.hx rs1.toNat
  let ctl := s.hx rs2.toNat
  let l := s.hlp.lcore
  .next (match (if a.toNat % 64 = 0 then s.hKey a 64 else none) with
    | none => s.hTrap 24 a
    | some k =>
      let d := moveDesc (s.mem.readBytes k 64)
      let charge := if s.hOwnRange d.dst d.room then 0 else d.room
      if s.hAsleep k then s.hWaitPad
      else if !s.hRangeOk d.src d.len || !s.hRangeOk d.dst d.room then s.hTrap 24 a
      else if 65536 < s.hlp.holdb + charge then s.hTrap 26 (BitVec.ofNat 32 charge)
      else if 16 ≤ s.hMoves.length then s.hWait .enq
      else
        let cmd : SkCmd := {
          who := ⟨s.hPart, s.hlp.work.num, s.hlp.tags, s.hlp.pc, s.hlp.tags % 65536⟩
          op := 0x300, path := 1, cls := ctl.toNat % 4, kind := d.kind 0
          src := d.src, dst := d.dst, len := d.len, pos := 0, func := s.hlp.func, det := 0
          res := ctl.getLsbD 9, con := ctl.getLsbD 8, sib := false, since := s.dcc, done := false, conDone := false, entered := s.dcc }
        let s0 := s.hReads k 64
        let c := s0.core l
        let s1 := s0.setCore { c with sq := c.sq ++ [cmd] }
        let s2 := s1.setHlp { s1.hlp with tags := s.hlp.tags + 1, holdb := s.hlp.holdb + charge }
        (s2.setHx rd.toNat (BitVec.ofNat 32 (s.hlp.tags % 65536))).hNext 4)

/-- hsk.deq (R264); a selector above 1 gives a free value (log 6). -/
def execHskDeq (rd rs1 : BitVec 5) (s : State) : Out :=
  let sel := s.hx rs1.toNat
  .next (if sel = 0 then
      match s.hlp.elems with
      | [] => s.hWait .deq
      | x :: rest =>
        let w := s.hlp.work
        let s1 := s.setHlp { s.hlp with elems := rest, work := { w with popped := w.popped ++ [(1, x)] } }
        (s1.setHx rd.toNat (x.word.setWidth 32)).hNext 4
    else if sel = 1 then (s.setHx rd.toNat (BitVec.ofNat 32 s.hlp.elems.length)).hNext 4
    else (s.setHx rd.toNat (Config.freeBits s.epoch 1024 32)).hNext 4)

/-! ### Full bits (R264, R258) -/

/-- Takes a claim for the selected helper on a granule that reads as full to it (R186). -/
def State.hClaim (s : State) (gr : Nat) : State :=
  let c := s.core s.hlp.lcore
  if c.fullFor gr s.hMark && c.claim gr == 0 then
    let s1 := s.setCore (c.setClaim gr s.hMark)
    let w := s1.hlp.work
    s1.setHlp { s1.hlp with work := { w with claims := w.claims ++ [keyCorePad s.hlp.lcore (16 * gr)] } }
  else s

/-- The load of hsk.few, with its clear in the same action. -/
def State.hFewLoad (s : State) (a rd : Nat) (clear : Bool) : State :=
  let v := natOfBytes (s.mem.readBytes (keyCorePad s.hlp.lcore a) 4)
  let s1 := s.hReads (keyCorePad s.hlp.lcore a) 4
  ((if clear then s1.hClaim (a / 16) else s1).setHx rd (BitVec.ofNat 32 v)).hNext 4

/-- hsk.few, with or without its clear. -/
def State.hFew (s : State) (rd rs1 : BitVec 5) (clear : Bool) : State :=
  let a := s.hx rs1.toNat
  if a.toNat % 4 ≠ 0 then s.hTrap 4 a
  else if 0x200000 < a.toNat + 4 then s.hTrap 5 a
  else if s.hAsleep (keyCorePad s.hlp.lcore a.toNat) then s.hWaitPad
  else if !(s.core s.hlp.lcore).fullFor (a.toNat / 16) s.hMark then s.hWait (.few a.toNat rd.toNat clear)
  else s.hFewLoad a.toNat rd.toNat clear

/-- hsk.few with funct7 = 0 (R264). -/
def execHskFew (rd rs1 : BitVec 5) (s : State) : Out := .next (s.hFew rd rs1 false)
/-- hsk.few with funct7 = 1. -/
def execHskFewClr (rd rs1 : BitVec 5) (s : State) : Out := .next (s.hFew rd rs1 true)

/-- hsk.fes (R264): bit 0 of the value sets or clears (log 6). -/
def execHskFes (rs1 rs2 : BitVec 5) (s : State) : Out :=
  let a := s.hx rs1.toNat
  .next (if 0x200000 ≤ a.toNat then s.hTrap 7 a
    else if s.hAsleep (keyCorePad s.hlp.lcore a.toNat) then s.hWaitPad
    else if (s.hx rs2.toNat).getLsbD 0 then
      if s.writeStalls s.hMark (s.hlp.lcore, a.toNat / 16) then s.hWait .store
      else (s.fillGranules [(s.hlp.lcore, a.toNat / 16)]).hNext 4
    else (s.hClaim (a.toNat / 16)).hNext 4)

/-! ### Mailboxes (R264, R265) -/

/-- The oldest sealed word from a partition, and the other words. -/
def takeInbox (p : Nat) : List (Nat × W32 × Bool × Nat) → Option ((Nat × W32 × Nat) × List (Nat × W32 × Bool × Nat))
  | [] => none
  | x :: xs =>
    if x.1 = p ∧ x.2.2.1 then some ((x.1, x.2.1, x.2.2.2), xs)
    else (takeInbox p xs).map fun r => (r.1, x :: r.2)

/-- The mask of partitions with a sealed word waiting. -/
def inboxMask (l : List (Nat × W32 × Bool × Nat)) : Nat :=
  packLanes 1 (fun p => (l.any fun x => x.1 == p && x.2.2.1).toNat) 16

/-- hsk.mbr (R264); a selector that names nothing gives a free value (log 6). -/
def execHskMbr (rd rs1 : BitVec 5) (s : State) : Out :=
  let p := (s.hx rs1.toNat).toNat
  .next (if p < 16 then
      match takeInbox p s.hlp.inbox with
      | none => s.hWait (.mbr p)
      | some (w, rest) =>
        let k := s.hlp.work
        let s1 := s.setHlp { s.hlp with inbox := rest, work := { k with mail := k.mail ++ [w] } }
        (s1.setHx rd.toNat w.2.1).hNext 4
    else if p = 16 then (s.setHx rd.toNat (BitVec.ofNat 32 (inboxMask s.hlp.inbox))).hNext 4
    else (s.setHx rd.toNat (Config.freeBits s.epoch 1025 32)).hNext 4)

/-- Words held for the mailbox of a partition. -/
def heldMail (part : Nat) (l : List HoldItem) : Nat :=
  (l.filter fun i => match i with | .mail p _ => p == part | _ => false).length

/-- hsk.mbw (R264): the write is held; a partition above 15 has no mailbox and takes nothing (log 6). -/
def execHskMbw (rs1 rs2 : BitVec 5) (s : State) : Out :=
  let p := (s.hx rs1.toNat).toNat
  .next (if 16 ≤ p then s.hNext 4
    else if 8 ≤ ((s.core s.hlp.lcore).box p s.hlp.which).length + heldMail p s.hlp.work.hold then s.hWait (.mbw p)
    else s.hHold (.mail p (s.hx rs2.toNat)) 16 4)

/-- hsk.dcc with funct7 = 0 (R264). -/
def execHskDcc (rd : BitVec 5) (s : State) : Out :=
  let s1 := s.setHlp { s.hlp with latch := BitVec.ofNat 32 (s.dcc / 2 ^ 32) }
  .next ((s1.setHx rd.toNat (BitVec.ofNat 32 s.dcc)).hNext 4)

/-- hsk.dcc with funct7 = 1. -/
def execHskDccHi (rd : BitVec 5) (s : State) : Out := .next ((s.setHx rd.toNat s.hlp.latch).hNext 4)

/-! ### Bolts (R265) -/

/-- Every move of the helper's bolt has reached the pad or the hold. -/
def State.hQuiet (s : State) : Bool :=
  !(s.hMoves.any fun c => c.who.bolt == s.hlp.work.num && !c.done)
    && s.hlp.work.hold.all (s.itemReady s.hMark s.hlp.lcore)

/-- Who releases a helper's effects. -/
def State.hReleaser (s : State) : Releaser := ⟨0, 0, 0, 0, s.hlp.func, 0, s.hlp.lcore, s.hPart⟩

/-- The helper's seal completes: its effects are released in held order, its claims resolve, and the next bolt begins
behind the hsk.seal. -/
def State.hSealNow (s : State) : State :=
  let w := s.hlp.work
  let s1 := w.hold.foldl (fun acc i => acc.releaseItem s.hReleaser i) s
  let s2 := (s1.resolveClaims false w.claims).forgetWriter (boltId s.hMark w.num)
  let s3 := s2.setHlp { s2.hlp with
    work := .fresh (w.num + 1), holdb := 0, retry := 0, boltpc := s2.hlp.pc + 4, boltTrap := s2.hlp.inTrap }
  s3.hNext 4

/-- The tag of a failed move of the helper's bolt that no element reports. -/
def State.hFault (s : State) : Option (Nat × Nat) := s.hlp.faults.find? fun x => x.1 == s.hlp.work.num

/-- An hsk.seal with nothing left to wait for raises the fault of a move and releases nothing, or seals (R265, R266). -/
def State.hSealEnd (s : State) : State :=
  match s.hFault with
  | some x => State.hTrap (s.setHlp { s.hlp with faults := s.hlp.faults.erase x }) 24 (BitVec.ofNat 32 x.2)
  | none => s.hSealNow

/-- hsk.seal waits for the steps of its bolt (R264, R265). -/
def execHskSeal (s : State) : Out :=
  .next (if s.hFault.isSome ∨ (s.hlp.quietAt ≤ s.dcc ∧ s.hQuiet) then s.hSealEnd else s.hWait .seal)

/-- Every helper that has been released, the selected one first. -/
def State.helpers (s : State) : List Helper := s.hlp :: s.parkedH

/-- The first running helper that satisfies a test on the state in which it is selected, selected. -/
def State.findHelper (s : State) (test : State → Bool) : Option State :=
  (s.helpers.map fun h => s.selectHelper h.lcore h.which).find? fun t => t.hlp.mode == .running && test t

/-- The selected helper waits at hsk.seal, and its bolt is quiet or has a fault to raise. -/
def State.hSealWaits (s : State) : Bool :=
  (s.hlp.wait.any fun w => w.1 == .seal) && s.runs s.hlp.lcore && s.hlp.charged.isNone
    && (s.hFault.isSome || (decide (s.hlp.quietAt ≤ s.dcc) && s.hQuiet))

/-- HELPER_SEAL_RELEASE (R265): 32 clocks have passed for a helper that waits at hsk.seal. -/
def execHelperSealRelease (s : State) : Out :=
  .next (((s.findHelper State.hSealWaits).map State.hSealEnd).getD s)

/-- The selector that a helper's watchdog reports (R266). -/
def HelperWait.selector : HelperWait → Option Nat
  | .deq => some 0
  | .few a _ _ => some a
  | .mbr p => some p
  | .mbw p => some p
  | _ => none

/-- The selected helper has waited 2^24 ticks where a watchdog counts. -/
def State.hLate (s : State) : Bool :=
  s.runs s.hlp.lcore && s.hlp.wait.any fun w => w.1.selector.isSome && decide (w.2 + 2 ^ 24 ≤ s.dcc)

/-- HELPER_WATCHDOG (R264): exception 25. -/
def execHelperWatchdog (s : State) : Out :=
  .next (match s.findHelper State.hLate with
    | none => s
    | some t => t.hTrap 25 (BitVec.ofNat 32 ((t.hlp.wait.bind (·.1.selector)).getD 0)))

/-- A replay of the selected helper's bolt (R265): its moves and their elements go, held effects go, claims are full
again, words and elements it took return, and it restarts behind its previous seal. -/
def State.hReplay (s : State) : State :=
  let h := s.hlp
  let w := h.work
  let s1 := s.cancel h.lcore fun x => x.part == 16 + h.which && x.bolt == w.num
  let s2 := (s1.resolveClaims true w.claims).forgetWriter (boltId s.hMark w.num)
  let old := (w.popped.map (·.2)).filter (·.bolt ≠ w.num)
  s2.setHlp { s2.hlp with
    elems := old ++ h.elems.filter (·.bolt ≠ w.num)
    inbox := w.mail.map (fun m => (m.1, m.2.1, true, m.2.2)) ++ h.inbox
    faults := h.faults.filter (·.1 ≠ w.num)
    inTrap := h.boltTrap
    work := { BoltWork.fresh w.num with replayed := true }
    holdb := 0, retry := h.retry + 1, pc := h.boltpc, wait := none, charged := none }

/-- A helper waits at hsk.few for a granule that is full now. -/
def State.hFewServed (s : State) : Bool :=
  s.runs s.hlp.lcore && s.hlp.charged.isNone && s.hlp.wait.any fun w => match w.1 with
    | .few a _ _ => (s.core s.hlp.lcore).fullFor (a / 16) s.hMark && !s.hAsleep (keyCorePad s.hlp.lcore a)
    | _ => false

/-- The served load of the selected helper. -/
def State.hFewServe (s : State) : State :=
  match s.hlp.wait with
  | some (.few a rd clear, _) => s.hFewLoad a rd clear
  | _ => s

/-- The effects of the selected helper's bolt are discarded, and it starts at address 0 (R265, R266). -/
def State.hRestart (s : State) (run : HelperMode) : State :=
  let t := s.hReplay
  t.setHlp { Helper.reset t.hlp.lcore t.hlp.which with mode := run, func := t.hlp.func, work := .fresh (t.hlp.work.num + 1) }

end Sys2Proof.Machine
end

