-- ==== Sys2Proof/Machine/Records.lean ====
section
/-! DEFINITION. The event rings of the host functions (spec/12_die_scheduling.md R312 to R314; spec/13_die_memory.md R329):
writing records, waiting for ring space, and the completion of a node once its record is written. -/

namespace Sys2Proof.Machine

/-! ### Memory that the device itself reaches (R329) -/

/-- The physical address of an access by the device in the context of a function, to an owned, common or host plot. -/
def State.deviceAddress (s : State) (fn va : Nat) (write : Bool) : Option Nat :=
  if 0xF00000000000 ≤ va then none
  else match s.walk fn va write with
    | .error _ => none
    | .ok x =>
      let pa := x.pa + va % x.size
      if s.plotState (pa / 2 ^ 21) ∈ [1, 2, 3] then some pa else none

/-! ### Rings (R314) -/

def FnRegs.lsize (r : FnRegs) : Nat := r.ring.2.1.toNat % 32

/-- Records that the host has not consumed. -/
def FnRegs.unread (r : FnRegs) : Nat := (r.erwr - r.ring.2.2).toNat

/-- The ring takes no record now. -/
def FnRegs.noRoom (r : FnRegs) : Bool := r.lsize == 0 || decide (2 ^ r.lsize ≤ r.unread)

/-- ERSTAT.FULL. -/
def FnRegs.isFull (r : FnRegs) : Bool := !r.waiting.isEmpty || (r.lsize != 0 && r.noRoom)

/-- The physical address of the next record. -/
def State.recordAddress (s : State) (fn : Nat) : Option Nat :=
  let r := s.fn fn
  s.deviceAddress fn (r.ring.1.toNat % 2 ^ 48 / 32 * 32 + 32 * (r.erwr.toNat % 2 ^ r.lsize)) true

/-- A record is written, and ERWR after it (R393). -/
def State.writeRecord (s : State) (fn pa : Nat) (rec : BitVec 256) : State :=
  let s1 := (s.setMem (s.mem.writeCells (cellsAt pa (bytesOfNat 32 rec.toNat)))).bus fn true ((List.range 32).map (pa + ·))
  let r := s1.fn fn
  s1.setFn fn { r with erwr := r.erwr + 1, since := r.since + 1, first := r.first.or (some s.dcc) }

/-! ### Completion (R310 to R312) -/

/-- The node has completed for its successors: its entry and its window are free, and its stands and its speculations'
hold are gone. -/
def State.finishNode (s : State) (q seq status : Nat) : State :=
  let s1 := s.onNode q seq fun n => { n with state := .completed status, entry := false, buffer := [] }
  { s1 with
    live := s1.live.filter fun w => !(w.queue == q && w.seq == seq)
    stands := s1.stands.filter fun (z : Stand) => !(z.queue == q && z.seq == seq)
    colls := s1.colls.filter fun (c : Contribution) => !(c.queue == q && c.seq == seq) }

/-- The waiting records of a function that fit are written in order, and the nodes they complete complete, at most `fuel`
of them. -/
def State.drainRecords (s : State) (fn : Nat) : (fuel : Nat) → State
  | 0 => s
  | fuel + 1 =>
    let r := s.fn fn
    match r.waiting with
    | [] => s
    | (rec, who) :: rest =>
      if r.stuck || r.noRoom then s
      else match s.recordAddress fn with
        | none => s.setFn fn { r with stuck := true }
        | some pa =>
          let s1 := (s.setFn fn { r with waiting := rest }).writeRecord fn pa rec
          let s2 := match who with
            | some (q, seq) =>
              match (s1.nodeAt q seq).map (fun (n : Node) => n.state) with
              | some (.waiting status) => s1.finishNode q seq status
              | _ => s1
            | none => s1
          s2.drainRecords fn fuel

/-- A record enters the ring, or waits behind those that wait; with it the node whose completion it records. -/
def State.putRecord (s : State) (fn : Nat) (rec : BitVec 256) (who : Option (Nat × Nat)) : State :=
  let r := s.fn fn
  let s1 := s.setFn fn { r with waiting := r.waiting ++ [(rec, who)] }
  s1.drainRecords fn (r.waiting.length + 1)

/-- A record of 32 bytes: TIME and its body. -/
def State.record (s : State) (body : BitVec 192) : BitVec 256 := body ++ BitVec.ofNat 64 s.dcc

/-- An event record on its decision tick (R313). -/
def State.putEvent (s : State) (fn kind w1 w2 w3 : Nat) : State :=
  s.putRecord fn (s.record (recordBody kind w1 w2 w3)) none

/-- The body of a completion record (R312). -/
def completionBody (status queue slot seq : Nat) (f : Option FaultInfo) (degr : BitVec 16) (ubrst repl : Nat) : BitVec 192 :=
  let f := f.getD ⟨0, 0, 0, 0, 0⟩
  recordBody 1 (status * 2 ^ 52 + queue * 2 ^ 46 + slot % 2 ^ 14 * 2 ^ 32 + seq)
    (f.tile * 2 ^ 32 + f.det % 65536 * 65536 + f.cause % 256 * 256 + f.cls % 256)
    (degr.toNat * 2 ^ 32 + Nat.min ubrst 65535 * 65536 + Nat.min repl 65535)

/-- DEGR of a record written now: bit 1 after an adoption (R366). -/
def State.degrNow (s : State) (d : BitVec 16) : BitVec 16 := if s.pkg.state = 1 then d ||| 2 else d

/-- A node completes with a status: its record is written or waits, and with it the node. -/
def State.recordCompletion (s : State) (q seq status : Nat) : State :=
  match s.nodeAt q seq with
  | none => s
  | some n =>
    let body := completionBody status q n.slot seq n.fault (s.degrNow n.degr) n.ubrst n.repl
    let s1 := s.onNode q seq fun x => { x with state := .waiting status }
    s1.putRecord n.func (s.record body) (some (q, seq))

end Sys2Proof.Machine
end

