-- ==== Sys2Proof/Machine/Escalate.lean ====
section
/-! DEFINITION. Escalation: plots marked bad (spec/13_die_memory.md R331), shedding and restarts
(spec/10_cluster_stands.md R293 to R295), the failure of a die's compute, adoption and device fault
(spec/15_package.md R365 to R368), and the splicing of lanes (R363, R403). -/

namespace Sys2Proof.Machine

/-! ### Bad plots (R331) -/

/-- PLOT_MARKED_BAD: the plot becomes bad, its contents are unspecified, and PLBAD records it. Plot 0 keeps the plot table,
which the controllers' plot caches hold (log 21). -/
def State.markBad (s : State) (plot : Nat) : State :=
  let s1 := s.setPlot plot 4 0
  let s2 := if plot ≠ 0 ∧ plot < 131072 then s1.scramble (plot * 2 ^ 21) (2 ^ 21) else s1
  { s2 with dev := { s2.dev with plbad := Nat.min (s2.dev.plbad + 1) (2 ^ 32 - 1), pllast := BitVec.ofNat 18 plot } }

/-- An agent without a bolt meets an uncorrectable error at a key: only main memory and the aperture have plots. A table
entry there gives the walker reason 14 from now on (R331, R337). -/
def State.agentError (s : State) (k : Nat) : State :=
  if k < 2 ^ 39 then
    let s1 := s.markBad (k / 2 ^ 21)
    { s1 with poison := (k / 64 :: s1.poison).dedup }
  else s

/-! ### Restarts (R36, R294) -/

/-- The members of a stand that are on partitions of this device. -/
def State.membersOn (s : State) (z : Stand) : List Task :=
  s.tasks.filter fun u => u.id.live && u.id.queue == z.queue && u.id.seq == z.seq
    && decide (z.lo ≤ u.id.tile ∧ u.id.tile < z.lo + z.n)

/-- The stands within a launch-level stand are as at its start, and its collectives are gone (R294). -/
def State.resetStands (s : State) (z : Stand) : State :=
  let mine := fun (x : Stand) => x.within z
  { s with
    stands := s.stands.map fun (x : Stand) => if mine x then
      { x with phase := false, epoch := 0, count := 0, arrived := [], ended := [], restart := [], fired := false } else x
    colls := s.colls.filter fun (c : Contribution) => !(s.stands.any fun (x : Stand) => mine x && c.to x) }

/-- A stand member stops until its stand restarts, as step 1 of R293 says. -/
def State.haltMember (s : State) (r : TaskRef) : State :=
  let s1 := s.select r
  if !s1.task.is r then s1
  else
    let s2 := s1.abandon
    let t := s2.task
    s2.setTask { t with
      flow := { t.flow with wait := some ⟨.halted, s.dcc, false, t.flow.clk⟩, preempt := false }
      bolt := { t.bolt with charged := none, outCharged := none } }

/-- A halted member leaves its partition; its node has its sums (R312), with the flag of a restart. -/
def State.unstart (s : State) (r : TaskRef) : State :=
  let s1 := s.select r
  if !s1.task.is r then s1
  else
    let t := s1.task
    let c := s1.myCore
    let s2 := s1.setCore { c with freeGran := c.freeGran + t.id.vgran + t.flow.freed }
    let s3 := s2.onNode t.id.queue t.id.seq fun n => { n with
      ubrst := n.ubrst + t.phase.uburst.toNat
      repl := n.repl + t.bolt.replays
      degr := n.degr ||| t.bolt.degr ||| 0x20 }
    (s3.setTask { t with
      id := { t.id with live := false }
      lease := t.lease.ended 6
      phase := t.phase.ended }).refreshLevel t.id.lcore

/-- The counters of a node from what is left of its slices (R311). -/
def Node.recount (n : Node) : Node :=
  let cores := (List.range 192).filter fun l => counter n.left l ≠ 0
  let clusters := (cores.map (· / 12)).dedup
  let dies := (clusters.map (· / 8)).dedup
  { n with
    clusters := clusters.foldl (fun c x => setCounter c x (cores.filter (· / 12 = x)).length) []
    dies := dies.foldl (fun c x => setCounter c x (clusters.filter (· / 8 = x)).length) []
    device := dies.length }

/-- No tile of some cores of a node has started: a stand's members restart together, those that had ended among them
(R275, R294; log 44). -/
def Node.reopen (n : Node) (lo hi : Nat) : Node :=
  Node.recount (((List.range hi).drop lo).foldl (fun (acc : Node) l =>
    { acc with started := setCounter acc.started l 0, left := setCounter acc.left l (acc.sliceSize l) }) n)

/-- A stand's restart is decided: its members begin again together under R275, or all of them end as faulted with cause
*not restartable* (R294). -/
def State.decideRestart (s : State) (z : Stand) (ok : Bool) : State :=
  let rs := (s.membersOn z).map (·.ref)
  if ok then
    let (lo, hi) := scopeCores z.level (if z.level = 1 then 12 * z.group else 96 * z.group)
    ((rs.foldl State.unstart s).resetStands z).onNode z.queue z.seq (·.reopen lo hi)
  else rs.foldl (fun acc r =>
    let u := acc.select r
    if u.task.is r then u.endFaulted 4 3 0 else u) (s.onStand z.queue z.seq z.level z.group fun x => { x with restart := [] })

/-- Reports of a restart without the first of each device. -/
def laterReports : List (Nat × Bool) → List Nat → List (Nat × Bool)
  | [], _ => []
  | x :: xs, seen => if seen.contains x.1 then x :: laterReports xs seen else laterReports xs (x.1 :: seen)

/-- A multi-device stand restarts once every device has reported that its members have stopped (R294). -/
def State.settleRestart (s : State) (q seq : Nat) : State :=
  match s.standAt q seq 4 0 with
  | none => s
  | some z =>
    if (List.range s.position.2).all fun p => z.restart.any (·.1 == p) then
      let first := (List.range s.position.2).map fun p => (z.restart.find? (·.1 == p)).all (·.2)
      let s1 := s.decideRestart z (first.all id)
      s1.onStand q seq 4 0 fun x => { x with restart := laterReports z.restart [] }
    else s

/-- The members of a launch-level stand on this device stop; the other devices of a multi-device stand are told (R294). -/
def State.haltStand (s : State) (z : Stand) : State :=
  let ts := s.membersOn z
  let s1 := ts.foldl (fun acc t => acc.haltMember t.ref) s
  let ok := ts.all (·.bolt.restartable)
  if z.level = 4 then
    let s2 := s1.onStand z.queue z.seq 4 0 fun x => { x with restart := x.restart ++ [(s.position.1, ok)] }
    (s2.sendAll (.restart z.queue z.seq s.position.1 ok)).settleRestart z.queue z.seq
  else s1.decideRestart z ok

/-- Another device has stopped its members of a multi-device stand: those of this device stop as well (R294). -/
def State.hearRestart (s : State) (q seq pos : Nat) (ok : Bool) : State :=
  let s1 := s.onStand q seq 4 0 fun z => { z with restart := z.restart ++ [(pos, ok)] }
  match s1.standAt q seq 4 0 with
  | none => s1
  | some z => if z.restart.any (·.1 == s.position.1) then s1.settleRestart q seq else s1.haltStand z

/-- A message that comes before this device can take it: its stand is not formed, or its device has stopped for a restart
that this device has not finished (R294). -/
def State.tooEarly (s : State) (q seq member : Nat) : Bool :=
  match s.standAt q seq 4 0 with
  | none => true
  | some z => z.restart.any fun r => r.1 == member / Nat.max 1 z.n

/-- A message of another device of a multi-device stand (R406, R407); one that comes too early waits. -/
def State.deliverBody (s : State) (b : Config.PortBody) : State :=
  let wait := { s with dev := { s.dev with early := s.dev.early ++ [b] } }
  let onStand4 := fun (q seq m : Nat) (t : State) =>
    if (s.nodeAt q seq).any (fun (n : Node) => match n.state with | .completed _ => true | _ => false) then s
    else if s.tooEarly q seq m then wait else t
  match b with
  | .packet q seq bytes =>
    let x := s.queue q
    (s.setQueue q { x with backlog := x.backlog ++ [⟨seq, bytes, none, false, false⟩] }).event q 0 (.doorbell q x.seen)
  | .arrival q seq m no => onStand4 q seq m (s.onStand q seq 4 0 fun z => { z with arrived := z.arrived ++ [(m, s.dcc, no)] })
  | .ended q seq m => onStand4 q seq m (s.onStand q seq 4 0 fun z => { z with ended := z.ended ++ [m] })
  | .restart q seq pos ok => if (s.standAt q seq 4 0).isNone then wait else s.hearRestart q seq pos ok
  | .data q seq num member kind args vals bad =>
    onStand4 q seq member { s with colls := s.colls ++ [{
        queue := q, seq, level := 4, group := 0, num, member, tile := 0, who := none, here := false, kind, args, data := vals
        dst := 0, bad, dest := 0, lat := 0, since := s.dcc, order := 0, cpos := 0, bolt := 0 }] }

/-- The messages that waited are taken, as far as they can be. -/
def State.deliverEarly (s : State) : State :=
  s.dev.early.foldl State.deliverBody { s with dev := { s.dev with early := [] } }

/-- A message is taken; one about a restart may let others follow. -/
def State.deliver (s : State) (b : Config.PortBody) : State :=
  match b with
  | .restart .. => (s.deliverBody b).deliverEarly
  | _ => s.deliverBody b

/-- A task that is no stand member restarts, or ends as faulted with cause *not restartable*. -/
def State.restartOrEnd (s : State) (ok : Bool) (t : Task) : State :=
  let s1 := s.select t.ref
  if !s1.task.is t.ref then s1
  else if ok then s1.abandon.restartTask else s1.endFaulted 4 3 0

/-- TASK_RESTART of some stopped tasks: with a stand member every member of its launch-level stand restarts. -/
def State.restartTasks (s : State) (rs : List TaskRef) : State :=
  State.deliverEarly <| rs.foldl (fun acc r => match acc.taskAt r with
    | none => acc
    | some t =>
      if t.flow.wait.any (·.kind == .halted) then acc
      else match acc.standAt t.id.queue t.id.seq t.stand.level (groupOf t.stand.level t.id.lcore) with
        | some z => if t.stand.level = 0 then acc.restartOrEnd t.bolt.restartable t else acc.haltStand z
        | none => acc.restartOrEnd t.bolt.restartable t) s

/-! ### A logical core on a new host (R293) -/

/-- The helpers of a core that were running start at address 0 (R265). -/
def State.restartHelpers (s : State) (l : Nat) : State :=
  (List.range 2).foldl (fun acc w =>
    if acc.helperAt l w = Helper.reset l w then acc
    else
      let t := acc.selectHelper l w
      t.hRestart t.hlp.mode) s

/-- A command that runs on a neighbour's array returns to the head of its home queue, its partial discarded (R227). -/
def Core.recall (c : Core) (nb : Nat) : Core :=
  let back := (c.run.filter fun r => r.cmd.away = some nb).map fun r => { r.cmd with away := none }
  { c with mq := back ++ c.mq, run := c.run.filter fun r => r.cmd.away ≠ some nb }

/-- The command of core `h` that runs on a core's array returns. -/
def State.recallFrom (s : State) (h nb : Nat) : State :=
  let c := s.core h
  let away := c.run.filter fun r => r.cmd.away = some nb
  if away.isEmpty then s else away.foldl (fun acc r => acc.leaveArray h r) (s.setCore (c.recall nb))

/-- Every command that runs on a core's array for a neighbour returns. -/
def State.recall (s : State) (nb : Nat) : State :=
  (List.range 12).foldl (fun acc i =>
    let h := nb / 12 * 12 + i
    acc.recallFrom h nb) s

/-- Bytes of a core's pad become unspecified, and nothing unsealed stands in it (R293). -/
def State.loseBytes (s : State) (l k n : Nat) : State :=
  let s1 := s.scramble k n
  { s1 with writers := s1.writers.filter fun w => (corePadOf w.1).map Prod.fst != some l }

/-- The contents of a core's pad become unspecified (R293). -/
def State.losePad (s : State) (l : Nat) : State := s.loseBytes l (keyCorePad l 0) (2 ^ 21)

/-- Everything a physical core held for a logical core is lost, but for the streams and the residents; the pad holds
the images of the resident kernels. -/
def State.moveCore (s : State) (l : Nat) : State :=
  let s0 := s.recall l
  let c := s0.core l
  let s1 := s0.setCore { Core.reset l with
    streams := c.streams, residents := c.residents, dict := c.dict, freeGran := c.freeGran, tiles := c.tiles, nests := c.nests, left := s.dcc }
  let s2 := c.residents.foldl (fun acc r => ((s.kernelAt r.kernel).map (acc.writePads l)).getD acc) (s1.losePad l)
  s2.restartHelpers l

/-- Several logical cores lose what their physical cores held. -/
def State.moveCores (s : State) (ls : List Nat) : State := ls.foldl State.moveCore s

/-- Every task of some logical cores stops, as step 1 of R293 says. -/
def State.stopTasks (s : State) (ls : List Nat) : State :=
  (s.tasks.filter fun t => t.id.live && ls.contains t.id.lcore).foldl (fun acc t => (acc.select t.ref).abandon) s

/-- An uncorrectable error in the stream storage of a logical core: none of its tasks is restartable (R293). -/
def State.spoilStreams (s : State) (l : Nat) : State :=
  let mark := fun (t : Task) => if t.id.lcore = l then { t with bolt := { t.bolt with restartable := false } } else t
  { s.onTasks mark with saved := s.saved.map fun x => { x with task := mark x.task } }

/-- The completions of tasks on time-shared cores carry the flag (R295, R312). -/
def State.flagShared (s : State) : State :=
  s.onTasks fun t => if t.id.live && s.timeShared t.id.lcore then { t with bolt := { t.bolt with degr := t.bolt.degr ||| 1 } } else t

/-- The tasks of some logical cores. -/
def State.tasksOf (s : State) (ls : List Nat) : List TaskRef :=
  (s.tasks.filter fun t => t.id.live && ls.contains t.id.lcore).map (·.ref)

/-! ### Failure of a die's compute (R365) -/

/-- A die's compute fails: adoption, or device fault when no plots are set aside or the other die has failed, comes at
the decision tick. -/
def State.failDie (s : State) (d cause fcl : Nat) : State :=
  let first := s.pkg.failed == 0 && s.pkg.shore == 0
  let s1 := s.setPkg { s.pkg with failed := s.pkg.failed ||| BitVec.twoPow 2 d, cause, fcl }
  if first && s.pkg.adplot.getLsbD 31 then s1.event 0 0 (.adopt d cause fcl) else s1.event 0 0 (.deviceFault cause)

/-! ### Shedding (R292, R293) -/

/-- The nibble of MAP for logical index `j`. -/
def setMap (m : BitVec 48) (j k : Nat) : BitVec 48 :=
  BitVec.ofNat 48 (m.toNat - m.toNat / 16 ^ j % 16 * 16 ^ j + k % 16 * 16 ^ j)

/-- The ring neighbour onto which logical index `j` of cluster `c` is time-shared: at index − 1, else + 1, if its host
serves one logical core. -/
def State.shareTarget (s : State) (c k j : Nat) : Option Nat :=
  [(j + 11) % 12, (j + 1) % 12].find? fun n =>
    let h := s.hostOf (12 * c + n)
    h.1 == c && h.2 != k && (s.hostedBy h.1 h.2).length == 1

/-- A new host for logical index `j` of cluster `c`, or the cause with which the die's compute fails. -/
def State.rehost (s : State) (c k j : Nat) : Except Nat State :=
  let x := s.cluster c
  if x.spare ≠ 15 then .ok (s.setCluster c { x with map := setMap x.map j x.spare, spare := 15 })
  else match s.shareTarget c k j with
    | none => .error 2
    | some n =>
      if !s.pkg.adplot.getLsbD 31 then .error 6
      else
        let h := (s.hostOf (12 * c + n)).2
        .ok (s.setCluster c { x with
          map := setMap x.map j h
          tsh := x.tsh ||| BitVec.twoPow 12 j ||| BitVec.twoPow 12 n
          resident := x.resident.set h (12 * c + n)
          sliceEnd := x.sliceEnd.set h (s.dcc + 4194304) })

/-- The new hosts of some logical indices, one after the other. -/
def State.rehostAll (s : State) (c k : Nat) : List Nat → Except Nat State
  | [] => .ok s
  | j :: js => match s.rehost c k j with
    | .error e => .error e
    | .ok t => t.rehostAll c k js

/-- SHEDDING of physical core `k` of cluster `c`. -/
def State.shedCore (s : State) (c k : Nat) : State :=
  let ls := s.hostedBy c k
  if ls.isEmpty then s
  else
    let js := (List.range 12).filter fun j => (s.cluster c).map.toNat / 16 ^ j % 16 == k
    let stopped := s.stopTasks ls
    let x := stopped.cluster c
    let s1 := stopped.setCluster c { x with shed := Nat.min (x.shed + 1) 15 }
    let s2 : State := s1.setPkg { s1.pkg with shtot := Nat.min (s1.pkg.shtot + 1) 255 }
    if 4 < (s2.cluster c).shed then s2.failDie (c / 8) 1 c
    else match s2.rehostAll c k js with
      | .error cause => s2.failDie (c / 8) cause c
      | .ok s3 => State.restartTasks (s3.flagShared.moveCores ls) (s3.tasksOf ls)

/-! ### Adoption and device fault (R366, R368) -/

/-- The plots that adopted clusters' pads map to read 0 (R366). -/
def State.clearAdopted (s : State) (d : Nat) : State :=
  let base := s.pkg.adplot.toNat % 2 ^ 18
  let lost := fun k => decide (k < 2 ^ 38 ∧ base ≤ k / 2 ^ 21 ∧ k / 2 ^ 21 < base + 256 ∧ k / 2 ^ 21 % 2 = d)
  s.setMem (s.mem.filter fun c => !lost c.1)

/-- A pre-empted task of a failed die begins again at stage 0 once it resumes; one that is not restartable ends (R366). -/
def State.restartSaved (s : State) (d : Nat) : State :=
  let mine := fun (x : SavedTask) => x.task.id.lcore / 96 == d
  let lost := s.saved.filter fun x => mine x && !x.task.bolt.restartable
  let fresh := fun (t : Task) =>
    let b := Task.begin_ { t.id with vgran := t.id.vstart } t.stand.level
      ((s.kernelAt t.id.kernel).elim 0 fun k => k.entry k.tvec) s.dcc
    { b with
      id := { b.id with live := t.id.live, started := 0 }
      bolt := { b.bolt with replays := t.bolt.replays, degr := t.bolt.degr ||| s.startDegr t.id.lcore ||| 0x20 } }
  let kept := (s.saved.filter fun x => !(mine x && !x.task.bolt.restartable)).map fun x =>
    if mine x then { x with task := fresh x.task, tiles := [], nests := [] } else x
  let back := (s.saved.filter mine).foldl State.returnSaved s
  let s1 := { back with saved := kept }
  lost.foldl (fun acc x =>
    let acc1 := acc.failNode x.task.id.queue x.task.id.seq ⟨acc.dcc, x.task.id.tile, 0, 3, 4⟩
    ((acc1.freeLog x.task.releaser).countTile x.task.id.queue x.task.id.seq x.task.id.lcore).event x.task.id.queue x.task.id.seq
      (.faultedEnd x.task.id.queue x.task.id.seq)) s1

/-- Every cluster's logical cores are time-shared, the surviving die's being resident first. -/
def State.shareAll (s : State) (d : Nat) : State :=
  (List.range 16).foldl (fun acc c =>
    let x := acc.cluster c
    acc.setCluster c { x with
      tsh := BitVec.allOnes 12
      resident := if c / 8 = d then x.resident else
        (List.range 13).map fun k => ((List.range 12).find? fun j => x.map.toNat / 16 ^ j % 16 == k).elim
          (x.resident.getD k 0) (12 * c + ·)
      sliceEnd := List.replicate 13 (s.dcc + 4194304) }) s

/-- The logical cores of a die. -/
def coresOf (d : Nat) : List Nat := (List.range 96).map (96 * d + ·)

/-- The package records an adoption (R366). -/
def State.setAdoption (s : State) (cause fcl : Nat) : State := s.setPkg { s.pkg with state := 1, cause, fcl }

/-- What the logical cores of a die held is lost, and the other die hosts them (R366). -/
def State.takeOver (s : State) (d cause fcl : Nat) : State :=
  ((((s.stopTasks (coresOf d)).setAdoption cause fcl).clearAdopted d).shareAll d).flagShared.moveCores (coresOf d)

/-- The tasks of a die start anew, and the adoption is reported. -/
def State.afterAdoption (s : State) (d cause fcl : Nat) : State :=
  (s.restartTasks (s.tasksOf (coresOf d))).putEvent 0 0x09 (d + cause * 256) fcl 0

/-- ADOPTION of a failed die by the other. -/
def State.adopt (s : State) (d cause fcl : Nat) : State :=
  ((s.takeOver d cause fcl).restartSaved d).afterAdoption d cause fcl

/-- DEVICE_FAULT: every queue freezes and every task stops, with its reserved stream bytes returned (R154, R368). -/
def State.deviceFault (s : State) (cause : Nat) : State :=
  let s1 := (s.tasks.filter (·.id.live)).foldl (fun acc t =>
    let u := (acc.select t.ref).abandon
    u.setTask { u.task with id := { u.task.id with live := false }, lease := u.task.lease.ended 6, phase := u.task.phase.ended }) s
  let s2 := { s.saved.foldl State.returnSaved s1 with
    saved := []
    queues := (List.range 64).foldl (fun q i => sset (fun _ => Queue.reset) q i
      { sget (fun _ => Queue.reset) q i with frozen := true }) s1.queues
    pkg := { s1.pkg with state := 2, cause } }
  s2.putEvent 0 0x0A (cause * 256 + s2.pkg.shore.toNat * 16) 0 0

/-! ### Lanes (R363, R403) -/

def State.laneGroup (s : State) : LinkRef → LaneGroup
  | .group g => s.pkg.groups.getD g (.reset 2)
  | .port k => (s.port k).lanes

def State.setLaneGroup (s : State) (r : LinkRef) (x : LaneGroup) : State :=
  match r with
  | .group g => s.setPkg { s.pkg with groups := s.pkg.groups.set g x }
  | .port k => s.setPort k { s.port k with lanes := x }

/-- A lane group with one lane fewer: a spare takes over and the group retrains, or the group is retired (R363). -/
def LaneGroup.splice (x : LaneGroup) (now : Nat) : LaneGroup :=
  if x.spare = 0 then { x with state := 2, fails := [], same := 0 }
  else { x with spare := x.spare - 1, state := 1, splc := if x.splc = BitVec.allOnes 16 then x.splc else x.splc + 1
                fails := [], same := 0, retrained := now + 26400 }

/-- Every group of the die-to-die link is retired. -/
def State.linkLost (s : State) : Bool := s.pkg.groups.all (·.state == 2)

/-- The traffic of a retired port goes another way (R403). -/
def State.leavePort (s : State) : LinkRef → State
  | .group _ => s
  | .port k => if (s.port k).lanes.state = 2 then s.reroute k else s

/-- A group splices, or is retired; the loss of the last one is a device fault. -/
def State.spliceLane (s : State) (r : LinkRef) : State :=
  let lost := s.linkLost
  let s1 := (s.setLaneGroup r ((s.laneGroup r).splice s.dcc)).leavePort r
  if s1.linkLost && !lost then
    (s1.setPkg { s1.pkg with cause := 5 }).event 0 0 (.deviceFault 5)
  else s1

end Sys2Proof.Machine
end

