-- ==== Sys2Proof/Machine/Control.lean ====
section
/-! DEFINITION. Class 0b001: control transfers, repeats, loops, the end of a task, traps, special registers, random
numbers and the allotment (spec/04_scalar_instructions.md R105 to R118, R127; spec/01_tile_task.md R22 to R35). -/

namespace Sys2Proof.Machine

/-! ### Control transfers (R105, R106) -/

/-- Issue goes on at an exact target; one out of range is no offset at all. -/
def State.transfer (s : State) (t : Int) : State :=
  s.setFlow { s.task.flow with nextPc := if 0 ≤ t ∧ t < 2 ^ 32 then t.toNat else 2 ^ 32 }

/-- The target of BR and CALL. -/
def State.target (s : State) (f : Slot) : Int :=
  if f.im then s.task.flow.off + f.imm.toInt else ((s.g f.a.toNat).setWidth 32).toNat

/-- BR (R105). -/
def execBr (f : Slot) (s : State) : Out := guarded (.br f) f s (s.transfer (s.target f))

/-- CALL links to the bundle behind it (R105). -/
def execCall (f : Slot) (s : State) : Out :=
  guarded (.call f) f s ((s.putG f (BitVec.ofNat 64 s.task.flow.nextPc)).transfer (s.target f))

/-- RET (R105). -/
def execRet (f : Slot) (s : State) : Out :=
  guarded (.ret f) f s (s.transfer ((s.g f.a.toNat).setWidth 32).toNat)

/-! ### Repeats and loops (R107 to R112) -/

/-- The trap of a bundle at `o` that is only measured: beyond CLIM, or not translated (R109, R111). -/
def State.trapMeasure (s : State) (o : Nat) (beyond : Bool) : State :=
  s.takeTrap ⟨5, if beyond then syndWord 2 2 0 0 s.task.id.clim else syndWord 3 2 0 0 o, offWord o⟩

/-- Skips `n` bundles from an offset on, reading the first halfword of each. -/
def State.skipBundles (s : State) (o n : Nat) : State :=
  match s.bodyOffsets o n with
  | .error (x, beyond) => s.trapMeasure x beyond
  | .ok (_, e) => s.setFlow { s.task.flow with nextPc := e }

/-- REP (R107 to R109). -/
def execRep (f : Slot) (s : State) : Out :=
  let count := if f.im then f.imm.toNat else ((s.g f.a.toNat).setWidth 32).toNat
  guarded (.rep f) f s
    (if count = 0 then s.skipBundles s.task.flow.nextPc 1
     else s.setFlow { s.task.flow with
      rep := some ⟨s.task.flow.off, s.task.flow.nextPc, count, BitVec.ofNat 6 (f.q 6 1), BitVec.ofNat 6 (f.q 12 7),
        BitVec.ofNat 6 (f.q 18 13), BitVec.ofNat 6 (f.q 24 19), 0⟩ })

/-- LOOPB (R111). -/
def execLoopb (f : Slot) (s : State) : Out :=
  let slot := f.a.toNat
  let len := f.imm.toNat % 16 + 1
  let n := s.myCore.nest slot
  guarded (.loopb f) f s
    (if n.points = 0 then s.skipBundles s.task.flow.nextPc len
     else
      let s1 := s.setCore (s.myCore.setNest slot n.rewind)
      s1.setFlow { s1.task.flow with loop := some ⟨s.task.flow.nextPc, len, slot⟩ })

/-! ### The end of a task (R34, R35) -/

/-- Every engine command of the selected task has produced its results (R35). -/
def State.commandsDone (s : State) : Bool :=
  let c := s.myCore
  let part := s.task.id.part
  !c.mq.any (·.who.part == part) && !c.run.any (·.cmd.who.part == part)
    && !c.sq.any (·.who.part == part) && !s.colls.any (fun x =>
      x.queue == s.task.id.queue && x.seq == s.task.id.seq && x.tile == s.task.id.tile && x.kind == 2)

/-- END in stage 2 once it has sealed: it waits for the task's commands, a fault of theirs surfaces, or the task
completes; what a bolt that its handler interrupted still held is discarded (R35), and stream bytes that a replay
returned and no pop took again are committed (log 11). -/
def State.finishTask (s : State) : State :=
  if !s.commandsDone then s.waitFor .taskEnd
  else match s.task.eng.oldestFault [0, 1, 2, 3] with
    | some x => s.surface x
    | none =>
      let s1 := s.task.bolt.outer.elim s s.discardWork
      let back := s1.task.bolt.returned ++ s1.task.bolt.outer.elim [] (·.reserved)
      (s1.setCore (s1.myCore.settleStreams back true)).closeTask

/-- END in stage 2 (R35): the effect of SEAL, and then the end. -/
def State.endTask (s : State) : State := s.sealThen s.task.flow.off State.finishTask

/-- END (R34): every older window closes first. -/
def execEndTask (f : Slot) (s : State) : Out :=
  let closed := (s.setRegs s.task.regs.close).setFlow { s.task.flow with clk := s.task.regs.closedAt s.task.flow.clk }
  let go := fun (stage : Nat) (iter : W32) (at_ : Nat) =>
    closed.setFlow { closed.task.flow with stage, iter, nextPc := at_ }
  let id := s.task.id
  guarded (.endTask f) f s
    (if s.task.flow.stage = 0 then (if id.trip = 0 then go 2 s.task.flow.iter id.ee else go 1 0 id.ke)
     else if s.task.flow.stage = 1 then
      let iter := s.task.flow.iter + 1
      if iter.toNat < id.trip then go 1 iter id.ke else go 2 iter id.ee
     else s.endTask)

/-! ### Traps, no-ops, seals (R113) -/

/-- TRAP is taken behind its bundle: EPC is the bundle that follows in sequence. -/
def execTrap (f : Slot) (s : State) : Out :=
  guarded (.trap f) f s
    (s.takeTrap ⟨5, syndWord 0x15 0 0x090 0 (f.imm.toNat % 65536), offWord s.task.flow.nextPc⟩)

/-- ERET (R113, R168). -/
def execEret (f : Slot) (s : State) : Out :=
  guarded (.eret f) f s (if s.task.bolt.handler then s.returnFromTrap else s.trapInstr 0x091 0x16 0 0)

/-- NOP (R113). -/
def execNop (f : Slot) (s : State) : Out := guarded (.nop f) f s s

/-- SEAL (R181). -/
def execSealBolt (f : Slot) (s : State) : Out := guarded (.sealBolt f) f s (s.sealThen s.task.flow.nextPc id)

/-- FENCE orders accesses that this machine makes one at a time already (R127, log 8). -/
def execFence (f : Slot) (s : State) : Out := guarded (.fence f) f s s

/-! ### Special registers (R22 to R28, R114, R115) -/

/-- TASK (R24); at level 1 PART reads 0 (R323). -/
def State.taskWord (s : State) : Nat :=
  let i := s.task.id
  i.queue * 2 ^ 58 + i.packet * 2 ^ 44 + i.lcore * 2 ^ 36 + (if i.detlvl = 1 then 0 else i.part * 2 ^ 32) + i.tile

/-- ALLOT (R26). -/
def TaskId.allot (i : TaskId) : Nat := i.nbind.toNat * 2 ^ 20 + i.abind.toNat * 2 ^ 16 + i.vstart * 2 ^ 8 + i.vgran

/-- KITER (R27). -/
def TaskFlow.kiter (f : TaskFlow) : Nat := f.stage * 2 ^ 32 + f.iter.toNat

/-- LSTAT (R378). -/
def State.lstat (s : State) : Nat :=
  let l := s.task.lease
  l.lvl * 2 ^ 62 + s.pkg.refz.toNat * 2 ^ 61 + (if s.sprint = 0 then 0 else 2 ^ 60) + l.last * 2 ^ 56
    + s.remaining l % 2 ^ 40

/-- PHSTAT (R231). -/
def State.phstat (s : State) : Nat :=
  let p := s.task.phase
  let c := s.myCore
  p.ramp.toNat * 2 ^ 55 + p.act.toNat * 2 ^ 54 + p.pend.toNat * 2 ^ 53 + c.thrt.toNat * 2 ^ 52
    + (if c.thrt then c.thrLvl * 2 ^ 48 else 0) + p.int * 2 ^ 44 + p.len * 2 ^ 28 + p.onset

/-- A special register, or nothing for a number outside the table (R22). -/
def State.special (s : State) : Nat → Option Nat
  | 0x000 => some s.taskWord
  | 0x001 => some s.task.id.tcoord.toNat
  | 0x002 => some s.task.id.allot
  | 0x003 => some s.task.flow.kiter
  | 0x010 => some s.task.sys.rmode.toNat
  | 0x011 => some s.task.sys.synd.toNat
  | 0x012 => some s.task.sys.sclass.toNat
  | 0x013 => some s.task.sys.epc.toNat
  | 0x014 => some s.task.sys.tvec.toNat
  | 0x020 => some s.task.bolt.boltpc
  | 0x021 => some s.task.bolt.retry
  | 0x022 => some s.task.sys.rlim.toNat
  | 0x023 => some s.task.flow.repix.toNat
  | 0x024 => some s.task.bolt.holdb
  | 0x030 => some s.dcc
  | 0x031 => some s.pkg.melt.toNat
  | 0x032 => some s.lstat
  | 0x033 => some s.phstat
  | 0x034 => some s.task.phase.uburst.toNat
  | 0x040 => some s.zmemb
  | 0x041 => some s.zphase
  | 0x050 => some s.task.id.seed.toNat
  | 0x051 => some s.task.id.ctrbase.toNat
  | 0x052 => some s.task.id.detlvl
  | 0x060 => some s.task.eng.fq.length
  | 0x061 => some s.task.id.clim
  | 0x062 => some s.task.id.dbase
  | 0x063 => some s.task.id.dsize
  | _ => none

/-- The determinism cause of a read at a level (R323). -/
def readCause (level n : Nat) : Option Nat :=
  if n = 0x030 ∧ level ≠ 0 then some 0x01
  else if n ∈ [0x031, 0x032, 0x033, 0x034] ∧ level ≠ 0 then some 0x11
  else if n = 0x000 ∧ 2 ≤ level then some 0x10
  else none

/-- SRD (R114). -/
def execSrd (f : Slot) (s : State) : Out :=
  let n := f.imm.toNat % 4096
  guarded (.srd f) f s
    (match readCause s.task.id.detlvl n with
     | some cause => s.trapDet 0x098 cause
     | none => match s.special n with
       | some x => s.putG f (BitVec.ofNat 64 x)
       | none => s.trapInstr 0x098 0x18 0 n)

/-- The RW special registers with a new value, or nothing where the register is not RW (R115, R28). -/
def TaskSys.write (y : TaskSys) (n : Nat) (x : W64) : Option TaskSys :=
  match n with
  | 0x010 => some { y with rmode := if x.setWidth 3 = 7 then 0 else x.setWidth 3 }
  | 0x011 => some { y with synd := x }
  | 0x012 => some { y with sclass := x.setWidth 8 }
  | 0x013 => some { y with epc := x.setWidth 32 }
  | 0x014 => some { y with tvec := x.setWidth 32 }
  | 0x022 => some { y with rlim := x.setWidth 4 }
  | _ => none

/-- SWR (R115). -/
def execSwr (f : Slot) (s : State) : Out :=
  let n := f.imm.toNat % 4096
  guarded (.swr f) f s
    (match s.task.sys.write n (s.g f.a.toNat) with
     | some y => s.setSys y
     | none => s.trapInstr 0x099 (if (s.special n).isSome then 0x17 else 0x18) 0 n)

/-! ### Random numbers (R116) -/

/-- One round of the generator with a half of the seed. -/
def randRound (x h : W64) : W64 :=
  let y := x * 0x9E3779B97F4A7C15
  (y ^^^ (y >>> 29)) + h

/-- The number drawn for a counter. -/
def randDraw (seed ctr : W64) : W64 :=
  let lo := (seed.setWidth 32).setWidth 64
  let hi := seed >>> 32
  randRound (randRound (randRound (randRound ctr lo) hi) lo) hi

/-- RAND (R116). DESIGN CHOICE (log 42): the index may come from the pool, whose operand is taken whole. -/
def execRand (f : Slot) (s : State) : Out :=
  let index := if f.im then (if f.psel = 0 then f.imm.setWidth 64 else s.poolSel f) else s.g f.a.toNat
  guarded (.rand f) f s (s.putG f (randDraw s.task.id.seed (s.task.id.ctrbase + index)))

/-! ### Allotment (R117, R118) -/

/-- GROW (R117). -/
def execGrow (f : Slot) (s : State) : Out :=
  let k := f.imm.toNat
  guarded (.grow f) f s (s.sealThen s.task.flow.nextPc fun t =>
    if t.task.id.vgran + k ≤ 32 ∧ k ≤ t.myCore.freeGran then
      ((t.setCore { t.myCore with freeGran := t.myCore.freeGran - k }).setId
        { t.task.id with vgran := t.task.id.vgran + k }).putP f true
    else t.putP f false)

/-- SHRINK (R118): the registers and granules are given up before the next bundle (R19, R117). DESIGN CHOICE (log 42): one
that traps has sealed, and the bolt that its seal begins is at its own offset. -/
def execShrink (f : Slot) (s : State) : Out :=
  let k := f.imm.toNat
  let over_ := decide (s.task.id.vgran < k)
  guarded (.shrink f) f s (s.sealThen (if over_ then s.task.flow.off else s.task.flow.nextPc) fun t =>
    if over_ then t.trapInstr 0x0A9 0x14 0 k
    else (t.setFlow { t.task.flow with freed := t.task.flow.freed + k }).setId
      { t.task.id with vgran := t.task.id.vgran - k })

end Sys2Proof.Machine
end

