-- ==== Sys2Proof/Machine/Context.lean ====
section
/-! DEFINITION. The context block of a tile task (spec/06_task_traps_bolts.md R196), which the save engine writes into the
die pad's context region (R309) and the test access port reads (spec/15_package.md R380). -/

namespace Sys2Proof.Machine

/-- Bytes of a block (R196). -/
def Task.blockSize (t : Task) : Nat :=
  0xA00 + 4096 * t.id.vgran + 262144 * ((List.range 4).filter fun k => t.id.abind.getLsbD k).length

/-- The special registers of a block, in order. -/
def contextSpecials : List Nat :=
  [0x010, 0x011, 0x012, 0x013, 0x014, 0x022, 0x034, 0x032, 0x033, 0x040, 0x041, 0x050, 0x051, 0x052, 0x061, 0x062, 0x063]

/-- The loop state's 16 bytes. -/
def loopBytes (l : Option LoopState) : List Byte :=
  match l with
  | none => List.replicate 16 0
  | some x => bytesOfNat 4 x.start ++ bytesOfNat 1 (x.len - 1) ++ bytesOfNat 1 x.nest ++ bytesOfNat 10 1

/-- The first 0x0A00 bytes of the selected task's block. -/
def State.contextHead (s : State) : List Byte :=
  let t := s.task
  let notice := firstNotice t.flow.notices
  bytesOfNat 8 s.taskWord ++ bytesOfNat 8 t.id.tcoord.toNat ++ bytesOfNat 8 t.id.allot ++ bytesOfNat 8 t.flow.kiter
    ++ bytesOfNat 4 t.flow.pc ++ bytesOfNat 4 (1 + 2 * t.bolt.restartable.toNat + 4 * notice.isSome.toNat)
    ++ bytesOfNat 4 t.bolt.rmwNo ++ bytesOfNat 4 (notice.elim 0 (·.sclass.toNat))
    ++ bytesOfNat 8 t.bolt.relNo ++ bytesOfNat 8 (notice.elim 0 (·.synd.toNat))
    ++ (List.range 64).flatMap (fun n => bytesOfNat 8 (if n = 0 then 0 else (t.regs.storedG n).toNat))
    ++ bytesOfNat 8 (t.regs.p ||| 1).toNat
    ++ bytesOfNat 8 t.eng.fq.length
    ++ (List.range 8).flatMap (fun i => bytesOfNat 16 (t.eng.fq.getD i 0).toNat)
    ++ loopBytes t.flow.loop ++ bytesOfNat 8 t.eng.stampBase ++ List.replicate 24 0
    ++ (List.range 16).flatMap (fun n => bytesOfNat 32 (if n = 0 then 2 ^ 256 - 1 else (t.regs.storedM n).toNat))
    ++ contextSpecials.flatMap (fun n => bytesOfNat 8 ((s.special n).getD 0)) ++ List.replicate 120 0
    ++ (List.range 8).flatMap (fun k =>
      if t.id.nbind.getLsbD k then (s.myCore.nest k).image else List.replicate 128 0)

/-- The block of the selected task. -/
def State.contextBlock (s : State) : List Byte :=
  let t := s.task
  s.contextHead
    ++ (List.range (16 * t.id.vgran)).flatMap (fun n => bytesOfNat 256 (t.regs.storedV n).toNat)
    ++ ((List.range 4).filter fun k => t.id.abind.getLsbD k).flatMap fun k =>
      (List.range 16384).flatMap fun i => ((s.myCore.tiles.getD k .reset).elem i).image

/-- A free range of `n` bytes among the blocks of a die's context region, by its offset in the region (R309). -/
def contextRoom (n : Nat) (used : List (Nat × Nat)) : Option Nat :=
  ((0 :: used.map fun u => u.1 + u.2).mergeSort fun a b => decide (a ≤ b)).find? fun o =>
    decide (o + n ≤ 96 * 2 ^ 20) && used.all fun u => decide (o + n ≤ u.1 ∨ u.1 + u.2 ≤ o)

/-- The blocks that a die's context region holds. -/
def State.contextUsed (s : State) (d : Nat) : List (Nat × Nat) :=
  (s.saved.filter fun x => s.padDie x.task.id.lcore == d).map fun x => (x.off, x.task.blockSize)

end Sys2Proof.Machine
end

