-- ==== Sys2Proof/Machine/Schedule.lean ====
section
/-! DEFINITION. The start, pre-emption and resumption of tile tasks (spec/12_die_scheduling.md R306 to R309,
spec/06_task_traps_bolts.md R195 to R197, spec/10_cluster_stands.md R275). -/

namespace Sys2Proof.Machine

/-! ### Candidates (R306, R307) -/

/-- The tick at which a node became ready. -/
def Node.readyTick (n : Node) : Option Nat := match n.state with | .ready t => some t | _ => none

def Node.prio (n : Node) : Nat := packetField n.packet 0x20 21 20

/-- AGE; 0 acts as 1. -/
def State.age (s : State) : Nat := Nat.max 1 s.dev.schage.toNat

/-- Ticks since a node became ready. -/
def State.waited (s : State) (n : Node) : Nat := s.dcc - n.readyTick.getD s.dcc

/-- The effective class (R307). -/
def State.effClass (s : State) (n : Node) : Nat := n.prio - s.waited n / s.age

/-- A node has a tile on the core that has neither started nor been cancelled. -/
def Node.candidate (n : Node) (l : Nat) : Bool :=
  n.readyTick.isSome && decide (counter n.started l < n.sliceSize l)

/-- Candidate `a` goes before candidate `b`. -/
def State.before (s : State) (a b : Node) : Bool :=
  decide (s.effClass a < s.effClass b ∨ (s.effClass a = s.effClass b ∧
    (a.readyTick.getD 0 < b.readyTick.getD 0 ∨ (a.readyTick.getD 0 = b.readyTick.getD 0 ∧
      (a.queue < b.queue ∨ (a.queue = b.queue ∧ a.seq ≤ b.seq))))))

/-- A candidate under which a core's aging block is recorded. -/
def Node.ageKey (n : Node) : Nat := 1 + n.queue * 2 ^ 32 + n.seq

/-- The candidates of a core in order; only the one that blocks the others, if one does (R307). -/
def State.candidates (s : State) (l : Nat) : List Node :=
  let cs := (s.nodes.filter (·.candidate l)).mergeSort s.before
  match cs.filter fun n => n.ageKey == sget (fun _ => 0) s.dev.ages l with
  | [] => cs
  | bs => bs

/-! ### A start (R306, R14) -/

/-- The handle of a node's kernel. -/
def Node.kernel (n : Node) : W64 := BitVec.ofNat 64 (packetField n.packet 0 63 0)

/-- The next tile of a node on a core starts, if its partition, resources and kernel are available. -/
def State.startTile (s : State) (l q seq : Nat) : Option State :=
  match s.nodeAt q seq with
  | none => none
  | some n =>
    match s.kernelAt n.kernel, s.freePart l with
    | some k, some part =>
      let c := s.core l
      if !s.hosted l || s.pkg.state == 2 || decide (c.freeGran < k.gran) || !s.unbound l k.abind k.nbind || s.helpersClash l k then
        none
      else (s.makeResident l n.func k).map fun (s1, base) =>
        let tile := sliceStart n.tiles l + counter n.started l
        let s2 := s1.setCore { s1.core l with freeGran := c.freeGran - k.gran }
        let s3 := s2.unspecifyBound l k.abind k.nbind
        let t := Task.begin_ (s.identity n k l part tile base) (packetStand n.packet) (k.entry k.tvec) s.dcc
        let s4 := s3.addTask { t with bolt := { t.bolt with degr := s.startDegr l } }
        let s5 := s4.onNode q seq fun x => { x with started := setCounter x.started l (counter x.started l + 1) }
        let mine := sget (fun _ => 0) s5.dev.ages l == n.ageKey
        let ages := if mine then sset (fun _ => 0) s5.dev.ages l 0 else s5.dev.ages
        { s5 with dev := { s5.dev with ages } }
    | _, _ => none

/-- Tiles start one after another on some cores, or none of them does. -/
def State.startTiles (s : State) (q seq : Nat) : List Nat → Option State
  | [] => some s
  | l :: ls => match s.startTile l q seq with
    | none => none
    | some t => t.startTiles q seq ls

/-- A multi-device stand of a node waits for the other devices to stop for a restart (R294). -/
def State.restarting (s : State) (n : Node) : Bool := (s.standAt n.queue n.seq 4 0).any fun z => !z.restart.isEmpty

/-- The cores on which a candidate of a core starts with it: its own, or those of its launch-level stand with tiles. -/
def Node.startCores (n : Node) (l : Nat) : List Nat :=
  let level := packetStand n.packet
  if level = 0 then [l]
  else
    let (lo, hi) := scopeCores level l
    ((List.range hi).drop lo).filter fun i => n.sliceSize i != 0

/-- A candidate of a core has its resources: its next tile there starts, or every member of the launch-level stand at
once (R275). -/
def State.tryStart (s : State) (l : Nat) (n : Node) : Option State :=
  if packetStand n.packet = 0 then s.startTile l n.queue n.seq
  else if s.restarting n then none
  else s.startTiles n.queue n.seq ((n.startCores l).flatMap fun i => List.replicate (n.sliceSize i) i)

/-- A candidate has its turn on a core: none that goes before it there can start (R307). -/
def State.hasTurn (s : State) (n : Node) (l : Nat) : Bool :=
  let cs := s.candidates l
  cs.any (fun m => m.ageKey == n.ageKey)
    && (cs.takeWhile fun m => m.ageKey != n.ageKey).all fun m => (s.tryStart l m).isNone

/-- A candidate of a core starts when it has its resources and its turn on every core where it starts (R275, R307). -/
def State.startCandidate (s : State) (l : Nat) (n : Node) : Option State :=
  if ((n.startCores l).filter (· ≠ l)).all (s.hasTurn n) then s.tryStart l n else none

/-- What TASK_START does on a core: the first candidate that can start does. -/
def State.startOn (s : State) (l : Nat) : Option State := (s.candidates l).findSome? (s.startCandidate l)

/-- TASK_START (R306, R307, R275). -/
def execTaskStart (l : Nat) (s : State) : Out := .next ((s.startOn l).getD s)

/-- The first candidate of a core that has waited more than 4 × AGE ticks, when no candidate blocks the core yet. -/
def State.agedOn (s : State) (l : Nat) : Option Node :=
  let cs := s.nodes.filter (·.candidate l)
  if cs.any fun n => n.ageKey == sget (fun _ => 0) s.dev.ages l then none
  else (cs.mergeSort s.before).find? fun n => decide (4 * s.age < s.waited n)

/-- CANDIDATE_AGING_BLOCK (R307): the candidate stops every other one on the core until it has started. -/
def execCandidateAgingBlock (l : Nat) (s : State) : Out :=
  .next (match s.agedOn l with
    | none => s
    | some n => { s with dev := { s.dev with ages := sset (fun _ => 0) s.dev.ages l n.ageKey } })

/-! ### Pre-emption (R308, R195) -/

/-- Rank of a running task for pre-emption: effective class, readiness, tile. -/
def State.preemptRank (s : State) (t : Task) : Option (Nat × Nat × Nat) :=
  (s.nodeAt t.id.queue t.id.seq).map fun n => (s.effClass n, n.readyTick.getD 0, t.id.tile)

/-- One rank comes after another. -/
def rankBelow (a b : Nat × Nat × Nat) : Bool :=
  decide (a.1 < b.1 ∨ (a.1 = b.1 ∧ (a.2.1 < b.2.1 ∨ (a.2.1 = b.2.1 ∧ a.2.2 < b.2.2))))

/-- The task of a core that the scheduler would pre-empt: of the highest effective class, then latest readiness, then
highest TILE, and no stand member. -/
def State.preemptVictim (s : State) (l : Nat) : Option (Task × Nat × Nat × Nat) :=
  ((s.tasks.filter fun t => t.id.live && t.id.lcore == l && t.stand.level == 0).filterMap fun t =>
    (s.preemptRank t).map (t, ·)).foldl (fun acc x => match acc with
      | none => some x
      | some y => if rankBelow y.2 x.2 then some x else some y) none

/-- A candidate waits on a core for want of a partition or of resources of its kernel (R306, R308). -/
def State.lacks (s : State) (l : Nat) (n : Node) : Bool :=
  let m := if packetStand n.packet = 0 then 1 else n.sliceSize l
  (s.kernelAt n.kernel).any fun k =>
    decide (((List.range 16).filter fun p => !(s.tasks.any fun t => t.is ⟨l, p⟩)).length < m)
      || decide ((s.core l).freeGran < m * k.gran) || !s.unbound l k.abind k.nbind || (s.dictPlace l k).isNone

/-- The task for which the scheduler requests pre-emption on a core, if it does. -/
def State.preemptOn (s : State) (l : Nat) : Option TaskRef :=
  if s.tasks.any fun t => t.id.live && t.id.lcore == l && t.flow.preempt then none
  else match s.preemptVictim l with
    | none => none
    | some (t, rank) =>
      let d := s.padDie l
      if (contextRoom t.blockSize (s.contextUsed d)).isSome
          && (s.candidates l).any fun n => decide (s.age ≤ s.waited n) && decide (s.effClass n < rank.1) && s.lacks l n then some t.ref
      else none

/-- PREEMPTION_REQUEST (R308); the next bundle to complete may be the safe point (R195). -/
def execPreemptionRequest (l : Nat) (s : State) : Out :=
  .next (match s.preemptOn l with
    | none => s
    | some r => s.onTask r fun t => { t with flow := { t.flow with preempt := true, safe := false } })

/-- A task at its place among tasks by logical core and partition. -/
def insertTask (t : Task) : List Task → List Task
  | [] => [t]
  | u :: us => if 16 * t.id.lcore + t.id.part ≤ 16 * u.id.lcore + u.id.part then t :: u :: us else u :: insertTask t us

/-- The live tasks by logical core and partition. -/
def State.liveTasks (s : State) : List Task := (s.tasks.filter (·.id.live)).foldr insertTask []

/-- The first live task, by logical core and partition, that satisfies a test on the state in which it is selected,
selected (R117, R156, R373). -/
def State.findTask (s : State) (test : State → Bool) : Option State :=
  (s.liveTasks.map fun t => s.select t.ref).find? test

/-- The selected task stands at the safe point where its pre-emption is honoured, and its seal can complete. -/
def State.preemptReady (s : State) : Bool :=
  s.task.flow.preempt && s.task.flow.safe && !s.task.bolt.handler && s.task.bolt.charged.isNone && s.sealReady

/-- The selected task's context is saved, after `resident` ticks of residence, and its partition is free (R196). -/
def State.saveContext (s : State) (resident : Nat) : State :=
  let i := s.task.id
  let d := s.padDie i.lcore
  let off := (contextRoom s.task.blockSize (s.contextUsed d)).getD 0
  let c := s.myCore
  let tiles := ((List.range 4).filter fun k => i.abind.getLsbD k).map fun k => (k, c.tiles.getD k .reset)
  let nests := ((List.range 8).filter fun k => i.nbind.getLsbD k).map fun k => (k, c.nest k)
  let kept := { s.task with id := { i with started := resident } }
  let s1 := s.setMem (s.mem.writeCells (cellsAt (keyDiePad d (0x8000000 + off)) s.contextBlock))
  let s2 := { s1 with saved := s1.saved ++ [SavedTask.mk off kept tiles nests] }
  let s3 := s2.setId { i with live := false }
  (s3.setCore { s3.core i.lcore with freeGran := c.freeGran + i.vgran }).refreshLevel i.lcore

/-- The selected task as pre-emption saves it: its results are final, and its lease and its declaration have ended. -/
def Task.suspended (t : Task) : Task :=
  { t with
    regs := t.regs.close
    flow := { t.flow with preempt := false, safe := false, repix := 0, clk := t.regs.closedAt t.flow.clk }
    lease := t.lease.ended 6
    phase := t.phase.ended }

/-- PREEMPTION of the selected task: the effect of SEAL, then the save of its context (R195, R196). -/
def State.preemptNow (s0 : State) : State :=
  let s := s0.giveUp
  let s1 := s.sealNow s.task.flow.pc
  (s1.setTask s1.task.suspended).saveContext (s.dcc - s1.task.id.started)

/-- PREEMPTION. -/
def execPreemption (s : State) : Out := .next (((s.findTask State.preemptReady).map State.preemptNow).getD s)

/-! ### Resumption (R197) -/

/-- A tile as the block gives it back: the block holds no flags. -/
def Tile.restored (t : Tile) : Tile := { t with clamp := false, accsat := false, capd := false }

/-- A pre-empted task resumes, if a partition, its resources and its kernel are available; the format queue and the loop
state are snapshots of the new bolt. DESIGN CHOICE (log 18): it takes the lowest free partition (R13, R197). -/
def State.resumeTask (s : State) (x : SavedTask) : Option State :=
  let l := x.task.id.lcore
  let i := x.task.id
  match s.freePart l, s.kernelAt i.kernel with
  | some part, some k =>
    let c := s.core l
    if !s.hosted l || s.pkg.state == 2 || decide (c.freeGran < i.vgran) || !s.unbound l i.abind i.nbind || s.helpersClash l k then none
    else (s.makeResident l i.func k).map fun (s1, base) =>
      let s2 := s1.setCore { s1.core l with freeGran := c.freeGran - i.vgran }
      let s3 := s2.unspecifyBound l i.abind i.nbind
      let s4 := x.tiles.foldl (fun acc (j, y) => let d := acc.core l; acc.setCore { d with tiles := d.tiles.set j y.restored }) s3
      let s5 := x.nests.foldl (fun acc (j, y) => acc.setCore ((acc.core l).setNest j y)) s4
      let s6 := s5.addTask { x.task with id := { i with live := true, part, dbase := base, started := s.dcc - i.started } }
      let s7 := s6.setBolt { s6.task.bolt with
        boltpc := s6.task.flow.pc, retry := 0, holdb := 0, snap := s6.snapshot
        degr := s6.task.bolt.degr ||| s.startDegr l }
      { s7 with saved := s7.saved.erase x }
  | _, _ => none

/-- TASK_RESUME of pre-empted task `i`. -/
def execTaskResume (i : Nat) (s : State) : Out :=
  .next ((s.saved[i]?.bind s.resumeTask).getD s)

end Sys2Proof.Machine
end

