-- ==== Sys2Proof/Machine/Memory.lean ====
section
/-! DEFINITION. LD, ST, CAS and AMO (spec/04_scalar_instructions.md R119 to R128), and the stores, full-bit loads and
claims they share with the vector accesses (R161, R186). -/

namespace Sys2Proof.Machine

/-! ### Shared steps of loads and stores -/

/-- A load of the selected task reads some bytes, charged to its cluster (R356). -/
def State.reading (s : State) (ks : List Nat) : State := (s.chargeKeys s.myCluster ks).noteReads ks

/-- The granules among some that a load with WF waits for. -/
def State.emptyGranules (s : State) (gs : List (Nat × Nat)) : List (Nat × Nat) :=
  gs.filter fun g => !(s.core g.1).fullFor g.2 (claimMark s.task.id.lcore s.task.id.part)

/-- Takes claims on the granules that read as full (R186). -/
def State.claimGranules (s : State) : List (Nat × Nat) → State
  | [] => s
  | g :: gs =>
    let mark := claimMark s.task.id.lcore s.task.id.part
    let c := s.core g.1
    if c.fullFor g.2 mark && c.claim g.2 == 0 then
      let s1 := s.setCore (c.setClaim g.2 mark)
      let w := s1.task.bolt.work
      (s1.setWork { w with claims := w.claims ++ [keyCorePad g.1 (16 * g.2)] }).claimGranules gs
    else s.claimGranules gs

/-- A load's waiting and claiming: it waits for a pad at rest (R233), and for every granule it needs under WF, and claims them under CLR, as one
action (R123, R161). `addrOf` gives the task's address of a granule. -/
def State.fullEmptyLoad (s : State) (f : Slot) (ks : List Nat) (addrOf : Nat × Nat → BitVec 48) (k : State → State) : State :=
  if let some l := s.asleep ks then s.waitFor (.pad l)
  else if f.wf || f.clr then
    let gs := granulesOf ks
    if f.wf && !(s.emptyGranules gs).isEmpty then s.waitFor (.fullEmpty (gs.map addrOf))
    else k (if f.clr then s.claimGranules gs else s)
  else k s

/-- A store of the selected task: at once in its own core pad, held anywhere else (R122, R160). -/
def State.storeCells (s : State) (op : Nat) (cells : List Host.Cell) : State :=
  let mine := cells.filter fun c => s.ownPad c.1
  let rest := cells.filter fun c => !s.ownPad c.1
  if s.overHold rest.length then s.trapHold op rest.length
  else if let some l := s.asleep (mine.map (·.1)) then s.waitFor (.pad l)
  else if (granulesOf (mine.map (·.1))).any (s.writeStalls (claimMark s.task.id.lcore s.task.id.part)) then
    s.waitFor .stall
  else
    let s1 := if mine.isEmpty then s else s.showOf s.myBoltId mine
    if rest.isEmpty then s1 else s1.hold (.store rest) rest.length

/-! ### LD and ST -/

/-- Bytes of a scalar access. -/
def accessBytes (f : Slot) : Nat := typeWidth f.t / 8

/-- The register value of `n` loaded bytes (R121). -/
def loaded (t : BitVec 5) (x : Nat) : W64 := extended (intOf (typeWidth t) (isSigned t) x)

/-- LD (R121, R123). -/
def execLd (f : Slot) (s : State) : Out :=
  let ea := s.ea f
  let n := accessBytes f
  guarded (.ld f) f s
    (match s.resolve { ordered := f.ord ≠ 0, fe := f.wf || f.clr } ea n n with
     | .error e => s.trapMem e 0
     | .ok ks =>
      s.fullEmptyLoad f ks (fun _ => BitVec.ofNat 48 (ea.toNat / 16 * 16)) fun t =>
        (t.reading ks).putG f (loaded f.t (t.loadKeys ks)))

/-- ST (R122). -/
def execSt (f : Slot) (s : State) : Out :=
  let n := accessBytes f
  guarded (.st f) f s
    (match s.resolve { write := true, ordered := f.ord ≠ 0 } (s.ea f) n n with
     | .error e => s.trapMem e 1
     | .ok ks => s.storeCells 0x101 (ks.zip (bytesOfNat n (s.g f.b.toNat).toNat)))

/-! ### CAS and AMO (R124 to R126) -/

/-- Sends an RMW to its controller, behind a seal, and waits for its reply; a full line queue keeps it back (R346), and
so does a node in buffered mode (R318). -/
def State.sendRmw (s : State) (f : Slot) (k : Nat) (aop : Nat) : State :=
  if s.buffered ∨ 32 ≤ (s.rmwQ.filter fun (r : Rmw) => r.line = k / 64).length then s.waitFor .stall
  else
    let s1 : State := { s with rmwQ := s.rmwQ ++ [{
      line := k / 64, who := s.task.ref, num := s.task.bolt.rmwNo, addr := k, width := accessBytes f
      signed := isSigned f.t, aop, b := s.g f.b.toNat, c := s.g f.c.toNat, dest := f.d.toNat, lat := f.lat.toNat }] }
    State.waitFor (s1.chargeKeys s.myCluster ((List.range (accessBytes f)).map (k + ·))) .rmw

/-- The checks and the seal that CAS and AMO share. -/
def State.readModifyWrite (s : State) (f : Slot) (aop : Nat) : State :=
  match s.resolve { rmw := true } (s.ea f) (accessBytes f) (accessBytes f) with
  | .error e => s.trapMem e 2
  | .ok ks => s.sealOwn fun t => t.sendRmw f (ks.headD 0) aop

/-- CAS (R124); the controller's operation 8. -/
def execCas (f : Slot) (s : State) : Out := guarded (.cas f) f s (s.readModifyWrite f 8)

/-- AMO (R125). -/
def execAmo (f : Slot) (s : State) : Out := guarded (.amo f) f s (s.readModifyWrite f f.aop)

/-- The new value of a location (R124, R125); codes 7 and 8 compare and swap. -/
def rmwValue (aop w : Nat) (signed : Bool) (old b c : Nat) : Nat :=
  let lo := intOf w signed
  match aop with
  | 0 => b
  | 1 => (old + b) % 2 ^ w
  | 2 => if lo old ≤ lo b then old else b
  | 3 => if lo old ≤ lo b then b else old
  | 4 => old &&& b
  | 5 => old ||| b
  | 6 => old ^^^ b
  | _ => if old = b then c else old

end Sys2Proof.Machine
end

