-- ==== Sys2Proof/Machine/VectorMemory.lean ====
section
/-! DEFINITION. Vector loads and stores (spec/05_vector_instructions.md R157 to R162). -/

namespace Sys2Proof.Machine

/-- The bytes of a register that the governed elements cover. -/
def governedBytes (w : Nat) (m : Mask) : List Nat :=
  (List.range 256).filter fun b => gov w m (8 * b / w)

/-- The granule address of a core-pad byte as the task names it, from the task's address of another of its bytes. -/
def granuleAddr (ea : W64) (ks : List Nat) (g : Nat × Nat) : BitVec 48 :=
  match ks.head? with
  | some k => BitVec.ofNat 48 ((ea.toNat + (keyCorePad g.1 (16 * g.2)) - k) / 16 * 16)
  | none => ea.setWidth 48

/-- VLD (R158, R159, R161). -/
def execVld (f : Slot) (s : State) : Out :=
  let ea := s.ea f
  let w := typeWidth f.t
  guarded (.vld f) f s
    (match s.resolve { ordered := f.ord ≠ 0, fe := f.wf || f.clr } ea 256 16 with
     | .error e => s.trapMem e 0
     | .ok ks =>
      let need := (governedBytes w (s.msel f)).map fun b => ks.getD b 0
      s.fullEmptyLoad f need (granuleAddr ea ks) fun t =>
        t.reading need |>.put f.lat.toNat (.v f.d.toNat (laneMask w (gov w (s.msel f)))
          (BitVec.ofNat 2048 (natOfBytes ((List.range 256).map fun b =>
            if gov w (s.msel f) (8 * b / w) then t.loadByte (ks.getD b 0) else 0)))))

/-- VST (R158, R160). -/
def execVst (f : Slot) (s : State) : Out :=
  let w := typeWidth f.t
  guarded (.vst f) f s
    (match s.resolve { write := true, ordered := f.ord ≠ 0 } (s.ea f) 256 16 with
     | .error e => s.trapMem e 1
     | .ok ks => s.storeCells 0x111 ((governedBytes w (s.msel f)).map fun b =>
        (ks.getD b 0, BitVec.ofNat 8 (elemBits 8 (s.v f.b.toNat) b))))

/-- VLDB (R158, R159). -/
def execVldb (f : Slot) (s : State) : Out :=
  let ea := s.ea f
  let n := typeWidth f.t / 8
  guarded (.vldb f) f s
    (match s.resolve { ordered := f.ord ≠ 0, fe := f.wf || f.clr } ea n n with
     | .error e => s.trapMem e 0
     | .ok ks =>
      let need := if (governed (8 * n) (s.msel f)).isEmpty then [] else ks
      s.fullEmptyLoad f need (granuleAddr ea ks) fun t => (t.reading need).putLanes f fun _ => t.loadKeys need)

/-- ea_i of a gather or scatter (R158). -/
def State.laneAddr (s : State) (f : Slot) (i : Nat) : W64 :=
  s.ea f + BitVec.ofNat 64 (elem f.t (s.v f.b.toNat) i * (typeWidth f.t / 8))

/-- The keys of each governed lane of a gather or scatter, or the first failure in the order of the checks: the
pointers, then the alignments, then the windows (R120, R158). -/
def State.laneKeys (s : State) (f : Slot) (fe write : Bool) : Except MemFault (List (Nat × List Nat)) :=
  let n := typeWidth f.t / 8
  let lanes := governed (8 * n) (s.msel f)
  let bad := fun (p : Nat → Option MemFault) => lanes.findSome? p
  let addr := fun i => (s.laneAddr f i).setWidth 48
  match bad fun i => match s.place (s.laneAddr f i) n with
    | .error r => some ⟨1, r, addr i⟩
    | .ok _ => none with
  | some e => .error e
  | none =>
    match bad fun i => if (s.laneAddr f i).toNat % n ≠ 0 then some ⟨2, 0, addr i⟩ else none with
    | some e => .error e
    | none =>
      match bad fun i => match s.place (s.laneAddr f i) n with
        | .ok (.global _) => some ⟨6, 0, addr i⟩
        | _ => none with
      | some e => .error e
      | none =>
        match bad fun i => match s.resolve { fe, write } (s.laneAddr f i) n n with
          | .error e => some e
          | .ok _ => none with
        | some e => .error e
        | none => .ok (lanes.map fun i => (i, match s.resolve { fe, write } (s.laneAddr f i) n n with
            | .ok ks => ks
            | .error _ => []))

/-- VLDG (R158, R159, R161). -/
def execVldg (f : Slot) (s : State) : Out :=
  guarded (.vldg f) f s
    (match s.laneKeys f (f.wf || f.clr) false with
     | .error e => s.trapMem e 0
     | .ok lanes =>
      let need := lanes.flatMap (·.2)
      let addrOf := fun (g : Nat × Nat) =>
        match lanes.find? fun l => (granulesOf l.2).contains g with
        | some (i, ks) => granuleAddr (s.laneAddr f i) ks g
        | none => 0
      s.fullEmptyLoad f need addrOf fun t => (t.reading need).putLanes f fun i => match lanes.lookup i with
        | some ks => t.loadKeys ks
        | none => 0)

/-- VSTS: higher lanes write last (R160). -/
def execVsts (f : Slot) (s : State) : Out :=
  let n := typeWidth f.t / 8
  guarded (.vsts f) f s
    (match s.laneKeys f false true with
     | .error e => s.trapMem e 1
     | .ok lanes => s.storeCells 0x113 (lanes.flatMap fun (i, ks) =>
        ks.zip (bytesOfNat n (elemBits (8 * n) (s.v f.c.toNat) i))))

end Sys2Proof.Machine
end

