-- ==== Sys2Proof/Machine/Tasks.lean ====
section
/-! DEFINITION. The steps of tile tasks that no bundle makes: traps and notices, waits that are served or expire, seals,
detected errors and replays (spec/06_task_traps_bolts.md), the end of a task and its tick budget. A step without an
operand acts on the first task it applies to (log 2). -/

namespace Sys2Proof.Machine

/-- The step of the first live task to which it applies. -/
def State.onFirst (s : State) (test : State → Bool) (f : State → State) : State := ((s.findTask test).map f).getD s

/-- The selected task runs now and no error is charged to its bolt. -/
def State.inRun (s : State) : Bool := s.runs s.task.id.lcore && s.task.bolt.charged.isNone

/-- The selected task waits, unserved, for something of a kind. -/
def State.waitsFor (s : State) (test : WaitKind → Bool) : Bool := s.task.flow.wait.any fun w => !w.ready && test w.kind

/-- The wait is over: the bundle issues again, next (R123, R153, R236). -/
def State.serve (s : State) : State :=
  { s.setFlow { s.task.flow with wait := s.task.flow.wait.map fun w => { w with ready := true } } with turn := .task }

/-! ### Traps and notices -/

/-- TRAP_ENTRY (R166), with its double trap (R169). -/
def execTrapEntry (r : TrapRec) (s : State) : Out := .next (if s.task.id.live then s.takeTrap r else s)

/-- A notice may be taken here: at a bundle boundary, or at a waiting instruction that admits one (R123, R153, R236,
R260, R281, R283). -/
def State.noticeReady (s : State) : Bool :=
  !s.task.flow.notices.isEmpty && !s.task.bolt.handler && s.inRun && !(s.task.flow.preempt && s.task.flow.safe)
    && s.task.flow.wait.all fun w => match w.kind with
      | .fullEmpty _ | .stream .. | .deq _ | .mailbox _ | .barrier | .collective | .stall | .readout _ | .pad _ => true
      | .seal _ | .rmw | .taskEnd | .allotment | .halted => false

/-- ASYNC_NOTICE_TAKEN (R165, R170). -/
def execAsyncNoticeTaken (s : State) : Out := .next (s.onFirst State.noticeReady State.takeNotice)

/-- BRUMATION_ENTRY (R380): every rail clock stops. -/
def execBrumationEntry (s : State) : Out :=
  .next { s with tap := { s.tap with pin := false, stopped := true, ts := BitVec.ofNat 64 s.dcc } }

/-! ### Detected errors (R187, R188, R353) -/

/-- Elements and deferred faults of a bolt's commands go with the commands (R188, R237). -/
def TaskEng.dropBolt (e : TaskEng) (num : Nat) : TaskEng :=
  { e with
    fifo0 := e.fifo0.filter (·.bolt ≠ num), fifo1 := e.fifo1.filter (·.bolt ≠ num)
    fifo2 := e.fifo2.filter (·.bolt ≠ num), fifo3 := e.fifo3.filter (·.bolt ≠ num)
    faults := e.faults.filter (·.bolt ≠ num) }

/-- An error is charged to the current or the interrupted bolt of a task, whichever has the number: its commands, their
results and their lend marks go. -/
def Task.charge (t : Task) (num : Nat) (c : Charge) : Task :=
  let b := if t.bolt.work.num = num then { t.bolt with charged := t.bolt.charged.or (some c) }
    else if t.bolt.outer.any (·.num == num) then { t.bolt with outCharged := t.bolt.outCharged.or (some c) } else t.bolt
  { t with bolt := b, eng := t.eng.dropBolt num }

/-- The task waits for the entry of a trap (R166). -/
def Task.entering (t : Task) (now : Nat) : Bool := t.bolt.handler && decide (now < t.flow.holdOff)

/-- The trap that a task waits for is abandoned (R166): its effects are undone, and the interrupted bolt is current. -/
def Task.abandonTrap (t : Task) : Task :=
  let (boltpc, retry, holdb) := t.bolt.shadow.getD (t.bolt.boltpc, t.bolt.retry, t.bolt.holdb)
  let was := t.bolt.before.getD ⟨t.sys, [], none, boltpc, retry⟩
  { t with
    sys := was.sys
    flow := { t.flow with
      holdOff := 0, repSh := none, loopSh := none, safe := false
      notices := was.notices.filter (!t.flow.notices.contains ·) ++ t.flow.notices }
    bolt := { t.bolt with
      boltpc := was.boltpc, retry := was.retry, holdb, handler := false, shadow := none, before := none
      work := t.bolt.outer.getD t.bolt.work, outer := none
      snap := t.bolt.outSnap.getD t.bolt.snap, outSnap := none
      own := was.own } }

/-- An error is charged to the bolt with an identity (R188). -/
def State.chargeBolt (s : State) (id : Nat) (c : Charge) : State :=
  let mark := id / 2 ^ 32 - 1
  let num := id % 2 ^ 32
  let l := mark / 18
  let part := mark % 18
  let s1 := s.cancel l fun w => w.part == part && w.bolt == num
  if part < 16 then s1.onTask ⟨l, part⟩ fun t =>
    (if t.entering s.dcc && t.bolt.outer.any (·.num == num) then t.abandonTrap else t).charge num c
  else s1.onHelper l (part - 16) fun h => if h.work.num = num then { h with charged := h.charged.or (some c.src) } else h

/-- The bolts that have read what some bolts wrote at once. -/
def State.readersOf (s : State) (ids : List Nat) : List Nat :=
  let hit := fun (w : BoltWork) => w.reads.any ids.contains
  (s.tasks.filter (·.id.live)).flatMap (fun t =>
      ((t.bolt.work :: t.bolt.outer.toList).filter hit).map fun w => boltId (claimMark t.id.lcore t.id.part) w.num)
    ++ (s.helpers.filter fun h => hit h.work).map fun h => boltId (claimMark h.lcore (16 + h.which)) h.work.num

/-- The bolts that corrupt data has reached, at most `fuel` readings away. -/
def State.reached (s : State) : (fuel : Nat) → List Nat → List Nat
  | 0, ids => ids
  | fuel + 1, ids =>
    let more := (s.readersOf ids).filter fun i => !ids.contains i
    if more.isEmpty then ids else s.reached fuel (ids ++ more)

/-- The identity of the current bolt of a partition, a helper being partition 16 or 17. -/
def State.currentBolt (s : State) (r : TaskRef) : Option Nat :=
  if r.part < 16 then (s.taskAt r).map fun t => boltId (claimMark r.lcore r.part)
    ((if t.entering s.dcc then t.bolt.outer else none).getD t.bolt.work).num
  else if r.part < 18 then some (boltId (claimMark r.lcore r.part) (s.helperAt r.lcore (r.part - 16)).work.num) else none

/-- The identity of the bolt that the handler of a partition has interrupted. -/
def State.interruptedBolt (s : State) (r : TaskRef) : Option Nat :=
  (s.taskAt r).bind fun t => t.bolt.outer.map fun w => boltId (claimMark r.lcore r.part) w.num

/-- An error charged to one bolt, and to the bolts that read its immediate writes (ERROR_PROPAGATION). -/
def State.chargeAll (s : State) (id : Nat) (c : Charge) : State :=
  ((s.reached 3456 [id]).filter (· ≠ id)).foldl (fun acc i => acc.chargeBolt i ⟨.core, 0, 0⟩) (s.chargeBolt id c)

/-! ### Replay and escalation (R188 to R192) -/

/-- Elements that a bolt popped return to the front of their FIFOs; those of its own commands are gone (R237). -/
def State.returnPopped (s : State) (w : BoltWork) : State :=
  (List.range 6).foldl (fun acc e =>
    let back := (w.popped.filter fun x => x.1 = e ∧ (4 ≤ e ∨ x.2.bolt ≠ w.num)).map (·.2)
    if back.isEmpty then acc else acc.setElements e (back ++ acc.elements e)) s

/-- The loop slot's indices and WRAP of a snapshot (R112). -/
def State.restoreNest (s : State) (b : BoltSnap) : State :=
  match b.loop, b.nest with
  | some l, some n =>
    let c := s.myCore
    s.setCore (c.setNest l.nest { c.nest l.nest with idx := n.idx, wrap := n.wrap })
  | _, _ => s

/-- An operation whose own bolt replays is issued again under the number it had (R126, R283, R376). -/
def State.reopen (s : State) : Option OwnBolt → State
  | none => s
  | some o => match o.kind with
    | .rmw => s.setBolt { s.task.bolt with rmwNo := s.task.bolt.rmwNo - 1 }
    | .collective => s.setStand { s.task.stand with collNo := s.task.stand.collNo - 1 }
    | .lease => s.setLease { s.task.lease with num := s.task.lease.num - 1 }

/-- The offset at which the selected task's bolt begins again: its own operation's, a barrier's that it waits at, or
BOLTPC. -/
def State.replayPc (s : State) : Nat :=
  match s.task.bolt.own with
  | some o => o.off
  | none => if s.waitsFor (· == .barrier) then s.task.flow.pc else s.task.bolt.boltpc

/-- What a replay of the selected task's bolt discards and restores (R189). -/
def State.replayNow (s : State) : State :=
  let t := s.task
  let w := t.bolt.work
  let snap := t.bolt.own.elim t.bolt.snap (·.snap)
  let pc := s.replayPc
  let s1 := (s.discardWork w).returnPopped w
  let s2 := s1.cancel t.id.lcore fun x => x.part == t.id.part && x.bolt == w.num
  let s3 := (s2.restoreNest snap).reopen t.bolt.own
  let s4 := s3.setEng { s3.task.eng.dropBolt w.num with fq := snap.fq, marks := 0 }
  let s5 := s4.setRegs s4.task.regs.close
  let s6 := s5.setFlow { s5.task.flow with
    pc, nextPc := pc, wait := none, fate := .retired, rep := none, repix := 0, safe := false, redo := true
    loop := snap.loop, stage := snap.stage, iter := snap.iter
    clk := t.regs.closedAt t.flow.clk }
  s6.setBolt { s6.task.bolt with
    holdb := if t.bolt.handler then t.bolt.shadow.elim 0 (·.2.2) else 0
    work := { BoltWork.fresh w.num with replayed := true, pushed := w.pushed && t.bolt.own.isSome }
    returned := w.reserved ++ t.bolt.returned
    boltpc := pc, snap
    retry := t.bolt.retry + 1
    replays := t.bolt.replays + 1
    charged := none, own := none }

/-- The hardware-error trap of an escalation, EPC being BOLTPC (R190, R192). DESIGN CHOICE (log 44): one that escalates the
handler's own bolt is a double trap. -/
def State.trapHardware (s : State) (cause source addr : Nat) : State :=
  s.takeTrap ⟨4, syndHard cause source s.task.sys.rlim.toNat addr, offWord s.task.bolt.boltpc⟩

/-- The lane group that a link error concerns: one whose flit has failed eight times, else the first not retired. -/
def State.failingGroup (s : State) : Nat :=
  let gs := List.range 16
  (gs.find? fun g => decide (8 ≤ (s.laneGroup (.group g)).same)).getD
    ((gs.find? fun g => (s.laneGroup (.group g)).state != 2).getD 0)

/-- ESCALATION by source (R190). -/
def State.escalate (s : State) (c : Charge) : State :=
  match c.src with
  | .core =>
    let h := s.hostOf s.task.id.lcore
    s.shedCore h.1 h.2
  | .memory => (if c.pa < 2 ^ 38 then s.markBad (c.pa / 2 ^ 21) else s).trapHardware 1 2 c.addr.toNat
  | .link =>
    let g := s.failingGroup
    let spare := (s.laneGroup (.group g)).spare
    let s1 := s.spliceLane (.group g)
    if spare = 0 then s1.trapHardware 2 3 0 else s1.setBolt { s1.task.bolt with retry := 0 }

/-- The replay of the bolt an error is charged to; past RLIM it escalates. -/
def State.replayCharged (s : State) : State :=
  match s.task.bolt.charged with
  | none => s
  | some c =>
    let s1 := s.replayNow
    if s1.task.bolt.retry ≤ s1.task.sys.rlim.toNat then s1 else s1.escalate c

/-- BOLT_REPLAY (R188 to R192). -/
def execBoltReplay (s : State) : Out :=
  .next (s.onFirst (fun t => t.task.bolt.charged.isSome) State.replayCharged)

/-- HELPER_BOLT_REPLAY (R265): a parity error replays the helper's bolt; after three replays it is a core error. -/
def execHelperBoltReplay (s : State) : Out :=
  .next (match s.findHelper (fun t => t.hlp.charged.isSome) with
    | none => s
    | some t =>
      if t.hlp.retry < 3 then t.hReplay
      else
        let h := t.hostOf t.hlp.lcore
        t.shedCore h.1 h.2)

/-! ### Seals (R180, R181) -/

/-- The bolt of an operation of its own seals 32 clocks after its result (R180, R283, R376). -/
def State.ownDone (s : State) : Bool := s.task.bolt.charged.isNone && s.task.bolt.own.any (·.over s.dcc)

/-- The end of that bolt: a replay cannot ask for its result any more. -/
def State.endOwn (s : State) : State :=
  let s1 := s.setBolt s.task.bolt.endOwn
  let s2 := s1.setLease { s1.task.lease with grant := none }
  if s2.task.stand.bst = 2 then s2 else s2.setStand { s2.task.stand with result := none }

def isSealWait : WaitKind → Bool
  | .seal _ => true
  | _ => false

/-- The selected task's seal has no wait left, or an engine fault to raise. -/
def State.sealDue (s : State) : Bool :=
  s.inRun && s.waitsFor isSealWait && (s.sealFault.isSome || s.sealReady)

/-- The seal that the selected task waits for completes, and its instruction goes on; one with an engine fault to
raise issues again for it. -/
def State.completeSeal (s : State) : State :=
  if s.sealFault.isSome then s.serve
  else
    match s.task.flow.wait with
    | some ⟨.seal next, _, _, _⟩ => (s.sealNow next).serve
    | _ => s

/-- SEAL_COMPLETE (R181). -/
def execSealComplete (s : State) : Out :=
  .next (match s.findTask State.ownDone with
    | some t => t.endOwn
    | none => s.onFirst State.sealDue State.completeSeal)

/-- The selected task's wait has lasted `n` ticks. -/
def State.waitedFor (s : State) (n : Nat) (test : WaitKind → Bool) : Bool :=
  s.runs s.task.id.lcore && s.task.flow.wait.any fun w => test w.kind && decide (w.since + n ≤ s.dcc)

/-- SEAL_WATCHDOG (R181). -/
def State.sealLate (s : State) : Bool := s.inRun && s.waitedFor (2 ^ 26) isSealWait

/-- SEAL_WATCHDOG; an engine fault of the bolt comes before it (R170). -/
def execSealWatchdog (s : State) : Out :=
  .next (s.onFirst State.sealLate fun t => match t.boltFault with
    | some x => t.surface x
    | none => t.trapSync 3 0)

/-! ### Loads that wait (R123, R161) -/

/-- The granule at an address of the selected task reads as full to it. -/
def State.fullAt (s : State) (a : BitVec 48) : Bool :=
  match s.place (a.setWidth 64) 1 with
  | .ok (.corePad l off _) => (s.core l).fullFor (off / 16) (claimMark s.task.id.lcore s.task.id.part)
  | _ => true

/-- The load waits for granules that are all full now. -/
def State.loadServed (s : State) : Bool :=
  s.inRun && s.waitsFor fun k => match k with | .fullEmpty as => as.all s.fullAt | _ => false

/-- A served task whose bundle has not issued again yet: it comes first. -/
def State.serving (s : State) : Bool :=
  s.tasks.any fun t => t.id.live && s.runs t.id.lcore && t.bolt.charged.isNone && t.flow.wait.any (·.ready)

/-- The earliest wait among the tasks that satisfy a test; then the lower core, then the lower partition (R123). -/
def State.firstServed (s : State) (test : State → Bool) : Option State :=
  (((s.tasks.filter (·.id.live)).map fun t => s.select t.ref).filter test).foldl (fun acc t => match acc with
    | none => some t
    | some u =>
      let key := fun (x : State) => (x.task.flow.wait.elim 0 (·.since), 16 * x.task.id.lcore + x.task.id.part)
      if rankBelow ((key t).1, (key t).2, 0) ((key u).1, (key u).2, 0) then some t else some u) none

/-- The helper that waits longest at hsk.few for a granule that is full now; then of the lower core, then the loader. -/
def State.firstHelper (s : State) : Option State :=
  (((s.helpers.filter (·.mode == .running)).map fun h => s.selectHelper h.lcore h.which).filter State.hFewServed).foldl
    (fun acc t => match acc with
      | none => some t
      | some u =>
        let key := fun (x : State) => (x.hlp.wait.elim 0 (·.2), 2 * x.hlp.lcore + x.hlp.which)
        if rankBelow ((key t).1, (key t).2, 0) ((key u).1, (key u).2, 0) then some t else some u) none

/-- LOAD_WAIT_SERVED (R123): the load issues again before any other, and takes its granules as one action. A helper's
hsk.few takes its turn among the loads, after those of the same tick (R264). -/
def execLoadWaitServed (s : State) : Out :=
  .next (match s.firstServed State.loadServed, s.firstHelper with
    | some t, some h => if h.hlp.wait.elim 0 (·.2) < t.task.flow.wait.elim 0 (·.since) then h.hFewServe else t.serve
    | some t, none => t.serve
    | none, some h => h.hFewServe
    | none, none => s)

/-- A load has waited 2^24 ticks. -/
def State.loadLate (s : State) : Bool :=
  s.inRun && s.waitedFor (2 ^ 24) fun k => match k with | .fullEmpty _ => true | _ => false

/-- FULL_EMPTY_WATCHDOG (R123, R175): OBJ is the lowest granule that is not full. -/
def execFullEmptyWatchdog (s : State) : Out :=
  .next (s.onFirst State.loadLate
    fun t => match t.task.flow.wait with
      | some ⟨.fullEmpty as, _, _, _⟩ => t.trapSync 1 (((as.filter fun a => !t.fullAt a).map (·.toNat)).min?.getD 0)
      | _ => t)

/-! ### Streams (R153, R154) -/

/-- The stream has the bytes or the space that the selected task waits for. -/
def State.streamServed (s : State) : Bool :=
  s.inRun && s.waitsFor fun k => match k with
    | .stream i true n => decide (n ≤ (s.streamAvailable i).length)
    | .stream i false n => decide (n ≤ s.streamFree i)
    | _ => false

/-- STREAM_WAIT_SERVED (R153, R154). -/
def execStreamWaitServed (s : State) : Out := .next (s.onFirst State.streamServed State.serve)

/-- SPUSH or SPOP has waited 2^24 ticks. -/
def State.streamLate (s : State) : Bool :=
  s.inRun && s.waitedFor (2 ^ 24) fun k => match k with | .stream .. => true | _ => false

/-- STREAM_WATCHDOG (R153, R175). -/
def execStreamWatchdog (s : State) : Out :=
  .next (s.onFirst State.streamLate
    fun t => match t.task.flow.wait with
      | some ⟨.stream i _ _, _, _, _⟩ => t.trapSync 2 i
      | _ => t)

/-! ### DEQ (R236) -/

/-- DEQ has an element, a fault to surface, or nothing left to wait for. -/
def State.deqServed (s : State) : Bool :=
  s.inRun && s.waitsFor fun k => match k with
    | .deq e => !(s.elements e).isEmpty || (s.task.eng.oldestFault [e]).isSome || !s.outstanding e
    | .mailbox e => !(s.elements e).isEmpty
    | _ => false

/-- DEQ_WAIT_SERVED (R236). -/
def execDeqWaitServed (s : State) : Out := .next (s.onFirst State.deqServed State.serve)

/-- DEQ of a mailbox has waited 2^24 ticks. -/
def State.mailboxLate (s : State) : Bool :=
  s.inRun && s.waitedFor (2 ^ 24) fun k => match k with | .mailbox _ => true | _ => false

/-- MAILBOX_WATCHDOG (R236). -/
def execMailboxWatchdog (s : State) : Out :=
  .next (s.onFirst State.mailboxLate
    fun t => match t.task.flow.wait with
      | some ⟨.mailbox e, _, _, _⟩ => t.trapEngine 0x301 0x25 0 e
      | _ => t)

/-! ### The end of a task (R35, R310) -/

/-- The selected task's END can surface a fault or complete. -/
def State.endDue (s : State) : Bool :=
  s.inRun && s.waitsFor (· == .taskEnd) && s.commandsDone

/-- TASK_END_COMPLETE (R35). -/
def execTaskEndComplete (s : State) : Out := .next (s.onFirst State.endDue State.endTask)

/-- The selected task has been resident for its budget. -/
def State.overBudget (s : State) : Bool :=
  s.task.id.budget != 0 && s.runs s.task.id.lcore && decide (s.task.id.started + s.task.id.budget * 4096 ≤ s.dcc)

/-- TICK_BUDGET_EXPIRY (R310). -/
def execTickBudgetExpiry (s : State) : Out := .next (s.onFirst State.overBudget fun t => t.endFaulted 0 0x20 0)

/-- EMPTY_BUNDLE (R71): one clock, and the SP bit. -/
def execEmptyBundle (sp : Bool) (s : State) : Out := .next (s.setFlow { s.task.flow with sp })

end Sys2Proof.Machine
end

