-- ==== Sys2Proof/Machine/Engine.lean ====
section
/-! DEFINITION. The steps of the matrix engine (spec/07_core_matrix.md R198 to R233): the oldest commands, readiness and
starts, stamps, completion of every tile command, migration, bursts, phases and pad retention. A command reads its
operands and gives its results as one action when it completes (log 19). -/

namespace Sys2Proof.Machine

/-! ### Commands (R198, R201, R205) -/

def MCmd.aLen (c : MCmd) : Nat := c.k * recSize (Desc.planes c.desc false)
def MCmd.bLen (c : MCmd) : Nat := c.k * recSize (Desc.planes c.desc true)

/-- Bytes of a group table of `n` groups (R214). -/
def tableBytes (n : Nat) : Nat := 8 + 16 * n

/-- Ranges of bytes that a command reads, as key and length: of a PLANE the source elements, of an MMAG as much of its
table and its B records as is known. -/
def MCmd.reads (c : MCmd) : List (Nat × Nat) :=
  let src := typeWidth (BitVec.ofNat 5 (Desc.ty c.desc c.side))
  if c.op = 0x281 then
    sourceRuns c.a c.tr c.pitch src c.k
      ++ (if Desc.scaled c.desc c.side then [(c.c, 8 * ((512 * c.k + 6) / 7))] else [])
  else if c.op = 0x288 then [(c.a, c.aLen), (c.b, c.bLen)]
  else if c.op = 0x289 then 
    (c.a, c.aLen) :: (c.b, tableBytes (c.groups.elim 0 List.length)) :: (c.groups.getD []).map fun g => (g.2, c.bLen)
  else if c.op = 0x28B then [(c.a, tileBytes c.ty)]
  else []

/-- Ranges of bytes that a command writes. -/
def MCmd.writes (c : MCmd) : List (Nat × Nat) :=
  if c.op = 0x281 then [(c.b, c.k * recSize (Desc.planes c.desc c.side))]
  else if c.op = 0x291 then [(c.b, 2048 * c.rows)]
  else []

def rangesMeet (x y : Nat × Nat) : Bool := decide (x.1 < y.1 + y.2 ∧ y.1 < x.1 + x.2)

/-- Plane-pair clocks of an array command (R201, R214). -/
def MCmd.work (c : MCmd) : Nat :=
  Desc.planes c.desc false * Desc.planes c.desc true * c.k * (if c.op = 0x289 then ((c.groups.getD []).length + 3) / 4 else 1)

/-- A command that starts on its unit now, on core `l` or on a neighbour's array (R201, R207, R219). -/
def State.started (s : State) (l : Nat) (c : MCmd) : Running :=
  let rate := s.unitRate l c
  if arrayOp c.op then ⟨c, s.dcc + s.matrixTicks 8, c.work, rate, s.matrixTicks 12⟩
  else if c.op = 0x28A then ⟨c, s.dcc, 64, rate, 0⟩
  else ⟨c, s.dcc, ((c.reads ++ c.writes).map Prod.snd).sum / 512, rate, 0⟩

/-- Elements that a command requests (R211). -/
def MCmd.asks (c : MCmd) : Nat := c.res.toNat + c.con.toNat

/-- Every own-pad granule of some ranges is full for a claimant (R210). -/
def Core.rangesFull (c : Core) (mark : Nat) (rs : List (Nat × Nat)) : Bool :=
  rs.all fun r => match corePadOf r.1 with
    | some (_, off) => r.2 == 0 || (List.range ((off + r.2 - 1) / 16 - off / 16 + 1)).all fun i => c.fullFor (off / 16 + i) mark
    | none => true

/-! ### Leaving the engine (R199, R232) -/

/-- A command leaves queue and unit, with its lends. -/
def State.dropCmd (s : State) (l : Nat) (c : MCmd) : State :=
  let core := (s.core l).unlend c.pages
  (core.run.filter (·.cmd = c)).foldl (fun acc r => acc.leaveArray l r) (s.setCore { core with
    mq := core.mq.erase c
    run := core.run.filter (·.cmd ≠ c)
    idle := s.dcc })

/-- A command is abandoned with a deferred fault (R232). -/
def State.engineFault (s : State) (l : Nat) (c : MCmd) (cause detail : Nat) : State :=
  (s.dropCmd l c).onTask ⟨l, c.who.part⟩ fun t =>
    { t with eng := { t.eng with faults := t.eng.faults ++ [⟨0, c.who.bolt, c.who.order, 3,
      syndEngine cause 2 c.op c.tile detail c.who.cpos.toNat⟩] } }

/-- A command is complete: its consumed element and then its complete element enter the FIFO (R211). -/
def State.finishCmd (s : State) (l : Nat) (c : MCmd) : State :=
  let tile := if c.op = 0x281 then 0 else c.tile
  let put := fun (on : Bool) kind (e : TaskEng) =>
    if on then e.addElem 0 ⟨elemWord kind tile c.op c.who.cpos.toNat, c.who.bolt⟩ else e
  (s.dropCmd l c).onTask ⟨l, c.who.part⟩ fun t => { t with eng := put c.res 2 (put c.con 1 t.eng) }

/-! ### The oldest unstarted commands (R210, R214, R216) -/

/-- The oldest unstarted command of every partition. -/
def oldestOf : List Nat → List MCmd → List MCmd
  | _, [] => []
  | seen, c :: cs => if seen.contains c.who.part then oldestOf seen cs else c :: oldestOf (c.who.part :: seen) cs

def Core.oldest (c : Core) : List MCmd := oldestOf [] c.mq

def State.replaceCmd (s : State) (l : Nat) (c c' : MCmd) : State :=
  let core := s.core l
  s.setCore { core with mq := core.mq.map fun x => if x = c then c' else x }

/-- A command has become the oldest unstarted one of its partition: a stamped one computes τ (R216). -/
def State.becomesOldest (s : State) (l : Nat) (c : MCmd) : State :=
  if c.oldest.isSome then s
  else
    let base := (s.taskAt ⟨l, c.who.part⟩).elim s.dcc (·.eng.stampBase)
    let ahead := (c.stamp + 2 ^ 32 - s.dcc % 2 ^ 32) % 2 ^ 32
    let (tau, passed) : Option Nat × Bool := match c.smode with
      | 1 => if 2 ^ 31 ≤ ahead then (none, true) else (some (s.dcc + ahead), false)
      | 2 => (some (base + c.stamp), decide (base + c.stamp < s.dcc))
      | _ => (none, false)
    let s1 := s.replaceCmd l c { c with oldest := some s.dcc, tau, passed }
    match tau with
    | some t => s1.onTask ⟨l, c.who.part⟩ fun x => { x with eng := { x.eng with stampBase := t } }
    | none => s1

/-- A B record address of a group table, moved by the nest's stream 1, as a key. -/
def MCmd.groupKey (c : MCmd) (l addr : Nat) : Option Nat :=
  let own := fun (a : W64) n => match placeOf l 0 false a n with
    | .ok (.corePad l' off _) => if a.toNat % 256 = 0 then some (keyCorePad l' off) else none
    | _ => none
  (own (BitVec.ofNat 64 addr) 1).bind fun _ => own (BitVec.ofNat 64 addr + BitVec.ofNat 64 c.c) c.bLen

/-- The groups of a table from group `g` on with `rows` rows left, or the index of the first bad one. -/
def MCmd.groupsFrom (c : MCmd) (m : Memory) (l rows g : Nat) : (n : Nat) → Except Nat (List (Nat × Nat))
  | 0 => .ok []
  | n + 1 =>
    let k := m.word (c.b + 8 + 16 * g)
    if k % 8 ≠ 0 ∨ k < 8 ∨ rows < k then .error g
    else match c.groupKey l (m.word (c.b + 16 + 16 * g)) with
      | none => .error g
      | some key => match c.groupsFrom m l (rows - k) (g + 1) n with
        | .error e => .error e
        | .ok gs => .ok ((k, key) :: gs)

/-- An earlier command of the partition that runs writes some bytes that a command reads (R210). -/
def Core.written (x : Core) (c : MCmd) (rs : List (Nat × Nat)) : Bool :=
  x.run.any fun r => r.cmd.who.part == c.who.part && rs.any fun a => r.cmd.writes.any (rangesMeet a)

/-- The bytes of the table that an MMAG reads: as many as its count says, once that can be read. -/
def State.tableRange (s : State) (l : Nat) (c : MCmd) : Nat × Nat :=
  let n := s.mem.word c.b
  (c.b, if (s.core l).rangesFull (claimMark l c.who.part) [(c.b, 8)] && decide (n ≤ 16) then tableBytes n else 8)

/-- The group table of an MMAG once its granules are full and no earlier command still writes it (R210, R214). -/
def State.groupTable (s : State) (l : Nat) (c : MCmd) : Option (Except Nat (List (Nat × Nat))) :=
  let core := s.core l
  let n := s.mem.word c.b
  let r := s.tableRange l c
  if !core.rangesFull (claimMark l c.who.part) [r] || core.written c [r] then none
  else if n = 0 ∨ 16 < n ∨ 2 ^ 21 < c.b % 2 ^ 21 + tableBytes n then some (.error 0x3FF)
  else some (c.groupsFrom s.mem l 128 0 n)

/-- Pages of the B records that a command has not lent yet. -/
def MCmd.newPages (c : MCmd) (gs : List (Nat × Nat)) : List Nat :=
  ((gs.flatMap fun g => pagesOf g.2 c.bLen).dedup).filter fun p => !c.pages.contains p

/-- An MMAG that is the oldest of its partition reads its table and lends the pages it names, or waits. -/
def State.readTable (s : State) (l : Nat) (c : MCmd) : State :=
  if c.op ≠ 0x289 ∨ c.groups.isSome then s
  else match s.groupTable l c with
    | none => s
    | some (.error d) => s.engineFault l c 0x14 d
    | some (.ok gs) =>
      let ps := c.newPages gs
      if ps.any fun p => decide (3 ≤ (s.core l).lend p) then s
      else
        let s1 := s.replaceCmd l c { c with groups := some gs, pages := c.pages ++ ps }
        s1.setCore ((s1.core l).lendPages ps)

/-- What the oldest commands of a core have to settle before they can start. -/
def State.settleOldest (s : State) (l : Nat) : State :=
  let s1 := (s.core l).oldest.foldl (fun acc c => acc.becomesOldest l c) s
  (s1.core l).oldest.foldl (fun acc c => acc.readTable l c) s1

/-- Some oldest command of a core has something to settle. -/
def State.unsettled (s : State) (l : Nat) : Bool :=
  (s.core l).oldest.any fun c => c.oldest.isNone || (c.op == 0x289 && c.groups.isNone &&
    match s.groupTable l c with
    | none => false
    | some (.error _) => true
    | some (.ok gs) => !(c.newPages gs).any fun p => decide (3 ≤ (s.core l).lend p))

/-! ### Readiness and starts (R199, R200, R216, R217, R229) -/

/-- A command may start beside an earlier one of its partition that runs (R199, R210, R227). -/
def MCmd.beside (c : MCmd) (r : Running) : Bool :=
  let named := c.op != 0x281 && r.cmd.op != 0x281 && c.tile == r.cmd.tile
  (if r.cmd.away.isSome then !(named && !(arrayOp c.op && c.acc)) else !named)
    && !(c.reads.any fun x => r.cmd.writes.any (rangesMeet x))

/-- The FIFO of a partition has room for what a command requests (R211). -/
def State.engineRoom (s : State) (l : Nat) (c : MCmd) : Bool :=
  let owed := (((s.core l).run.filter fun r => r.cmd.who.part = c.who.part).map fun r => r.cmd.asks).sum
  c.asks == 0 || decide (((s.taskAt ⟨l, c.who.part⟩).elim 0 (·.occupancy 0)) + owed + c.asks ≤ 32)

/-- A command with the group table that it will read, as far as its operands let it. -/
def State.withTable (s : State) (l : Nat) (c : MCmd) : MCmd :=
  if c.op = 0x289 ∧ c.groups = none then
    match s.groupTable l c with
    | some (.ok gs) => { c with groups := some gs }
    | _ => c
  else c

/-- Every operand of an oldest command is full: of an MMAG the table and the B records that it names (R200, R210). -/
def State.operandsFull (s : State) (l : Nat) (c : MCmd) : Bool :=
  let x := s.withTable l c
  (s.core l).rangesFull (claimMark l c.who.part)
    (x.reads ++ if c.op = 0x289 ∧ c.groups = none then [s.tableRange l c] else [])

/-- A command touches its core's pad, which is at rest (R233). -/
def State.padRests (s : State) (l : Nat) (c : MCmd) : Bool :=
  !(s.core l).awake s.dcc && (c.reads ++ c.writes).any fun r => (corePadOf r.1).isSome

/-- What R199, R200, R211, R214 and R233 ask of a command besides full operands. -/
def State.otherwiseReady (s : State) (l : Nat) (c : MCmd) : Bool :=
  (c.op != 0x289 || c.groups.isSome) && s.engineRoom l c && !s.padRests l c
    && (s.core l).run.all fun r => r.cmd.who.part != c.who.part || c.beside r

/-- The stagger of the first unstamped array start at or after an onset is over (R229). -/
def State.staggered (s : State) (l : Nat) (c : MCmd) : Bool :=
  !arrayOp c.op || (s.core l).stagger.all fun onset =>
    decide (Nat.max onset (c.oldest.getD s.dcc) + 5 * (l % 12) ≤ s.dcc)

/-- An unstamped run reaches past no stamp (R217). -/
def State.beforeStamps (s : State) (l : Nat) (c : MCmd) : Bool :=
  !arrayOp c.op || (s.core l).oldest.all fun x => x.tau.all fun t =>
    x.passed || decide ((s.started l c).ends ≤ t)

/-- An unstamped oldest command is ready on a free unit. -/
def State.cmdReady (s : State) (l : Nat) (c : MCmd) : Bool :=
  c.oldest.isSome && c.smode == 0 && s.operandsFull l c && s.otherwiseReady l c && s.staggered l c && s.beforeStamps l c

/-- The command that a unit takes next (R200); the tile port leaves an MRD whose turn comes first to its partition. -/
def State.nextCmd (s : State) (l : Nat) (u : EngUnit) : Option MCmd :=
  let core := s.core l
  if !s.unitFree l u || !s.resident l then none
  else (((core.oldest.filter fun c => unitTakes u c.op ∧ s.cmdReady l c).foldl (fun acc c => match acc with
    | none => some c
    | some d =>
      let at_ := fun (x : MCmd) => turnOf (core.served.getD (unitIndex u) 15) x.who.part
      if at_ c < at_ d then some c else some d) none)).filter fun c =>
    u != .tilePort || !s.readoutFirst l c.who.part

/-- The present window begins anew when the array was at rest (R230). -/
def Core.freshWindow (c : Core) (now : Nat) : Core :=
  if c.winClocks = 0 ∧ c.window + 64 ≤ now ∧ !c.run.any (fun r => arrayOp r.cmd.op) then
    { c with window := now / 64 * 64, excess := 0, winParts := [] }
  else c

/-- A command starts on its unit. -/
def State.startCmd (s : State) (l : Nat) (u : EngUnit) (c : MCmd) : State :=
  let core := (s.core l).freshWindow s.dcc
  s.setCore { core with
    mq := core.mq.erase c
    run := core.run ++ [s.started l c]
    served := core.served.set (unitIndex u) c.who.part
    stagger := if arrayOp c.op && c.smode == 0 then none else core.stagger }

/-- TILE_COMMAND_START (R198 to R200). -/
def execTileCommandStart (l : Nat) (u : EngUnit) (s : State) : Out :=
  let s1 := s.settleOldest l
  .next (match s1.nextCmd l u with
    | none => s1
    | some c => (s1.startCmd l u c).settleOldest l)

/-- The stamped oldest command whose time has come first, then of the lower partition. -/
def State.nextStamped (s : State) (l : Nat) : Option MCmd :=
  (((s.core l).oldest.filter fun c => c.smode ≠ 0 ∧ c.oldest.isSome ∧
      (c.passed ∨ c.tau.any fun t => decide (t ≤ s.dcc))).foldl (fun acc c => match acc with
    | none => some c
    | some d =>
      let at_ := fun (x : MCmd) => x.tau.getD 0
      if at_ c < at_ d ∨ (at_ c = at_ d ∧ c.who.part < d.who.part) then some c else some d) none)

/-- DETAIL of the miss of a stamped command whose time has come, or none if it starts (R216); a stamp that comes while its
core is not resident has passed (R295). -/
def State.missOf (s : State) (l : Nat) (c : MCmd) : Option Nat :=
  if c.passed || !s.resident l then some 1
  else if !s.operandsFull l c then some 2
  else if !s.unitFree l .array then some 3
  else if !s.otherwiseReady l c then some 4
  else none

/-- STAMPED_COMMAND_START (R216): the command starts or misses. -/
def execStampedCommandStart (l : Nat) (s : State) : Out :=
  let s1 := s.settleOldest l
  .next (match s1.nextStamped l with
    | none => s1
    | some c => match s1.missOf l c with
      | some d => (s1.engineFault l c 0x10 d).settleOldest l
      | none => (s1.startCmd l .array c).settleOldest l)

/-- The oldest command of a partition whose operands have waited too long (R210). -/
def State.lateOperands (s : State) (l part : Nat) : Option MCmd :=
  (s.core l).oldest.find? fun c => c.who.part == part && s.resident l && (c.oldest.any fun t => decide (t + 2 ^ 24 ≤ s.dcc))
    && !s.operandsFull l c

/-- OPERAND_WATCHDOG (R210). -/
def execOperandWatchdog (l part : Nat) (s : State) : Out :=
  .next (match s.lateOperands l part with
    | none => s
    | some c => (s.engineFault l c 0x11 0).settleOldest l)

/-! ### Multiplying (R213 to R215, R224) -/

/-- The lines of an operand's records at a key, for every K step. -/
def MCmd.operand (c : MCmd) (m : Memory) (side : Bool) (key : Nat) : Array (Array RecLine) :=
  let p := Desc.planes c.desc side
  let unsigned := (intFmt (Desc.ty c.desc side)).any fun x => !x.2
  ((List.range c.k).map fun st => ((List.range 128).map (readLine m (key + st * recSize p) p unsigned)).toArray).toArray

def lineAt (x : Array (Array RecLine)) (st i : Nat) : RecLine := (x.getD st #[]).getD i ⟨[], [], []⟩

/-- Rows and B records: one band of 128 rows for an MMA, the groups for an MMAG. -/
def MCmd.bands (c : MCmd) : List (Nat × Nat) := if c.op = 0x288 then [(128, c.b)] else c.groups.getD []

/-- The band of a row. -/
def bandOf : List (Nat × Nat) → Nat → Option Nat
  | [], _ => none
  | b :: bs, i => if i < b.1 then some 0 else (bandOf bs (i - b.1)).map (· + 1)

/-- A tile with the products of a command added. -/
def MCmd.product (c : MCmd) (m : Memory) (base : Tile) : Tile :=
  let a := c.operand m false c.a
  let bs := (c.bands.map fun x => c.operand m true x.2).toArray
  let out := ((List.range 16384).map fun n =>
    match bandOf c.bands (n / 128) with
    | none => (base.elem n, false)
    | some g => (List.range c.k).foldl (fun acc st =>
        addLines base.l c.rnd (lineAt a st (n / 128)) (lineAt (bs.getD g #[]) st (n % 128)) acc) (base.elem n, false)).toArray
  { base.filled fun n => (out.getD n (⟨0, 0⟩, false)).1 with accsat := base.accsat || out.any (·.2) }

/-- Column sums of the lines of a step, of the integers that the planes hold: the checksum of R205 counts them whatever
the class bits say, and the comparison with it has to (DEDUCED, log 45). -/
def columnSums (x : Array (Array RecLine)) (st : Nat) : List Int :=
  (List.range 64).map fun k => ((List.range 128).map fun i => (lineAt x st i).raw.getD k 0).sum

/-- What a step leaves of a line's dot product with the column sums, less that with the checksum row. -/
def residueOf (sums : List Int) (check : List Nat) (x : RecLine) : Int :=
  (List.zipWith (fun (p : Int × Nat) q => (p.1 - (p.2 : Int)) * q) (sums.zip check) x.raw).sum

/-- Residues of one operand's checksum rows with 128 lines of the other are 0 over all steps. -/
def residuesZero (m : Memory) (key p k : Nat) (x y : Array (Array RecLine)) (test : Nat → Bool) : Bool :=
  let rows := (List.range k).map fun st => (columnSums x st, readChecksum m (key + st * recSize p) p)
  (List.range 128).all fun i => !test i ||
    (((List.range k).zip rows).map fun r => residueOf r.2.1 r.2.2 (lineAt y r.1 i)).sum % 2 ^ 32 == 0

/-- The checksum comparison passes (R224, R215). -/
def MCmd.checked (c : MCmd) (m : Memory) : Bool :=
  Desc.field c.desc 46 46 == 0 ||
    (let a := c.operand m false c.a
     let bs := c.bands.map fun x => (x.2, c.operand m true x.2)
     (c.op == 0x289 || bs.all fun b => residuesZero m c.a (Desc.planes c.desc false) c.k a b.2 fun _ => true)
      && ((List.range bs.length).zip bs).all fun b =>
        residuesZero m b.2.1 (Desc.planes c.desc true) c.k b.2.2 a fun i => bandOf c.bands i == some b.1)

/-- A tile with the elements of a partial added (R226). -/
def Tile.merge (t p : Tile) : Tile :=
  let out := ((List.range 16384).map fun n => (t.elem n).add (p.elem n).tag (p.elem n).q).toArray
  { t.filled fun n => (out.getD n (⟨0, 0⟩, false)).1 with accsat := t.accsat || p.accsat || out.any (·.2) }

def Core.tile (c : Core) (k : Nat) : Tile := c.tiles.getD k .reset
def Core.setTile (c : Core) (k : Nat) (t : Tile) : Core := { c with tiles := c.tiles.set k t }

/-! ### Completion (R207, R211, R213, R219, R220, R222) -/

/-- The issuing bolt reads ranges of core pad bytes, and the pad is awake (R233, R353). -/
def State.engineReads (s : State) (l : Nat) (c : MCmd) : State :=
  let mark := claimMark l c.who.part
  let ids := ((s.writers.filter fun w => w.2 / 2 ^ 32 ≠ mark ∧ c.reads.any fun r => decide (r.1 ≤ w.1 ∧ w.1 < r.1 + r.2)).map
    Prod.snd).dedup
  let s1 := s.setCore { s.core l with touched := s.dcc }
  if ids.isEmpty then s1 else s1.onIssuer l c.who (·.sawWriters ids)

/-- A write of an engine stalls: on a claim, or on a full granule of a page that an earlier command has lent (R186,
R210). -/
def State.engineStalls (s : State) (l : Nat) (c : MCmd) : Bool :=
  let core := s.core l
  let lent := ((core.mq ++ core.run.map (·.cmd)).filter fun x => x.who.tag < c.who.tag).flatMap (·.pages)
  c.writes.any fun r => match corePadOf r.1 with
    | none => false
    | some (_, off) => (List.range ((off + r.2 - 1) / 16 - off / 16 + 1)).any fun i =>
      core.claim (off / 16 + i) != 0 || (core.isFull (off / 16 + i) && lent.contains ((off / 16 + i) / 128))

/-- A byte of the source of a command, by its key (R366). -/
def State.sourceByte (s : State) (k : Nat) : Byte := s.mem.read (s.padKey k)

/-- The matrix engine of a core caps the planes of a command: a degraded one does, at determinism level 0 (R63; log 29). -/
def State.capsPlanes (s : State) (l : Nat) (c : MCmd) : Bool :=
  (s.taskAt ⟨l, c.who.part⟩).any (fun t => t.id.detlvl == 0) && Config.degradedEngine (s.hostOf l).1 (s.hostOf l).2

/-- A side of a command has a plane count that the engine caps. -/
def MCmd.cappable (c : MCmd) (side : Bool) : Bool :=
  cappedCount (Desc.ty c.desc side) (Desc.planes c.desc side) != Desc.planes c.desc side

/-- The records that a PLANE writes and whether an integer was clamped, or the index of a scale word whose bit 63 is
set (R207). A capped PLANE aligns with the capped count and keeps the declared record (R63; log 29). -/
def State.planeOut (s : State) (l : Nat) (c : MCmd) : Except Nat (List Byte × Bool) :=
  let ty := Desc.ty c.desc c.side
  let p := Desc.planes c.desc c.side
  let aligned := if s.capsPlanes l c then cappedCount ty p else p
  let bs := Desc.scaled c.desc c.side
  let at_ := fun st r b => r * (4 * c.k) + 4 * st + b
  let order := (List.range c.k).flatMap fun st => (List.range 128).flatMap fun r => (List.range 4).map fun b => at_ st r b
  match if bs then order.findSome? (fun i => match scaleAt s.sourceByte c.c i with | .error w => some w | .ok _ => none) else none with
  | some w => .error w
  | none =>
    let block := fun st r b =>
      let scale := if bs then (scaleAt s.sourceByte c.c (at_ st r b)).toOption else none
      let key := 2 ^ 28 + 32 * at_ st r b
      planeBlock ty aligned c.rnd scale (Config.freeBits s.epoch key 15).toNat (fun i => (Config.freeBits s.epoch (key + 1 + i) 1).getLsbD 0)
        ((List.range 16).map fun i => sourceElem s.sourceByte c.a c.pitch c.tr ty r (64 * st + 16 * b + i))
    let recs := (List.range c.k).map fun st => (List.range 128).map fun r => (List.range 4).map fun b => block st r b
    .ok (recs.flatMap (recordBytes p), recs.any fun x => x.any fun y => y.any (·.clamp))

/-- An immediate write of a command into the own core pad. -/
def State.engineWrite (s : State) (l : Nat) (c : MCmd) (bs : List Byte) : State :=
  s.showOf (boltId (claimMark l c.who.part) c.who.bolt) (cellsAt c.b bs)

/-- The task of a command ran with planes capped: bit 3 of DEGR (R63, R312). -/
def State.noteCap (s : State) (l : Nat) (c : MCmd) : State :=
  s.onTask ⟨l, c.who.part⟩ fun t => { t with bolt := { t.bolt with degr := t.bolt.degr ||| 8 } }

/-- PLANE. -/
def State.finishPlane (s : State) (l : Nat) (c : MCmd) : State :=
  match s.planeOut l c with
  | .error w => s.engineFault l c 0x12 (w % 1024)
  | .ok (bs, clamp) =>
    let s1 := (s.engineReads l c).engineWrite l c bs
    let bound := (s1.taskAt ⟨l, c.who.part⟩).elim 0 (·.id.abind)
    let core := s1.core l
    let mark := fun (k : Nat) => if clamp && bound.getLsbD k then { core.tile k with clamp := true } else core.tile k
    let s2 := s1.setCore { core with tiles := (List.range 4).map mark }
    (if s.capsPlanes l c && c.cappable c.side then s2.noteCap l c else s2).finishCmd l c

/-- The tile a multiplication begins with. -/
def MCmd.base (c : MCmd) (t : Tile) : Tile := if c.acc then t else Tile.cleared (Desc.lsbe c.desc)

/-- MMA and MMAG: a failed comparison is an error charged to the bolt. A command that ran capped marks its tile (R223). -/
def State.finishMultiply (s : State) (l : Nat) (c : MCmd) (t : Tile → Tile) : State :=
  if c.checked s.mem then
    let s1 := s.engineReads l c
    let cap := s.capsPlanes l c && (c.cappable false || c.cappable true)
    let x := t ((s1.core l).tile c.tile)
    let s2 := s1.setCore ((s1.core l).setTile c.tile (if cap then { x with capd := true } else x))
    (if cap then s2.noteCap l c else s2).finishCmd l c
  else s.chargeAll (boltId (claimMark l c.who.part) c.who.bolt) ⟨.core, 0, 0⟩

/-- Bytes of the source of a command. -/
def State.sourceBytes (s : State) (k n : Nat) : List Byte := (List.range n).map fun i => s.sourceByte (k + i)

/-- The tile that MLDA loads, or the row of the first bad image. -/
def State.loadedTile (s : State) (c : MCmd) : Except Nat Tile :=
  let l := Desc.lsbe c.desc
  let t := Tile.cleared l
  if c.ty = 16 then
    let es := ((List.range 16384).map fun n => elemOfImage (s.sourceBytes (c.a + 16 * n) 16)).toArray
    match (List.range 16384).find? fun n => (es.getD n none).isNone with
    | some n => .error (n / 128)
    | none => .ok (t.filled fun n => (es.getD n none).getD ⟨0, 0⟩)
  else
    let es := ((List.range 16384).map fun n =>
      elemOfValue l c.rnd (valueOf c.ty (natOfBytes (s.sourceBytes (c.a + 4 * n) 4)))).toArray
    .ok { t.filled fun n => (es.getD n (⟨0, 0⟩, false)).1 with accsat := es.any (·.2) }

/-- MLDA. -/
def State.finishLoad (s : State) (l : Nat) (c : MCmd) : State :=
  match s.loadedTile c with
  | .error row => s.engineFault l c 0x13 row
  | .ok t =>
    let s1 := s.engineReads l c
    (s1.setCore ((s1.core l).setTile c.tile t)).finishCmd l c

/-- MST: rows go to the own core pad at once, or into the issuing bolt's hold. -/
def State.finishStore (s : State) (l : Nat) (c : MCmd) : State :=
  let t := (s.core l).tile c.tile
  let bs := ((List.range (128 * c.rows)).map fun n => (t.elem (128 * c.row + n)).image).flatten
  let s1 := if (corePadOf c.b).isSome then s.engineWrite l c bs
    else s.onIssuer l c.who fun w => { w with hold := w.hold ++ [.moved ((cellsAt c.b bs).map fun x => (s.padKey x.1, x.2))] }
  s1.finishCmd l c

/-- The end of a command on its own core's unit. -/
def State.finish (s : State) (l : Nat) (c : MCmd) : State :=
  if c.op = 0x281 then s.finishPlane l c
  else if arrayOp c.op then s.finishMultiply l c fun t => c.product s.mem (c.base t)
  else if c.op = 0x28A then
    (s.setCore ((s.core l).setTile c.tile (Tile.cleared (Desc.lsbe c.desc)))).finishCmd l c
  else if c.op = 0x28B then s.finishLoad l c
  else s.finishStore l c

/-- The command of a unit that has run its time and whose writes do not stall. -/
def State.endingCmd (s : State) (l : Nat) (u : EngUnit) : Option MCmd :=
  ((s.core l).run.find? fun r => unitTakes u r.cmd.op && r.cmd.away.isNone && decide (r.ends ≤ s.dcc)
    && !s.engineStalls l r.cmd).map (·.cmd)

/-- TILE_COMMAND_COMPLETE. -/
def execTileCommandComplete (l : Nat) (u : EngUnit) (s : State) : Out :=
  .next (match s.endingCmd l u with
    | none => s
    | some c => s.finish l c)

/-! ### Migration (R225 to R227) -/

/-- A ring neighbour's array may take a command. -/
def State.hostsGuest (s : State) (nb : Nat) : Bool :=
  let c := s.core nb
  c.mq.isEmpty && c.run.isEmpty && decide (c.idle + 256 ≤ s.dcc) && !s.guest nb && s.resident nb

/-- The bolt of a command has replayed. -/
def State.hasReplayed (s : State) (l : Nat) (who : Issuer) : Bool :=
  (s.taskAt ⟨l, who.part⟩).all fun t => (t.bolt.work :: t.bolt.outer.toList).any fun w => w.num == who.bolt && w.replayed

/-- The command of a partition that may migrate, and the neighbour that takes it. -/
def State.migrant (s : State) (l part : Nat) : Option (MCmd × Nat) :=
  let core := s.core l
  match core.oldest.find? fun c => c.who.part == part with
  | none => none
  | some c =>
    let ahead := (core.mq.filter fun x => arrayOp x.op ∧ x.who.tag < c.who.tag).length
    let nbs := [(l + 11) % 12, (l + 1) % 12].map fun j => l / 12 * 12 + j
    if arrayOp c.op && c.acc && Desc.field c.desc 45 45 == 1 && decide (4 ≤ ahead) && !s.hasReplayed l c.who && s.cmdReady l c then
      (nbs.find? s.hostsGuest).map fun nb => (c, nb)
    else none

/-- COMMAND_MIGRATION (R225). -/
def execCommandMigration (l part : Nat) (s : State) : Out :=
  .next (match s.migrant l part with
    | none => s
    | some (c, nb) =>
      let s1 := s.setCore ((s.core nb).freshWindow s.dcc)
      let core := s1.core l
      (s1.setCore { core with
        mq := core.mq.erase c
        run := core.run ++ [s1.started l { c with away := some nb }] }).settleOldest l)

/-- A core has a command of its own, an MRD that waits for the tile port among them (R227). -/
def State.ownCommand (s : State) (l : Nat) : Bool :=
  !(s.core l).mq.isEmpty || !(s.core l).run.isEmpty || s.tasks.any fun t => t.id.live && t.id.lcore == l &&
    t.flow.wait.any fun w => match w.kind with | .readout _ => true | _ => false

/-- A command of a core that runs elsewhere and has run its time, or has to come back. -/
def State.returning (s : State) (l : Nat) : Option (MCmd × Nat × Bool) :=
  (s.core l).run.findSome? fun r => match r.cmd.away with
    | none => none
    | some nb =>
      if s.ownCommand nb || !s.resident nb then some (r.cmd, nb, false)
      else if r.ends ≤ s.dcc then some (r.cmd, nb, true) else none

/-- MIGRATED_PARTIAL_ADD (R226, R227): the partial joins the home tile, or the command comes back without it. -/
def execMigratedPartialAdd (l : Nat) (s : State) : Out :=
  .next (match s.returning l with
    | none => s
    | some (_, nb, false) => s.recallFrom l nb
    | some (c, _, true) =>
      s.finishMultiply l c fun t => t.merge (c.product s.mem (Tile.cleared t.l)))

/-! ### Bursts and phases (R228 to R230) -/

/-- The commands that run on a core's array, its neighbours' among them, with their partitions. -/
def State.arrayRuns (s : State) (l : Nat) : List (TaskRef × Running) :=
  (List.range 12).flatMap fun i =>
    let h := l / 12 * 12 + i
    ((s.core h).run.filter fun r => arrayOp r.cmd.op && r.cmd.away.getD h == l).map fun r =>
      (⟨h, r.cmd.who.part⟩, r)

/-- The core's array has a window to close. -/
def State.windowDue (s : State) (l : Nat) : Bool :=
  let c := s.core l
  decide (c.window + 64 ≤ s.dcc) && (!(s.arrayRuns l).isEmpty || c.winClocks != 0 || c.excess != 0)

/-- Plane-pair clocks of the present window. -/
def State.windowClocks (s : State) (l : Nat) : Nat :=
  let c := s.core l
  c.winClocks + ((s.arrayRuns l).map fun r => r.2.done (c.window + 64) - r.2.done c.window).sum

/-- The limit of a window's activity, in eighths. -/
def Core.burstLimit (c : Core) : Nat := if c.thrt then Nat.max c.phases c.thrLvl else c.phases

/-- UNDECLARED_BURST (R230): a window ends, and the fifth in excess throttles the array. -/
def execUndeclaredBurst (l : Nat) (s : State) : Out :=
  .next (if !s.windowDue l then s
    else
      let c := s.core l
      let tooMuch := decide (c.burstLimit < (s.windowClocks l + 7) / 8)
      let excess := if tooMuch then c.excess + 1 else 0
      let parts := (c.winParts ++ (s.arrayRuns l).map (·.1)).dedup
      let s1 := s.setCore { c with window := c.window + 64, winClocks := 0, winParts := [], excess }
      if excess < 5 then s1
      else
        let s2 := s1.setCore { s1.core l with
          thrt := true, thrLvl := if c.phases = 0 then 2 else c.phases, excess := 0 }
        parts.foldl (fun acc r => acc.onTask r fun t => { t with phase := { t.phase with
          uburst := if t.phase.uburst = BitVec.allOnes 32 then t.phase.uburst else t.phase.uburst + 1 } }) (s2.rerate l))

/-- The tick of a declaration's onset. -/
def TaskPhase.onsetTick (p : TaskPhase) : Nat := p.t0 + 64 * p.onset

/-- A change of the declaration of a task. -/
def State.onPhase (s : State) (who : TaskRef) (test : TaskPhase → Bool) (f : TaskPhase → TaskPhase) : State :=
  if (s.taskAt who).any fun t => test t.phase then
    (s.onTask who fun t => { t with phase := f t.phase }).refreshLevel who.lcore
  else s

/-- A declaration whose onset is within the lead of the regulator. -/
def State.prepositionDue (s : State) (p : TaskPhase) : Bool := p.pend && !p.asked && decide (p.onsetTick ≤ s.dcc + 4400)

/-- REGULATOR_PREPOSITION (R229, R373): no operating point and no readable field changes. -/
def execRegulatorPreposition (who : TaskRef) (s : State) : Out :=
  .next (s.onPhase who s.prepositionDue fun p => { p with asked := true })

def State.onsetDue (s : State) (p : TaskPhase) : Bool := p.pend && decide (p.onsetTick ≤ s.dcc)

/-- PHASE_ONSET (R228, R229). -/
def execPhaseOnset (who : TaskRef) (s : State) : Out :=
  .next (match s.taskAt who with
    | none => s
    | some t =>
      if s.onsetDue t.phase then
        let s1 := s.setCore { s.core who.lcore with stagger := some t.phase.onsetTick }
        s1.onPhase who (fun _ => true) fun p =>
          { p with pend := false, act := true, level := if p.ramp then 2 else 8 }
      else s)

def State.rampDue (s : State) (p : TaskPhase) : Bool :=
  p.act && p.ramp && decide (p.level < 8 ∧ p.onsetTick + 256 * (p.level - 1) ≤ s.dcc)

/-- PHASE_RAMP_STEP (R229). -/
def execPhaseRampStep (who : TaskRef) (s : State) : Out :=
  .next (s.onPhase who s.rampDue fun p => { p with level := p.level + 1 })

def State.phaseOver (s : State) (p : TaskPhase) : Bool := p.act && decide (p.onsetTick + 1024 * p.len ≤ s.dcc)

/-- PHASE_END (R228). -/
def execPhaseEnd (who : TaskRef) (s : State) : Out := .next (s.onPhase who s.phaseOver (·.ended))

/-! ### Retention (R233) -/

/-- A task or a helper waits for a core pad: a load for full granules, an access that stalls on the pad's rest, or a seal
that has bytes to release there. -/
def State.padAwaited (s : State) (l : Nat) : Bool :=
  let held := fun (w : BoltWork) => w.hold.any fun i => match i with
    | .store cells | .moved cells => cells.any fun c => (corePadOf c.1).any (·.1 == l)
    | _ => false
  (s.tasks.any fun t => t.id.live && t.flow.wait.any fun w => match w.kind with
    | .fullEmpty as => as.any fun a => match (s.select t.ref).place (a.setWidth 64) 1 with
      | .ok (.corePad l' _ _) => l' == l
      | _ => false
    | .pad l' => l' == l
    | _ => held t.bolt.work)
  || s.helpers.any fun h => h.wait.any fun w => match w.1 with
    | .few .. => h.lcore == l
    | .pad l' => l' == l
    | .seal => held h.work
    | _ => false

/-- A skidder of the cluster has a chunk to move that touches a core pad. -/
def State.padMoves (s : State) (l : Nat) : Bool :=
  (List.range 12).any fun i =>
    let h := l / 12 * 12 + i
    (firstCommands [] (s.skCmds h)).any fun c => (s.skTouches h c).any fun k => (corePadOf k).any (·.1 == l)

/-- A load waits on a core's pad, a tile command is queued or runs, or another access stalls on its rest. -/
def State.padWanted (s : State) (l : Nat) : Bool :=
  !(s.core l).mq.isEmpty || !(s.core l).run.isEmpty || s.padAwaited l || s.padMoves l

def State.retentionDue (s : State) (l : Nat) : Bool :=
  (s.core l).awake s.dcc && decide ((s.core l).touched + 2200000 ≤ s.dcc) && !s.padWanted l

/-- Ticks that some clocks of the SRAM rail take at its point (R370). -/
def State.sramTicks (s : State) (clocks : Nat) : Nat := Config.sramTicks ((s.pkg.rails.map Rail.drive).getD 2 0) clocks

/-- RETENTION_ENTRY (R233): it takes 4,096 clocks and is not abandoned; contents and full bits stay. -/
def execRetentionEntry (l : Nat) (s : State) : Out :=
  .next (if s.retentionDue l then s.setCore { s.core l with rest := .entering (s.dcc + s.sramTicks 4096) } else s)

/-- The pad of a core is in retention, its entry over, and an access waits for it. -/
def State.wakeDue (s : State) (l : Nat) : Bool :=
  match (s.core l).rest with
  | .entering t => decide (t ≤ s.dcc) && s.padWanted l
  | _ => false

/-- RETENTION_EXIT (R233): leaving takes 4,608 clocks. -/
def execRetentionExit (l : Nat) (s : State) : Out :=
  .next (if s.wakeDue l then
    let t := s.dcc + s.sramTicks 4608
    s.setCore { s.core l with rest := .leaving t, touched := t } else s)

end Sys2Proof.Machine
end

