-- ==== Sys2Proof/Machine/Chains.lean ====
section
/-! DEFINITION. The steps of the skidder that no instruction makes, and the chains that it walks
(spec/08_core_movement.md R239 to R242, R246, R249 to R252; records and status of spec/12_die_scheduling.md R313,
R321), with the errors that a chain or a bolt meets (spec/06_task_traps_bolts.md R187). -/

namespace Sys2Proof.Machine

/-! ### Skidder commands -/

/-- The first command of a core that has moved every byte. -/
def State.endedMove (s : State) (l : Nat) : Option SkCmd := (s.core l).sq.find? (·.done)

/-- SKIDDER_COMMAND_COMPLETE (R242). -/
def execSkidderCommandComplete (l : Nat) (s : State) : Out :=
  .next (match s.endedMove l with
    | none => s
    | some c =>
      let s1 := if c.res then s.skElem l c 2 else s
      s1.skRemove l c)

/-- A TMOV that has waited too long for one granule. -/
def State.lateSource (s : State) (l : Nat) : Option SkCmd :=
  (firstCommands [] (s.core l).sq).find? fun c => c.kind == .tmov && c.len != 0 && (s.core l).skSize c == 0
    && s.resident l && decide (c.since + 2 ^ 24 ≤ s.dcc)

/-- SOURCE_WATCHDOG (R246). -/
def execSourceWatchdog (l : Nat) (s : State) : Out :=
  .next (match s.lateSource l with
    | none => s
    | some c => s.skFail l c (.engine 0x24 0))

/-! ### Chains -/

def State.chain (s : State) (d ch : Nat) : Chain := (s.die d).chains.getD ch .reset

def State.setChain (s : State) (d ch : Nat) (c : Chain) : State :=
  s.setDie d { s.die d with chains := (s.die d).chains.set ch c }

/-- The chain goes on at its pending head, if it has one. -/
def Chain.resume (c : Chain) (state : Nat) : Chain :=
  match c.pend with
  | none => { c with state, tries := 0, cmd := none, out := 0 }
  | some (a, cls, l, fn) =>
    { c with state := 1, cur := a, cls, lcore := l, func := fn, pend := none, tries := 0, cmd := none, out := 0 }

def Chain.ctx (c : Chain) : SkCtx := ⟨c.lcore, c.func, false⟩

/-- The key of the descriptor at which a chain stands: aligned, and readable by the device (R329). -/
def State.chainDesc (s : State) (c : Chain) : Option Nat :=
  if c.cur.toNat % 64 ≠ 0 then none else s.chainKey c.lcore c.func c.cur

/-- The key of the descriptor, where the walking core may write its status (R328). -/
def State.chainStatus (s : State) (c : Chain) : Option Nat :=
  if (s.skKeys c.ctx true c.cur 64).2.isSome then none else s.chainDesc c

/-- A descriptor fails: its CODE is written where it can be, OWN stays, and the chain stalls with a *chain fault* event. -/
def State.failDesc (s : State) (d ch : Nat) (outlen code : Nat) : State :=
  let c := s.chain d ch
  let s1 := match s.chainStatus c with
    | some k => s.show (cellsAt (k + 0x28) (bytesOfNat 5 (code * 2 ^ 32 + outlen % 2 ^ 32)))
    | none => s
  (s1.setChain d ch ({ s1.chain d ch with code }.resume 2)).post 0 0x04 (16 * d + ch) c.cur.toNat code

/-- The command that moves the data of a descriptor, in the class of the chain; a helper of no element (R249, R251). -/
def Chain.command (c : Chain) (ch now : Nat) (m : MoveDesc) : SkCmd where
  who := ⟨18 + ch, 0, 0, 0, 0⟩
  op := 0x30B; path := 1; cls := c.cls
  kind := .desc none m.xf m.outmax m.dict m.dlen
  src := m.src; dst := m.dst; len := m.len; pos := 0; func := c.func; det := 0
  res := false; con := false; sib := false; since := now; done := false; conDone := false; entered := now

/-- A range of a descriptor passes the window check of R241 on the walking core. -/
def State.chainRangeOk (s : State) (l : Nat) (a : W64) (n : Nat) : Bool :=
  n == 0 || match placeOf l (s.padDie l) false a n with
    | .ok _ => true
    | .error _ => false

/-- The chain reads the descriptor at which it stands: one that software owns stalls it, one with a defect fails with CODE
1, one that cannot be read or has a range outside the windows with CODE 2 (R249 to R251). -/
def State.readChain (s : State) (d ch : Nat) : State :=
  let c := s.chain d ch
  match s.chainDesc c with
  | none => s.failDesc d ch 0 2
  | some k =>
    let s := s.bus c.func false ((List.range 64).map (k + ·))
    let m := moveDesc (s.mem.readBytes k 64)
    if m.ctrl % 2 = 0 then (s.setChain d ch (c.resume 2)).post 0 0x03 (16 * d + ch) c.cur.toNat 0
    else if m.defect.isSome then s.failDesc d ch 0 1
    else if !s.chainRangeOk c.lcore m.src m.len || !s.chainRangeOk c.lcore m.dst m.room then s.failDesc d ch 0 2
    else s.setChain d ch { c with cmd := some (c.command ch s.dcc m), out := 0 }

/-- A descriptor's data has been written: OUTLEN and CODE are, then OWN is cleared, and the chain goes on (R251). -/
def State.endDesc (s : State) (d ch : Nat) : State :=
  let c := s.chain d ch
  match s.chainStatus c with
  | none => s.failDesc d ch c.out 2
  | some k =>
    let m := moveDesc (s.mem.readBytes k 64)
    let s2 := s.show (cellsAt (k + 0x28) (bytesOfNat 5 c.out))
    let s3 := s2.show [(k + 8, BitVec.ofNat 8 (m.ctrl % 256 / 2 * 2))]
    let c1 := { s3.chain d ch with code := 0, done := (s3.chain d ch).done + 1, tries := 0, cmd := none, out := 0 }
    let s4 := s3.setChain d ch (if m.next = 0 then c1.resume 0 else { c1 with cur := BitVec.ofNat 64 m.next })
    if m.ctrl.testBit 1 then s4.post 0 0x05 (16 * d + ch) c.cur.toNat (c.out % 2 ^ 32 * 2 ^ 32) else s4

/-- A running chain reads its next descriptor, or ends the one whose bytes have moved. -/
def State.walkChain (s : State) (d ch : Nat) : State :=
  match (s.chain d ch).cmd with
  | none => s.readChain d ch
  | some x => if x.done then s.endDesc d ch else s

/-- A running chain has a descriptor to read or to end, and its status writes do not stall (R186, R233, R260). -/
def State.chainReady (s : State) (d ch : Nat) : Bool :=
  let c := s.chain d ch
  c.state == 1 && s.resident c.lcore && (c.cmd.all (·.done)) && match s.chainDesc c with
    | none => true
    | some k => (s.asleep [k]).isNone && (c.cmd.isNone || !(granulesOf [k, k + 0x28]).any (s.writeStalls 0))

/-- CHAIN_DESCRIPTOR_WALK (R251). -/
def execChainDescriptorWalk (d ch : Nat) (s : State) : Out := .next (if s.chainReady d ch then s.walkChain d ch else s)

/-- The CODE of a chain's descriptor whose data meets a fault (R249, R250). -/
def SkFault.code : SkFault → Nat
  | .transfer .. => 2
  | .engine _ 0x3FF => 3
  | .engine _ 0x3FE => 4
  | .engine .. => 2

/-- A chunk of a chain's data moves in the class of the chain; a fault fails the descriptor, whose earlier bytes stand. -/
def State.chainChunk (s : State) (l : Nat) (c : SkCmd) : State :=
  let d := l / 96
  let ch := c.who.part - 18
  let p := s.skPlan l c
  let s1 := s.skEffect l c p
  let x := s1.chain d ch
  let out := x.out + p.cells.length
  match p.fault with
  | some f => s1.failDesc d ch out f.code
  | none => s1.setChain d ch { x with
      out, cmd := some { c with pos := c.pos + p.size, since := s.dcc, done := c.pos + p.size == c.len } }

/-- SKIDDER_CHUNK_MOVE (R239, R240, R251). -/
def execSkidderChunkMove (l : Nat) (s : State) : Out :=
  .next (match s.skNext l with
    | none => s.skIdle l
    | some (x, c, _) =>
      let s1 := s.setCore x
      (if c.ofChain then s1.chainChunk l c else s1.skMove l c).skIdle l)

/-- Source and destination of a descriptor overlap (R252). -/
def State.chainOverlaps (s : State) (c : Chain) (x : SkCmd) : Bool :=
  let dst := (s.skKeys c.ctx true x.dst (x.outSize.getD x.len)).1
  (s.skKeys c.ctx false x.src x.len).1.any dst.contains

/-- An error in a chain's data: a staging error repeats the descriptor, and the fourth, or the first under an overlap,
fails it with CODE 5 (R252), as a mismatch of a transform's CRC does at once (R383); a memory error marks its plot bad
and fails it (R331). -/
def State.chainError (s : State) (d ch : Nat) (src : ErrSource) (crc : Bool) (pa : Nat) : State :=
  let c := s.chain d ch
  match (if c.state = 1 then c.cmd else none) with
  | none => if src = .memory ∧ c.state = 1 then (s.agentError pa).failDesc d ch 0 5 else s
  | some x => match src with
    | .core =>
      if crc then (if x.outSize.isSome then s.failDesc d ch c.out 5 else s)
      else if 3 ≤ c.tries ∨ s.chainOverlaps c x then s.failDesc d ch c.out 5
      else s.setChain d ch { c with
        tries := c.tries + 1, reps := Nat.min (c.reps + 1) 65535, out := 0
        cmd := some { x with pos := 0, done := false, since := s.dcc } }
    | .memory => (s.agentError pa).failDesc d ch c.out 5
    | .link => s.failDesc d ch c.out 5

/-- An error charged to the bolt of the operation it affects: the current bolt of a partition or a helper, or with
partitions 34 to 49 the bolt that a partition's handler has interrupted; partitions 18 to 33 of a core stand for its die's
chains, 51 to 66 for the CRC checks of their transforms, and 50 for an agent without a bolt (log 20). -/
def State.detect (s : State) (who : TaskRef) (src : ErrSource) (addr : BitVec 48) (pa : Nat) : State :=
  let charge := fun (id : Option Nat) => id.elim s fun id => s.chargeAll id ⟨src, addr, pa⟩
  if who.part < 18 then charge (s.currentBolt who)
  else if who.part < 34 then s.chainError (who.lcore / 96) (who.part - 18) src false pa
  else if who.part < 50 then charge (s.interruptedBolt ⟨who.lcore, who.part - 34⟩)
  else if 50 < who.part then s.chainError (who.lcore / 96) (who.part - 51) src true pa
  else if src = .memory then s.agentError pa else s

/-- ERROR_DETECTED (R187, R188, R353). -/
def execErrorDetected (who : TaskRef) (src : ErrSource) (addr : BitVec 48) (pa : Nat) (s : State) : Out :=
  .next (s.detect who src addr pa)

end Sys2Proof.Machine
end

