-- ==== Sys2Proof/Machine/Gauges.lean ====
section
/-! DEFINITION. Cord gauges: applying an image and firing (spec/10_cluster_stands.md R289 to R291,
spec/12_die_scheduling.md R313, R320, spec/13_die_memory.md R347 to R349); shedding as a step of its own (R293) and the
turns of the logical cores that share a host (R295). -/

namespace Sys2Proof.Machine

/-! ### Identities and images (R313, R320, R348) -/

/-- A gauge: on a controller or in a pad, its die or cluster, its index. -/
structure GaugeRef where
  ctl   : Bool
  home  : Nat
  index : Nat
deriving DecidableEq, Repr

/-- The gauge that a GID names; bits [14:9] are zero in both forms. -/
def gaugeRef (gid : BitVec 16) : Option GaugeRef :=
  let x := gid.toNat
  if bitsOf x 14 9 ≠ 0 then none
  else if gid.getLsbD 15 then some ⟨true, bitsOf x 8 8, bitsOf x 7 0⟩
  else some ⟨false, bitsOf x 8 5, bitsOf x 4 0⟩

def GaugeRef.gid (r : GaugeRef) : Nat :=
  if r.ctl then 2 ^ 15 + r.home * 256 + r.index else r.home * 32 + r.index

def State.gauge (s : State) (r : GaugeRef) : BitVec 256 :=
  sget (fun _ => 0) (if r.ctl then (s.die r.home).gauges else (s.cluster r.home).gauges) r.index

def State.setGauge (s : State) (r : GaugeRef) (x : BitVec 256) : State :=
  if r.ctl then
    let d := s.die r.home
    s.setDie r.home { d with gauges := sset (fun _ => 0) d.gauges r.index x }
  else
    let c := s.cluster r.home
    s.setCluster r.home { c with gauges := sset (fun _ => 0) c.gauges r.index x }

def gaugeAction (x : BitVec 256) : Nat := gaugeField x 2 0
def gaugeTotal (x : BitVec 256) : Nat := gaugeField x 207 168
def gaugeTarget (x : BitVec 256) : Nat := gaugeField x 159 128
def gaugePlot (x : BitVec 256) : Nat := gaugeField x 115 98

/-- GV and GIDX of a plot's entry. -/
def State.setLink (s : State) (plot : Nat) (link : Option Nat) : State :=
  let e := s.plotEntry plot
  let cleared := e - bitsOf e 31 23 * 2 ^ 23
  s.setMem (s.mem.writeCells (cellsAt (8 * plot) (bytesOfNat 8 (cleared + link.elim 0 fun i => 2 ^ 23 + i * 2 ^ 24))))

/-- The plot links an armed gauge other than `i`. -/
def State.linkedElsewhere (s : State) (d plot i : Nat) : Bool :=
  let e := s.plotEntry plot
  e.testBit 23 && bitsOf e 31 24 != i && gaugeArmed (s.gauge ⟨true, d, bitsOf e 31 24⟩)

/-- The byte offset of the first bad field of an image. -/
def State.imageDefect (s : State) (r : GaugeRef) (x : BitVec 256) : Option Nat :=
  let f := gaugeField x
  let target := f 159 128
  if f 5 4 ≠ 0 ∨ 4 ≤ f 2 0 then some 0
  else if f 63 8 ≠ 0 then some 1
  else if !r.ctl ∧ f 95 85 ≠ 0 then some 10
  else if r.ctl ∧ f 97 81 < f 80 64 then some 10
  else if !r.ctl ∧ f 116 96 < f 84 64 then some 12
  else if r.ctl ∧ (131072 ≤ f 115 98 ∨ f 115 98 % 2 ≠ r.home ∨ s.linkedElsewhere r.home (f 115 98) r.index) then some 12
  else if (if r.ctl then f 127 116 else f 127 117) ≠ 0 then some 14
  else if (f 2 0 = 2 ∧ 64 ≤ target) ∨ (r.ctl ∧ f 2 0 = 1 ∧ 16 ≤ target) then some 16
  else if f 167 160 ≠ 0 then some 20
  else if f 207 168 = 0 then some 21
  else if f 255 248 ≠ 0 then some 31
  else none

/-! ### Stands linked to gauges (R291) -/

/-- The cluster sub-stand that action 1 names: the TARGET-th of the gauge's cluster for a pad gauge, the first of cluster
TARGET for a controller gauge. -/
def State.gaugeStand (s : State) (r : GaugeRef) (x : BitVec 256) : Option Stand :=
  if r.ctl then s.stands.find? fun z => z.level == 1 && z.group == gaugeTarget x % 16
  else (s.stands.filter fun z => z.level = 1 ∧ z.group = r.home)[gaugeTarget x]?

/-- Stands that a gauge is linked to are changed. -/
def State.onLinked (s : State) (r : GaugeRef) (f : Stand → Stand) : State :=
  { s with stands := s.stands.map fun (z : Stand) => if z.gauge = some r.gid then f z else z }

/-- An armed gauge of action 1 links its stand; any other image unlinks. -/
def State.relink (s : State) (r : GaugeRef) (x : BitVec 256) : State :=
  let s1 := s.onLinked r fun z => { z with gauge := none }
  if gaugeArmed x && gaugeAction x == 1 then
    match s1.gaugeStand r x with
    | some y => { s1 with stands := s1.stands.map fun (z : Stand) =>
        if z = y then { z with gauge := some r.gid, fired := false } else z }
    | none => s1
  else s1

/-! ### CORD and GCMD (R320, R348, R398) -/

/-- A controller gauge's plots: the old link goes, and an armed image links its plot. -/
def State.relinkPlot (s : State) (r : GaugeRef) (old x : BitVec 256) : State :=
  if r.ctl then
    let s1 := if gaugeArmed old then s.setLink (gaugePlot old) none else s
    if gaugeArmed x then s1.setLink (gaugePlot x) (some r.index) else s1
  else s

/-- A gauge takes an image, and the links to and from it follow. -/
def State.placeGauge (s : State) (r : GaugeRef) (x : BitVec 256) : State :=
  ((s.relinkPlot r (s.gauge r) x).setGauge r x).relink r x

/-- An image as a gauge takes it: COUNT and FIRED start at 0. -/
def freshImage (x : BitVec 256) : BitVec 256 := gaugeSet (gaugeSet x 247 208 0) 7 7 0

/-- An image is applied to the gauge of a GID, with COUNT and FIRED zero, or rejected with a record of kind 0x08. -/
def State.applyGauge (s : State) (gid : BitVec 16) (image : BitVec 256) : State :=
  match gaugeRef gid with
  | none => s
  | some r =>
    match s.imageDefect r image with
    | some o => s.putEvent 0 0x08 gid.toNat o 0
    | none => s.placeGauge r (freshImage image)

/-! ### Firing (R291, R320, R348) -/

/-- An armed gauge has counted TOTAL bytes. -/
def gaugeFull (x : BitVec 256) : Bool := gaugeArmed x && decide (gaugeTotal x ≤ gaugeField x 247 208)

/-- The action of a firing. -/
def State.gaugeAct (s : State) (r : GaugeRef) (x : BitVec 256) : State :=
  match gaugeAction x with
  | 1 => s.onLinked r fun z => { z with fired := true, gauge := if gaugeField x 3 3 = 1 then z.gauge else none }
  | 2 => s.event (gaugeTarget x % 64) 0 (.trigger (gaugeTarget x % 64))
  | 3 => s.post 0 0x07 r.gid (gaugeTarget x) (gaugeField x 247 208)
  | _ => s

/-- A gauge fires once: FIRED, its action, and the end of a one-shot or the next count of a re-armed one. -/
def State.fireGauge (s : State) (r : GaugeRef) : State :=
  let x := s.gauge r
  if !gaugeFull x then s
  else
    let y := gaugeSet x 7 7 1
    let s1 := if gaugeField x 3 3 = 1 then s.setGauge r (gaugeSet y 247 208 (gaugeField x 247 208 - gaugeTotal x))
      else (if r.ctl then s.setLink (gaugePlot x) none else s).setGauge r (gaugeSet y 6 6 0)
    s1.gaugeAct r x

/-- PAD_GAUGE_FIRE. -/
def execPadGaugeFire (c i : Nat) (s : State) : Out := .next (s.fireGauge ⟨false, c, i⟩)

/-- CONTROLLER_GAUGE_FIRE (R349). -/
def execControllerGaugeFire (d i : Nat) (s : State) : Out := .next (s.fireGauge ⟨true, d, i⟩)

/-- The first armed gauge that has counted TOTAL bytes. -/
def State.fullGauge (s : State) : Option GaugeRef :=
  (s.clusters.findSome? fun (c, x) => (x.gauges.find? fun g => gaugeFull g.2).map fun g => GaugeRef.mk false c g.1).or
    (s.dies.findSome? fun (d, x) => (x.gauges.find? fun g => gaugeFull g.2).map fun g => GaugeRef.mk true d g.1)

/-! ### Shedding and time-sharing (R293, R295) -/

/-- SHEDDING. -/
def execShedding (c k : Nat) (s : State) : Out := .next (s.shedCore c k)

/-- The logical core that a host serves after `l`, in increasing order with wrap-around. -/
def nextHosted (ls : List Nat) (l : Nat) : Option Nat := (ls.find? fun x => decide (l < x)).or ls.head?

/-- The slice of a host's resident logical core has ended, and its tile and skidder commands are complete, the queued ones
too: the cores that leave and come (R295). -/
def State.switchDue (s : State) (c k : Nat) : Option (Nat × Nat) :=
  let ls := s.hostedBy c k
  let x := s.cluster c
  if ls.length < 2 ∨ s.dcc < x.sliceEnd.getD k 0 then none
  else
    let l := x.resident.getD k 0
    let x := s.core l
    if !x.mq.isEmpty || !x.run.isEmpty || !x.sq.isEmpty || s.guest l then none else (nextHosted ls l).map (l, ·)

/-- Times of a task that count only while it is resident. -/
def Task.shift (t : Task) (n : Nat) : Task :=
  { t with
    id := { t.id with started := t.id.started + n }
    flow := { t.flow with wait := t.flow.wait.map fun w => { w with since := w.since + n } } }

/-- Watchdogs and budgets of a logical core that was not resident for `n` ticks have not counted. -/
def State.shiftCore (s : State) (l n : Nat) : State :=
  let c := s.core l
  let s1 := s.setCore { c with
    sq := c.sq.map fun x => { x with since := x.since + n }
    mq := c.mq.map fun x => { x with oldest := x.oldest.map (· + n) } }
  let s2 := (s1.tasks.filter fun t => t.id.live && t.id.lcore == l).foldl (fun acc t => acc.onTask t.ref (·.shift n)) s1
  let s3 := (List.range 2).foldl (fun (acc : State) w => acc.onHelper l w fun h =>
    { h with wait := h.wait.map fun x => (x.1, x.2 + n) }) s2
  let mine := fun (z : Stand) (m : Nat) => (s.member z m).any fun t => t.id.lcore == l
  { s3 with
    colls := s3.colls.map fun (x : Contribution) =>
      if x.who.any (·.lcore == l) then { x with since := x.since + n } else x
    stands := s3.stands.map fun (z : Stand) =>
      { z with arrived := z.arrived.map fun a => if mine z a.1 then (a.1, a.2.1 + n, a.2.2) else a } }

/-- The tasks of a logical core stop as steps 1 and 2 of R166 give. -/
def State.haltCore (s : State) (l : Nat) : State :=
  let s1 := (s.tasks.filter fun t => t.id.live && t.id.lcore == l).foldl (fun acc t => acc.onTask t.ref fun u =>
    { u with
      regs := u.regs.close
      flow := { u.flow with clk := u.regs.closedAt u.flow.clk } }) s
  s1.setCore { s1.core l with left := s.dcc }

/-- TIME_SHARE_SWITCH. The images are the logical cores' own state, which stays in place (R295: Results are unchanged). -/
def execTimeShareSwitch (c k : Nat) (s : State) : Out :=
  .next (match s.switchDue c k with
    | none => s
    | some (l, n) =>
      let s1 := s.haltCore l
      let s2 := s1.shiftCore n (s.dcc - (s1.core n).left)
      let x := s2.cluster c
      s2.setCluster c { x with resident := x.resident.set k n, sliceEnd := x.sliceEnd.set k (s.dcc + 4194304) })

end Sys2Proof.Machine
end

