-- ==== Sys2Proof/Machine/Accept.lean ====
section
/-! DEFINITION. Nodes: completion and speculations (spec/12_die_scheduling.md R310, R311, R318, R319), the checks of a
packet (R303, R325, R405, R409), acceptance and shedding (R299, R300, R315, R406), readiness and blight (R306, R310). -/

namespace Sys2Proof.Machine

/-! ### Squashing and completion -/

/-- A speculation of a node. -/
def Spec.of (x : Spec) (q seq : Nat) : Bool := x.queue == q && x.seq == seq

/-- Streams lose the pending bytes of buffered pushes (R153). -/
def State.dropBuffer (s : State) : List (Nat × TaskRef × HoldItem) → State
  | [] => s
  | (_, r, i) :: is => (s.setCore ((s.core r.lcore).dropPushes [i])).dropBuffer is

/-- A node's running and pre-empted tasks end without a fault; what they had not released is discarded. -/
def State.stopNode (s : State) (q seq : Nat) : State :=
  let s1 := (s.tasks.filter fun t => t.id.live && t.id.queue == q && t.id.seq == seq).foldl
    (fun acc t => (acc.select t.ref).abandon.closeTask) s
  let mine := fun (x : SavedTask) => x.task.id.queue == q && x.task.id.seq == seq
  (s1.saved.filter mine).foldl (fun acc x => (acc.returnSaved x).freeLog x.task.releaser)
    { s1 with saved := s1.saved.filter fun x => !mine x }

/-- The node's completion is recorded, or waits for the DECIDE of its speculation (R318). -/
def State.settleNode (s : State) (q seq status : Nat) : State :=
  match (s.nodeAt q seq).bind (·.spec) with
  | some _ => s.onNode q seq fun n => { n with state := .completing status }
  | none => s.recordCompletion q seq status

/-- A successor completes as squashed (R319); one that has not been accepted yet does so at its acceptance. -/
def State.squash (s : State) (q seq : Nat) : State :=
  match s.nodeAt q seq with
  | some n =>
    let s1 := s.dropBuffer n.buffer
    let s2 := (s1.onNode q seq fun x => { x with spec := none, buffer := [] }).stopNode q seq
    s2.recordCompletion q seq 4
  | none =>
    let x := s.queue q
    s.setQueue q { x with backlog := x.backlog.map fun a => if a.seq = seq then { a with squash := true, spec := none } else a }

/-- The sequence number after another. -/
def nextSeq (seq : Nat) : Nat := (seq + 1) % 2 ^ 32

/-- The speculations of a node that has completed are squashed with both successors, then its completion is settled, each
of `fuel` levels. -/
def State.completeNode (s : State) (q seq status : Nat) : State :=
  let open_ := s.specs.filter (·.of q seq)
  let waits := ((s.nodeAt q seq).bind (·.spec)).isSome
  if waits then s.settleNode q seq status
  else
    let s1 := { s with specs := s.specs.filter fun x => !x.of q seq }
    let s2 := open_.foldl (fun (acc : State) x => (acc.squash x.target x.first).squash x.target (nextSeq x.first)) s1
    s2.settleNode q seq status

/-- A buffered effect of the winner is released (R319). -/
def State.releaseBuffered (s : State) (n : Node) : List (Nat × TaskRef × HoldItem) → State
  | [] => s
  | (tile, r, i) :: is =>
    (s.releaseItem ⟨n.queue, n.seq, n.slot, tile, n.func, n.detlvl, r.lcore, r.part⟩ i).releaseBuffered n is

/-- A successor wins: its buffered effects are released in held order, and it goes on unbuffered. -/
def State.win (s : State) (q seq : Nat) : State :=
  match s.nodeAt q seq with
  | some n =>
    let s1 := (s.onNode q seq fun x => { x with spec := none, buffer := [] }).releaseBuffered n n.buffer
    match n.state with
    | .completing status => s1.completeNode q seq status
    | _ => s1
  | none =>
    let x := s.queue q
    s.setQueue q { x with backlog := x.backlog.map fun a => if a.seq = seq then { a with spec := none } else a }

/-- DECIDE_RELEASE (R319). -/
def State.decideSpec (s : State) (q seq k : Nat) (second : Bool) : State :=
  match s.specs.find? fun x => x.of q seq && x.k == k with
  | none => s
  | some x =>
    let s1 := { s with specs := s.specs.erase x }
    let (winner, loser) := if second then (nextSeq x.first, x.first) else (x.first, nextSeq x.first)
    (s1.squash x.target loser).win x.target winner

/-! ### Queues (R299, R300, R405) -/

def Queue.cfg (x : Queue) (hi lo : Nat) : Nat := bitsOf x.qcfg.toNat hi lo
def Queue.lsize (x : Queue) : Nat := x.cfg 22 19
def Queue.func (x : Queue) : Nat := x.cfg 26 23
def Queue.devFed (x : Queue) : Bool := x.qcfg.getLsbD 28
def Queue.enabled (x : Queue) : Bool := x.qcfg.getLsbD 27 && x.on
/-- Entries the queue may occupy. -/
def Queue.thresh (x : Queue) : Nat := if x.cfg 39 32 = 0 then 256 else x.cfg 39 32
def State.standQueue (s : State) (q : Nat) : Bool := s.dev.mdq.getLsbD q

/-- QSTAT.ENTR. -/
def State.entries (s : State) (q : Nat) : Nat := (s.nodes.filter fun n => n.queue = q ∧ n.entry).length

/-- The queue takes its packets from its backlog: device-fed, or a stand queue away from position 0 (R406). -/
def State.fromBacklog (s : State) (q : Nat) : Bool :=
  (s.queue q).devFed || (s.standQueue q && s.position.1 != 0)

/-! ### Predecessors (R303) -/

/-- The sequence number that PSEQ names in a queue. -/
def reconstruct (tail pseq : Nat) : Nat :=
  let back := (tail + 2 ^ 26 - pseq) % 2 ^ 26
  if tail < back then pseq else tail - back

/-- The predecessors of a packet: queue and sequence number, and whether it is stale. -/
def State.packetPreds (s : State) (p : List Byte) : List (Nat × Nat × Bool) :=
  (List.range (Nat.min 4 (packetField p 0x20 30 28))).map fun k =>
    let w := natOfBytes ((p.drop (0x40 + 4 * k)).take 4)
    let x := s.queue (w / 2 ^ 26)
    let tail := x.qtail.toNat
    let seq := reconstruct tail (w % 2 ^ 26)
    (w / 2 ^ 26, seq, decide (seq + 2 ^ x.lsize < tail))

/-- The status with which a predecessor has completed; one that is recorded no more completed as done. -/
def State.predStatus (s : State) (q seq : Nat) : Option Nat :=
  match s.nodeAt q seq with
  | some n => match n.state with
    | .completed st => some st
    | _ => none
  | none => if ((s.queue q).qtail.toNat + 2 ^ 32 - 1 - seq) % 2 ^ 32 < 2 ^ 31 ∧ seq < (s.queue q).qtail.toNat then some 0 else none

/-! ### The checks of a packet (R303) -/

/-- PERM is a permutation of 0 to ND − 1, zero above. -/
def permOk (p : List Byte) : Bool :=
  let nd := packetND p
  (List.range nd).all (fun d => (List.range nd).any fun j => packetDim p j == d)
    && (List.range 6).all fun j => j < nd || packetDim p j == 0

/-- Cause 0x01: a reserved field, ND, PERM, PCNT or STAND. -/
def packetMalformed (p : List Byte) : Bool :=
  let nd := packetND p
  let pcnt := packetField p 0x20 30 28
  packetField p 0x18 63 63 != 0 || nd == 0 || decide (6 < nd)
    || (List.range 6).any (fun d => decide (nd ≤ d) && packetField p 0x18 (10 * d + 9) (10 * d) != 0)
    || !permOk p || decide (4 < pcnt) || decide (4 < packetStand p) || packetField p 0x38 63 32 != 0
    || (List.range 4).any (fun k => decide (pcnt ≤ k) && ((p.drop (0x40 + 4 * k)).take 4).any (· != 0))
    || (p.drop 0x58).any (· != 0)

/-- The packet's window meets a live one with its seed (R325). -/
def State.windowMeets (s : State) (p : List Byte) : Bool :=
  let lo := packetField p 0x30 63 0
  let n := packetTiles p * packetField p 0x38 31 0
  n != 0 && s.live.any fun w => w.seed == BitVec.ofNat 64 (packetField p 0x28 63 0)
    && decide (lo < w.first + w.count ∧ w.first < lo + n)

/-- Oversize stand: the largest slice asks more of a core than it has (R275). -/
def standOversize (p : List Byte) (k : Kernel) : Bool :=
  let m := (packetTiles p + 191) / 192
  packetStand p != 0 && (decide (16 < m) || decide (160 < m * k.gran) || (decide (1 < m) && (k.abind != 0 || k.nbind != 0)))

/-- The launch cause of a packet of a queue, if it fails a check. -/
def State.packetCause (s : State) (q : Nat) (p : List Byte) (busy : Bool) : Option Nat :=
  let x := s.queue q
  let h := BitVec.ofNat 64 (packetField p 0 63 0)
  if packetMalformed p then some 1
  else match (s.kernelAt h).filter fun k => k.handle.toNat / 2 ^ 60 == x.func with
    | none => some 2
    | some k =>
      if ¬([packetField p 0x08 31 0, packetField p 0x08 63 32, packetField p 0x10 31 0].all k.entryOk ∧ k.handlerOk) then some 3
      else if 2 ^ 32 ≤ packetTiles p then some 4
      else if 2 ^ 64 < packetField p 0x30 63 0 + packetTiles p * packetField p 0x38 31 0 then some 5
      else if s.windowMeets p && x.qcfg.getLsbD 29 then some 6
      else if (s.packetPreds p).any (·.2.2) then some 7
      else if standOversize p k then some 8
      else if busy then some 0x0A
      else if packetStand p == 4 && !s.standQueue q then some 0x0C
      else none

/-! ### Acceptance (R300, R303, R315) -/

/-- The node of a packet (R302, R311, R322). -/
def State.makeNode (s : State) (q seq : Nat) (p : List Byte) (spec : Option (Nat × Nat × Nat)) : Node :=
  let x := s.queue q
  let n : Node := {
    queue := q, seq, slot := seq % 2 ^ x.lsize, func := x.func, packet := p, state := .accepted, entry := false
    detlvl := Nat.max (packetDet p) (x.cfg 31 30), preds := (s.packetPreds p).map fun y => (y.1, y.2.1)
    trigger := false, started := [], left := [], clusters := [], dies := [], device := 0, fault := none, failed := false
    frozen := false, degr := 0, ubrst := 0, repl := 0, spec, buffer := [] }
  if packetMalformed p ∨ 2 ^ 32 ≤ packetTiles p then n
  else
    let cores := (List.range 192).filter fun l => n.sliceSize l ≠ 0
    let clusters := (cores.map (· / 12)).dedup
    let dies := (clusters.map (· / 8)).dedup
    { n with
      left := cores.foldl (fun c l => setCounter c l (n.sliceSize l)) []
      clusters := clusters.foldl (fun c i => setCounter c i (cores.filter fun l => l / 12 = i).length) []
      dies := dies.foldl (fun c i => setCounter c i (clusters.filter fun k => k / 8 = i).length) []
      device := dies.length }

/-- Nodes that completed so long ago that no packet can name them any more are forgotten. -/
def State.forgetNodes (s : State) (q : Nat) : State :=
  let tail := (s.queue q).qtail.toNat
  { s with nodes := s.nodes.filter fun n => match n.state with
    | .completed _ => n.queue != q || decide ((tail + 2 ^ 32 - 1 - n.seq) % 2 ^ 32 < 2 ^ 15)
    | _ => true }

/-- The queue's sequence number goes on, and its backlog loses the packet; device 0 forwards a stand packet (R406). -/
def State.advance (s : State) (q seq : Nat) (p : List Byte) : State :=
  let x := s.queue q
  let s1 := s.setQueue q { x with
    qtail := x.qtail + 1, stop := false, tried := none, backlog := x.backlog.filter (·.seq ≠ seq) }
  let s2 := s1.forgetNodes q
  if s.standQueue q && s.position.1 == 0 then s2.sendAll (.packet q seq p) else s2

/-- A packet completes at its acceptance with a status. -/
def State.acceptAs (s : State) (q seq : Nat) (p : List Byte) (spec : Option (Nat × Nat × Nat)) (status cause : Nat) : State :=
  let n := s.makeNode q seq p spec
  let f := if status = 2 then some (FaultInfo.mk s.dcc 0 0 cause 0) else none
  let s1 := s.advance q seq p
  State.settleNode { s1 with nodes := s1.nodes ++ [{ n with fault := f }] } q seq status

/-- A packet is dropped at ingest: its queue counts it (R315). -/
def State.countDrop (s : State) (q : Nat) : State :=
  let x := s.queue q
  s.setQueue q { x with drops := x.drops + 1 }

/-- A packet takes an entry and its window (R315, R325). -/
def State.acceptPacket (s : State) (q seq : Nat) (p : List Byte) (spec : Option (Nat × Nat × Nat)) : State :=
  let n := s.makeNode q seq p spec
  let draws := packetField p 0x38 31 0
  let s1 := s.advance q seq p
  { s1 with
    nodes := s1.nodes ++ [{ n with entry := true, degr := if s.windowMeets p then 16 else 0 }]
    live := if draws = 0 then s1.live else
      s1.live ++ [⟨q, seq, BitVec.ofNat 64 (packetField p 0x28 63 0), packetField p 0x30 63 0, packetTiles p * draws⟩] }

/-- SHED of a packet. -/
def packetShed (p : List Byte) : Nat := packetField p 0x20 24 22

/-- The accepted packet of a queue that is not yet ready and that ingest would shed first. -/
def State.shedVictim (s : State) (q : Nat) : Option Node :=
  let tail := (s.queue q).qtail.toNat
  let age := fun (n : Node) => (tail + 2 ^ 32 - n.seq) % 2 ^ 32
  (s.nodes.filter fun n => n.queue = q ∧ n.entry ∧ n.state = .accepted).foldl (fun acc n => match acc with
    | none => some n
    | some m => if packetShed m.packet < packetShed n.packet ∨
        (packetShed m.packet = packetShed n.packet ∧ age n < age m) then some n else acc) none

/-- Acceptance waits with STOP (R315). -/
def State.stopQueue (s : State) (q : Nat) (p : List Byte) : State :=
  let x := s.queue q
  s.setQueue q { x with stop := true, tried := some p }

/-- Step 3 of R315: an entry, a shed, or STOP; with whether the queue goes on. -/
def State.takeEntry (s : State) (q seq : Nat) (p : List Byte) (spec : Option (Nat × Nat × Nat)) : State × Bool :=
  if s.entries q < (s.queue q).thresh then (s.acceptPacket q seq p spec, true)
  else
    let victim := (s.shedVictim q).filter fun n => packetShed p < packetShed n.packet
    match victim with
    | some n =>
      let s1 := (s.onNode q n.seq fun x => { x with entry := false }).countDrop q
      ((s1.completeNode q n.seq 3).acceptPacket q seq p spec, true)
    | none =>
      if packetShed p = 0 then (s.stopQueue q p, false)
      else ((s.acceptAs q seq p spec 3 0).countDrop q, true)

/-- PACKET_ACCEPT of a packet's bytes, or of a slot that cannot be read (R315, R329). -/
def State.accept (s : State) (q seq : Nat) (bytes : Option (List Byte)) (a : Option Appended) : State × Bool :=
  let spec := a.bind (·.spec)
  match bytes with
  | none => (s.acceptAs q seq (List.replicate 128 0) spec 2 0x0B, true)
  | some p =>
    if a.any (·.squash) then (s.acceptAs q seq p none 4 0, true)
    else match s.packetCause q p (a.any (·.busy)) with
      | some cause => (s.acceptAs q seq p spec 2 cause, true)
      | none =>
        if packetField p 0x38 31 0 ≠ 0 ∧ 64 ≤ s.live.length then (s.stopQueue q p, false)
        else s.takeEntry q seq p spec

/-- Where the packet at TAIL of a host-fed queue lies, in the context of the queue's function (R299, R300). -/
def State.tailAddress (s : State) (q : Nat) : Option Nat :=
  let x := s.queue q
  s.deviceAddress x.func ((x.qbase.toNat % 2 ^ 48 / 128 * 128 + 128 * (x.qtail.toNat % 2 ^ x.lsize)) % 2 ^ 48) false

/-- The packet at TAIL of a queue that accepts packets: its bytes, if they can be read, and its place in the backlog. -/
def State.atTail (s : State) (q : Nat) : Option (Option (List Byte) × Option Appended) :=
  let x := s.queue q
  let seq := x.qtail.toNat
  if !x.enabled || x.frozen || s.pkg.state == 2 then none
  else if s.fromBacklog q then (x.backlog.find? (·.seq = seq)).map fun a => (some a.bytes, some a)
  else if x.qtail = x.seen then none
  else match x.tried with
    | some p => some (some p, none)
    | none => some ((s.tailAddress q).map fun pa => s.mem.readBytes pa 128, none)

/-- The first attempt at a packet reads it from the ring (R300, R315), by a request where the ring lies in host memory. -/
def State.readRing (s : State) (q : Nat) : State :=
  let x := s.queue q
  if s.fromBacklog q || x.tried.isSome then s
  else (s.tailAddress q).elim s fun pa => s.bus x.func false ((List.range 128).map (pa + ·))

/-- The packets of a queue are accepted in sequence order, at most `fuel` of them; with whether any was. -/
def State.acceptQueue (s : State) (q : Nat) : (fuel : Nat) → State × Bool
  | 0 => (s, false)
  | fuel + 1 =>
    match s.atTail q with
    | none => (s, false)
    | some (bytes, a) =>
      let r := (s.readRing q).accept q (s.queue q).qtail.toNat bytes a
      if r.2 then ((r.1.acceptQueue q fuel).1, true) else r

/-- The packets of every queue; with whether any was accepted. -/
def State.acceptAll (s : State) : State × Bool :=
  (s.queues.map (·.1)).foldl (fun acc q =>
    let r := acc.1.acceptQueue q 32768
    (r.1, acc.2 || r.2)) (s, false)

/-! ### Readiness and blight (R306, R310) -/

/-- The stands of a node that becomes ready, with the messages that waited for them. -/
def State.formStands (s : State) (n : Node) : State :=
  State.deliverEarly { s with stands := s.stands ++ s.newStands n }

/-- Whether an accepted node is cancelled, takes its trigger, or becomes ready. -/
def State.advanceNode (s : State) (n : Node) : Option State :=
  let ps := n.preds.map fun p => s.predStatus p.1 p.2
  let x := s.queue n.queue
  if n.state ≠ .accepted then none
  else if ps.any fun p => p.any (· ≠ 0) then some (s.completeNode n.queue n.seq 1)
  else if x.frozen then none
  else if packetField n.packet 0x20 31 31 = 1 ∧ !n.trigger then
    if x.trig = 0 then none
    else some ((s.setQueue n.queue { x with trig := x.trig - 1 }).onNode n.queue n.seq fun y => { y with trigger := true })
  else if ps.all fun p => p == some 0 then
    some ((s.onNode n.queue n.seq fun y => { y with state := .ready s.dcc }).formStands n)
  else none

/-- One order of nodes: by queue, then by sequence number. -/
def nodeBefore (a b : Node) : Bool := decide (a.queue < b.queue ∨ (a.queue = b.queue ∧ a.seq ≤ b.seq))

/-- Acceptance, blight, triggers and readiness until nothing changes, at most `fuel` changes. -/
def State.settleQueues (s : State) : (fuel : Nat) → State
  | 0 => s
  | fuel + 1 =>
    let r := s.acceptAll
    if r.2 then r.1.settleQueues fuel
    else match (r.1.nodes.mergeSort nodeBefore).findSome? r.1.advanceNode with
      | some t => t.settleQueues fuel
      | none => r.1

end Sys2Proof.Machine
end

