-- ==== Sys2Proof/Machine/Decision.lean ====
section
/-! DEFINITION. The decision tick: package events in their order, then acceptance, blight and readiness
(spec/12_die_scheduling.md R299 to R301, R310, R314, R317 to R320), and the interrupt of an event ring (R314, R394). -/

namespace Sys2Proof.Machine

/-- The place of an event among those of its decision tick (R301). -/
def eventRank : EventKind → Nat
  | .completion .. => 1
  | .faultedEnd .. => 1
  | .ringRegs .. => 1
  | .thaw _ => 2
  | .trigger _ => 3
  | .launch .. => 4
  | .spec .. => 4
  | .decide .. => 4
  | .record .. => 4
  | .cord .. => 4
  | .doorbell .. => 5
  | .enable .. => 5
  | .adopt .. => 6
  | .deviceFault _ => 6

/-- The order of two events of one decision tick. -/
def eventBefore (a b : PkgEvent) : Bool :=
  let x := eventRank a.kind
  let y := eventRank b.kind
  decide (x < y ∨ (x = y ∧ (a.queue < b.queue ∨ (a.queue = b.queue ∧ a.seq ≤ b.seq))))

/-! ### Releases (R317, R318) -/

/-- DET becomes the larger of DET and the issuing task's DETLVL. -/
def withDet (p : List Byte) (det : Nat) : List Byte :=
  let d := Nat.max (packetDet p) det
  p.set 0x22 ((p.getD 0x22 0 &&& 0xF3) ||| BitVec.ofNat 8 (4 * d))

/-- LAUNCH and SPEC may append to a queue. -/
def State.appendable (s : State) (q : Nat) : Bool := (s.queue q).devFed && (s.queue q).enabled && !s.standQueue q

/-- A packet aimed at a queue that takes none: only its record, in the ring of the issuing node's function. -/
def State.launchRefused (s : State) (q func : Nat) : State :=
  let body := completionBody 2 q 0 (s.queue q).qtail.toNat (some ⟨s.dcc, 0, 0, 9, 0⟩) (s.degrNow 0) 0 0
  s.putRecord func (s.record body) none

/-- Appends a packet to a device-fed queue as its next sequence number. -/
def State.append (s : State) (q : Nat) (p : List Byte) (det : Nat) (spec : Option (Nat × Nat × Nat)) (busy : Bool) : State :=
  let x := s.queue q
  s.setQueue q { x with backlog := x.backlog ++
    [⟨(x.qtail.toNat + x.backlog.length) % 2 ^ 32, withDet p det, spec, busy, false⟩] }

/-- LAUNCH_RELEASE of a LAUNCH. -/
def State.releaseLaunch (s : State) (q : Nat) (p : List Byte) (det func : Nat) : State :=
  if s.appendable q then s.append q p det none false else s.launchRefused q func

/-- LAUNCH_RELEASE of a SPEC: both packets, and the speculation; one whose node has completed already is squashed. -/
def State.releaseSpec (s : State) (q k : Nat) (p0 p1 : List Byte) (iq iseq det func die : Nat) : State :=
  if !s.appendable q then (s.launchRefused q func).launchRefused q func
  else if s.specs.any fun x => x.of iq iseq && x.k == k then (s.append q p0 det none true).append q p1 det none true
  else
    let x := s.queue q
    let first := (x.qtail.toNat + x.backlog.length) % 2 ^ 32
    let link := some (iq, iseq, k)
    let s1 := (s.append q p0 det link false).append q p1 det link false
    match s.predStatus iq iseq with
    | some _ => (s1.squash q first).squash q (nextSeq first)
    | none => { s1 with specs := s1.specs ++ [⟨iq, iseq, k, q, first, die⟩] }

/-! ### Events -/

/-- The first end as faulted of a node freezes its queue (R310). -/
def State.freezeFor (s : State) (q seq : Nat) : State :=
  match s.nodeAt q seq with
  | none => s
  | some n =>
    if n.frozen then s
    else
      let x := s.queue q
      (s.setQueue q { x with frozen := true }).onNode q seq fun y => { y with frozen := true }

/-- A node's counters have reached zero (R311). -/
def State.nodeDone (s : State) (q seq : Nat) : State :=
  match s.nodeAt q seq with
  | none => s
  | some n => match n.state with
    | .ready _ => s.completeNode q seq (if n.failed then 2 else 0)
    | _ => s

/-- A ring register takes effect, and waiting records that now fit are written (R314, R329). -/
def State.applyRing (s : State) (fn reg : Nat) (val : W64) : State :=
  let r := s.fn fn
  let ring := match reg with
    | 0 => (r.ring.1, r.ring.2.1, val.setWidth 32)
    | 1 => (val, r.ring.2.1, r.ring.2.2)
    | _ => (r.ring.1, val, r.ring.2.2)
  let s1 := s.setFn fn { r with ring, stuck := r.stuck && reg != 1 }
  s1.drainRecords fn r.waiting.length

/-- A change of a queue. -/
def State.onQueue (s : State) (q : Nat) (f : Queue → Queue) : State := s.setQueue q (f (s.queue q))

/-- One package event on its decision tick. -/
def State.applyEvent (s : State) (e : PkgEvent) : State :=
  match e.kind with
  | .completion q seq => s.nodeDone q seq
  | .faultedEnd q seq => s.freezeFor q seq
  | .ringRegs fn reg val => s.applyRing fn reg val
  | .thaw q => s.onQueue q fun x => { x with frozen := false }
  | .trigger q => s.onQueue q fun x => { x with trig := Nat.min (x.trig + 1) 65535 }
  | .launch q p det func => s.releaseLaunch q p det func
  | .spec q k p0 p1 iq iseq det func die => s.releaseSpec q k p0 p1 iq iseq det func die
  | .decide q seq k second => s.decideSpec q seq k second
  | .doorbell q head => s.onQueue q fun x => { x with seen := head }
  | .enable q _ => s.onQueue q fun x => { x with on := x.qcfg.getLsbD 27 }
  | .record fn body => s.putRecord fn (s.record body) none
  | .cord gid image => s.applyGauge gid image
  | .adopt d cause fcl => s.adopt d cause fcl
  | .deviceFault cause => s.deviceFault cause

/-- The earliest decision tick that has come. -/
def State.decisionTick (s : State) : Option Nat := ((s.events.map (·.tick)).filter (· ≤ s.dcc)).min?

/-- The unstarted tiles of nodes for which a faulted end has been applied are cancelled (R301, R310). -/
def State.cancelFailed (s : State) : State :=
  (s.nodes.filter (·.frozen)).foldl (fun acc n => acc.counted n.queue n.seq Node.cancelUnstarted) s

/-- Everything that the events of a decision tick decide, as of that tick. -/
def State.decideTick (s : State) (t : Nat) : State :=
  let now := (s.events.filter (·.tick = t)).mergeSort eventBefore
  let s1 := now.foldl State.applyEvent { s with dcc := t, events := s.events.filter (·.tick ≠ t) }
  s1.cancelFailed.settleQueues 2097152

/-- DECISION_TICK_APPLY (R301); the model may take it after its tick, as of which everything is decided (log 3). -/
def execDecisionTickApply (s : State) : Out :=
  .next (match s.decisionTick with
    | none => s
    | some t => { s.decideTick t with dcc := s.dcc })

/-! ### The interrupt of a ring (R314, R394) -/

/-- The interrupt of a function's ring is due. -/
def State.interruptDue (s : State) (fn : Nat) : Bool :=
  let r := s.fn fn
  let cfg := r.ring.2.1.toNat
  cfg.testBit 5 && r.since != 0 && (decide (Nat.max 1 (bitsOf cfg 31 16) ≤ r.since)
    || (bitsOf cfg 63 32 != 0 && r.first.any fun t => decide (t + bitsOf cfg 63 32 ≤ s.dcc)))

/-- EVENT_RING_INTERRUPT. -/
def execEventRingInterrupt (fn : Nat) (s : State) : Out :=
  .next (if s.interruptDue fn then
      let r := s.fn fn
      (s.setFn fn { r with since := 0, first := none }).raiseMsix fn 0
    else s)

end Sys2Proof.Machine
end

