-- ==== Sys2Proof/Machine/Die.lean ====
section
/-! DEFINITION. The controllers' steps: read-modify-writes (spec/13_die_memory.md R344, R346, spec/06_task_traps_bolts.md
R193), walks and cached translations (R337, R338), plot changes (R330, R333), scrubbing (R350) and budgets (R356). -/

namespace Sys2Proof.Machine

/-! ### Read-modify-writes (R124 to R126, R193, R346) -/

/-- The logged reply of a task's RMW. -/
def State.logged (s : State) (t : Task) (num : Nat) : Option Reply :=
  s.replyLog.find? fun x => x.queue == t.id.queue && x.packet == t.id.packet && x.tile == t.id.tile && x.num == num

/-- Logs a reply: entries 0 to 1,023 and that of the most recent RMW. -/
def State.logReply (s : State) (r : Reply) : State :=
  let mine := fun (x : Reply) => x.queue == r.queue && x.packet == r.packet && x.tile == r.tile
  { s with replyLog := s.replyLog.filter (fun x => !(mine x && decide (1024 ≤ x.num))) ++ [r] }

/-- The operation on memory: the old value, whether CAS found what it compared, and the bytes stored. -/
def State.rmwEffect (s : State) (r : Rmw) : Nat × Bool × List Host.Cell :=
  let w := 8 * r.width
  let old := natOfBytes (s.mem.readBytes r.addr r.width)
  let b := r.b.toNat % 2 ^ w
  let new := rmwValue r.aop w r.signed old b (r.c.toNat % 2 ^ w)
  let ok := decide (old = b)
  (old, ok, if r.aop = 8 && !ok then [] else cellsAt r.addr (bytesOfNat r.width new))

/-- The reply reaches the waiting task: CAS writes its predicate, AMO its register, and the bundle completes. -/
def State.deliverReply (s : State) (r : Rmw) (old : W64) (ok : Bool) : State :=
  let s1 := s.select r.who
  if !(s1.task.is r.who) || s1.task.bolt.rmwNo != r.num || !(s1.task.flow.wait.any fun w => w.kind == .rmw) then s
  else
    let value := extended (intOf (8 * r.width) r.signed (old.toNat % 2 ^ (8 * r.width)))
    let s2 := s1.put r.lat (if r.aop = 8 then .p r.dest ok else .g r.dest value)
    let s3 := s2.setBolt { s2.task.bolt with
      rmwNo := r.num + 1, restartable := s2.task.bolt.restartable && decide (r.num < 1024) }
    State.completeWait (s3.setFlow { s3.task.flow with owns := some .rmw })

/-- The controller serves an RMW: from the log, or by its operation. -/
def State.serveRmw (s : State) (r : Rmw) : State :=
  let s0 := { s with rmwQ := s.rmwQ.erase r }
  match s0.taskAt r.who with
  | none => s0
  | some t =>
    match s0.logged t r.num with
    | some x => s0.deliverReply r x.old x.ok
    | none =>
      let (old, ok, cells) := s0.rmwEffect r
      let old := BitVec.ofNat 64 old
      ((s0.show cells).logReply ⟨t.id.queue, t.id.packet, t.id.tile, r.num, old, ok⟩).deliverReply r old ok

/-- RMW_SERVICE of a 64-byte line, in order of arrival. -/
def execRmwService (line : Nat) (s : State) : Out :=
  .next (match s.rmwQ.find? (·.line = line) with
    | none => s
    | some r => s.serveRmw r)

/-! ### Translations (R337, R338) -/

/-- A cluster keeps a translation; the oldest of 4,096 goes. -/
def State.cacheLeaf (s : State) (c fn va : Nat) (x : Leaf) : State :=
  let mine := s.tlb.filter fun e => e.cluster = c
  let kept := match mine.head? with
    | some e => if 4096 ≤ mine.length then s.tlb.erase e else s.tlb
    | none => s.tlb
  { s with tlb := kept ++ [⟨c, fn, va - va % x.size, x.size, x.pa, x.wr⟩] }

/-- TRANSLATION_WALK: a walk that succeeds leaves its translation in the cluster's cache; a failing one leaves nothing,
its reason being the access's own (R120). -/
def execTranslationWalk (c fn : Nat) (va : BitVec 48) (wr : Bool) (s : State) : Out :=
  let a := va.toNat
  .next (if s.tlb.any fun x => x.cluster == c && x.fn == fn && decide (x.va ≤ a ∧ a < x.va + x.size) then s
    else match s.walk fn a wr with
      | .ok x => s.cacheLeaf c fn a x
      | .error _ => s)

/-- A cached translation is in the scope of a TINV. -/
def Xlate.inScope (w : W64) (x : Xlate) : Bool :=
  let fn := bitsOf w.toNat 61 58
  let va := bitsOf w.toNat 47 16 * 65536
  match bitsOf w.toNat 63 62 with
  | 0 => x.fn == fn && decide (x.va ≤ va ∧ va < x.va + x.size)
  | 1 => x.fn == fn
  | _ => true

/-- The keys that held stores and moves write. -/
def heldKeys (l : List HoldItem) : List Nat :=
  l.flatMap fun i => match i with
    | .store cells => cells.map (·.1)
    | .moved cells => cells.map (·.1)
    | _ => []

/-- The writes of an agent of a function on their way, with the function: held by a task or its interrupted bolt, by a
helper, by a pre-empted task or in a speculation hold, or read-modify-writes at a controller. -/
def State.underWay (s : State) : List (Nat × List Nat) :=
  (s.tasks.filter (·.id.live)).map (fun t =>
      (t.id.func, heldKeys t.bolt.work.hold ++ t.bolt.outer.elim [] (heldKeys ·.hold)))
    ++ s.helpers.map (fun h => (h.func, heldKeys h.work.hold))
    ++ s.nodes.map (fun n => (n.func, heldKeys (n.buffer.map (·.2.2))))
    ++ s.rmwQ.filterMap fun r => (s.taskAt r.who).map fun t => (t.id.func, [r.addr])

/-- No access that used a translation in the scope of a TINV is still on its way (R338). -/
def State.tinvReady (s : State) (w : W64) : Bool :=
  (s.tlb.filter (Xlate.inScope w)).all fun x => s.underWay.all fun a =>
    a.1 != x.fn || a.2.all fun k => !decide (x.pa ≤ k ∧ k < x.pa + x.size)

/-- The TINV in progress can end. -/
def State.tinvDue (s : State) : Bool := s.dev.tinv.any s.tinvReady

/-- TINV_COMPLETE: every cached translation in scope is gone, and no access that used one is on its way (R338). -/
def execTinvComplete (s : State) : Out :=
  .next (match s.dev.tinv with
    | none => s
    | some w =>
      if s.tinvReady w then
        { s with tlb := s.tlb.filter fun x => !x.inScope w, dev := { s.dev with tinv := none } }
      else s)

/-! ### Plot changes (R330, R333) -/

/-- The selected task waits for a seal that holds a transfer of a plot. -/
def State.transfers (s : State) (plot : Nat) : Bool :=
  s.task.bolt.work.hold.any fun i => match i with
    | .pxfer p _ _ => p == plot
    | _ => false

/-- PXFER_RELEASE: a seal that waited for the plot's writes to drain completes, which changes the plot (R333). -/
def execPxferRelease (plot : Nat) (s : State) : Out :=
  .next (s.onFirst (fun t => t.transfers plot && t.sealDue) State.completeSeal)

/-- No skidder command and no chain of any core names a plot, and no write to it is on its way to its controller. -/
def State.drainedByAll (s : State) (plot : Nat) : Bool :=
  (s.cores.all fun (l, c) => !(c.sq.any fun x => !x.done && s.skNames x (l / 12) plot))
    && !(s.rmwQ.any fun r => r.addr / 2 ^ 21 == plot)
    && s.dies.all fun (_, d) => !(d.chains.any fun c =>
      s.chainHolds c.lcore plot c || c.pend.any fun p => s.chainHolds p.2.2.1 plot c)

/-- The PLSET in progress can be applied. -/
def State.plotDrained (s : State) : Bool := s.dev.plreq.any fun w => s.drainedByAll (bitsOf w.toNat 49 32)

def adBase (v : W64) : Nat := bitsOf v.toNat 17 0

/-- The plots of a run get a state. -/
def State.setRun (s : State) (base state : Nat) : State :=
  (List.range 1024).foldl (fun acc i => acc.setPlot (base + i) state 0) s

def State.setAdplot (s : State) (v : W64) : State := s.setPkg { s.pkg with adplot := v }

/-- The first plot of the run that a change of ADPLOT sets aside or gives back. -/
def State.adRun (s : State) (v : W64) : Nat := if v.getLsbD 31 then adBase v else adBase s.pkg.adplot

/-- The change of ADPLOT in progress can be applied: its plots have drained as those of a PLSET (R327, R367). -/
def State.runDrained (s : State) : Bool :=
  s.dev.adreq.any fun v => (List.range 1024).all fun i => s.drainedByAll (s.adRun v + i)

/-- A write that clears ADPLOT.EN is refused: STATE is not 0, or a logical core is time-shared (R367). -/
def State.keepsRun (s : State) : Bool := s.pkg.state != 0 || (List.range 192).any s.timeShared

def State.reject (s : State) : State := { s with dev := { s.dev with rej := true } }

/-- A change of ADPLOT takes effect; a run that has come into use meanwhile is not given back (log 34). -/
def State.applyAdplot (s : State) (v : W64) : State :=
  let s1 := { s with dev := { s.dev with adreq := none } }
  if v.getLsbD 31 then (s1.setRun (adBase v) 5).setAdplot v
  else if s.keepsRun then s1.reject
  else (s1.setRun (adBase s.pkg.adplot) 0).setAdplot v

/-- A change that waits for plots to drain can be applied. -/
def State.plsetDue (s : State) : Bool := s.plotDrained || s.runDrained

/-- PLSET_COMPLETE: a PLSET or a change of ADPLOT whose plots have drained (R330, R367). -/
def execPlsetComplete (s : State) : Out :=
  .next (if s.plotDrained then
      let w := (s.dev.plreq.getD 0).toNat
      let s1 := s.setPlot (bitsOf w 49 32) (bitsOf w 2 0) (bitsOf w 15 8)
      { s1 with dev := { s1.dev with plreq := none } }
    else if s.runDrained then s.applyAdplot (s.dev.adreq.getD 0)
    else s)

/-! ### Scrubbing and budgets (R350, R356) -/

/-- MEMORY_SCRUB of a 256-byte line: a corrected one is counted for its channel (R326, R350), and an uncorrectable one
makes its plot bad (R331). -/
def execMemoryScrub (line : Nat) (r : ScrubResult) (s : State) : Out :=
  .next (match r with
    | .clean => s
    | .corrected =>
      let ch := 32 * (line / 8192 % 2) + line % 32
      s.setPkg { s.pkg with corrected := sset (fun _ => 0) s.pkg.corrected ch (sget (fun _ => 0) s.pkg.corrected ch + 1) }
    | .uncorrectable => if 256 * line < 2 ^ 38 then s.markBad (256 * line / 2 ^ 21) else s)

/-- A new interval has begun. -/
def State.intervalDue (s : State) : Bool := s.dcc / 2200 != s.dev.interval

/-- BUDGET_INTERVAL. -/
def execBudgetInterval (s : State) : Out :=
  .next { s with
    clusters := (s.clusters.map (·.1)).foldl (fun (cs : Sparse Cluster) c =>
      sset Cluster.reset cs c { sget Cluster.reset cs c with used := 0 }) s.clusters
    dev := { s.dev with interval := s.dcc / 2200 } }

end Sys2Proof.Machine
end

