-- ==== Sys2Proof/Machine/Package.lean ====
section
/-! DEFINITION. The package's steps (spec/15_package.md R363 to R386; spec/17_fabric.md R420): links, failures, rails, the
heat store and leases, growth rings, checkpoints and power. -/

namespace Sys2Proof.Machine

/-! ### Lanes (R363, R364, R403) -/

/-- A flit's CRC has failed on a lane; failures count for 2^24 ticks. -/
def LaneGroup.crcFailure (x : LaneGroup) (lane now : Nat) : LaneGroup :=
  { x with
    crcf := x.crcf + 1
    same := x.same + 1
    fails := (lane, now) :: x.fails.filter fun f => decide (now < f.2 + 2 ^ 24) }

/-- A link-source error of the bolts whose traffic a flit carried: which of the candidates these are, the device alone
knows, and the choice is free (log 14). -/
def State.chargeTraffic (s : State) (who : List TaskRef) : State :=
  who.foldl (fun acc r =>
    if (Config.freeBits s.epoch (2 ^ 14 + 128 * r.lcore + r.part) 1).getLsbD 0 then acc.detect r .link 0 0 else acc) s

/-- Agents whose traffic may cross the die-to-die link: tasks, helpers and chains. -/
def State.linkUsers (s : State) : List TaskRef :=
  (s.tasks.filter (·.id.live)).map (·.ref) ++ s.helpers.map (fun h => ⟨h.lcore, 16 + h.which⟩)
    ++ (List.range 32).map fun i => ⟨96 * (i / 16), 18 + i % 16⟩

/-- DIE_LINK_FLIT_RECEIVE: a failing flit is sent again; the eighth failure of one flit in a row is a link-source error of
the bolts whose traffic it carried (R187). -/
def execDieLinkFlitReceive (g lane : Nat) (crcOk : Bool) (s : State) : Out :=
  let x := s.laneGroup (.group g)
  let y := x.crcFailure lane s.dcc
  .next (if x.state ≠ 0 then s
    else if crcOk then s.setLaneGroup (.group g) { x with same := 0 }
    else if y.same = 8 then (s.setLaneGroup (.group g) y).chargeTraffic s.linkUsers
    else s.setLaneGroup (.group g) y)

/-- A lane to which 16 CRC failures within 2^24 ticks are attributed. -/
def LaneGroup.worn (x : LaneGroup) (now : Nat) : Bool :=
  x.fails.any fun f => decide (16 ≤ (x.fails.filter fun g => g.1 = f.1 ∧ now < g.2 + 2 ^ 24).length)

/-- A lane of a group or port is to be spliced: it is worn, or the power-on training is not over (R363, R420). -/
def State.spliceDue (s : State) (k : LinkRef) : Bool :=
  let x := s.laneGroup k
  x.state == 0 && (x.worn s.dcc || decide (s.dev.bootstage < match k with | .group _ => 3 | .port _ => 5))

/-- LANE_SPLICE. -/
def execLaneSplice (k : LinkRef) (s : State) : Out := .next (if s.spliceDue k then s.spliceLane k else s)

/-- The retrain window of a group or port is over. -/
def State.retrainOver (s : State) (k : LinkRef) : Bool :=
  (s.laneGroup k).state == 1 && decide ((s.laneGroup k).retrained ≤ s.dcc)

/-- New flits that waited for a port go out, as far as it takes them (R402). -/
def State.portResume (s : State) (k : Nat) : State :=
  let p := s.port k
  p.wait.foldl (fun acc w => acc.portSend k w.1 w.2.1 w.2.2) (s.setPort k { p with wait := [] })

/-- SPLICE_RETRAIN_END. -/
def execSpliceRetrainEnd (k : LinkRef) (s : State) : Out :=
  .next (if s.retrainOver k then
      let s1 := s.setLaneGroup k { s.laneGroup k with state := 0 }
      match k with
      | .group _ => s1
      | .port p => s1.portResume p
    else s)

/-! ### Failures (R365, R368) -/

/-- DIE_COMPUTE_FAILURE. -/
def execDieComputeFailure (d : Nat) (cause : BitVec 4) (s : State) : Out :=
  .next (if s.dieFailed d then s else s.failDie d cause.toNat s.pkg.fcl)

/-- Main-memory plots of a die's shore (R326). -/
def shorePlots (d : Nat) : List Nat := (List.range 131072).filter fun p => p % 2 = d

/-- SHORE_LOSS. -/
def execShoreLoss (d : Nat) (s : State) : Out :=
  .next (if s.pkg.shore.getLsbD d then s
    else
      let s1 : State := s.setPkg { s.pkg with shore := s.pkg.shore ||| BitVec.twoPow 2 d, cause := 4 }
      ((shorePlots d).foldl State.markBad s1).event 0 0 (.deviceFault 4))

/-! ### Rails (R370 to R373) -/

def Rail.tgt (x : Rail) : BitVec 3 := lowerPoint x.req x.cap

def State.rail (s : State) (r : Nat) : Rail := s.pkg.rails.getD r .reset
def State.setRail (s : State) (r : Nat) (x : Rail) : State := s.setPkg { s.pkg with rails := s.pkg.rails.set r x }

/-- A conversion of a rail is due: one comes every 1,100 ticks (R370). -/
def State.sampleDue (s : State) (r : Nat) : Bool := s.dcc / 1100 != (s.rail r).sampled

/-- RAIL_CURRENT_SAMPLE: a reading, and the cap that the limiters set, which keeps the module within the power limit of its
sprint level (R370, R375). -/
def execRailCurrentSample (r : Nat) (amps : BitVec 10) (cap : BitVec 3) (s : State) : Out :=
  .next (if s.sampleDue r then
      State.flagCapped (s.setRail r { s.rail r with
        cur := amps, cap := lowerPoint cap (Config.limitPoint s.sprint r), sampled := s.dcc / 1100 })
    else s)

/-- A boundary has come: a step in progress ends, or one may begin. -/
def State.rampStepDue (s : State) (r : Nat) : Bool := s.dcc / 1100 != (s.rail r).checked

/-- The clocks of every core change with the matrix rail (R217). -/
def State.rerateAll (s : State) : State := (List.range 16).foldl (fun (acc : State) c => acc.rerate (12 * c)) s

/-- A rail after a step of it has begun or ended (R372). -/
def Rail.step (x : Rail) (boundary : Nat) : Rail :=
  if x.ramp then { x with opc := x.next, ramp := false }
  else if boundary = x.checked then x
  else
    let y := { x with checked := boundary }
    if x.opc = x.tgt then y
    else { y with ramp := true, next := if x.opc.toNat < x.tgt.toNat then x.opc + 1 else x.opc - 1 }

/-- RAIL_RAMP_STEP: a step of one point towards the target begins at a boundary, and changes OPC at its end; the matrix rail
gives the arrays their clock, which a lowering step lowers at its start (R217, R372). -/
def execRailRampStep (r : Nat) (s : State) : Out :=
  let s1 := s.setRail r ((s.rail r).step (s.dcc / 1100))
  .next (if r = 0 ∧ (s.rail r).drive ≠ (s1.rail r).drive then s1.rerateAll else s1)

/-! ### The heat store and leases (R374 to R379) -/

/-- An active lease ends with a notice to follow. -/
def State.endLease (s : State) (last : Nat) (t : Task) : Task :=
  if t.lease.lvl = 0 then t
  else { t with lease := { t.lease.ended last with
    pend := some (last, t.lease.lvl, s.pkg.melt.toNat, Nat.min t.lease.granted (s.dcc - t.lease.since)) } }

/-- Every active lease ends (R377). -/
def State.revokeAll (s : State) (last : Nat) : State := s.onTasks (s.endLease last)

/-- The refreeze interval after an update (R374). -/
def refreezes (was : Bool) (reading : BitVec 16) : Bool :=
  if 0xE667 ≤ reading.toNat then true else if reading.toNat < 0x4000 then false else was

/-- An update of MELT is due: one comes every 2,200,000 ticks. -/
def State.meltDue (s : State) : Bool := s.dcc / 2200000 != s.pkg.melted

/-- MELT after an update; a refreeze interval that ends is counted (R374, R382). -/
def Package.melting (x : Package) (reading : BitVec 16) (now : Nat) : Package :=
  let refz := refreezes x.refz reading
  { x with
    melt := reading, refz, melted := now / 2200000
    cycles := if x.refz && !refz then (x.service + now) :: x.cycles else x.cycles }

/-- MELT_UPDATE, with MELT_LIMIT_REVOKE. -/
def execMeltUpdate (reading : BitVec 16) (s : State) : Out :=
  let s1 := s.setPkg (s.pkg.melting reading s.dcc)
  .next (if !s.meltDue then s else if 0xF333 ≤ reading.toNat then s1.revokeAll 2 else s1)

/-- REM of a task's active lease has reached 0. -/
def State.leaseOver (s : State) (t : Task) : Bool := t.lease.lvl != 0 && decide (t.lease.granted ≤ s.dcc - t.lease.since)

/-- LEASE_EXPIRY. -/
def execLeaseExpiry (who : TaskRef) (s : State) : Out :=
  .next (s.onTask who fun t => if s.leaseOver t then s.endLease 1 t else t)

/-- Every rail has reached a point within the module's power limit. -/
def State.withinLimit (s : State) : Bool :=
  s.pkg.rails.zipIdx.all fun (x, r) => decide (x.opc.toNat ≤ (Config.limitPoint s.sprint r).toNat)

/-- LEASE_END_NOTICE (R377, R379). -/
def execLeaseEndNotice (who : TaskRef) (s : State) : Out :=
  .next (if s.withinLimit then
      s.onTask who fun t => match t.lease.pend with
        | none => t
        | some (cause, lvl, melt, ticks) => { t with
            lease := { t.lease with pend := none }
            flow := { t.flow with notices := t.flow.notices ++ [⟨7, syndPower cause 2 lvl melt ticks⟩] } }
    else s)

/-! ### Growth rings (R381, R382) -/

def growthReset : Growth := ⟨0, BitVec.allOnes 24, 0⟩

def State.growth (s : State) (r : GrowthReg) : Growth := ((s.pkg.growth.find? (·.1 = r)).map (·.2)).getD growthReset

/-- The limit of a wear source. -/
def growthLimit : GrowthReg → Int
  | .core _ _ => 20000
  | .link _ => 12
  | .mem _ => 2 ^ 20
  | .heat => 20000
  | .nand => 50000

/-- LIFE from METRIC and the growth of METRIC in `hours` times 10 hours; an eye margin falls. -/
def lifeOf (r : GrowthReg) (metric growth : Int) (hours : Nat) : BitVec 24 :=
  let falls := match r with | .link _ => true | _ => false
  let left : Int := if falls then metric - growthLimit r else growthLimit r - metric
  let loss : Int := if falls then -growth else growth
  if left ≤ 0 then 0
  else if loss ≤ 0 then BitVec.allOnes 24
  else BitVec.ofNat 24 (Nat.min (left * hours / loss).toNat (2 ^ 24 - 1))

/-- METRIC as its 24 bits hold it. -/
def metricOf (metric : Int) : BitVec 24 := BitVec.ofNat 24 (Nat.min metric.toNat (2 ^ 24 - 1))

/-- Refreeze intervals that have completed in the last 100 hours in service. -/
def Package.recentCycles (x : Package) (now : Nat) : Nat :=
  (x.cycles.filter fun t => decide (x.service + now < t + 792 * 10 ^ 12)).length

/-- What an update makes of a wear register: METRIC and its rate are measured, but GRHEAT counts the refreeze intervals that
the heat store has completed (R382). -/
def State.grown (s : State) (r : GrowthReg) (metric rate : Int) : Growth :=
  let slot := s.dcc / 2 ^ 35
  match r with
  | .heat => ⟨metricOf s.pkg.cycles.length, lifeOf r s.pkg.cycles.length (s.pkg.recentCycles s.dcc) 10, slot⟩
  | _ => ⟨metricOf metric, lifeOf r metric rate 1, slot⟩

/-- The wear registers (R381, R397). -/
def growthRegs : List GrowthReg :=
  (List.range 208).map (fun i => .core (i / 13) (i % 13)) ++ (List.range 24).map .link ++ (List.range 64).map .mem
    ++ [.heat, .nand]

/-- The source with the smallest LIFE, the first of them in the order of the registers. -/
def State.weakest (s : State) : GrowthReg :=
  growthRegs.foldl (fun best r => if (s.growth r).life.toNat < (s.growth best).life.toNat then r else best) (.core 0 0)

/-- An update of a wear register is due: one comes every 2^35 ticks. -/
def State.growthDue (s : State) (r : GrowthReg) : Bool := s.dcc / 2 ^ 35 != (s.growth r).slot

/-- GROWTH_RING_UPDATE, after which the health summary names the weakest source. -/
def execGrowthRingUpdate (r : GrowthReg) (metric rate : Int) (s : State) : Out :=
  let s1 := s.setPkg { s.pkg with growth := s.pkg.growth.filter (·.1 ≠ r) ++ [(r, s.grown r metric rate)] }
  .next (if s.growthDue r then s1.emit (.health s1.weakest) else s)

/-! ### Checkpoints (R385) -/

/-- The slot that does not hold the newest valid image. -/
def Package.olderSlot (x : Package) : Nat := if x.valid.getLsbD x.newest then 1 - x.newest else x.newest

/-- A save begins; the older slot holds no valid image from now on. -/
def State.startSave (s : State) : State :=
  let slot := s.pkg.olderSlot
  s.setPkg { s.pkg with ckstate := 1, ckslot := slot, valid := s.pkg.valid &&& ~~~ BitVec.twoPow 4 slot }

/-- Main-memory plots other than plot 0 whose entry in the plot table is not all zero. -/
def State.listedPlots (s : State) : List Nat :=
  (s.mem.filterMap fun c => if 8 ≤ c.1 ∧ c.1 < 8 * 131072 then some (c.1 / 8) else none).dedup

/-- The plot table, which is plot 0, and the main-memory plots whose state is owned, common or system. -/
def State.livePlots (s : State) : List Nat := 0 :: s.listedPlots.filter fun p => s.plotState p ∈ [1, 2, 5]

/-- Bytes written to the safe tier for some plots. -/
def State.savedBytes (s : State) (plots : List Nat) : Nat :=
  if s.pkg.cmp then (plots.map fun p => (Config.lz4Compress [] (s.mem.readBytes (p * 2 ^ 21) (2 ^ 21))).length).sum
  else plots.length * 2 ^ 21

/-- A key lies in a slot of the safe tier. -/
def inSafe (slot k : Nat) : Bool := decide (keySafe slot 0 ≤ k ∧ k < keySafe (slot + 1) 0)

/-- A save's image: the live plots, by their physical addresses. -/
def State.writeImage (s : State) : State :=
  let slot := s.pkg.ckslot
  let plots := s.livePlots
  let cells := (keySafe slot 0, s.mem.read 0) ::
    (s.mem.filter fun c => decide (c.1 < 2 ^ 38) && plots.contains (c.1 / 2 ^ 21)).map fun c => (keySafe slot c.1, c.2)
  { s with
    mem := Memory.writeCells (s.mem.filter fun c => !inSafe slot c.1) cells
    pkg := { s.pkg with saved := s.pkg.saved.filter (·.1 ≠ slot) ++ plots.map fun p => (slot, p) } }

/-- The record of kind 0x0B (R369). -/
def State.postCheckpoint (s : State) (restore : Bool) (slot bytes plots : Nat) : State :=
  s.post 0 0x0B (restore.toNat + slot * 2 + s.pkg.ckstate * 256) bytes plots

/-- A save ends. -/
def State.endSave (s : State) (ok : Bool) : State :=
  let slot := s.pkg.ckslot
  if ok then
    let plots := s.livePlots
    let bytes := s.savedBytes plots
    let s1 := s.writeImage
    State.postCheckpoint (s1.setPkg { s1.pkg with
      ckstate := 0, valid := s1.pkg.valid ||| BitVec.twoPow 4 slot, newest := slot }) false slot bytes plots.length
  else State.postCheckpoint (s.setPkg { s.pkg with ckstate := 3 }) false slot 0 0

/-- A plot is free in a slot's image, and not bad now. -/
def State.freeInImage (s : State) (slot q : Nat) : Bool :=
  (s.mem.read (keySafe slot (8 * q))).toNat % 8 == 0 && s.plotState q != 4

/-- Where each saved plot goes back: to its own number while its shore is live, else to the lowest free plot of the
surviving shore. -/
def State.restorePairs (s : State) (slot : Nat) : List (Nat × Nat) :=
  let plots := (s.pkg.saved.filter (·.1 = slot)).map (·.2)
  plots.foldl (fun acc p =>
    if !s.pkg.shore.getLsbD (p % 2) then acc ++ [(p, p)]
    else match (List.range 131072).find? fun q =>
        !s.pkg.shore.getLsbD (q % 2) && s.freeInImage slot q && !plots.contains q && !acc.any (·.2 == q) with
      | some q => acc ++ [(p, q)]
      | none => acc) []

/-- The bytes of the image of a plot, moved to another. -/
def imageCells (m : Memory) (slot : Nat) (pair : Nat × Nat) : List Host.Cell :=
  m.filterMap fun c => if keySafe slot (pair.1 * 2 ^ 21) ≤ c.1 ∧ c.1 < keySafe slot (pair.1 * 2 ^ 21 + 2 ^ 21)
    then some (c.1 - keySafe slot (pair.1 * 2 ^ 21) + pair.2 * 2 ^ 21, c.2) else none

/-- The plots and the plot table after a restore: a plot that has moved takes its entry along, and every other bad plot
stays bad. The table stands at its own keys whether or not its plot's shore is lost (log 21). -/
def State.restoreImage (s : State) : State :=
  let slot := s.pkg.newest
  let pairs := s.restorePairs slot
  let target := fun (k : Nat) => decide (k < 2 ^ 21) || (decide (k < 2 ^ 38) && pairs.any (·.2 == k / 2 ^ 21))
  let cells := (pairs ++ [(0, 0)]).flatMap (imageCells s.mem slot)
  let s1 : State := { s.setMem (Memory.writeCells (s.mem.filter fun c => !target c.1) cells) with
    poison := s.poison.filter fun x => !target (64 * x) }
  let moved := pairs.filter fun x => x.1 ≠ x.2
  let s2 := moved.foldl (fun (acc : State) x =>
    let e := acc.plotEntry x.1
    (acc.setMem (acc.mem.writeCells (cellsAt (8 * x.2) (bytesOfNat 8 e)))).setPlot x.1 4 0) s1
  let bad := s.listedPlots.filter fun p => s.plotState p = 4 ∧ !pairs.any (·.2 == p)
  let s3 := bad.foldl (fun (acc : State) p => acc.setPlot p 4 0) s2
  s3.setPkg { s3.pkg with restoreMap := moved }

/-- A restore ends. -/
def State.endRestore (s : State) (ok : Bool) : State :=
  let slot := s.pkg.newest
  if ok then
    let n := (s.restorePairs slot).length
    let s1 := s.restoreImage
    State.postCheckpoint (s1.setPkg { s1.pkg with ckstate := 0 }) true slot 0 n
  else State.postCheckpoint (s.setPkg { s.pkg with ckstate := 3 }) true slot 0 0

/-- After a loss of input power the package powers down once its checkpoint has ended (R386). -/
def State.powerDown (s : State) : State := if s.pkg.dying then s.setPkg { s.pkg with powered := false } else s

/-- CHECKPOINT_END: a save at a loss of input power completes while the bank holds the energy for it (R386). -/
def execCheckpointEnd (ok : Bool) (s : State) : Out :=
  .next (match s.pkg.ckstate with
    | 1 => (s.endSave (ok || (s.pkg.dying && s.pkg.bank))).powerDown
    | 2 => (s.endRestore ok).powerDown
    | _ => s)

/-! ### Power (R386) -/

/-- A measurement of the bank's energy. -/
def State.measureBank (s : State) (ok : Bool) : State := s.setPkg { s.pkg with bank := ok, banked := s.dcc / 2 ^ 35 }

/-- A measurement of the bank is due: one comes every 2^35 ticks. -/
def State.bankDue (s : State) : Bool := s.dcc / 2 ^ 35 != s.pkg.banked

/-- BANK_MEASURE, at boot and every 2^35 ticks. -/
def execBankMeasure (ok : Bool) (s : State) : Out :=
  .next (if s.bankDue || decide (s.dev.bootstage < 6) then s.measureBank ok else s)

/-- INPUT_POWER_LOSS: both dies brumate, every lease is revoked, a checkpoint in progress goes on or one starts if PLCK is
set, and without one the package powers down. -/
def execInputPowerLoss (s : State) : Out :=
  let s1 := s.revokeAll 3
  let s2 : State := { s1 with
    pkg := { s1.pkg with dying := true }
    tap := if s1.tap.stopped then s1.tap else { s1.tap with stopped := true, ts := BitVec.ofNat 64 s1.dcc } }
  .next (if s2.pkg.ckstate = 1 then s2
    else if s2.pkg.plck then s2.startSave
    else s2.powerDown)

/-- BANK_RUNS_OUT: without BANK, an unfinished checkpoint is lost and the older image stands. -/
def execBankRunsOut (s : State) : Out :=
  .next (if s.pkg.dying && !s.pkg.bank && s.pkg.ckstate == 1 then s.powerDown else s)

/-! ### Reset and boot (R368, R420) -/

/-- What a power-on keeps: the safe tier with its images, host memory behind the aperture, the keys, the heat in the store
and what the environment does and has seen. -/
def execPowerOnReset (s : State) : Out :=
  let r := State.reset
  .next { r with
    mem := s.mem.filter fun c => decide (2 ^ 44 ≤ c.1 ∨ (2 ^ 38 ≤ c.1 ∧ c.1 < 2 ^ 39))
    keys := s.keys, inputs := s.inputs, outputs := s.outputs, epoch := s.epoch
    pkg := { r.pkg with melt := s.pkg.melt, valid := s.pkg.valid, newest := s.pkg.newest, saved := s.pkg.saved
                        cycles := s.pkg.cycles, service := s.pkg.service + s.dcc, corrected := s.pkg.corrected } }

/-- What a boot stage does. -/
def State.bootAction (s : State) (stage : Nat) : State :=
  match stage with
  | 1 => s.measureBank ((Config.freeBits s.epoch 0 1).getLsbD 0)
  | 2 => { s.setMem (s.mem.filter fun c => !decide (c.1 < 2 ^ 38)) with poison := [] }
  | 3 => { s.setMem (s.mem.filter fun c => !decide (2 ^ 40 ≤ c.1 ∧ c.1 < 2 ^ 43)) with
      cores := (s.cores.map (·.1)).foldl (fun (cs : Sparse Core) l =>
        sset Core.reset cs l { sget Core.reset cs l with full := [] }) s.cores }
  | 4 => { s with dev := { s.dev with mbv := 8 } }
  | _ => s

/-- BOOT_STAGE: the next stage completes, or ERR records that it failed. -/
def execBootStage (ok : Bool) (s : State) : Out :=
  let n := s.dev.bootstage + 1
  .next (if s.dev.booterr ≠ 0 ∨ 6 < n then s
    else if ok then
      let s1 := s.bootAction n
      { s1 with dev := { s1.dev with bootstage := n } }
    else { s with dev := { s.dev with booterr := n } })

/-- DEVICE_RESET: registers and tasks are as after reset, and STATE, FAILED, SHORE and CAUSE are 0; memory, the hosts of the
logical cores, the links' lanes, the images, the clock and BOOTST stay (log 21). -/
def execDeviceReset (s : State) : Out :=
  let r := State.reset
  .next { r with
    mem := s.mem, dcc := s.dcc, keys := s.keys, inputs := s.inputs, outputs := s.outputs, epoch := s.epoch
    clusters := (s.clusters.map (·.1)).foldl (fun (cs : Sparse Cluster) c =>
      let x := s.cluster c
      sset Cluster.reset cs c { Cluster.reset c with
        map := x.map, shed := x.shed, spare := x.spare, tsh := x.tsh, resident := x.resident, sliceEnd := x.sliceEnd }) []
    pkg := { r.pkg with
      rails := List.replicate 4 { Rail.reset with checked := s.dcc / 1100, sampled := s.dcc / 1100 }
      melt := s.pkg.melt, refz := s.pkg.refz, groups := s.pkg.groups, fcl := s.pkg.fcl, shtot := s.pkg.shtot
      growth := s.pkg.growth, melted := s.pkg.melted, cycles := s.pkg.cycles, service := s.pkg.service
      corrected := s.pkg.corrected, bank := s.pkg.bank, banked := s.pkg.banked, valid := s.pkg.valid, newest := s.pkg.newest, saved := s.pkg.saved
      restoreMap := s.pkg.restoreMap }
    dev := { r.dev with mbv := s.dev.mbv, bootstage := s.dev.bootstage, booterr := s.dev.booterr, vfs := s.dev.vfs } }

end Sys2Proof.Machine
end

