-- ==== Sys2Proof/Machine/Fabric.lean ====
section
/-! DEFINITION. The device ports (spec/17_fabric.md R401 to R407) and the host's accesses to memory (R392, R396). -/

namespace Sys2Proof.Machine

/-! ### Ports (R401, R402) -/

/-- The fields of a received flit (R401). -/
structure FlitFields where
  type  : Nat
  vc    : Nat
  seq   : Nat
  ack   : Nat
  stop0 : Bool
  stop1 : Bool
  payload : List Byte
deriving DecidableEq, Repr

/-- A flit of 256 bytes whose CRC holds. -/
def flitFields (f : List Byte) : Option FlitFields :=
  if f.length ≠ 256 ∨ natOfBytes (f.drop 252) ≠ (crc32 (f.take 252)).toNat then none
  else
    let h := natOfBytes (f.take 8)
    some ⟨bitsOf h 63 56, bitsOf h 55 48, bitsOf h 47 32, bitsOf h 31 16, h.testBit 15, h.testBit 14,
      (f.drop 8).take (Nat.min (bitsOf h 7 0 + 1) 244)⟩

/-- Flits up to ACK are acknowledged. -/
def PortState.acknowledge (p : PortState) (ack now : Nat) : PortState :=
  match p.sent.findIdx? (fun x => x.1 == ack) with
  | none => p
  | some i => { p with sent := p.sent.drop (i + 1), since := now }

/-- The receive buffer of a virtual channel. -/
def PortState.buffer (p : PortState) (vc : Nat) : List (List Byte) := if vc = 0 then p.buf0 else p.buf1
def PortState.setBuffer (p : PortState) (vc : Nat) (b : List (List Byte)) : PortState :=
  if vc = 0 then { p with buf0 := b } else { p with buf1 := b }

/-- A flit in sequence for which its buffer has room is delivered; any other is discarded (R402). Idle and control flits
carry nothing on. -/
def PortState.deliver (p : PortState) (f : FlitFields) : PortState :=
  if f.type = 0 then p
  else if f.seq ≠ p.rxSeq ∨ Config.portBuffer ≤ (p.buffer f.vc).length then p
  else
    let p1 := { p with rxSeq := (p.rxSeq + 1) % 65536 }
    if f.type = 4 then p1 else p1.setBuffer f.vc (p1.buffer f.vc ++ [f.payload])

/-- Whole messages leave a port's buffer: those for this position act here, the others go on along their route (R404). -/
def State.takeMessages (s : State) (k vc : Nat) : (fuel : Nat) → State
  | 0 => s
  | fuel + 1 =>
    match Config.portDecode ((s.port k).buffer vc) with
    | none => s
    | some (m, n) =>
      let s1 := s.setPort k ((s.port k).setBuffer vc (((s.port k).buffer vc).drop n))
      let s2 := if m.dest = s1.position.1 then s1.deliver m.body else s1.sendMessage m.dest m.body
      s2.takeMessages k vc fuel

/-- The tasks whose arrivals and contributions ports carry: members of level-4 stands (R400, R402). -/
def State.portUsers (s : State) : List TaskRef :=
  (s.tasks.filter fun t => t.id.live && t.stand.level == 4).map (·.ref)

/-- PORT_FLIT_RECEIVE: the eighth CRC failure of one flit in a row is a link-source error of bolts whose traffic it carried
(R402). The failures of a port count towards one lane (log 14). -/
def execPortFlitReceive (k : Nat) (flit : List Byte) (s : State) : Out :=
  let p := s.port k
  .next (if p.lanes.state ≠ 0 then s
    else match flitFields flit with
      | none =>
        let x := p.lanes.crcFailure 0 s.dcc
        let s1 := s.setPort k { p with lanes := x }
        if x.same = 8 then s1.chargeTraffic s.portUsers else s1
      | some f =>
        let p1 := { p with lanes := { p.lanes with same := 0 }, stop0 := f.stop0, stop1 := f.stop1 }
        let s1 := s.setPort k ((p1.acknowledge f.ack s.dcc).deliver f)
        let s2 := s1.takeMessages k f.vc (Config.portBuffer + 1)
        s2.portResume k)

/-- ACK has made no progress for 4,096 ticks. -/
def PortState.late (p : PortState) (now : Nat) : Bool :=
  !p.sent.isEmpty && p.lanes.state == 0 && decide (p.since + 4096 ≤ now)

/-- FLIT_RESEND_TIMEOUT. -/
def execFlitResendTimeout (k : Nat) (s : State) : Out :=
  let p := s.port k
  .next (if p.late s.dcc then
      p.sent.foldl (fun acc x => acc.emit (.portFlit k (p.flit x.1 x.2.2.1 x.2.2.2))) (s.setPort k { p with since := s.dcc })
    else s)

/-! ### BAR2 (R392) -/

/-- The physical addresses of `n` bytes at an offset of the window, all in common plots; none when one is refused. -/
def State.hostAddresses (s : State) (fn o n : Nat) (write : Bool) : Option (List Nat) :=
  (List.range n).mapM fun i =>
    if 2 ^ 38 ≤ o + i then none
    else match s.walk fn (o + i) write with
      | .error _ => none
      | .ok x =>
        let pa := x.pa + (o + i) % x.size
        if s.plotState (pa / 2 ^ 21) = 2 then some pa else none

/-- HOST_BAR2_READ. -/
def execHostBar2Read (fn : Nat) (o : BitVec 38) (n : Nat) (s : State) : Out :=
  .next (match s.hostAddresses fn o.toNat n false with
    | some pas => s.emit (.readData fn (pas.map s.mem.read))
    | none => (s.emit (.unsupported fn)).setFstat fn 1)

/-- HOST_BAR2_WRITE; gauges count it (R349). -/
def execHostBar2Write (fn : Nat) (o : BitVec 38) (bytes : List Byte) (s : State) : Out :=
  .next (match s.hostAddresses fn o.toNat bytes.length true with
    | some pas => s.show (pas.zip bytes)
    | none => s.setFstat fn 0)

/-! ### The host aperture (R396) -/

/-- HOST_APERTURE_COMPLETION: data becomes what the aperture reads; anything else is a memory-source error of the reader. -/
def execHostApertureCompletion (who : TaskRef) (pa : Nat) (r : HostReply) (s : State) : Out :=
  .next (match r with
    | .data bytes => if 2 ^ 38 ≤ pa ∧ pa + bytes.length ≤ 2 ^ 39 then s.setMem (s.mem.writeCells (cellsAt pa bytes)) else s
    | .unsupported => s.detect who .memory 0 pa
    | .aborted => s.detect who .memory 0 pa
    | .poisoned => s.detect who .memory 0 pa)

end Sys2Proof.Machine
end

