-- ==== Sys2Proof/Machine/Due.lean ====
section
/-! DEFINITION. Which step of the device's own comes next: the first that is due, in a fixed order (log 24). Steps whose
time the spec leaves to the outside world or to a unit's speed come with the inputs (log 2). -/

namespace Sys2Proof.Machine

/-- The first instruction that a list of objects has due. -/
def firstDue {α : Type} (l : List α) (f : α → Option Instr) : Option Instr := l.findSome? f

/-- An instruction that is due under a condition. -/
def dueIf (b : Bool) (i : Instr) : Option Instr := if b then some i else none

/-- Cores that hold anything. -/
def State.busyCores (s : State) : List Nat := s.cores.map (·.1)

/-- The live tasks' partitions. -/
def State.liveRefs (s : State) : List (TaskRef × Task) := (s.tasks.filter (·.id.live)).map fun t => (t.ref, t)

/-! ### The package -/

def gaugeInstr (r : GaugeRef) : Instr :=
  if r.ctl then .controllerGaugeFire r.home r.index else .padGaugeFire r.home r.index

/-- A lane that has failed too often. -/
def State.wornLane (s : State) (k : LinkRef) : Bool :=
  (s.laneGroup k).state == 0 && (s.laneGroup k).worn s.dcc

def links : List LinkRef := (List.range 16).map .group ++ (List.range 8).map .port

/-- A value that the device measures: the key tells the values of one step apart (log 2). -/
def State.measured (s : State) (key w : Nat) : BitVec w := Config.freeBits s.epoch (2 ^ 21 + key) w

/-- Conversions, readings and measurements whose tick has come, when the outside world has not said what they give (R370,
R374, R381, R386). -/
def State.dueMeasured (s : State) : Option Instr :=
  firstDue (List.range 4) (fun r => dueIf (s.sampleDue r) (.railCurrentSample r (s.measured 0 10) (s.measured 1 3)))
    <|> dueIf s.meltDue (.meltUpdate (s.measured 2 16))
    <|> dueIf s.bankDue (.bankMeasure ((s.measured 3 1).getLsbD 0))
    <|> (if s.dcc < 2 ^ 35 then none
      else firstDue growthRegs fun r =>
        dueIf (s.growthDue r) (.growthRingUpdate r (s.measured 4 24).toNat (s.measured 5 24).toInt))

/-- Steps of the package that are due. -/
def State.duePackage (s : State) : Option Instr :=
  dueIf (!s.tap.pin) .brumationEntry
    <|> s.fullGauge.map gaugeInstr
    <|> dueIf s.decisionTick.isSome .decisionTickApply
    <|> dueIf s.intervalDue .budgetInterval
    <|> s.dueMeasured
    <|> firstDue (List.range 4) (fun r => dueIf (s.rampStepDue r) (.railRampStep r))
    <|> firstDue s.liveRefs (fun x => dueIf (s.leaseOver x.2) (.leaseExpiry x.1))
    <|> firstDue s.liveRefs (fun x => dueIf (x.2.lease.pend.isSome && s.withinLimit) (.leaseEndNotice x.1))
    <|> firstDue (s.fns.map (·.1)) (fun f => dueIf (s.interruptDue f) (.eventRingInterrupt f))
    <|> firstDue links (fun k => dueIf (s.retrainOver k) (.spliceRetrainEnd k))
    <|> firstDue links (fun k => dueIf (s.wornLane k) (.laneSplice k))
    <|> firstDue (List.range 8) (fun k => dueIf ((s.port k).late s.dcc) (.flitResendTimeout k))
    <|> dueIf s.plsetDue .plsetComplete
    <|> dueIf s.tinvDue .tinvComplete

/-! ### Tasks and helpers -/

/-- Errors, budgets and watchdogs of tasks and helpers. -/
def State.dueLate (s : State) : Option Instr :=
  let some_ := fun (test : State → Bool) => (s.findTask test).isSome
  dueIf (some_ fun t => t.task.bolt.charged.isSome) .boltReplay
    <|> dueIf (s.findHelper fun t => t.hlp.charged.isSome).isSome .helperBoltReplay
    <|> dueIf (some_ State.overBudget) .tickBudgetExpiry
    <|> dueIf (some_ State.sealLate) .sealWatchdog
    <|> dueIf (some_ State.loadLate) .fullEmptyWatchdog
    <|> dueIf (some_ State.streamLate) .streamWatchdog
    <|> dueIf (some_ State.mailboxLate) .mailboxWatchdog
    <|> dueIf (s.lateArrival.isSome || s.lateContribution.isSome) .standWatchdog
    <|> dueIf (s.findHelper State.hLate).isSome .helperWatchdog

/-- The plot of a transfer that the selected task's seal holds. -/
def State.heldPlot (s : State) : Option Nat :=
  s.task.bolt.work.hold.findSome? fun i => match i with
    | .pxfer p _ _ => some p
    | _ => none

/-- Seals, ends and waits of tasks that are over; no other wait is served before a served one has issued (R123). -/
def State.dueWaits (s : State) : Option Instr :=
  let some_ := fun (test : State → Bool) => (s.findTask test).isSome
  (((s.findTask State.sealDue).bind State.heldPlot).map fun p => Instr.pxferRelease p)
    <|> dueIf (some_ State.ownDone || some_ State.sealDue) .sealComplete
    <|> dueIf (some_ State.endDue) .taskEndComplete
    <|> dueIf (some_ State.preemptReady) .preemption
    <|> (if s.serving then none
      else dueIf (some_ State.loadServed || s.firstHelper.isSome) .loadWaitServed
        <|> dueIf (some_ State.streamServed) .streamWaitServed
        <|> dueIf (some_ State.deqServed) .deqWaitServed)
    <|> dueIf (some_ State.noticeReady) .asyncNoticeTaken
    <|> dueIf (s.findHelper State.hSealWaits).isSome .helperSealRelease

/-- Barriers, collectives and read-modify-writes. -/
def State.dueShared (s : State) : Option Instr :=
  (s.stands.findIdx? s.barrierReady).map Instr.barrierComplete
    <|> (s.stands.findIdx? s.collectiveReady).map Instr.collectiveComplete
    <|> s.rmwQ.head?.map fun r => .rmwService r.line

/-! ### Engines, skidders, chains -/

def engUnits : List EngUnit := [.array, .planing, .tilePort]

/-- Steps of one core's engines. -/
def State.dueCore (s : State) (l : Nat) : Option Instr :=
  let parts := List.range 16
  firstDue engUnits (fun u => dueIf (s.endingCmd l u).isSome (.tileCommandComplete l u))
    <|> dueIf (s.returning l).isSome (.migratedPartialAdd l)
    <|> dueIf (s.windowDue l) (.undeclaredBurst l)
    <|> dueIf (s.unsettled l) (.tileCommandStart l .array)
    <|> dueIf (s.nextStamped l).isSome (.stampedCommandStart l)
    <|> firstDue engUnits (fun u => dueIf (s.nextCmd l u).isSome (.tileCommandStart l u))
    <|> firstDue parts (fun p => dueIf (s.migrant l p).isSome (.commandMigration l p))
    <|> firstDue parts (fun p => dueIf (s.lateOperands l p).isSome (.operandWatchdog l p))
    <|> dueIf (s.endedMove l).isSome (.skidderCommandComplete l)
    <|> dueIf (s.skNext l).isSome (.skidderChunkMove l)
    <|> dueIf (s.lateSource l).isSome (.sourceWatchdog l)
    <|> dueIf (s.wakeDue l) (.retentionExit l)

/-- Phase declarations (R228, R229). -/
def State.duePhase (s : State) (x : TaskRef × Task) : Option Instr :=
  let p := x.2.phase
  dueIf (s.prepositionDue p) (.regulatorPreposition x.1)
    <|> dueIf (s.onsetDue p) (.phaseOnset x.1)
    <|> dueIf (s.phaseOver p) (.phaseEnd x.1)
    <|> dueIf (s.rampDue p) (.phaseRampStep x.1)

/-- Chains of the dies. -/
def State.dueChain (s : State) : Option Instr :=
  firstDue (s.dies.map (·.1)) fun d => firstDue (List.range 16) fun ch =>
    dueIf (s.chainReady d ch) (.chainDescriptorWalk d ch)

/-! ### Scheduling -/

/-- Cores that a node still has tiles for. -/
def State.candidateCores (s : State) : List Nat :=
  ((s.nodes.filter fun n => n.readyTick.isSome).flatMap fun n => n.left.map (·.1)).dedup

/-- Starts, resumptions, aging and pre-emption (R306 to R308, R197); a start goes before a resumption. -/
def State.dueSchedule (s : State) : Option Instr :=
  let cores := s.candidateCores
  firstDue cores (fun l => dueIf (s.agedOn l).isSome (.candidateAgingBlock l))
    <|> firstDue cores (fun l => dueIf (s.startOn l).isSome (.taskStart l))
    <|> (s.saved.findIdx? fun x => (s.resumeTask x).isSome).map Instr.taskResume
    <|> firstDue cores (fun l => dueIf (s.preemptOn l).isSome (.preemptionRequest l))

/-- Hosts whose slices end (R295). -/
def State.dueSwitch (s : State) : Option Instr :=
  if s.pkg.state = 1 ∨ s.clusters.any (fun x => x.2.tsh != 0) then
    firstDue (List.range 16) fun c => firstDue (List.range 13) fun k =>
      dueIf (s.switchDue c k).isSome (.timeShareSwitch c k)
  else none

/-- Pads at rest (R233). -/
def State.dueRetention (s : State) : Option Instr :=
  if s.dcc < 2200000 then none
  else firstDue (List.range 192) fun l => dueIf (s.retentionDue l) (.retentionEntry l)

/-- The event that is due in a state, if any. -/
def State.due (s : State) : Option Instr :=
  s.duePackage
    <|> s.dueLate
    <|> s.dueWaits
    <|> s.dueShared
    <|> firstDue s.liveRefs s.duePhase
    <|> firstDue s.busyCores s.dueCore
    <|> s.dueChain
    <|> s.dueSwitch
    <|> s.dueSchedule
    <|> s.dueRetention

end Sys2Proof.Machine
end

