-- ==== Sys2Proof/Machine/Convert.lean ====
section
/-! DEFINITION. Conversions and FP4 packing (spec/05_vector_instructions.md R139 to R142). -/

namespace Sys2Proof.Machine

/-- The source element that a destination element of VCVT is made from (R139). -/
def sourceIndex (st t : BitVec 5) (part i : Nat) : Option Nat :=
  let nS := laneCount st
  let nD := laneCount t
  if typeWidth t ≤ typeWidth st then (if part * nS ≤ i ∧ i < part * nS + nS then some (i - part * nS) else none)
  else (if i < nD then some (part * nD + i) else none)

/-- VCVT (R139, R140). -/
def execVcvt (f : Slot) (s : State) : Out :=
  let w := typeWidth f.t
  let src := s.v f.a.toNat
  let pick := sourceIndex f.st f.t f.part
  guarded (.vcvt f) f s (s.put f.lat.toNat (.v f.d.toNat
    (laneMask w fun i => (pick i).isSome && gov w (s.msel f) i)
    (vregOf w fun i => match pick i with
      | none => 0
      | some j => convertTo f.t.toNat (effRnd s f.rnd) (f.sat == 1) (s.randomBits f f.st j)
          (valueOf f.st.toNat (elem f.st src j)))))

/-- Blocks of 16 elements of the source of VBSC and VPACK4. -/
def sourceBlocks (f : Slot) : Nat := laneCount f.st / 16

/-- The bit position of the scale of block `j` from b0 on, in a register of scale words (R45, R141). -/
def scaleBit (b0 j : Nat) : Nat := 64 * ((b0 + j) / 7) + 9 * ((b0 + j) % 7)

/-- The larger magnitude of two finite values. -/
def maxMag (x y : FVal) : FVal :=
  match x, y with
  | .fin _ m e, .fin _ m' e' => if (FVal.fin false m e).cmp (.fin false m' e') < 0 then .fin false m' e' else .fin false m e
  | _, _ => x

/-- The scale of a block of values (R141). -/
def blockScale (sat : Bool) (xs : List FVal) : Nat :=
  if xs.any fun x => match x with | .fin .. => false | _ => true then 0x1FF
  else match xs.foldl maxMag (.fin false 0 0) with
    | .fin _ m e => if m = 0 then 0 else convertTo 15 2 sat none (.fin false m e) 6
    | _ => 0

/-- VBSC (R141). -/
def execVbsc (f : Slot) (s : State) : Out :=
  let b0 := f.imm.toNat % 256
  let src := s.v f.a.toNat
  let blocks := List.range (sourceBlocks f)
  let scale := fun j => blockScale (f.sat == 1)
    ((List.range 16).map fun i => valueOf f.st.toNat (elem f.st src (16 * j + i)))
  guarded (.vbsc f) f s (s.put f.lat.toNat (.v f.d.toNat
    (BitVec.ofNat 2048 (blocks.map fun j => 511 * 2 ^ scaleBit b0 j).sum)
    (BitVec.ofNat 2048 (blocks.map fun j => scale j * 2 ^ scaleBit b0 j).sum)))

/-- The e2m1 code of a value under a scale (R142). -/
def packCode (rnd : Nat) (rand : RandomBits) (scale : Nat) (x : FVal) : Nat :=
  match x with
  | .nan => 0
  | .inf neg => if scale = 0x1FF then 0 else if neg then 0xF else 0x7
  | .fin neg m e =>
    if scale = 0x1FF then 0
    else if scale = 0 then (if m = 0 then 0 else if neg then 0xF else 0x7)
    else match valueOf 15 scale with
      | .fin _ ms es => convertTo 14 rnd true rand (.fin neg m (e - es)) ms
      | _ => 0

/-- VPACK4 (R142). DESIGN CHOICE (log 43): the mode bit of every scale word of the blocks is checked, whatever the mask. -/
def execVpack4 (f : Slot) (s : State) : Out :=
  let b0 := f.imm.toNat % 256
  let src := s.v f.a.toNat
  let scales := s.v f.b.toNat
  let nS := laneCount f.st
  let bad := ((List.range (sourceBlocks f)).map fun j => (b0 + j) / 7).filter fun k => scales.getLsbD (64 * k + 63)
  let pick := fun i => if f.part * nS ≤ i ∧ i < f.part * nS + nS then some (i - f.part * nS) else none
  guarded (.vpack4 f) f s
    (match bad with
     | k :: _ => s.trap 2 (syndWord 1 s.slotNo 0x201 0 k)
     | [] => s.put f.lat.toNat (.v f.d.toNat
        (laneMask 4 fun i => (pick i).isSome && gov 4 (s.msel f) i)
        (vregOf 4 fun i => match pick i with
          | none => 0
          | some j => packCode (effRnd s f.rnd) (s.randomBits f f.st j)
              (scales.toNat / 2 ^ scaleBit b0 (j / 16) % 512) (valueOf f.st.toNat (elem f.st src j)))))

end Sys2Proof.Machine
end

