-- ==== Sys2Proof/Machine/Integer.lean ====
section
/-! DEFINITION. Class 0b000: scalar integer operations (spec/04_scalar_instructions.md R96 to R104). -/

namespace Sys2Proof.Machine

/-- a, the first operand (R96). -/
def State.opA (s : State) (f : Slot) : Int := typed f.t (s.g f.a.toNat)
/-- b, the second operand (R97). -/
def State.opB (s : State) (f : Slot) : Int := typed f.t (s.operandB f)
/-- The w-bit pattern of the first operand. -/
def State.rawA (s : State) (f : Slot) : Nat := (s.g f.a.toNat).toNat % 2 ^ typeWidth f.t
/-- The w-bit pattern of the second operand. -/
def State.rawB (s : State) (f : Slot) : Nat := (s.operandB f).toNat % 2 ^ typeWidth f.t
/-- s, the shift amount (R98). -/
def State.shift (s : State) (f : Slot) : Nat := s.rawB f % typeWidth f.t

/-- The register value of an exact result: limited by R53, or reduced to its w-bit pattern (R98). -/
def intValue (f : Slot) (limit : Bool) (r : Int) : W64 :=
  let w := typeWidth f.t
  extended (if limit then limitInt w (isSigned f.t) (f.sat == 1) r else intOf w (isSigned f.t) (patternOf w r))

/-- A two- or one-operand integer operation (R98). -/
def runInt (i : Instr) (f : Slot) (limit : Bool) (r : Int) (s : State) : Out :=
  guarded i f s (s.putG f (intValue f limit r))

/-- The truncated quotient, with the cases of R99. -/
def divide (t : BitVec 5) (a b : Int) : Int :=
  if b = 0 then (if isSigned t then -1 else 2 ^ typeWidth t - 1) else a.tdiv b

/-- The remainder of R99. -/
def remainder (a b : Int) : Int := if b = 0 then a else a.tmod b

/-- Leading zeros among `w` bits. -/
def leadingZeros (w u : Nat) : Nat := if u = 0 then w else w - 1 - Nat.log2 u

/-- One bits among `w` bits. -/
def popCount (w u : Nat) : Nat := ((List.range w).filter (u.testBit ·)).length

/-- ADD (R98). -/
def execAdd (f : Slot) (s : State) : Out := runInt (.add f) f true (s.opA f + s.opB f) s
/-- SUB (R98). -/
def execSub (f : Slot) (s : State) : Out := runInt (.sub f) f true (s.opA f - s.opB f) s
/-- MUL (R98). -/
def execMul (f : Slot) (s : State) : Out := runInt (.mul f) f true (s.opA f * s.opB f) s
/-- MULH: the upper half of the exact product (R98). -/
def execMulh (f : Slot) (s : State) : Out :=
  runInt (.mulh f) f false ((s.opA f * s.opB f) / (2 ^ typeWidth f.t : Int)) s
/-- DIV (R99). -/
def execDiv (f : Slot) (s : State) : Out := runInt (.div f) f true (divide f.t (s.opA f) (s.opB f)) s
/-- REM (R99). -/
def execRem (f : Slot) (s : State) : Out := runInt (.rem f) f false (remainder (s.opA f) (s.opB f)) s
/-- AND (R98). -/
def execAnd (f : Slot) (s : State) : Out := runInt (.and f) f false (s.rawA f &&& s.rawB f : Nat) s
/-- OR (R98). -/
def execOr (f : Slot) (s : State) : Out := runInt (.or f) f false (s.rawA f ||| s.rawB f : Nat) s
/-- XOR (R98). -/
def execXor (f : Slot) (s : State) : Out := runInt (.xor f) f false (s.rawA f ^^^ s.rawB f : Nat) s
/-- ANDN: a AND NOT b (R98). -/
def execAndn (f : Slot) (s : State) : Out :=
  runInt (.andn f) f false (s.rawA f &&& (2 ^ typeWidth f.t - 1 - s.rawB f) : Nat) s
/-- SHL (R98). -/
def execShl (f : Slot) (s : State) : Out := runInt (.shl f) f true (s.opA f * 2 ^ s.shift f) s
/-- SHR: of the pattern read unsigned (R98). -/
def execShr (f : Slot) (s : State) : Out := runInt (.shr f) f false (s.rawA f / 2 ^ s.shift f : Nat) s
/-- SRA: of the pattern read signed (R98). -/
def execSra (f : Slot) (s : State) : Out :=
  runInt (.sra f) f false (intOf (typeWidth f.t) true (s.rawA f) / (2 ^ s.shift f : Int)) s
/-- ROL (R98). -/
def execRol (f : Slot) (s : State) : Out :=
  runInt (.rol f) f false
    (s.rawA f * 2 ^ s.shift f % 2 ^ typeWidth f.t + s.rawA f / 2 ^ (typeWidth f.t - s.shift f) : Nat) s
/-- MIN (R98). -/
def execMin (f : Slot) (s : State) : Out := runInt (.min f) f false (min (s.opA f) (s.opB f)) s
/-- MAX (R98). -/
def execMax (f : Slot) (s : State) : Out := runInt (.max f) f false (max (s.opA f) (s.opB f)) s
/-- CLZ (R98). -/
def execClz (f : Slot) (s : State) : Out := runInt (.clz f) f false (leadingZeros (typeWidth f.t) (s.rawA f)) s
/-- POPC (R98). -/
def execPopc (f : Slot) (s : State) : Out := runInt (.popc f) f false (popCount (typeWidth f.t) (s.rawA f)) s

/-- CMP writes a predicate (R100). -/
def execCmp (f : Slot) (s : State) : Out :=
  guarded (.cmp f) f s (s.putP f (condHolds f.cond (intOrd (s.opA f) (s.opB f))))

/-- SEL on 64 bits (R101). -/
def execSel (f : Slot) (s : State) : Out :=
  guarded (.sel f) f s (s.putG f (if s.p f.c.toNat then s.g f.a.toNat else s.operandB f))

/-- LI: IMM, a pool operand, or the low 64 bits of F (R102). -/
def execLi (f : Slot) (s : State) : Out :=
  guarded (.li f) f s (s.putG f
    (if f.psel = 0 then f.imm.signExtend 64
     else if f.psel = 3 then s.task.flow.pool.setWidth 64 else s.poolSel f))

/-- li.hi: IMM above the low half of g[A] (R102). -/
def execLiHi (f : Slot) (s : State) : Out :=
  guarded (.liHi f) f s (s.putG f (f.imm ++ (s.g f.a.toNat).setWidth 32))

/-- The position of a bit field, IMM[5:0]. -/
def fieldPos (f : Slot) : Nat := f.imm.toNat % 64
/-- The length of a bit field, IMM[13:8] + 1. -/
def fieldLen (f : Slot) : Nat := f.imm.toNat / 256 % 64 + 1

/-- BFX (R103). -/
def execBfx (f : Slot) (s : State) : Out :=
  guarded (.bfx f) f s (s.putG f
    (extended (intOf (fieldLen f) (f.t == 4) ((s.g f.a.toNat).toNat / 2 ^ fieldPos f))))

/-- BFI (R103). -/
def execBfi (f : Slot) (s : State) : Out :=
  let mask : W64 := BitVec.ofNat 64 ((2 ^ fieldLen f - 1) * 2 ^ fieldPos f)
  guarded (.bfi f) f s (s.putG f
    ((s.g f.a.toNat &&& ~~~mask) ||| ((s.g f.b.toNat <<< fieldPos f) &&& mask)))

/-- PLOG: the truth table in IMM[3:0] (R104). -/
def execPlog (f : Slot) (s : State) : Out :=
  guarded (.plog f) f s (s.putP f
    (f.imm.getLsbD (2 * (s.p f.a.toNat).toNat + (s.p f.b.toNat).toNat)))

end Sys2Proof.Machine
end

