-- ==== Sys2Proof/Machine/Launch.lean ====
section
/-! DEFINITION. LAUNCH, SPEC, DECIDE, EVPOST and CORD at issue (spec/12_die_scheduling.md R316 to R320): every effect is
held. PXFER and PQUERY (spec/13_die_memory.md R332 to R334). LEASE, LREL and OPREQ (spec/15_package.md R373, R376, R377). -/

namespace Sys2Proof.Machine

/-! ### Images (R316) -/

/-- The keys of a packet or gauge image in the own core pad, the cluster pad or the die pad. -/
def State.padImage (s : State) (ptr : W64) (n : Nat) : Except MemFault (List Nat) :=
  let here := ptr.setWidth 48
  match s.place ptr n with
  | .error r => .error ⟨1, r, here⟩
  | .ok pl =>
    if ptr.toNat % 16 ≠ 0 then .error ⟨2, 0, here⟩
    else match pl with
      | .corePad l off false => .ok ((List.range n).map (keyCorePad l off + ·))
      | .clusterPad c off => .ok (s.clusterKeys c off n)
      | .diePad d off => .ok ((List.range n).map (keyDiePad d off + ·))
      | _ => .error ⟨1, 16, here⟩

/-- An operation that reads an image as the pads stand: it traps where the image may not lie, and waits for a pad at rest
(R233, R316). -/
def State.withImage (s : State) (ptr : W64) (n : Nat) (k : State → List Byte → State) : State :=
  match s.padImage ptr n with
  | .error e => s.trapMem e 0
  | .ok ks => match s.asleep ks with
    | some l => s.waitFor (.pad l)
    | none => k (s.noteReads ks) (ks.map s.mem.read)

/-- LAUNCH (R317). -/
def execLaunch (f : Slot) (s : State) : Out :=
  guarded (.launch f) f s (s.withImage (s.g f.a.toNat) 128 fun t p => t.holdOrTrap 0x320 128 (.launch (f.imm.toNat % 64) p))

/-- SPEC (R318). -/
def execSpec (f : Slot) (s : State) : Out :=
  guarded (.spec f) f s (s.withImage (s.g f.a.toNat) 128 fun t p0 => t.withImage (s.g f.b.toNat) 128 fun u p1 =>
    u.holdOrTrap 0x321 256 (.spec (f.imm.toNat / 256 % 16) (f.imm.toNat % 64) p0 p1))

/-- DECIDE (R319). -/
def execDecide (f : Slot) (s : State) : Out :=
  guarded (.decide f) f s
    (s.holdOrTrap 0x322 16 (.decide (f.imm.toNat / 256 % 16) ((s.g f.a.toNat).getLsbD 0)))

/-- EVPOST (R320). -/
def execEvpost (f : Slot) (s : State) : Out :=
  guarded (.evpost f) f s (s.holdOrTrap 0x323 32 (.post (f.imm.setWidth 16) (s.g f.a.toNat)))

/-- CORD (R320). -/
def execCord (f : Slot) (s : State) : Out :=
  guarded (.cord f) f s (s.withImage (s.g f.a.toNat) 32 fun t b =>
    t.holdOrTrap 0x324 32 (.cord (f.imm.setWidth 16) (BitVec.ofNat 256 (natOfBytes b))))

/-! ### PXFER and PQUERY (R333, R334) -/

/-- The physical address that PXFER and PQUERY name, or the fault of its checks. -/
def State.plotAddress (s : State) (ptr : W64) : Except MemFault Nat :=
  let here := ptr.setWidth 48
  match s.place ptr 1 with
  | .error r => .error ⟨1, r, here⟩
  | .ok (.global va) =>
    match s.translate s.myCluster s.task.id.func va false with
    | .error r => .error ⟨7, r, here⟩
    | .ok pa => .ok pa
  | .ok _ => .error ⟨9, 15, here⟩

/-- A target word of PXFER keeps its layout (R332). -/
def targetOk (w : Nat) : Bool :=
  decide (w < 2 ^ 11 ∧ w / 256 ≤ 2 ∧ w % 256 ≤ 191 ∧ (w / 256 = 1 ∨ w % 256 = 0))

/-- PXFER (R333). -/
def execPxfer (f : Slot) (s : State) : Out :=
  let here := (s.g f.a.toNat).setWidth 48
  let w := (s.g f.b.toNat).toNat
  guarded (.pxfer f) f s
    (match s.plotAddress (s.g f.a.toNat) with
     | .error e => s.trapMem e 3
     | .ok pa =>
       let plot := pa / 2 ^ 21
       let st := s.plotState plot
       if !targetOk w then s.trapMem ⟨9, 15, here⟩ 3
       else if st ≠ 1 ∨ s.plotOwner plot ≠ s.task.id.lcore then s.trapMem ⟨5, plotReason st, here⟩ 3
       else s.holdOrTrap 0x328 16 (.pxfer plot (w / 256) (w % 256)))

/-- PQUERY (R334). -/
def execPquery (f : Slot) (s : State) : Out :=
  guarded (.pquery f) f s
    (match s.plotAddress (s.g f.a.toNat) with
     | .error e => s.trapMem e 3
     | .ok pa =>
       let plot := pa / 2 ^ 21
       s.putG f (BitVec.ofNat 64 (plot * 2 ^ 32 + s.plotEntry plot % 2 ^ 32)))

/-! ### Leases (R376, R377) -/

/-- Codes of the store that the other active leases will melt. -/
def State.leaseClaims (s : State) : Nat :=
  ((s.tasks.filter fun t => t.id.live && t.lease.lvl != 0 && !t.is s.task.ref).map fun t =>
    (s.remaining t.lease + Config.leaseK t.lease.lvl - 1) / Config.leaseK t.lease.lvl).sum

/-- The ticks granted to a request (R376). -/
def State.leaseGrant (s : State) (lvl req : Nat) : Nat :=
  if s.pkg.refz || !s.pkg.spen then 0
  else Nat.min req ((0xF333 - s.pkg.melt.toNat - s.leaseClaims) * Config.leaseK lvl)

/-- LEASE's request is served. -/
def State.serveLease (s : State) (f : Slot) (lvl req : Nat) : State :=
  let g := s.leaseGrant lvl req
  let l := s.task.lease.ended 5
  let l1 := if g = 0 then l else { l with lvl, granted := g, since := s.dcc }
  let s1 := s.setLease { l1 with grant := some (l.num, g), num := l.num + 1 }
  let s2 := s1.putG f (BitVec.ofNat 64 g)
  s2.setFlow { s2.task.flow with owns := some .lease }

/-- LEASE (R376); a replay is answered with the grant that the package holds. -/
def execLease (f : Slot) (s : State) : Out :=
  let req := (s.g f.a.toNat).toNat
  let lvl := f.imm.toNat % 4
  guarded (.lease f) f s
    (if 2 ^ 40 ≤ req ∨ req = 0 then s.trap 7 (syndPower 0x10 0 0 0 0)
     else match s.task.lease.grant.filter (·.1 = s.task.lease.num) with
       | some (n, g) =>
         let s1 := (s.setLease { s.task.lease with num := n + 1 }).putG f (BitVec.ofNat 64 g)
         s1.setFlow { s1.task.flow with owns := some .lease }
       | none => s.sealOwn fun t => t.serveLease f lvl req)

/-- LREL (R377). -/
def execLrel (f : Slot) (s : State) : Out := guarded (.lrel f) f s (s.setLease (s.task.lease.ended 4))

/-- OPREQ (R373). -/
def execOpreq (f : Slot) (s : State) : Out :=
  let x := s.g f.a.toNat
  guarded (.opreq f) f s
    (if 8 ≤ x.toNat then s.trap 7 (syndPower 0x11 0 0 0 0)
     else s.holdOrTrap 0x332 16 (.opreq (f.imm.toNat % 4) (x.setWidth 3)))

end Sys2Proof.Machine
end

