-- ==== Sys2Proof/Machine/Portable.lean ====
section
/-! DEFINITION. Moldiba bundles (spec/17_fabric.md R408) and what a kernel in them must meet before Fuward translates it
(R411): their form, and the registers that only trap handlers may name. -/

namespace Sys2Proof.Machine

/-! ### Bundles (R408) -/

/-- The operation of a Moldiba slot, with every class in any slot, LAT 0 and PSEL 0; an all-zero slot is empty. -/
def portableSlot (w : SlotWord) : Except Unit (Option Instr) :=
  if w = 0 then .ok none
  else if (slotFields w).lat ≠ 0 ∨ (slotFields w).psel ≠ 0 then .error ()
  else match decodeSlot (!classAllowed (slotOp w).toNat false) 0 w with
    | .ok i => .ok (some i)
    | .error _ => .error ()

/-- The operations in the four slots of a bundle of 64 bytes, in slot order. -/
def portableSlots (b : List Byte) : Except Unit (List Instr) :=
  ((List.range 4).mapM fun k => portableSlot (BitVec.ofNat 128 (natOfBytes ((b.drop (16 * k)).take 16)))).map
    fun l => l.filterMap id

/-- Some two operations break the pairing rule of R79. -/
def pairedBad : List Instr → Bool
  | [] => false
  | i :: is => is.any (fun j => pairingBad (some i) (some j)) || pairedBad is

/-- An operation of class 0b001. -/
def isControl (i : Instr) : Bool :=
  match opForm i with
  | some (_, o) => o.op / 128 == 1
  | none => false

/-- The operations of a Moldiba bundle, if it is in order: well paired, and a control operation is the last. -/
def portableBundle (b : List Byte) : Option (List Instr) :=
  match portableSlots b with
  | .error _ => none
  | .ok is => if pairedBad is || is.dropLast.any isControl then none else some is

/-! ### Registers for handlers (R179, R411) -/

/-- A register that code outside a handler may not name: g56 to g63, p14, p15. -/
def reservedReg (x : BitVec 9) : Option RegFile → Bool
  | some .g => decide (56 ≤ x.toNat)
  | some .p => decide (14 ≤ x.toNat)
  | _ => false

/-- An operation names such a register. -/
def namesReserved (i : Instr) : Bool :=
  match opForm i with
  | none => false
  | some (f, o) => reservedReg f.d o.d || reservedReg f.a o.a || reservedReg f.b o.b || reservedReg f.c o.c
      || decide (14 ≤ f.pnum.toNat)

/-- Where control goes from Moldiba bundle `n`: the bundles, or none for any bundle (a branch to a register). -/
def portableNext (n : Nat) (is : List Instr) : Option (List Nat) :=
  let always := fun (f : Slot) => f.pn == 0 && f.pnum == 0
  let goes := fun (f : Slot) => (Int.ofNat n + f.imm.toInt).toNat
  match is.getLast? with
  | some (.br f) => if f.im then some (goes f :: if always f then [] else [n + 1]) else none
  | some (.call f) => if f.im then some [goes f, n + 1] else none
  | some (.ret f) => some (if always f then [] else [n + 1])
  | some (.endTask f) => some (if always f then [] else [n + 1])
  | some (.eret f) => some (if always f then [] else [n + 1])
  | some (.loopb f) => some [n + 1, n + 2 + f.imm.toNat % 16]
  | some (.rep _) => some [n + 1, n + 2]
  | _ => some [n + 1]

/-- The bundles that can be reached from some bundles, or none when every bundle can. -/
def reachable (prog : List (List Instr)) : (fuel : Nat) → (todo seen : List Nat) → Option (List Nat)
  | 0, _, seen => some seen
  | _, [], seen => some seen
  | fuel + 1, n :: todo, seen =>
    if seen.contains n then reachable prog fuel todo seen
    else match prog[n]? with
      | none => reachable prog fuel todo seen
      | some is => match portableNext n is with
        | none => none
        | some next => reachable prog fuel (next ++ todo) (n :: seen)

/-- The first bundle that names a register reserved for handlers and cannot be reached from TVEC. -/
def misnamed (prog : List (List Instr)) (tvec : Nat) : Option Nat :=
  match reachable prog (4 * prog.length + 1) [tvec] [] with
  | none => none
  | some seen => (prog.zipIdx.find? fun (is, n) => is.any namesReserved && !seen.contains n).map (·.2)

/-- The bundles of a Moldiba section, or the number of the first that is out of order. -/
def portableProgram : (index : Nat) → List (List Byte) → Except Nat (List (List Instr))
  | _, [] => .ok []
  | n, b :: bs => match portableBundle b with
    | none => .error n
    | some is => match portableProgram (n + 1) bs with
      | .error e => .error e
      | .ok l => .ok (is :: l)

end Sys2Proof.Machine
end

