-- ==== Sys2Proof/Machine/Registers.lean ====
section
/-! DEFINITION. Writes to the register windows (spec/17_fabric.md R390 to R399; spec/12_die_scheduling.md R299, R300, R314;
spec/13_die_memory.md R330, R338; spec/15_package.md R367, R378, R385). A value is that of an 8-byte write: a 4-byte write is
the 8-byte write that R391 gives for it (log 23). -/

namespace Sys2Proof.Machine

/-- A register after a write that reaches the bits of a mask (R5). -/
def masked (mask : Nat) (old v : W64) : W64 := (old &&& ~~~ BitVec.ofNat 64 mask) ||| (v &&& BitVec.ofNat 64 mask)

/-- Bits `hi..lo`. -/
def bitMask (hi lo : Nat) : Nat := 2 ^ (hi + 1) - 2 ^ lo

/-- BAD_REGISTER_ACCESS (R391). -/
def execBadRegisterAccess (fn : Nat) (s : State) : Out := .next (s.setFstat fn 2)

/-! ### Launch queues (R299, R300, R390, R405, R406) -/

/-- A function sees a queue: function 0 sees all, a virtual function those whose FUNC it is (R390). -/
def State.sees (s : State) (fn q : Nat) : Bool := fn == 0 || (s.queue q).func == fn

/-- A doorbell. -/
def State.doorbell (s : State) (q : Nat) (v : W64) : State :=
  let x := s.queue q
  let head : W32 := v.setWidth 32
  if x.devFed then s
  else if (s.standQueue q && s.position.1 != 0) || decide (2 ^ x.lsize < (head - x.qtail).toNat) then
    s.setQueue q { x with badhd := true }
  else (s.setQueue q { x with qhead := head }).event q 0 (.doorbell q head)

/-- QHEAD_WRITE. -/
def execQheadWrite (fn q : Nat) (v : BitVec 64) (s : State) : Out := .next (if s.sees fn q then s.doorbell q v else s)

/-- The fields of QCFG that a function may write. -/
def cfgMask (fn : Nat) : Nat :=
  if fn = 0 then bitMask 39 19 else bitMask 39 19 - (bitMask 31 30 + bitMask 29 29 + bitMask 28 28 + bitMask 26 23)

/-- A write to QCFG: while EN = 1 it reaches EN alone, and one that sets EN needs LSIZE 4 to 14. -/
def State.writeQcfg (s : State) (fn q : Nat) (v : W64) : State :=
  let x := s.queue q
  if x.qcfg.getLsbD 27 then
    if v.getLsbD 27 then s else s.setQueue q { x with qcfg := x.qcfg &&& ~~~ BitVec.twoPow 64 27, on := false }
  else
    let cfg := masked (cfgMask fn) x.qcfg v
    let lsize := bitsOf cfg.toNat 22 19
    if !cfg.getLsbD 27 then s.setQueue q { x with qcfg := cfg }
    else if lsize < 4 ∨ 14 < lsize then s
    else (s.setQueue q { x with qcfg := cfg }).event q 0 (.enable q cfg)

/-- QCFG_EN_SET. -/
def execQcfgEnSet (fn q : Nat) (v : BitVec 64) (s : State) : Out :=
  .next (if s.sees fn q then s.writeQcfg fn q (v ||| BitVec.twoPow 64 27) else s)

/-- QSTAT_THAW (R310). -/
def execQstatThaw (fn q : Nat) (s : State) : Out := .next (if s.sees fn q then s.event q 0 (.thaw q) else s)

/-- A write to QSTAT: a 1 in BADHD clears it, a 1 in FROZEN thaws. -/
def State.writeQstat (s : State) (q : Nat) (v : W64) : State :=
  let s1 := if v.getLsbD 61 then s.setQueue q { s.queue q with badhd := false } else s
  if v.getLsbD 63 then s1.event q 0 (.thaw q) else s1

/-- A write to QBASE, ignored while EN = 1. -/
def State.writeQbase (s : State) (q : Nat) (v : W64) : State :=
  let x := s.queue q
  if x.qcfg.getLsbD 27 then s else s.setQueue q { x with qbase := masked (bitMask 47 7) x.qbase v }

/-! ### Event rings (R314) -/

/-- ERRD_WRITE: readable at once, applied on its decision tick (R301). -/
def execErrdWrite (fn : Nat) (v : BitVec 64) (s : State) : Out :=
  .next ((s.setFn fn { s.fn fn with errd := v.setWidth 32 }).event 0 0 (.ringRegs fn 0 (v &&& BitVec.ofNat 64 (bitMask 31 0))))

/-- ERBASE_WRITE. -/
def execErbaseWrite (fn : Nat) (v : BitVec 64) (s : State) : Out :=
  let x := masked (bitMask 47 5) 0 v
  .next ((s.setFn fn { s.fn fn with erbase := x }).event 0 0 (.ringRegs fn 1 x))

/-- ERCFG_WRITE: ignored as a whole when LSIZE lies outside 6 to 20. -/
def execErcfgWrite (fn : Nat) (v : BitVec 64) (s : State) : Out :=
  let x := masked (bitMask 63 16 + bitMask 5 0) 0 v
  let lsize := bitsOf v.toNat 4 0
  .next (if lsize < 6 ∨ 20 < lsize then s else (s.setFn fn { s.fn fn with ercfg := x }).event 0 0 (.ringRegs fn 2 x))

/-! ### External notices (R177, R395) -/

/-- What became of a notice. -/
inductive NoticeFate where
  | taken | missed | busy
deriving DecidableEq, Repr

def Task.named (t : Task) (q slot tile : Nat) : Bool :=
  t.id.live && t.id.queue == q && t.id.packet == slot && t.id.tile == tile

/-- An external notice is pending for the task. -/
def Task.noticed (t : Task) : Bool := t.flow.notices.any fun n => n.sclass == 9

def Task.addNotice (t : Task) (n : Notice) : Task := { t with flow := { t.flow with notices := t.flow.notices ++ [n] } }

/-- SYND of an external notice (R177): CAUSE, SOURCE and PAYLOAD. -/
def syndExternal (cause source : Nat) (payload : W32) : W64 :=
  BitVec.ofNat 64 (cause * 2 ^ 56 + source * 2 ^ 48 + payload.toNat)

/-- One attempt to deliver an external notice to the running or pre-empted task of a slot and a tile. -/
def State.sendNotice (s : State) (q slot tile : Nat) (synd : W64) : State × NoticeFate :=
  match s.tasks.find? (·.named q slot tile) with
  | some t =>
    if t.noticed then (s, .busy) else (s.onTask t.ref (·.addNotice ⟨9, synd⟩), .taken)
  | none =>
    match s.saved.find? fun x => x.task.named q slot tile with
    | none => (s, .missed)
    | some x =>
      if x.task.noticed then (s, .busy)
      else ({ s with saved := s.saved.map fun y => if y = x then { y with task := y.task.addNotice ⟨9, synd⟩ } else y }, .taken)

/-- FSTAT of a function says when a notice was refused (R395). -/
def State.noteFate (fn : Nat) : State × NoticeFate → State
  | (t, .taken) => t
  | (t, .missed) => t.setFstat fn 3
  | (t, .busy) => t.setFstat fn 4

/-- NPAY_WRITE: FSTAT says when the notice was refused. -/
def execNpayWrite (fn : Nat) (v : BitVec 64) (s : State) : Out :=
  let w := (s.fn fn).ntgt.toNat
  let q := bitsOf w 63 58
  .next (if (s.queue q).func ≠ fn then s.setFstat fn 3
    else State.noteFate fn (s.sendNotice q (bitsOf w 57 44) (bitsOf w 31 0) (syndExternal 1 fn (v.setWidth 32))))

/-- MANAGEMENT_NOTICE: a refusal shows in the FSTAT of the queue's function (R395; log 23). -/
def execManagementNotice (q slot tile : Nat) (payload : BitVec 32) (s : State) : Out :=
  .next (State.noteFate (s.queue q).func (s.sendNotice q slot tile (syndExternal 2 0 payload)))

/-! ### Plots (R330, R367) -/

/-- A change of plots is in progress: PLSTAT.BUSY. -/
def State.plsetBusy (s : State) : Bool := s.dev.plreq.isSome || s.dev.adreq.isSome

/-- A write to PLSET is refused. -/
def State.plsetRefused (s : State) (v : W64) : Bool :=
  let plot := bitsOf v.toNat 49 32
  let owner := bitsOf v.toNat 15 8
  let state := bitsOf v.toNat 2 0
  plot == 0 || s.plotState plot == 5 || decide (4 < state) || decide (191 < owner) || (owner != 0 && state != 1)
    || (state == 3 && decide (plot < 131072)) || ((state == 1 || state == 2) && decide (131072 ≤ plot)) || s.plsetBusy

/-- PLSET_WRITE. -/
def execPlsetWrite (v : BitVec 64) (s : State) : Out :=
  .next (if s.plsetRefused v then s.reject else { s with dev := { s.dev with plreq := some v } })

/-- A write that sets EN is refused. -/
def State.enableRefused (s : State) (v : W64) : Bool :=
  adBase v % 2 == 1 || decide (131071 < adBase v + 1023) || s.pkg.adplot.getLsbD 31 || s.plsetBusy
    || !(List.range 1024).all fun i => s.plotState (adBase v + i) == 0

/-- A write to ADPLOT: a change of EN waits until the plots of its run have drained, and no other write is accepted
meanwhile (log 34). -/
def State.writeAdplot (s : State) (v : W64) : State :=
  let x := masked (bitMask 31 31 + bitMask 17 0) 0 v
  let waiting := { s with dev := { s.dev with adreq := some x } }
  if v.getLsbD 31 then if s.enableRefused v then s.reject else waiting
  else if s.dev.adreq.isSome then s.reject
  else if s.pkg.adplot.getLsbD 31 then if s.keepsRun then s.reject else waiting
  else s.setAdplot x

/-- ADPLOT_ENABLE. -/
def execAdplotEnable (v : BitVec 64) (s : State) : Out := .next (s.writeAdplot (v ||| BitVec.twoPow 64 31))

/-- ADPLOT_DISABLE. -/
def execAdplotDisable (v : BitVec 64) (s : State) : Out := .next (s.writeAdplot (v &&& ~~~ BitVec.twoPow 64 31))

/-! ### Invalidations, gauges, helpers (R338, R398, R399) -/

/-- A write to TINV; ignored while one is in progress. -/
def State.startTinv (s : State) (w : Nat) : State :=
  if s.dev.tinv.isSome then s else { s with dev := { s.dev with tinv := some (BitVec.ofNat 64 w) } }

/-- TINV_PAGE. -/
def execTinvPage (fn : BitVec 4) (vpn : BitVec 32) (s : State) : Out :=
  .next (s.startTinv (fn.toNat * 2 ^ 58 + vpn.toNat * 2 ^ 16))

/-- TINV_FUNCTION. -/
def execTinvFunction (fn : BitVec 4) (s : State) : Out := .next (s.startTinv (2 ^ 62 + fn.toNat * 2 ^ 58))

/-- TINV_ALL. -/
def execTinvAll (s : State) : Out := .next (s.startTinv (2 ^ 63))

/-- The image staged in GSTG0 to GSTG3. -/
def DevRegs.staged (x : DevRegs) : BitVec 256 :=
  BitVec.ofNat 256 ((List.range 4).foldl (fun acc i => acc + (x.gstg.getD i 0).toNat * 2 ^ (64 * i)) 0)

/-- GCMD_WRITE: on its decision tick, as a released CORD. -/
def execGcmdWrite (v : BitVec 64) (s : State) : Out := .next (s.event 0 0 (.cord (v.setWidth 16) s.dev.staged))

/-- HLPRST_WRITE: ignored for a helper that runs and for a core that does not exist. -/
def execHlprstWrite (v : BitVec 64) (s : State) : Out :=
  let l := bitsOf v.toNat 7 0
  .next (if 192 ≤ l ∨ (s.helperAt l (bitsOf v.toNat 8 8)).mode = .running then s
    else (s.selectHelper l (bitsOf v.toNat 8 8)).hRestart .running)

/-! ### Sprint and checkpoints (R377, R378, R385) -/

/-- A write to SPEN; clearing it ends every active lease. -/
def State.writeSpen (s : State) (on : Bool) : State :=
  let s1 : State := s.setPkg { s.pkg with spen := on }
  if on then s1 else s1.revokeAll 3

/-- HSTAT_SPEN_WRITE. -/
def execHstatSpenWrite (v : BitVec 64) (s : State) : Out := .next (s.writeSpen (v.getLsbD 32))

/-- A restore may run: no task runs, every queue is frozen or off, and there is an image. -/
def State.restoreOk (s : State) : Bool :=
  s.tasks.all (fun t => !t.id.live) && s.queues.all (fun (_, x) => x.frozen || !x.qcfg.getLsbD 27)
    && s.pkg.valid.getLsbD s.pkg.newest

/-- A write to CKCTL. -/
def State.writeCkctl (s : State) (v : W64) : State :=
  let s1 : State := s.setPkg { s.pkg with plck := v.getLsbD 3, cmp := v.getLsbD 2, op := v.getLsbD 1 }
  if !v.getLsbD 0 || s.pkg.ckstate != 0 then s1
  else if !v.getLsbD 1 then s1.startSave
  else s1.setPkg { s1.pkg with ckstate := if s.restoreOk then 2 else 3 }

/-- CKCTL_SAVE: GO with OP = 0. -/
def execCkctlSave (v : BitVec 64) (s : State) : Out := .next (s.writeCkctl ((v &&& ~~~ 2) ||| 1))

/-- CKCTL_RESTORE: GO with OP = 1. -/
def execCkctlRestore (v : BitVec 64) (s : State) : Out := .next (s.writeCkctl (v ||| 3))

/-! ### Loads and attestation (R416, R419) -/

/-- A write to LDCTL: OP is set, and GO starts unless a load is in progress. -/
def State.writeLdctl (s : State) (fn : Nat) (op go : Bool) : State :=
  let r := { s.fn fn with ldop := op }
  if go && r.ldst.toNat % 4 != 1 then
    s.setFn fn { r with ldst := 1, ldcap := [BitVec.ofNat 64 op.toNat, r.ldsrc, r.ldcode, r.ldhnd] }
  else s.setFn fn r

/-- LDCTL_LOAD. -/
def execLdctlLoad (fn : Nat) (s : State) : Out := .next (s.writeLdctl fn false true)

/-- LDCTL_UNLOAD. -/
def execLdctlUnload (fn : Nat) (s : State) : Out := .next (s.writeLdctl fn true true)

/-- ATCTL_GO: the nonce and ADDR are captured. -/
def execAtctlGo (fn : Nat) (s : State) : Out :=
  let r := s.fn fn
  .next (if r.atstate = 1 then s else s.setFn fn { r with atstate := 1, atcap := r.nonce ++ [r.ataddr] })

/-! ### Every other register (R5, R391, R397) -/

/-- A write to MDPOS, ignored while a stand queue has EN = 1 (R405). -/
def State.writeMdpos (s : State) (v : W64) : State :=
  if (List.range 64).any fun q => s.standQueue q && (s.queue q).qcfg.getLsbD 27 then s
  else { s with dev := { s.dev with mdpos := masked (bitMask 13 8 + bitMask 5 0) 0 v } }

/-- A write to MDQ: bit q is ignored while queue q has EN = 1. -/
def State.writeMdq (s : State) (v : W64) : State :=
  { s with dev := { s.dev with mdq := (List.range 64).foldl (fun (acc : W64) q =>
      if (s.queue q).qcfg.getLsbD 27 then acc
      else if v.getLsbD q then acc ||| BitVec.twoPow 64 q else acc &&& ~~~ BitVec.twoPow 64 q) s.dev.mdq } }

/-- A write to PROUTE: traffic that waits for the position takes the new route (R404). -/
def State.writeProute (s : State) (p : Nat) (v : W64) : State :=
  State.retake { s with dev := { s.dev with
    proute := sset (fun _ => 0) s.dev.proute p (masked (bitMask 7 7 + bitMask 2 0) 0 v) } } p

/-- A write to word `w` of a gauge: FIRED alone is writable (R398). -/
def State.clearFired (s : State) (r : GaugeRef) (w : Nat) (v : W64) : State :=
  if w = 0 ∧ v.getLsbD 7 then s.setGauge r (gaugeSet (s.gauge r) 7 7 0) else s

/-- A write to a word of the MSI-X table: unmasking a vector sends what is pending (R394; layout PRESUMED, log 6). -/
def State.writeMsix (s : State) (fn n : Nat) (v : W64) : State :=
  let r := s.fn fn
  (s.setFn fn { r with msix := r.msix.set n v }).sendPending fn (n / 2)

/-- A write to a function's MSI-X enable and function mask in the configuration space (R394; PRESUMED, log 6). -/
def State.controlMsix (s : State) (fn : Nat) (on mask : Bool) : State :=
  ((s.setFn fn { s.fn fn with msixOn := on, msixMask := mask }).sendPending fn 0).sendPending fn 1

/-- A write by function `fn` to its own registers. -/
def State.writeFunction (s : State) (fn : Nat) (r : WinReg) (v : W64) : State :=
  let x := s.fn fn
  match r with
  | .ntgt _ => s.setFn fn { x with ntgt := masked (bitMask 63 44 + bitMask 31 0) 0 v }
  | .fstat _ => s.setFn fn { x with fstat := x.fstat &&& ~~~ v.setWidth 5 }
  | .msix _ n => s.writeMsix fn n v
  | .ldctl _ => s.writeLdctl fn (v.getLsbD 1) (v.getLsbD 0)
  | .ldsrc _ => s.setFn fn { x with ldsrc := masked (bitMask 47 0) 0 v }
  | .ldcode _ => s.setFn fn { x with ldcode := masked (bitMask 63 16) 0 v }
  | .ldhnd _ => s.setFn fn { x with ldhnd := v }
  | .atnonce _ n => s.setFn fn { x with nonce := x.nonce.set n v }
  | .ataddr _ => s.setFn fn { x with ataddr := masked (bitMask 47 0) 0 v }
  | _ => s

/-- A write to a root register (R335). -/
def State.writeTroot (s : State) (f : Nat) (v : W64) : State :=
  s.setFn f { s.fn f with troot := masked (bitMask 38 12 + bitMask 0 0) 0 v }

/-- A write to a register of the device block (R397). -/
def State.writeBlock (s : State) (r : WinReg) (v : W64) : State :=
  match r with
  | .adplot => s.writeAdplot v
  | .hstat => s.writeSpen (v.getLsbD 32)
  | .schage => { s with dev := { s.dev with schage := v.setWidth 32 } }
  | .plstat => if v.getLsbD 1 then { s with dev := { s.dev with rej := false } } else s
  | .ckctl => s.writeCkctl v
  | .hapbase => { s with dev := { s.dev with hapbase := masked (bitMask 63 38) 0 v } }
  | .mdpos => s.writeMdpos v
  | .mdq => s.writeMdq v
  | .gstg n => { s with dev := { s.dev with gstg := s.dev.gstg.set n v } }
  | .mbud c => s.setCluster c { s.cluster c with mbud := masked (bitMask 24 0) 0 v }
  | .proute p => s.writeProute p v
  | .padGauge c i w => s.clearFired ⟨false, c, i⟩ w v
  | .ctlGauge d i w => s.clearFired ⟨true, d, i⟩ w v
  | _ => s

/-- Where a register lies. -/
inductive RegHome where
  | queue (q : Nat)
  | function (f : Nat)
  | root (f : Nat)
  | block
deriving DecidableEq, Repr

def regHome : WinReg → RegHome
  | .qbase q | .qcfg q | .qtail q | .qstat q => .queue q
  | .erwr f | .erstat f | .ntgt f | .fstat f | .msix f _ | .ldctl f | .ldsrc f | .ldcode f | .ldst f | .ldhnd f
  | .atnonce f _ | .ataddr f => .function f
  | .troot f => .root f
  | _ => .block

/-- A write to a queue's registers other than QHEAD. -/
def State.writeQueue (s : State) (fn q : Nat) (r : WinReg) (v : W64) : State :=
  match r with
  | .qbase _ => s.writeQbase q v
  | .qcfg _ => s.writeQcfg fn q v
  | .qstat _ => s.writeQstat q v
  | _ => s

/-- REGISTER_WRITE: fields that are read-only, hardware's, reserved or unassigned stay as they are. -/
def execRegisterWrite (fn : Nat) (r : WinReg) (v : BitVec 64) (s : State) : Out :=
  .next (match regHome r with
    | .queue q => if s.sees fn q then s.writeQueue fn q r v else s
    | .function f => if f = fn then s.writeFunction fn r v else s
    | .root f => if f = fn ∨ fn = 0 then s.writeTroot f v else s
    | .block => if fn = 0 then s.writeBlock r v else s)

end Sys2Proof.Machine
end

