-- ==== Sys2Proof/Machine/Sign.lean ====
section
/-! DEFINITION. The two outside standards that the device's signatures rest on (spec/17_fabric.md R418, R419): SHA-512 of
FIPS 180-4 and pure Ed25519 of RFC 8032. -/

namespace Sys2Proof.Machine

/-! ### SHA-512 (FIPS 180-4) -/

/-- The constants of the rounds. -/
def shaConstants : List W64 :=
  [0x428A2F98D728AE22, 0x7137449123EF65CD, 0xB5C0FBCFEC4D3B2F, 0xE9B5DBA58189DBBC, 0x3956C25BF348B538,
    0x59F111F1B605D019, 0x923F82A4AF194F9B, 0xAB1C5ED5DA6D8118, 0xD807AA98A3030242, 0x12835B0145706FBE,
    0x243185BE4EE4B28C, 0x550C7DC3D5FFB4E2, 0x72BE5D74F27B896F, 0x80DEB1FE3B1696B1, 0x9BDC06A725C71235,
    0xC19BF174CF692694, 0xE49B69C19EF14AD2, 0xEFBE4786384F25E3, 0x0FC19DC68B8CD5B5, 0x240CA1CC77AC9C65]
  ++ [0x2DE92C6F592B0275, 0x4A7484AA6EA6E483, 0x5CB0A9DCBD41FBD4, 0x76F988DA831153B5, 0x983E5152EE66DFAB,
    0xA831C66D2DB43210, 0xB00327C898FB213F, 0xBF597FC7BEEF0EE4, 0xC6E00BF33DA88FC2, 0xD5A79147930AA725,
    0x06CA6351E003826F, 0x142929670A0E6E70, 0x27B70A8546D22FFC, 0x2E1B21385C26C926, 0x4D2C6DFC5AC42AED,
    0x53380D139D95B3DF, 0x650A73548BAF63DE, 0x766A0ABB3C77B2A8, 0x81C2C92E47EDAEE6, 0x92722C851482353B]
  ++ [0xA2BFE8A14CF10364, 0xA81A664BBC423001, 0xC24B8B70D0F89791, 0xC76C51A30654BE30, 0xD192E819D6EF5218,
    0xD69906245565A910, 0xF40E35855771202A, 0x106AA07032BBD1B8, 0x19A4C116B8D2D0C8, 0x1E376C085141AB53,
    0x2748774CDF8EEB99, 0x34B0BCB5E19B48A8, 0x391C0CB3C5C95A63, 0x4ED8AA4AE3418ACB, 0x5B9CCA4F7763E373,
    0x682E6FF3D6B2B8A3, 0x748F82EE5DEFB2FC, 0x78A5636F43172F60, 0x84C87814A1F0AB72, 0x8CC702081A6439EC]
  ++ [0x90BEFFFA23631E28, 0xA4506CEBDE82BDE9, 0xBEF9A3F7B2C67915, 0xC67178F2E372532B, 0xCA273ECEEA26619C,
    0xD186B8C721C0C207, 0xEADA7DD6CDE0EB1E, 0xF57D4F7FEE6ED178, 0x06F067AA72176FBA, 0x0A637DC5A2C898A6,
    0x113F9804BEF90DAE, 0x1B710B35131C471B, 0x28DB77F523047D84, 0x32CAAB7B40C72493, 0x3C9EBE0A15C9BEBC,
    0x431D67C49C100D4C, 0x4CC5D4BECB3E42B6, 0x597F299CFC657E2A, 0x5FCB6FAB3AD6FAEC, 0x6C44198C4A475817]

/-- The hash value at the start. -/
def shaStart : List W64 :=
  [0x6A09E667F3BCC908, 0xBB67AE8584CAA73B, 0x3C6EF372FE94F82B, 0xA54FF53A5F1D36F1, 0x510E527FADE682D1,
    0x9B05688C2B3E6C1F, 0x1F83D9ABFB41BD6B, 0x5BE0CD19137E2179]

/-- A number in some bytes, most significant first. -/
def natOfBig (bs : List Byte) : Nat := bs.foldl (fun acc b => acc * 256 + b.toNat) 0

/-- The message with its padding: a 1 bit, zeros, and its length in bits. -/
def shaPadded (m : List Byte) : List Byte :=
  m ++ 0x80 :: (List.replicate ((239 - m.length % 128) % 128) 0 ++ (bytesOfNat 16 (8 * m.length)).reverse)

/-- The schedule of a block, latest word first: each new word from those 2, 7, 15 and 16 before it. -/
def shaSchedule : (n : Nat) → List W64 → List W64
  | 0, w => w
  | n + 1, w =>
    let x := w.getD 14 0
    let y := w.getD 1 0
    let s0 := x.rotateRight 1 ^^^ x.rotateRight 8 ^^^ (x >>> 7)
    let s1 := y.rotateRight 19 ^^^ y.rotateRight 61 ^^^ (y >>> 6)
    shaSchedule n ((s1 + w.getD 6 0 + s0 + w.getD 15 0) :: w)

/-- One round on the eight working variables. -/
def shaRound (v : List W64) (kw : W64 × W64) : List W64 :=
  match v with
  | [a, b, c, d, e, f, g, h] =>
    let t1 := h + (e.rotateRight 14 ^^^ e.rotateRight 18 ^^^ e.rotateRight 41) + ((e &&& f) ^^^ (~~~ e &&& g)) + kw.1 + kw.2
    let t2 := (a.rotateRight 28 ^^^ a.rotateRight 34 ^^^ a.rotateRight 39) + ((a &&& b) ^^^ (a &&& c) ^^^ (b &&& c))
    [t1 + t2, a, b, c, d + t1, e, f, g]
  | _ => v

/-- The hash value after a block of 128 bytes. -/
def shaBlock (h : List W64) (b : List Byte) : List W64 :=
  let words := (chunks 8 b.length b).map fun x => BitVec.ofNat 64 (natOfBig x)
  let w := (shaSchedule 64 words.reverse).reverse
  List.zipWith (· + ·) h ((shaConstants.zip w).foldl shaRound h)

/-- SHA-512, as its 64 bytes. -/
def sha512 (m : List Byte) : List Byte :=
  let p := shaPadded m
  ((chunks 128 p.length p).foldl shaBlock shaStart).flatMap fun x => (bytesOfNat 8 x.toNat).reverse

/-! ### The field and the curve (RFC 8032, 5.1) -/

/-- The prime of the field. -/
def edPrime : Nat := 2 ^ 255 - 19

/-- The order of the base point. -/
def edOrder : Nat := 2 ^ 252 + 27742317777372353535851937790883648493

/-- A power modulo `m`, of an exponent of at most `bits` bits. -/
def powMod (m b e : Nat) : (bits : Nat) → Nat
  | 0 => 1
  | bits + 1 =>
    let r := powMod m b (e / 2) bits
    let q := r * r % m
    if e % 2 = 1 then q * b % m else q

/-- The inverse in the field. -/
def edInverse (x : Nat) : Nat := powMod edPrime x (edPrime - 2) 256

/-- The constant of the curve. -/
def edD : Nat := (edPrime - 121665) * edInverse 121666 % edPrime

/-- A point in extended coordinates. -/
structure EdPoint where
  x : Nat
  y : Nat
  z : Nat
  t : Nat
deriving DecidableEq, Repr

/-- The neutral point. -/
def edZero : EdPoint := ⟨0, 1, 1, 0⟩

/-- The sum of two points. -/
def EdPoint.add (p q : EdPoint) : EdPoint :=
  let m := edPrime
  let a := (p.y + m - p.x) * (q.y + m - q.x) % m
  let b := (p.y + p.x) * (q.y + q.x) % m
  let c := 2 * p.t * q.t * edD % m
  let d := 2 * p.z * q.z % m
  let e := b + m - a
  let f := d + m - c
  let g := d + c
  let h := b + a
  ⟨e * f % m, g * h % m, f * g % m, e * h % m⟩

/-- A multiple of a point, by a number of at most `bits` bits. -/
def EdPoint.times (p : EdPoint) (n : Nat) : (bits : Nat) → EdPoint
  | 0 => edZero
  | bits + 1 =>
    let r := p.times (n / 2) bits
    let d := r.add r
    if n % 2 = 1 then d.add p else d

/-- Two points are the same. -/
def EdPoint.same (p q : EdPoint) : Bool :=
  p.x * q.z % edPrime == q.x * p.z % edPrime && p.y * q.z % edPrime == q.y * p.z % edPrime

/-- The x of a point with a given y and sign, if there is one. -/
def edRecover (y sign : Nat) : Option Nat :=
  let m := edPrime
  let u := (y * y + m - 1) % m
  let v := (edD * (y * y % m) + 1) % m
  let x := u * powMod m v 3 2 % m * powMod m (u * powMod m v 7 3 % m) ((m - 5) / 8) 256 % m
  let r := if v * (x * x % m) % m = u then some x
    else if v * (x * x % m) % m = (m - u) % m then some (x * powMod m 2 ((m - 1) / 4) 256 % m)
    else none
  r.bind fun x => if x = 0 ∧ sign = 1 then none else some (if x % 2 = sign then x else m - x)

/-- The point that 32 bytes encode. -/
def edDecode (n : Nat) : Option EdPoint :=
  let y := n % 2 ^ 255
  if edPrime ≤ y then none
  else (edRecover y (n / 2 ^ 255 % 2)).map fun x => ⟨x, y, 1, x * y % edPrime⟩

/-- The 32 bytes of a point, as a number. -/
def EdPoint.encode (p : EdPoint) : Nat :=
  let i := edInverse p.z
  p.y * i % edPrime + p.x * i % edPrime % 2 * 2 ^ 255

/-- The base point: y is 4/5 and x is even. -/
def edBase : EdPoint := (edDecode (4 * edInverse 5 % edPrime)).getD edZero

/-! ### Ed25519 (RFC 8032, 5.1.5 to 5.1.7) -/

/-- A hash as a number modulo the order. -/
def edHash (m : List Byte) : Nat := natOfBytes (sha512 m) % edOrder

/-- The secret scalar of a private key, and the second half of its hash. -/
def edSecret (seed : BitVec 256) : Nat × List Byte :=
  let h := sha512 (bytesOfNat 32 seed.toNat)
  let n := natOfBytes (h.take 32)
  (n % 2 ^ 254 / 8 * 8 + 2 ^ 254, h.drop 32)

/-- The public key of a private key. -/
def edPublic (seed : BitVec 256) : BitVec 256 := BitVec.ofNat 256 (edBase.times (edSecret seed).1 256).encode

/-- The signature of a message. -/
def edSign (seed : BitVec 256) (m : List Byte) : List Byte :=
  let s := edSecret seed
  let r := edHash (s.2 ++ m)
  let R := bytesOfNat 32 (edBase.times r 256).encode
  let k := edHash (R ++ (bytesOfNat 32 (edPublic seed).toNat ++ m))
  R ++ bytesOfNat 32 ((r + k * s.1) % edOrder)

/-- A signature of a message holds under a public key: the group equation of RFC 8032 with its cofactor. -/
def edVerify (key : BitVec 256) (m sig : List Byte) : Bool :=
  let S := natOfBytes (sig.drop 32)
  match edDecode key.toNat, edDecode (natOfBytes (sig.take 32)) with
  | some A, some R =>
    let k := edHash (sig.take 32 ++ (bytesOfNat 32 key.toNat ++ m))
    sig.length == 64 && decide (S < edOrder)
      && ((edBase.times S 256).times 8 4).same ((R.add (A.times k 256)).times 8 4)
  | _, _ => false

end Sys2Proof.Machine
end

