-- ==== Sys2Proof/Machine/Loading.lean ====
section
/-! DEFINITION. Code objects: their form, signature, sections and kernels (spec/17_fabric.md R408 to R418; spec/03 R67, R82),
unloading, and attestation reports (R419). A load acts as a whole when it ends (log 22). -/

namespace Sys2Proof.Machine

/-! ### Memory of a function (R393, R416, R419) -/

/-- The physical addresses of `n` bytes at a virtual address, in common or host plots; none when one is refused. -/
def State.functionKeys (s : State) (fn va n : Nat) (write : Bool) : Option (List Nat) :=
  (List.range n).mapM fun i =>
    if 0xF00000000000 ≤ va + i then none
    else match s.walk fn (va + i) write with
      | .error _ => none
      | .ok x =>
        let pa := x.pa + (va + i) % x.size
        if s.plotState (pa / 2 ^ 21) ∈ [2, 3] then some pa else none

/-- The bytes of a function's memory. -/
def State.functionBytes (s : State) (fn va n : Nat) : Option (List Byte) :=
  (s.functionKeys fn va n false).map fun ks => ks.map s.mem.read

/-- A read of the function's memory by a load, where it lies in host memory. -/
def State.fetchFrom (s : State) (fn va n : Nat) : State := s.bus fn false ((s.functionKeys fn va n false).getD [])

/-! ### Objects (R412) -/

/-- The number in `n` bytes at an offset. -/
def fieldAt (b : List Byte) (off n : Nat) : Nat := natOfBytes ((b.drop off).take n)

/-- Bytes `off` to `off + n − 1` are zero. -/
def zeroAt (b : List Byte) (off n : Nat) : Bool := ((b.drop off).take n).all (· == 0)

/-- A section table entry. -/
structure Section_ where
  type   : Nat
  packed : Bool
  kidx   : Nat
  off    : Nat
  stored : Nat
  bound  : Nat
  doff   : Nat
  dlen   : Nat
deriving DecidableEq, Repr

/-- LDST.CODE, SECT and DETAIL of a failure (R416, R417). -/
structure LoadError where
  code   : Nat
  sect   : Nat
  detail : Nat
deriving DecidableEq, Repr

/-- The entry in 32 bytes, of an object of `size` bytes and `nkern` kernels. -/
def sectionOf (b : List Byte) (size nkern : Nat) : Option Section_ :=
  let x : Section_ := ⟨fieldAt b 0 1, (b.getD 1 0).getLsbD 0, fieldAt b 2 2, fieldAt b 8 8, fieldAt b 0x10 4, fieldAt b 0x14 4,
    fieldAt b 0x18 4, fieldAt b 0x1C 4⟩
  if x.type = 0 ∨ 8 < x.type ∨ 2 ≤ fieldAt b 1 1 ∨ nkern ≤ x.kidx ∨ !zeroAt b 4 4 ∨ size < x.off + x.stored + 64
    ∨ 65536 < x.dlen ∨ size < x.doff + x.dlen + 64 then none else some x

/-- The section table from its bytes, or the index of its first bad entry. -/
def sectionsOf (size nkern : Nat) : (index n : Nat) → List Byte → Except LoadError (List Section_)
  | _, 0, _ => .ok []
  | index, n + 1, b =>
    match sectionOf (b.take 32) size nkern with
    | none => .error ⟨2, index, 0⟩
    | some x => match sectionsOf size nkern (index + 1) n (b.drop 32) with
      | .error e => .error e
      | .ok xs => .ok (x :: xs)

/-- The header is in order (R412). -/
def headerOk (h : List Byte) : Bool :=
  let nsec := fieldAt h 6 2
  let size := fieldAt h 8 8
  fieldAt h 0 4 == 0x32584B53 && fieldAt h 4 2 == 1 && decide (1 ≤ nsec ∧ nsec ≤ 1024) && decide (fieldAt h 0x11 1 < 8)
    && decide (1 ≤ fieldAt h 0x12 2 ∧ fieldAt h 0x12 2 ≤ 256) && zeroAt h 0x14 12 && zeroAt h 0x28 88
    && decide (192 ≤ size ∧ fieldAt h 0x20 8 + 32 * nsec + 64 ≤ size)

/-- A code object: its bytes, header fields and sections. -/
structure CodeObject where
  bytes : List Byte
  mbv   : Nat
  key   : Nat
  nkern : Nat
  sects : List Section_
deriving DecidableEq, Repr

/-- MBV is 0 just when no section is Moldiba. -/
def CodeObject.mbvOk (x : CodeObject) : Bool := (x.mbv == 0) || x.sects.any (·.type == 2)

/-- The object at a virtual address of a function; CODE 2 when its header or its section table is bad, or not readable. -/
def State.readObject (s : State) (fn va : Nat) : Except LoadError CodeObject :=
  match s.functionBytes fn va 128 with
  | none => .error ⟨2, 0, 0⟩
  | some h =>
    if !headerOk h then .error ⟨2, 0, 0⟩
    else
      let size := fieldAt h 8 8
      match s.functionBytes fn va size with
      | none => .error ⟨2, 0, 0⟩
      | some b => match sectionsOf size (fieldAt h 0x12 2) 0 (fieldAt h 6 2) (b.drop (fieldAt h 0x20 8)) with
        | .error e => .error e
        | .ok xs =>
          let o : CodeObject := ⟨b, fieldAt h 0x10 1, fieldAt h 0x11 1, fieldAt h 0x12 2, xs⟩
          if o.mbvOk then .ok o else .error ⟨2, 0, 0⟩

/-- The device reads an object: its header, and all of it if the header is in order. -/
def State.fetchObject (s : State) (fn va : Nat) : State :=
  match s.functionBytes fn va 128 with
  | none => s
  | some h => s.fetchFrom fn va (if headerOk h then fieldAt h 8 8 else 128)

/-! ### Signatures (R415, R418) -/

/-- The key of a slot, with its NAT bit; none for an empty slot. -/
def State.keySlot (s : State) (slot : Nat) : Option (BitVec 256 × Bool) :=
  if slot = 0 then some (Config.vendorKey, true) else (s.keys.find? (·.1 = slot)).map (·.2)

/-- The signature of an object holds. -/
def State.signed (s : State) (o : CodeObject) : Bool :=
  let n := o.bytes.length - 64
  match s.keySlot o.key with
  | none => false
  | some k => edVerify k.1 (sha512 (o.bytes.take n)) (o.bytes.drop n)

/-- The key has NAT, or no section is native. -/
def State.nativeOk (s : State) (o : CodeObject) : Bool :=
  ((s.keySlot o.key).any (·.2)) || o.sects.all fun x => x.type != 3 && x.type != 4

/-- The Moldiba version is one of the five newest (R410). -/
def State.versionOk (s : State) (o : CodeObject) : Bool :=
  o.sects.all (·.type != 2) || decide (s.dev.mbv ≤ o.mbv + 4 ∧ o.mbv ≤ s.dev.mbv)

/-- The keys that a key-install object signed with slot 0 writes to slots 1 to 7. -/
def State.installKeys (s : State) (ks : List (Nat × BitVec 256 × Bool)) : State :=
  let ks := ks.filter fun k => decide (1 ≤ k.1 ∧ k.1 ≤ 7)
  { s with keys := s.keys.filter (fun k => !(ks.any (·.1 == k.1))) ++ ks }

/-! ### Sections (R413, R414) -/

/-- The bytes of a section, expanded. Where in a malformed section the failure lies, the spec does not say (log 2). -/
def CodeObject.content (o : CodeObject) (epoch i : Nat) (x : Section_) : Except LoadError (List Byte) :=
  let stored := (o.bytes.drop x.off).take x.stored
  if x.packed then
    let dict := if x.doff = 0 then [] else (o.bytes.drop x.doff).take x.dlen
    let t := expandLz4 x.bound dict.length dict (stored.length + 1) stored
    if t.code.isSome then .error ⟨6, i, (Config.freeBits epoch i 32).toNat⟩ else .ok t.out
  else .ok stored

/-- A section with its index and its content. -/
abbrev Loaded := Nat × Section_ × List Byte

/-- Every section's content but that of data sections, which the device ignores. -/
def CodeObject.contents (o : CodeObject) (epoch : Nat) : Except LoadError (List Loaded) :=
  (o.sects.zipIdx.filter fun x => x.1.type ≠ 8).mapM fun (x, i) => (o.content epoch i x).map fun b => (i, x, b)

/-- The sections of one type of a kernel. -/
def ofKernel (l : List Loaded) (k type : Nat) : List Loaded := l.filter fun x => x.2.1.kidx = k ∧ x.2.1.type = type

/-! ### Native images (R67, R82) -/

/-- The halfwords of an index stream. -/
def halfwords (b : List Byte) : List Nat := (chunks 2 b.length b).map natOfBytes

/-- The bundles of a dictionary. -/
def dictionaryOf (b : List Byte) : List BundleWord := (chunks 48 b.length b).map fun x => BitVec.ofNat 384 (natOfBytes x)

/-- The target of a slot at an offset that holds a BR or CALL with an immediate target. -/
def slotTarget (off : Nat) (w : SlotWord) : Option Int :=
  if slotOp w ∈ [0x080, 0x081] ∧ (slotFields w).im then some (off + (slotFields w).imm.toInt) else none

/-- The direct targets of a bundle at an offset, whatever its other defects (R67), each with that offset. -/
def directTargets (off : Nat) (w : BundleWord) : List (Nat × Int) :=
  ((if w.getLsbD 382 then (slotTarget off (w.extractLsb' 240 128)).toList else [])
    ++ (if w.getLsbD 381 then (slotTarget off (w.extractLsb' 112 128)).toList else [])).map fun t => (off, t)

/-- The parse of an index stream from an offset on: the direct targets, and the offsets that literals' halfwords take. -/
def parseStream (dict : List BundleWord) : (fuel off : Nat) → List Nat → List (Nat × Int) × List (Nat × Nat)
  | 0, _, _ => ([], [])
  | _, _, [] => ([], [])
  | fuel + 1, off, h :: hs =>
    if h = 0xFFFF then
      let r := parseStream dict fuel (off + 25) (hs.drop 24)
      (directTargets off (BitVec.ofNat 384 (literalOf (hs.take 24))) ++ r.1, (off + 1, off + 25) :: r.2)
    else
      let r := parseStream dict fuel (off + 1) hs
      ((dict[h]?).toList.flatMap (directTargets off) ++ r.1, r.2)

/-- The offset of the first bundle with a direct target on a halfword of a literal. -/
def badTarget (dict : List BundleWord) (clim : Nat) (stream : List Nat) : Option Nat :=
  let r := parseStream dict (clim + 1) 0 (stream.take clim)
  (r.1.find? fun t => r.2.any fun x => decide ((x.1 : Int) ≤ t.2 ∧ t.2 < (x.2 : Int))).map (·.1)

/-- The first dictionary entry that R69 to R81 refuse. -/
def badEntry (dict : List BundleWord) : Option Nat :=
  dict.findIdx? fun w => match decodeBundle w with
    | .ok _ => false
    | .error _ => true

/-! ### Kernels (R409, R411, R413) -/

/-- What a load makes of a kernel before its stream has a place. -/
structure KernelImage where
  tvec   : Nat
  clim   : Nat
  dict   : List BundleWord
  stream : List (BitVec 16)
  starts : Option (List Nat)
deriving DecidableEq, Repr

/-- The native code of a kernel with a descriptor: CODE 2 when its sections do not fit it, CODE 7 when R82 refuses it. -/
def nativeImage (d : List Byte) (st di : Loaded) : Except LoadError KernelImage :=
  let dict := dictionaryOf di.2.2
  let stream := halfwords st.2.2
  let clim := fieldAt d 0x10 4
  if di.2.2.length ≠ 48 * fieldAt d 0x14 4 ∨ st.2.2.length % 2 ≠ 0 ∨ stream.length < clim then .error ⟨2, di.1, 0⟩
  else match badEntry dict with
    | some i => .error ⟨7, di.1, 48 * i⟩
    | none => match badTarget dict clim stream with
      | some off => .error ⟨7, st.1, 2 * off⟩
      | none => .ok ⟨fieldAt d 0x0C 4, clim, dict, stream.map (BitVec.ofNat 16), none⟩

/-- The offsets at which the bundles of an index stream begin (R64). -/
def bundleStarts : (fuel off : Nat) → List Nat → List Nat
  | 0, _, _ => []
  | _, _, [] => []
  | fuel + 1, off, h :: hs =>
    off :: if h = 0xFFFF then bundleStarts fuel (off + 25) (hs.drop 24) else bundleStarts fuel (off + 1) hs

/-- Offsets that rise. -/
def rising : List Nat → Bool
  | a :: b :: l => decide (a < b) && rising (b :: l)
  | _ => true

/-- A translation keeps its promise (R411): every Moldiba bundle begins a native bundle, in order, and the stream and the
dictionary satisfy R69 to R81. -/
def promiseKept (count : Nat) (dict : List BundleWord) (stream : List Nat) (starts : List Nat) : Bool :=
  starts.length == count && rising starts && starts.all (bundleStarts (stream.length + 1) 0 stream).contains
    && (badEntry dict).isNone && (badTarget dict stream.length stream).isNone

/-- The native code that Fuward makes of a Moldiba kernel, or the CODE with which it refuses the kernel (R411, R417). A
bundle out of order breaks R408, for which the spec gives no CODE; a translation that breaks its promise is none (log 22). -/
def portableImage (epoch : Nat) (d : List Byte) (m : Loaded) : Except LoadError KernelImage :=
  let count := fieldAt d 0x10 4
  let tvec := fieldAt d 0x0C 4
  let unstated := (Config.freeBits epoch (4096 + m.1) 32).toNat
  if m.2.2.length ≠ 64 * count ∨ fieldAt d 0x14 4 ≠ 0 then .error ⟨2, m.1, 0⟩
  else match portableProgram 0 (chunks 64 count m.2.2) with
    | .error n => .error ⟨(Config.freeBits epoch (12288 + m.1) 8).toNat, m.1, 64 * n⟩
    | .ok prog => match misnamed prog tvec with
      | some n => .error ⟨8, m.1, 64 * n⟩
      | none => match Config.fuward m.2.2 [tvec] with
        | .error long => .error ⟨if long then 10 else 9, m.1, unstated⟩
        | .ok (dict, stream, starts) =>
          if promiseKept count dict (stream.map BitVec.toNat) starts then
            .ok ⟨tvec, stream.length, dict, stream, some starts⟩
          else .error ⟨9, m.1, unstated⟩

/-- The descriptor of a kernel is in order. -/
def descriptorOk (d : List Byte) : Bool := d.length == 64 && decide (fieldAt d 0x18 1 % 64 ≤ 32)

/-- The code of kernel `k`. -/
def kernelImage (epoch : Nat) (l : List Loaded) (k : Nat) : Except LoadError (List Byte × KernelImage) :=
  match ofKernel l k 1 with
  | [d] =>
    if !descriptorOk d.2.2 then .error ⟨2, d.1, 0⟩
    else match ofKernel l k 3, ofKernel l k 4, ofKernel l k 2 with
      | [st], [di], _ => (nativeImage d.2.2 st di).map fun x => (d.2.2, x)
      | [], [], [m] => (portableImage epoch d.2.2 m).map fun x => (d.2.2, x)
      | _, _, _ => .error ⟨2, d.1, 0⟩
  | _ => .error ⟨2, 0, 0⟩

/-- The pad images of a kernel in the order of the table. -/
def padImages (l : List Loaded) (k : Nat) : Except LoadError (List (Nat × List Byte)) :=
  (ofKernel l k 5).mapM fun x =>
    let off := fieldAt x.2.2 0 8
    if x.2.2.length < 8 ∨ off % 16 ≠ 0 ∨ 2 ^ 21 < off + (x.2.2.length - 8) then .error ⟨2, x.1, 0⟩
    else .ok (off, x.2.2.drop 8)

/-- The image of one helper of the object: the last one in the table; CODE 13 over 32 KiB. -/
def helperImage (l : List Loaded) (type : Nat) : Except LoadError (Option (List Byte)) :=
  let mine := l.filter fun x => x.2.1.type = type
  match mine.find? fun x => decide (2 ^ 15 < x.2.2.length) with
  | some x => .error ⟨13, x.1, 0⟩
  | none => .ok ((mine.getLast?).map (·.2.2))

/-! ### The code area (R416) -/

/-- The physical address of the area's byte `o`: every page of it lies in a common plot mapped without W. -/
def State.areaPage (s : State) (fn va : Nat) : Option Nat :=
  if 0xF00000000000 ≤ va then none
  else match s.walk fn va false with
    | .error _ => none
    | .ok x =>
      let pa := x.pa + va % x.size
      if !x.wr && s.plotState (pa / 2 ^ 21) == 2 then some pa else none

/-- The physical addresses of the pages of the area. -/
def State.areaPages (s : State) (fn base n : Nat) : Option (List Nat) :=
  (List.range n).mapM fun i => s.areaPage fn (base + 65536 * i)

/-- Streams stand one behind the other, each from a multiple of 64 bytes; where they do, and the bytes they take. -/
def layStreams (at_ : Nat) : List KernelImage → List Nat × Nat
  | [] => ([], at_)
  | k :: ks =>
    let r := layStreams ((at_ + 2 * k.stream.length + 63) / 64 * 64) ks
    (at_ :: r.1, r.2)

/-- The cells of the streams in the area. -/
def streamCells (pages : List Nat) (at_ : Nat) (st : List (BitVec 16)) : List Host.Cell :=
  ((st.flatMap fun h => bytesOfNat 2 h.toNat).zipIdx at_).map fun (b, o) => (pages.getD (o / 65536) 0 + o % 65536, b)

/-! ### Loads (R416, R417) -/

/-- The kernels of a function. -/
def State.kernelsOf (s : State) (fn : Nat) : Nat := (s.kernels.filter fun k => k.handle.toNat / 2 ^ 60 = fn).length

/-- The handle of kernel 0 of a new object: its number is one that the function does not use (log 22). -/
def State.newHandle (s : State) (fn : Nat) : W64 :=
  let start := (Config.freeBits s.epoch 8192 16 : BitVec 16).toNat
  let handle := fun i => BitVec.ofNat 64 (fn * 2 ^ 60 + (start + i) % 65536 * 2 ^ 44)
  handle (((List.range 65536).find? fun i => !(s.objects.any fun o => o.1 == handle i)).getD 0)

/-- The kernels of an object whose sections hold. -/
def State.assemble (s : State) (o : CodeObject) :
    Except LoadError (List (List Byte × KernelImage × List (Nat × List Byte)) × Option (List Byte) × Option (List Byte)) := do
  let l ← o.contents s.epoch
  let ks ← (List.range o.nkern).mapM fun k => do
    let x ← kernelImage s.epoch l k
    let p ← padImages l k
    pure (x.1, x.2, p)
  pure (ks, ← helperImage l 6, ← helperImage l 7)

/-- A kernel as the device holds it. -/
def loadedKernel (handle : W64) (stream : Nat) (x : List Byte × KernelImage × List (Nat × List Byte))
    (loader storer : Option (List Byte)) : Kernel where
  handle
  pe := fieldAt x.1 0 4; ke := fieldAt x.1 4 4; ee := fieldAt x.1 8 4
  tvec := x.2.1.tvec; clim := x.2.1.clim; dict := x.2.1.dict; stream
  gran := fieldAt x.1 0x18 1 % 64
  abind := BitVec.ofNat 4 (fieldAt x.1 0x19 1)
  nbind := BitVec.ofNat 8 (fieldAt x.1 0x1A 1)
  pads := x.2.2; loader; storer; starts := x.2.1.starts

/-- The kernels of an object whose sections hold, as `assemble` gives them. -/
abbrev Assembled := List (List Byte × KernelImage × List (Nat × List Byte)) × Option (List Byte) × Option (List Byte)

/-- The kernels of an object are stored in its area and known to the device, or there is no room for them. -/
def State.placeObject (s : State) (fn area : Nat) (o : CodeObject) (x : Assembled) : Except LoadError (State × Option W64) :=
  let placed := layStreams 0 (x.1.map (·.2.1))
  let base := bitsOf area 47 16 * 65536
  let n := bitsOf area 63 48
  match if n * 65536 < placed.2 then none else s.areaPages fn base n with
  | none => .error ⟨11, 0, 0⟩
  | some pages =>
    if 1024 < s.kernelsOf fn + o.nkern then .error ⟨12, 0, 0⟩
    else
      let h := s.newHandle fn
      let cells := (x.1.zip placed.1).flatMap fun (k, p) => streamCells pages p k.2.1.stream
      let new := (x.1.zip placed.1).zipIdx.map fun (k, i) =>
        loadedKernel (h + BitVec.ofNat 64 i) (base + k.2) k.1 x.2.1 x.2.2
      .ok ({ s.setMem (s.mem.writeCells cells) with
        kernels := s.kernels ++ new, objects := s.objects ++ [(h, o.nkern)] }, some h)

/-- The object is verified, translated and stored; nothing changes when it is refused. -/
def State.loadObject (s : State) (fn src area : Nat) : Except LoadError (State × Option W64) :=
  match s.readObject fn src with
  | .error e => .error e
  | .ok o =>
    if !s.signed o then .error ⟨3, 0, 0⟩
    else match if o.key = 0 then Config.keyInstall o.bytes else none with
      | some ks => .ok (s.installKeys ks, none)
      | none =>
        if !s.nativeOk o then .error ⟨4, 0, 0⟩
        else if !s.versionOk o then .error ⟨5, 0, 0⟩
        else match s.assemble o with
          | .error e => .error e
          | .ok x => s.placeObject fn area o x

/-! ### Unloads (R416) -/

/-- An accepted packet that has not completed names a kernel of the object. -/
def State.objectBusy (s : State) (h : W64) : Bool :=
  s.nodes.any fun n => (match n.state with | .completed _ => false | _ => true)
    && objectOf (BitVec.ofNat 64 (packetField n.packet 0 63 0)) == h

/-- The kernels of an object are gone, and with them what cores hold of them. -/
def State.dropObject (s : State) (h : W64) : State :=
  { s with
    kernels := s.kernels.filter fun k => objectOf k.handle ≠ h
    objects := s.objects.filter fun o => o.1 ≠ h
    cores := (s.cores.map (·.1)).foldl (fun (cs : Sparse Core) l =>
      let c := sget Core.reset cs l
      sset Core.reset cs l { c with residents := c.residents.filter fun r => objectOf r.kernel ≠ h }) s.cores }

/-! ### CODE_LOAD_END (R416, R417) -/

/-- LDST takes its final value, which raises vector 1. -/
def State.endLoad (s : State) (fn : Nat) (e : Option LoadError) : State :=
  let word := match e with
    | none => 2
    | some x => x.detail % 2 ^ 32 * 2 ^ 32 + x.sect % 256 * 2 ^ 24 + x.code % 256 * 2 ^ 8 + 3
  (s.setFn fn { s.fn fn with ldst := BitVec.ofNat 64 word }).raiseMsix fn 1

/-- An unload; for a handle that names no object of the function the spec gives no result (log 2). -/
def State.unloadObject (s : State) (fn : Nat) (h : W64) : State :=
  if s.objects.any fun o => o.1 == h && h.toNat / 2 ^ 60 == fn then
    if s.objectBusy h then s.endLoad fn (some ⟨1, 0, 0⟩) else (s.dropObject h).endLoad fn none
  else if (Config.freeBits s.epoch 8193 1 : BitVec 1) = 0 then s.endLoad fn none
  else s.endLoad fn (some ⟨(Config.freeBits s.epoch 8194 8 : BitVec 8).toNat, (Config.freeBits s.epoch 8195 8 : BitVec 8).toNat,
    (Config.freeBits s.epoch 8196 32 : BitVec 32).toNat⟩)

/-- CODE_LOAD_END. -/
def execCodeLoadEnd (fn : Nat) (s : State) : Out :=
  let r := s.fn fn
  let cap := fun i => (r.ldcap.getD i 0).toNat
  .next (if r.ldst.toNat % 4 ≠ 1 then s
    else if cap 0 = 1 then s.unloadObject fn (r.ldcap.getD 3 0)
    else match (s.fetchObject fn (cap 1)).loadObject fn (cap 1) (cap 2) with
      | .error e => (s.fetchObject fn (cap 1)).endLoad fn (some e)
      | .ok (t, none) => t.endLoad fn none
      | .ok (t, some h) => (t.setFn fn { t.fn fn with ldhnd := h }).endLoad fn none)

/-! ### Attestation (R419) -/

/-- The first 256 bytes of a report. -/
def State.reportBody (s : State) (fn : Nat) (nonce : List W64) : List Byte :=
  bytesOfNat 8 1 ++ bytesOfNat 16 Config.serialNumber.toNat ++ (nonce.take 4).flatMap (fun n => bytesOfNat 8 n.toNat)
    ++ sha512 Config.firmware ++ sha512 (Config.keyTable s.keys)
    ++ bytesOfNat 8 (fn + 256 * s.dev.vfs + 65536 * s.dev.mbv)
    ++ bytesOfNat 32 (edPublic Config.identitySeed).toNat ++ bytesOfNat 8 s.dcc ++ List.replicate 24 0

/-- A report with its signature. -/
def State.report (s : State) (fn : Nat) (nonce : List W64) : List Byte :=
  let b := s.reportBody fn nonce
  b ++ edSign Config.identitySeed (sha512 b)

/-- The keys of a report's bytes, wholly in one common or host plot. -/
def State.reportKeys (s : State) (fn va : Nat) : Option (List Nat) :=
  if va % 64 ≠ 0 then none
  else (s.functionKeys fn va 320 true).filter fun ks => ks.all fun k => k / 2 ^ 21 == ks.headD 0 / 2 ^ 21

/-- ATTESTATION_END. -/
def execAttestationEnd (fn : Nat) (s : State) : Out :=
  let r := s.fn fn
  .next (if r.atstate ≠ 1 then s
    else match s.reportKeys fn (r.atcap.getD 4 0).toNat with
      | none => (s.setFn fn { r with atstate := 3 }).raiseMsix fn 1
      | some ks =>
        let s1 := (s.setMem (s.mem.writeCells (ks.zip (s.report fn r.atcap)))).bus fn true ks
        (s1.setFn fn { s1.fn fn with atstate := 2 }).raiseMsix fn 1)

end Sys2Proof.Machine
end

