-- ==== Sys2Proof/Machine/Riscv.lean ====
section
/-! DEFINITION. The RV32IMC and Zicsr instructions of a helper core (spec/08_core_movement.md R261). Their meaning is
that of the RISC-V unprivileged and machine-level privileged specifications (PRESUMED, log 6). -/

namespace Sys2Proof.Machine

/-! ### Fields of an instruction word -/

/-- Bits `hi..lo` of a word. -/
def rvBits (w : W32) (hi lo : Nat) : Nat := bitsOf w.toNat hi lo

/-- An immediate of `n` bits, sign-extended. -/
def rvImm (n x : Nat) : W32 := BitVec.ofInt 32 (intOf n true x)

def rvImmI (w : W32) : W32 := rvImm 12 (rvBits w 31 20)
def rvImmS (w : W32) : W32 := rvImm 12 (rvBits w 31 25 * 32 + rvBits w 11 7)
def rvImmB (w : W32) : W32 :=
  rvImm 13 (rvBits w 31 31 * 4096 + rvBits w 7 7 * 2048 + rvBits w 30 25 * 32 + rvBits w 11 8 * 2)
def rvImmU (w : W32) : W32 := w &&& 0xFFFFF000
def rvImmJ (w : W32) : W32 :=
  rvImm 21 (rvBits w 31 31 * 2 ^ 20 + rvBits w 19 12 * 4096 + rvBits w 20 20 * 2048 + rvBits w 30 21 * 2)

/-! ### Arithmetic -/

/-- The base operations of OP and OP-IMM by funct3; `alt` selects SUB and SRA. -/
def rvAlu (f3 : Nat) (alt : Bool) (a b : W32) : W32 :=
  match f3 with
  | 0 => if alt then a - b else a + b
  | 1 => a <<< (b.toNat % 32)
  | 2 => if a.toInt < b.toInt then 1 else 0
  | 3 => if a.toNat < b.toNat then 1 else 0
  | 4 => a ^^^ b
  | 5 => if alt then a.sshiftRight (b.toNat % 32) else a >>> (b.toNat % 32)
  | 6 => a ||| b
  | _ => a &&& b

/-- The M extension by funct3. -/
def rvMulDiv (f3 : Nat) (a b : W32) : W32 :=
  let hi := fun (x : Int) => BitVec.ofInt 32 (x / 2 ^ 32)
  match f3 with
  | 0 => a * b
  | 1 => hi (a.toInt * b.toInt)
  | 2 => hi (a.toInt * b.toNat)
  | 3 => hi ((a.toNat * b.toNat : Nat) : Int)
  | 4 => if b = 0 then BitVec.allOnes 32 else BitVec.ofInt 32 (a.toInt.tdiv b.toInt)
  | 5 => if b = 0 then BitVec.allOnes 32 else a / b
  | 6 => if b = 0 then a else BitVec.ofInt 32 (a.toInt.tmod b.toInt)
  | _ => if b = 0 then a else a % b

/-- A branch condition by funct3. -/
def rvTaken (f3 : Nat) (a b : W32) : Option Bool :=
  match f3 with
  | 0 => some (a == b)
  | 1 => some (a != b)
  | 4 => some (decide (a.toInt < b.toInt))
  | 5 => some (decide (b.toInt ≤ a.toInt))
  | 6 => some (decide (a.toNat < b.toNat))
  | 7 => some (decide (b.toNat ≤ a.toNat))
  | _ => none

/-! ### Control and status registers (Zicsr) -/

/-- A machine-mode CSR; one that the core lacks is none. -/
def Helper.csr (h : Helper) (n : Nat) : Option W32 :=
  match n with
  | 0x300 => some (h.mstatus &&& 0x88 ||| 0x1800)
  | 0x301 => some 0x40801104
  | 0x304 => some h.mie
  | 0x305 => some h.mtvec
  | 0x310 | 0x320 | 0x344 | 0xF11 | 0xF12 | 0xF13 | 0xF14 | 0xF15 => some 0
  | 0x340 => some h.mscratch
  | 0x341 => some h.mepc
  | 0x342 => some h.mcause
  | 0x343 => some h.mtval
  | 0xB00 => some (h.mcycle.setWidth 32)
  | 0xB80 => some ((h.mcycle >>> 32).setWidth 32)
  | 0xB02 => some (h.minstret.setWidth 32)
  | 0xB82 => some ((h.minstret >>> 32).setWidth 32)
  | n => if (0xB03 ≤ n ∧ n ≤ 0xB1F) ∨ (0xB83 ≤ n ∧ n ≤ 0xB9F) ∨ (0x323 ≤ n ∧ n ≤ 0x33F) then some 0 else none

/-- The helper with a CSR written; read-only zeros ignore the write. -/
def Helper.setCsr (h : Helper) (n : Nat) (v : W32) : Helper :=
  match n with
  | 0x300 => { h with mstatus := v &&& 0x88 ||| 0x1800 }
  | 0x304 => { h with mie := v &&& 0x888 }
  | 0x305 => { h with mtvec := v &&& 0xFFFFFFFD }
  | 0x340 => { h with mscratch := v }
  | 0x341 => { h with mepc := v &&& 0xFFFFFFFE }
  | 0x342 => { h with mcause := v }
  | 0x343 => { h with mtval := v }
  | 0xB00 => { h with mcycle := (h.mcycle &&& 0xFFFFFFFF00000000) ||| v.setWidth 64 }
  | 0xB80 => { h with mcycle := (h.mcycle &&& 0xFFFFFFFF) ||| (v.setWidth 64 <<< 32) }
  | 0xB02 => { h with minstret := (h.minstret &&& 0xFFFFFFFF00000000) ||| v.setWidth 64 }
  | 0xB82 => { h with minstret := (h.minstret &&& 0xFFFFFFFF) ||| (v.setWidth 64 <<< 32) }
  | _ => h

/-- The SYSTEM instructions that access a CSR, by funct3; a write to a read-only number is illegal. -/
def State.rvCsr (s : State) (w : W32) : State :=
  let f3 := rvBits w 14 12
  let n := rvBits w 31 20
  let rs1 := rvBits w 19 15
  let src := if 4 ≤ f3 then BitVec.ofNat 32 rs1 else s.hx rs1
  let writes := f3 % 4 = 1 ∨ rs1 ≠ 0
  match s.hlp.csr n with
  | none => s.hTrap 2 w
  | some old =>
    if writes ∧ 0xC00 ≤ n then s.hTrap 2 w
    else
      let new := match f3 % 4 with
        | 1 => src
        | 2 => old ||| src
        | _ => old &&& ~~~ src
      let s1 := s.setHx (rvBits w 11 7) old
      let s2 := s1.hNext 4
      if writes then s2.setHlp (s2.hlp.setCsr n new) else s2

/-- ECALL, EBREAK, MRET and WFI. -/
def State.rvSystem (s : State) (w : W32) (len : Nat) : State :=
  if w = 0x00000073 then s.hTrap 11 0
  else if w = 0x00100073 then s.hTrap 3 0
  else if w = 0x30200073 then
    let h := s.hlp
    State.hGo (s.setHlp { h with
      mstatus := (h.mstatus &&& 0xFFFFFF77) ||| ((h.mstatus &&& 0x80) >>> 4) ||| 0x80, inTrap := false }) h.mepc
  else if w = 0x10500073 then s.hNext len
  else s.hTrap 2 w

/-! ### Instructions of 32 bits -/

/-- A load by funct3: its width and whether it extends a sign. -/
def rvLoad (f3 : Nat) : Option (Nat × Bool) :=
  match f3 with
  | 0 => some (1, true)
  | 1 => some (2, true)
  | 2 => some (4, true)
  | 4 => some (1, false)
  | 5 => some (2, false)
  | _ => none

/-- One instruction of 32 bits, `len` bytes long in memory; `orig` is the word as fetched. -/
def State.rvExec (s : State) (w orig : W32) (len : Nat) : State :=
  let rd := rvBits w 11 7
  let f3 := rvBits w 14 12
  let f7 := rvBits w 31 25
  let a := s.hx (rvBits w 19 15)
  let b := s.hx (rvBits w 24 20)
  let pc := s.hlp.pc
  let link := pc + BitVec.ofNat 32 len
  match rvBits w 6 0 with
  | 0x37 => (s.setHx rd (rvImmU w)).hNext len
  | 0x17 => (s.setHx rd (pc + rvImmU w)).hNext len
  | 0x6F => (s.setHx rd link).hGo (pc + rvImmJ w)
  | 0x67 => if f3 = 0 then (s.setHx rd link).hGo ((a + rvImmI w) &&& 0xFFFFFFFE) else s.hTrap 2 orig
  | 0x63 => match rvTaken f3 a b with
    | some true => s.hGo (pc + rvImmB w)
    | some false => s.hNext len
    | none => s.hTrap 2 orig
  | 0x03 => match rvLoad f3 with
    | none => s.hTrap 2 orig
    | some (n, signed) => match s.hLoad (a + rvImmI w) n with
      | .error e => s.hTrap e.1 e.2
      | .ok v =>
        if s.hAsleep ((s.hKey (a + rvImmI w) n).getD 0) then s.hWaitPad
        else ((s.hReads ((s.hKey (a + rvImmI w) n).getD 0) n).setHx rd (BitVec.ofInt 32 (intOf (8 * n) signed v))).hNext len
  | 0x23 => if f3 ≤ 2 then s.hStore (a + rvImmS w) (2 ^ f3) b len else s.hTrap 2 orig
  | 0x13 =>
    if (f3 = 1 ∧ f7 ≠ 0) ∨ (f3 = 5 ∧ f7 ≠ 0 ∧ f7 ≠ 0x20) then s.hTrap 2 orig
    else (s.setHx rd (rvAlu f3 (f3 = 5 && f7 = 0x20) a (rvImmI w))).hNext len
  | 0x33 =>
    if f7 = 0 then (s.setHx rd (rvAlu f3 false a b)).hNext len
    else if f7 = 0x20 ∧ (f3 = 0 ∨ f3 = 5) then (s.setHx rd (rvAlu f3 true a b)).hNext len
    else if f7 = 1 then (s.setHx rd (rvMulDiv f3 a b)).hNext len
    else s.hTrap 2 orig
  | 0x0F => if f3 = 0 then s.hNext len else s.hTrap 2 orig
  | 0x73 => if f3 = 0 then s.rvSystem w len else if f3 = 4 then s.hTrap 2 orig else s.rvCsr w
  | _ => s.hTrap 2 orig

/-! ### Instructions of 16 bits -/

/-- Words of 32 bits with the fields of the I, R, S, B, U and J forms. -/
def rvI (op f3 rd rs1 : Nat) (imm : W32) : W32 := BitVec.ofNat 32 (imm.toNat % 4096 * 2 ^ 20 + rs1 * 2 ^ 15 + f3 * 4096 + rd * 128 + op)
def rvR (f7 f3 rd rs1 rs2 : Nat) : W32 := BitVec.ofNat 32 (f7 * 2 ^ 25 + rs2 * 2 ^ 20 + rs1 * 2 ^ 15 + f3 * 4096 + rd * 128 + 0x33)
def rvS (f3 rs1 rs2 imm : Nat) : W32 :=
  BitVec.ofNat 32 (imm / 32 % 128 * 2 ^ 25 + rs2 * 2 ^ 20 + rs1 * 2 ^ 15 + f3 * 4096 + imm % 32 * 128 + 0x23)
def rvB (f3 rs1 : Nat) (imm : W32) : W32 :=
  BitVec.ofNat 32 (rvBits imm 12 12 * 2 ^ 31 + rvBits imm 10 5 * 2 ^ 25 + rs1 * 2 ^ 15 + f3 * 4096 + rvBits imm 4 1 * 256
    + rvBits imm 11 11 * 128 + 0x63)
def rvJ (rd : Nat) (imm : W32) : W32 :=
  BitVec.ofNat 32 (rvBits imm 20 20 * 2 ^ 31 + rvBits imm 10 1 * 2 ^ 21 + rvBits imm 11 11 * 2 ^ 20
    + rvBits imm 19 12 * 4096 + rd * 128 + 0x6F)

/-- The offset of C.J and C.JAL. -/
def rvcJump (w : W32) : W32 :=
  rvImm 12 (rvBits w 12 12 * 2048 + rvBits w 8 8 * 1024 + rvBits w 10 9 * 256 + rvBits w 6 6 * 128 + rvBits w 7 7 * 64
    + rvBits w 2 2 * 32 + rvBits w 11 11 * 16 + rvBits w 5 3 * 2)

/-- The offset of C.BEQZ and C.BNEZ. -/
def rvcBranch (w : W32) : W32 :=
  rvImm 9 (rvBits w 12 12 * 256 + rvBits w 6 5 * 64 + rvBits w 2 2 * 32 + rvBits w 11 10 * 8 + rvBits w 4 3 * 2)

/-- The 32-bit instruction that a 16-bit one of quadrant 0 stands for. -/
def rvc0 (w : W32) : Option W32 :=
  let rd := 8 + rvBits w 4 2
  let rs1 := 8 + rvBits w 9 7
  let off := rvBits w 5 5 * 64 + rvBits w 12 10 * 8 + rvBits w 6 6 * 4
  let spn := rvBits w 10 7 * 64 + rvBits w 12 11 * 16 + rvBits w 5 5 * 8 + rvBits w 6 6 * 4
  match rvBits w 15 13 with
  | 0 => if spn = 0 then none else some (rvI 0x13 0 rd 2 (BitVec.ofNat 32 spn))
  | 2 => some (rvI 0x03 2 rd rs1 (BitVec.ofNat 32 off))
  | 6 => some (rvS 2 rs1 rd off)
  | _ => none

/-- Quadrant 1. -/
def rvc1 (w : W32) : Option W32 :=
  let rd := rvBits w 11 7
  let rp := 8 + rvBits w 9 7
  let rq := 8 + rvBits w 4 2
  let imm := rvImm 6 (rvBits w 12 12 * 32 + rvBits w 6 2)
  let sp := rvImm 10 (rvBits w 12 12 * 512 + rvBits w 4 3 * 128 + rvBits w 5 5 * 64 + rvBits w 2 2 * 32 + rvBits w 6 6 * 16)
  match rvBits w 15 13 with
  | 0 => some (rvI 0x13 0 rd rd imm)
  | 1 => some (rvJ 1 (rvcJump w))
  | 2 => some (rvI 0x13 0 rd 0 imm)
  | 3 =>
    if rd = 2 then (if sp = 0 then none else some (rvI 0x13 0 2 2 sp))
    else if imm = 0 then none
    else some (BitVec.ofNat 32 (imm.toNat % 2 ^ 20 * 4096 + rd * 128 + 0x37))
  | 4 =>
    match rvBits w 11 10 with
    | 0 => if rvBits w 12 12 = 1 then none else some (rvI 0x13 5 rp rp imm)
    | 1 => if rvBits w 12 12 = 1 then none else some (rvI 0x13 5 rp rp (imm + 0x400))
    | 2 => some (rvI 0x13 7 rp rp imm)
    | _ =>
      if rvBits w 12 12 = 1 then none
      else match rvBits w 6 5 with
        | 0 => some (rvR 0x20 0 rp rp rq)
        | 1 => some (rvR 0 4 rp rp rq)
        | 2 => some (rvR 0 6 rp rp rq)
        | _ => some (rvR 0 7 rp rp rq)
  | 5 => some (rvJ 0 (rvcJump w))
  | 6 => some (rvB 0 rp (rvcBranch w))
  | _ => some (rvB 1 rp (rvcBranch w))

/-- Quadrant 2. -/
def rvc2 (w : W32) : Option W32 :=
  let rd := rvBits w 11 7
  let rs2 := rvBits w 6 2
  match rvBits w 15 13 with
  | 0 => if rvBits w 12 12 = 1 then none else some (rvI 0x13 1 rd rd (BitVec.ofNat 32 rs2))
  | 2 =>
    if rd = 0 then none
    else some (rvI 0x03 2 rd 2 (BitVec.ofNat 32 (rvBits w 3 2 * 64 + rvBits w 12 12 * 32 + rvBits w 6 4 * 4)))
  | 4 =>
    if rvBits w 12 12 = 0 then
      if rs2 = 0 then (if rd = 0 then none else some (rvI 0x67 0 0 rd 0)) else some (rvR 0 0 rd 0 rs2)
    else if rs2 = 0 then (if rd = 0 then some 0x00100073 else some (rvI 0x67 0 1 rd 0))
    else some (rvR 0 0 rd rd rs2)
  | 6 => some (rvS 2 2 rs2 (rvBits w 8 7 * 64 + rvBits w 12 9 * 4))
  | _ => none

/-- The 32-bit instruction of a 16-bit one; none where it is illegal. -/
def rvExpand (w : W32) : Option W32 :=
  match rvBits w 1 0 with
  | 0 => rvc0 w
  | 1 => rvc1 w
  | _ => rvc2 w

/-- A RISC-V instruction of a helper (R261). -/
def execHelperRiscvInstruction (w : BitVec 32) (s : State) : Out :=
  .next (if rvBits w 1 0 = 3 then s.rvExec w w 4
    else match rvExpand w with
      | some x => s.rvExec x w 2
      | none => s.hTrap 2 w)

/-! ### Fetch (R261) -/

/-- The address of the first halfword of the next instruction that lies outside the private store. -/
def State.hFetchFault (s : State) : Option W32 :=
  let pc := s.hlp.pc.toNat
  if 0x8000 ≤ pc then some s.hlp.pc
  else if pc + 2 = 0x8000 ∧
      natOfBytes (s.mem.readBytes (keyHelper s.hlp.lcore s.hlp.which pc) 2) % 4 = 3 then some 0x8000
  else none

end Sys2Proof.Machine
end

