-- ==== Sys2Proof/Machine/Special.lean ====
section
/-! DEFINITION. The special functions VRCP, VRSQ, VSQRT, VEXP2 and VLOG2 (spec/05_vector_instructions.md R143 to
R145). A result that is not exact is bracketed far below the last bit that rounding can see, with a sticky bit. -/

namespace Sys2Proof.Machine

/-! ### Integer square roots and logarithms -/

/-- The square root of `n` rounded down, bit by bit from bit `k − 1`, above what is found. -/
def sqrtBits (n acc : Nat) : Nat → Nat
  | 0 => acc
  | k + 1 => if (acc + 2 ^ k) * (acc + 2 ^ k) ≤ n then sqrtBits n (acc + 2 ^ k) k else sqrtBits n acc k

/-- The square root rounded down. -/
def intSqrt (n : Nat) : Nat := sqrtBits n 0 (Nat.log2 n / 2 + 1)

/-- A value that lies strictly between n·2^e and (n + 1)·2^e. -/
def between (neg : Bool) (n : Nat) (e : Int) : FVal := .fin neg (2 * n + 1) (e - 1)

/-! ### VRCP and VRSQ (R143) -/

/-- Significant bits kept: min(12, p). -/
def keptBits (fmt : FloatFmt) : Nat := Nat.min 12 (fmt.fbits + 1)

/-- The exponent of the last kept bit of a result whose leading bit has exponent `lead`. -/
def keptLsb (fmt : FloatFmt) (lead : Int) : Int := max (lead - (keptBits fmt - 1)) (1 - (fmt.bias : Int) - fmt.fbits)

/-- 1/a truncated. -/
def reciprocal (t : Nat) (sat : Bool) (x : FVal) : Nat :=
  match floatFmt t, x with
  | some fmt, .fin neg m e =>
    if m = 0 then infOf t + signOf t neg
    else
      let lsb := keptLsb fmt (log2Ratio 1 m - e)
      let (a, b) := ratioShift 1 m (-e - lsb)
      convertTo t 0 sat none (.fin neg (a / b) lsb)
  | _, .inf neg => signOf t neg
  | _, _ => nanOf t

/-- 1/√a truncated. -/
def reciprocalRoot (t : Nat) (x : FVal) : Nat :=
  match floatFmt t, x with
  | some fmt, .fin neg m e =>
    if m = 0 then infOf t + signOf t neg
    else if neg then nanOf t
    else
      let l := Nat.log2 m + e
      let lead : Int := if 2 ^ Nat.log2 m = m then -l / 2 else (-l - 1) / 2
      let lsb := keptLsb fmt lead
      let (a, b) := ratioShift 1 m (-e - 2 * lsb)
      convertTo t 0 false none (.fin false (intSqrt (a / b)) lsb)
  | _, .inf neg => if neg then nanOf t else 0
  | _, _ => nanOf t

/-! ### VSQRT, VEXP2 and VLOG2 (R144) -/

/-- √a. -/
def rootOf : FVal → FVal
  | .fin neg m e =>
    if m = 0 then .fin neg 0 0
    else if neg then .nan
    else
      -- an even exponent far enough down for 80 bits of root
      let k : Int := (e - 160) / 2
      let n := m * 2 ^ (e - 2 * k).toNat
      let r := intSqrt n
      if r * r = n then .fin false r k else between false r k
  | .inf neg => if neg then .nan else .inf false
  | .nan => .nan

/-- Fraction bits carried by the computations of 2^a and log2 a. -/
def workBits : Nat := 512

/-- The product of 2^(2^−i) over the set bits of a fraction, `c` being 2^(2^−i) of the next bit, scaled. -/
def expProduct (frac : Nat) (c acc : Nat) : Nat → Nat
  | 0 => acc
  | k + 1 =>
    expProduct frac (intSqrt (c * 2 ^ workBits)) (if frac.testBit k then acc * c / 2 ^ workBits else acc) k

/-- 2^a. -/
def exp2Of : FVal → FVal
  | .fin neg m e =>
    -- a as an integer number of 2^−k
    let k := (-e).toNat
    let a : Int := m * 2 ^ e.toNat
    let n := if neg then -a else a
    let whole := max (-4096) (min 4096 (n / (2 ^ k : Int)))
    let frac := (n % (2 ^ k : Int)).toNat
    if frac = 0 then .fin false 1 whole
    else between false (expProduct frac (intSqrt (2 * 2 ^ (2 * workBits))) (2 ^ workBits) k) (whole - workBits)
  | .inf neg => if neg then .fin false 0 0 else .inf false
  | .nan => .nan

/-- The first `k` fraction bits of log2 of x, where x in [1, 2) is scaled. -/
def logBits (x acc : Nat) : Nat → Nat
  | 0 => acc
  | k + 1 =>
    let y := x * x / 2 ^ workBits
    if 2 * 2 ^ workBits ≤ y then logBits (y / 2) (2 * acc + 1) k else logBits y (2 * acc) k

/-- log2 a. -/
def log2Of : FVal → FVal
  | .fin neg m e =>
    if m = 0 then .inf true
    else if neg then .nan
    else
      let l := Nat.log2 m
      let whole : Int := l + e
      if 2 ^ l = m then .ofInt whole
      else
        let n : Int := whole * 2 ^ 160 + logBits (m * 2 ^ workBits / 2 ^ l) 0 160
        if n < 0 then between true (n.natAbs - 1) (-160) else between false n.natAbs (-160)
  | .inf neg => if neg then .nan else .inf false
  | .nan => .nan

/-! ### The instructions -/

/-- An input with a result of its own in the tables of R143 and R144. -/
def specialInput (x : FVal) : Bool :=
  match x with
  | .fin _ m _ => m == 0 || x.cmp (.ofInt 1) == 0
  | _ => true

/-- A determinism trap of a .fast function at level 3, or its effect (R145, R323). -/
def State.fastOr (s : State) (f : Slot) (op : Nat) (k : State) : State :=
  if f.im && s.task.id.detlvl == 3 then s.trapDet op 0x02 else k

/-- Element `i` of the operand, as a value. -/
def State.operandValue (s : State) (f : Slot) (i : Nat) : FVal := valueOf f.t.toNat (elem f.t (s.v f.a.toNat) i)

/-- VRCP; its .fast form is the same (R145). -/
def execVrcp (f : Slot) (s : State) : Out :=
  guarded (.vrcp f) f s (s.fastOr f 0x208 (s.putLanes f fun i =>
    reciprocal f.t.toNat (f.sat == 1) (s.operandValue f i)))

/-- VRSQ; its .fast form is the same (R145). -/
def execVrsq (f : Slot) (s : State) : Out :=
  guarded (.vrsq f) f s (s.fastOr f 0x209 (s.putLanes f fun i => reciprocalRoot f.t.toNat (s.operandValue f i)))

/-- A pattern's value lies within two units in the last place of an exact finite value (R145). -/
def withinUlps (t : Nat) (y : Nat) (r : FVal) : Bool :=
  match floatFmt t, valueOf t y, r with
  | some fmt, .fin neg' m' e', .fin neg m e =>
    let ulp := max (Nat.log2 m + e) (1 - (fmt.bias : Int)) - fmt.fbits
    let e0 := min (min e e') ulp
    decide ((scaleTo neg' m' e' e0 - scaleTo neg m e e0).natAbs ≤ 2 * 2 ^ (ulp - e0).toNat)
  | _, _, _ => false

/-- A .fast result: a free pattern where it lies within the bound of R145, else the nearest one. -/
def fastResult (t : Nat) (sat : Bool) (r : FVal) (free : W32) : Nat :=
  if withinUlps t (free.toNat % 2 ^ typeWidth (BitVec.ofNat 5 t)) r then free.toNat % 2 ^ typeWidth (BitVec.ofNat 5 t)
  else convertTo t 0 sat none r

/-- A correctly rounded function, or its .fast approximation (R144, R145). -/
def State.special1 (s : State) (f : Slot) (exact : FVal → FVal) (fast : Nat → W32 → W32) : State :=
  s.putLanes f fun i =>
    let x := s.operandValue f i
    let r := exact x
    if f.im && !specialInput x && !r.isNan then
      fastResult f.t.toNat (f.sat == 1) r (fast f.t.toNat (BitVec.ofNat 32 (elem f.t (s.v f.a.toNat) i)))
    else convertTo f.t.toNat (effRnd s f.rnd) (f.sat == 1) (s.randomBits f f.t i) r

/-- VSQRT (R144). -/
def execVsqrt (f : Slot) (s : State) : Out :=
  guarded (.vsqrt f) f s (s.fastOr f 0x20A (s.special1 f rootOf Config.fastSqrt))
/-- VEXP2 (R144). -/
def execVexp2 (f : Slot) (s : State) : Out :=
  guarded (.vexp2 f) f s (s.fastOr f 0x20B (s.special1 f exp2Of Config.fastExp2))
/-- VLOG2 (R144). -/
def execVlog2 (f : Slot) (s : State) : Out :=
  guarded (.vlog2 f) f s (s.fastOr f 0x20C (s.special1 f log2Of Config.fastLog2))

end Sys2Proof.Machine
end

