-- ==== Sys2Proof/Machine/Tap.lean ====
section
/-! DEFINITION. The test access port (spec/15_package.md R380): read-out while the device is brumated, and thawing. The words
of the device block (spec/17_fabric.md R397) as a read finds them. -/

namespace Sys2Proof.Machine

/-! ### The device block (R397) -/

def bit (b : Bool) (i : Nat) : Nat := if b then 2 ^ i else 0

/-- PKSTAT (R367). -/
def Package.status (x : Package) : Nat :=
  x.shtot * 2 ^ 32 + x.fcl % 16 * 2 ^ 20 + x.cause % 16 * 2 ^ 16 + x.shore.toNat * 16 + x.failed.toNat * 4 + x.state

/-- HSTAT (R378). -/
def Package.hstat (x : Package) : Nat := bit x.spen 32 + bit x.refz 17 + x.melt.toNat

/-- CKCTL and CKSTAT (R385). -/
def Package.ckctl (x : Package) : Nat := bit x.plck 3 + bit x.cmp 2 + bit x.op 1
def Package.ckstat (x : Package) : Nat := bit x.bank 16 + x.valid.toNat * 2 ^ 12 + x.ckstate

/-- BOOTST (R420). -/
def DevRegs.bootst (x : DevRegs) : Nat := x.mbv * 2 ^ 16 + x.booterr * 2 ^ 8 + x.bootstage

/-- RAILST (R371). -/
def Rail.status (x : Rail) : Nat :=
  x.cur.toNat * 2 ^ 32 + bit x.ramp 12 + x.cap.toNat * 2 ^ 9 + x.req.toNat * 2 ^ 6 + x.tgt.toNat * 2 ^ 3 + x.opc.toNat

/-- DDGST and PSTAT (R364, R403). -/
def LaneGroup.status (x : LaneGroup) : Nat := x.crcf.toNat * 2 ^ 32 + x.splc.toNat * 2 ^ 16 + x.spare * 4 + x.state

/-- CLSTAT (R292). -/
def Cluster.status (x : Cluster) : Nat := Nat.min x.shed 15 * 2 ^ 48 + x.spare % 16 * 2 ^ 44 + x.tsh.toNat * 2 ^ 28

/-- CHSTAT (R321). -/
def Chain.status (x : Chain) : Nat :=
  x.state * 2 ^ 62 + bit x.pend.isSome 61 + x.code % 256 * 2 ^ 48 + Nat.min x.reps 65535 * 2 ^ 32 + x.done.toNat

/-- A wear register (R381). -/
def Growth.word (x : Growth) : Nat := x.metric.toNat * 2 ^ 40 + x.life.toNat * 2 ^ 16

/-- The registers at offsets 0 to 0xA0; those that only act when written read zero. -/
def State.deviceRegs (s : State) : List Nat :=
  [s.pkg.status, s.pkg.adplot.toNat, s.pkg.hstat, s.dev.schage.toNat, 0, bit s.dev.rej 1 + bit s.plsetBusy 0,
   s.dev.plbad * 2 ^ 32 + s.dev.pllast.toNat, 0, bit s.dev.tinv.isSome 0, s.pkg.ckctl, s.pkg.ckstat, s.dev.hapbase.toNat,
   s.dev.mdpos.toNat, s.dev.mdq.toNat, s.dev.bootst, 0] ++ (List.range 4).map fun i => (s.dev.gstg.getD i 0).toNat

/-- Word `i` of a gauge. -/
def gaugeWord (x : BitVec 256) (i : Nat) : Nat := x.toNat / 2 ^ (64 * i) % 2 ^ 64

/-- The 8 bytes at offset 8i of the device block; an unassigned offset reads zero. -/
def State.blockWord (s : State) (i : Nat) : Nat :=
  let o := 8 * i
  if o < 0x1000 then s.deviceRegs.getD i 0
  else if o < 0x2000 then if i - 0x200 < 4 then (s.rail (i - 0x200)).status else 0
  else if o < 0x3000 then if i - 0x400 < 16 then (s.fn (i - 0x400)).troot.toNat else 0
  else if o < 0x4000 then
    let c := s.cluster ((i - 0x600) / 2)
    if 32 ≤ i - 0x600 then 0 else if i % 2 = 0 then c.mbud.toNat else c.held.toNat
  else if o < 0x5000 then
    let c := s.cluster ((i - 0x800) / 2)
    if 32 ≤ i - 0x800 then 0 else if i % 2 = 0 then c.map.toNat else c.status
  else if o < 0x6000 then
    let k := (i - 0xA00) / 2
    let c := s.chain (k / 16) (k % 16)
    if 32 ≤ k then 0 else if i % 2 = 0 then c.cur.toNat else c.status
  else if o < 0x6100 then if i - 0xC00 < 16 then (s.laneGroup (.group (i - 0xC00))).status else 0
  else if o < 0x6200 then if i - 0xC20 < 8 then (s.laneGroup (.port (i - 0xC20))).status else 0
  else if o < 0x8000 then if i - 0xC40 < 64 then (sget (fun _ => 0) s.dev.proute (i - 0xC40) : W64).toNat else 0
  else if o < 0xC000 then gaugeWord (s.gauge ⟨false, (i - 0x1000) / 128, (i - 0x1000) / 4 % 32⟩) (i % 4)
  else if o < 0x10000 then gaugeWord (s.gauge ⟨true, (i - 0x1800) / 1024, (i - 0x1800) / 4 % 256⟩) (i % 4)
  else if o < 0x11000 then
    if i - 0x2000 < 208 then (s.growth (.core ((i - 0x2000) / 13) ((i - 0x2000) % 13))).word else 0
  else if o < 0x12000 then if i - 0x2200 < 24 then (s.growth (.link (i - 0x2200))).word else 0
  else if o < 0x13000 then if i - 0x2400 < 64 then (s.growth (.mem (i - 0x2400))).word else 0
  else if i = 0x2600 then (s.growth .heat).word
  else if i = 0x2601 then (s.growth .nand).word
  else 0

/-! ### Read-out (R380) -/

/-- The logical core that a physical core runs. -/
def State.coreOn (s : State) (c k : Nat) : Option Nat :=
  match s.hostedBy c k with
  | [] => none
  | [l] => some l
  | l :: ls => some (if (l :: ls).contains ((s.cluster c).resident.getD k l) then (s.cluster c).resident.getD k l else l)

/-- The byte of a core pad, or a shadow byte with a granule's full bit. -/
def State.padByte (s : State) (l o : Nat) : Byte :=
  if o < 2 ^ 21 then s.mem.read (keyCorePad l o) else BitVec.ofNat 8 ((s.core l).isFull (o - 2 ^ 21)).toNat

/-- 8 bytes of the context of a partition; zero beyond its block, and where no task runs. -/
def State.contextWord (s : State) (l o : Nat) : Nat :=
  let r : TaskRef := ⟨l, o / 2 ^ 21⟩
  if (s.taskAt r).isSome then natOfBytes (((s.select r).contextBlock.drop (o % 2 ^ 21)).take 8) else 0

/-- The 8 bytes at a read-out address; none where the space has nothing there, or where a failed die has lost its pads
(R366). -/
def State.readOut (s : State) (a : Nat) : Option Nat :=
  let o := bitsOf a 50 0
  let bytes := fun (key size : Nat) => if o + 8 ≤ size then some (natOfBytes (s.mem.readBytes (key + o) 8)) else none
  match bitsOf a 63 60 with
  | 0 => bytes 0 (2 ^ 38)
  | 1 => if s.dieFailed (bitsOf a 59 59) then none else bytes (keyDiePad (bitsOf a 59 59) 0) (2 ^ 28)
  | 2 => if s.dieFailed (bitsOf a 58 58) then none else bytes (keyClusterPad (bitsOf a 58 55) 0) (2 ^ 25)
  | 3 => (s.coreOn (bitsOf a 58 55) (bitsOf a 54 51)).bind fun l =>
      if o + 8 ≤ 2 ^ 21 + 2 ^ 17 then some (natOfBytes ((List.range 8).map fun i => s.padByte l (o + i))) else none
  | 4 => (s.coreOn (bitsOf a 58 55) (bitsOf a 54 51)).bind fun l =>
      if o < 16 * 2 ^ 21 then some (s.contextWord l o) else none
  | 5 => some (if o % 8 = 0 then s.blockWord (o / 8) else 0)
  | _ => some 0

/-! ### The instructions -/

/-- An instruction is in the instruction register, and what its data register has captured leaves the device. -/
def State.tapShow (s : State) (code : BitVec 8) (dr : BitVec 65) : State :=
  State.emit { s with tap := { s.tap with ir := code, dr } } (.tap dr)

/-- TAP_BYPASS: the bypass register captures 0, as the standard has it (PRESUMED, log 6). -/
def execTapBypass (s : State) : Out := .next (s.tapShow 0xFF 0)

/-- TAP_IDCODE. -/
def execTapIdcode (s : State) : Out := .next (s.tapShow 0x02 (Config.idcode.setWidth 65))

/-- TAP_EXTEST: the boundary register, of which the spec says nothing, captures a free value. -/
def execTapExtest (s : State) : Out := .next (s.tapShow 0x00 (Config.freeBits s.epoch 0 65))

/-- TAP_SAMPLE_PRELOAD. -/
def execTapSamplePreload (s : State) : Out := .next (s.tapShow 0x01 (Config.freeBits s.epoch 0 65))

/-- BRADDR: Update-DR sets the read-out address. -/
def execBraddr (s : State) : Out := .next { s with tap := { s.tap with ir := 0x40, addr := s.tap.shiftIn } }

/-- BRDATA: Capture-DR reads 8 bytes, and the address advances by 8. -/
def execBrdata (s : State) : Out :=
  let x : W64 := match s.readOut s.tap.addr.toNat with
    | some n => BitVec.ofNat 64 n
    | none => Config.freeBits s.epoch 0 64
  let s1 := s.tapShow 0x41 (x.setWidth 65)
  .next { s1 with tap := { s1.tap with addr := s.tap.addr + 8 } }

/-- BRSTAT. -/
def execBrstat (s : State) : Out := .next (s.tapShow 0x42 (BitVec.ofBool s.tap.stopped ++ s.tap.ts))

/-- THAW: Update-DR with 1 resumes a stopped device whose BRUM_N is high, with DCC = T_s + 1; not one that powers down
after a loss of input power (R386). -/
def execThaw (s : State) : Out :=
  let t := { s.tap with ir := 0x43 }
  .next (if s.tap.shiftIn.getLsbD 0 && s.tap.pin && s.tap.stopped && !s.pkg.dying then
      { s with tap := { t with stopped := false }, dcc := s.tap.ts.toNat + 1 }
    else { s with tap := t })

end Sys2Proof.Machine
end

