-- ==== Sys2Proof/Machine/Vector.lean ====
section
/-! DEFINITION. Class 0b011: vector arithmetic (spec/05_vector_instructions.md R131 to R138). -/

namespace Sys2Proof.Machine

/-- Element `i` of the first operand, as a pattern. -/
def State.va (s : State) (f : Slot) (i : Nat) : Nat := elem f.t (s.v f.a.toNat) i
/-- Element `i` of v[C], as a pattern. -/
def State.vc (s : State) (f : Slot) (i : Nat) : Nat := elem f.t (s.v f.c.toNat) i
/-- A pattern as a value of the operation's type. -/
def value (f : Slot) (x : Nat) : FVal := valueOf f.t.toNat x

/-- An arithmetic operation: every governed element is the exact result rounded and limited (R135). The code and the
random bits are those of R133. -/
def State.arithmetic (s : State) (f : Slot) (rnd : Nat) (rand : Nat → RandomBits) (r : Nat → FVal) : State :=
  s.putLanes f fun i => convertTo f.t.toNat rnd (f.sat == 1) (rand i) (r i)

/-- VADD, VSUB and VMUL take random bits from v[C] (R133). -/
def State.arith2 (s : State) (f : Slot) (op : Nat → FVal → FVal → FVal) : State :=
  let rnd := effRnd s f.rnd
  s.arithmetic f rnd (s.randomBits f f.t) fun i => op rnd (value f (s.va f i)) (value f (s.secondBits f i))

/-- VFMA and VFMS round once, and code 6 acts as 0 (R133, R135). -/
def State.arith3 (s : State) (f : Slot) (minus : Bool) : State :=
  let rnd := effRnd0 s f.rnd
  s.arithmetic f rnd (fun _ => none) fun i =>
    let c := value f (s.vc f i)
    ((value f (s.va f i)).mul (value f (s.secondBits f i))).add rnd (if minus then c.neg else c)

/-- VADD (R135). -/
def execVadd (f : Slot) (s : State) : Out := guarded (.vadd f) f s (s.arith2 f FVal.add)
/-- VSUB (R135). -/
def execVsub (f : Slot) (s : State) : Out := guarded (.vsub f) f s (s.arith2 f fun rnd x y => x.add rnd y.neg)
/-- VMUL (R135). -/
def execVmul (f : Slot) (s : State) : Out := guarded (.vmul f) f s (s.arith2 f fun _ x y => x.mul y)
/-- VFMA (R135). -/
def execVfma (f : Slot) (s : State) : Out := guarded (.vfma f) f s (s.arith3 f false)
/-- VFMS (R135). -/
def execVfms (f : Slot) (s : State) : Out := guarded (.vfms f) f s (s.arith3 f true)

/-- VMIN (R136). -/
def execVmin (f : Slot) (s : State) : Out :=
  guarded (.vmin f) f s (s.putLanes f fun i => minMax false f.t.toNat (s.va f i) (s.secondBits f i))
/-- VMAX (R136). -/
def execVmax (f : Slot) (s : State) : Out :=
  guarded (.vmax f) f s (s.putLanes f fun i => minMax true f.t.toNat (s.va f i) (s.secondBits f i))

/-- The magnitude of a value. -/
def FVal.abs : FVal → FVal
  | .nan => .nan
  | .inf _ => .inf false
  | .fin _ m e => .fin false m e

/-- VABS: an integer's magnitude limited by R53; a float's sign bit cleared (R135). -/
def execVabs (f : Slot) (s : State) : Out :=
  guarded (.vabs f) f s (s.arithmetic f 0 (fun _ => none) fun i => (value f (s.va f i)).abs)
/-- VNEG (R135). -/
def execVneg (f : Slot) (s : State) : Out :=
  guarded (.vneg f) f s (s.arithmetic f 0 (fun _ => none) fun i => (value f (s.va f i)).neg)

/-- VCMP writes the mask bits of every governed element (R137). -/
def execVcmp (f : Slot) (s : State) : Out :=
  let w := typeWidth f.t / 8
  let bits := fun (on : Nat → Bool) => BitVec.ofNat 256 (packLanes w (fun i => if on i then 2 ^ w - 1 else 0) (256 / w))
  guarded (.vcmp f) f s (s.put f.lat.toNat (.m f.d.toNat (bits (gov (8 * w) (s.msel f)))
    (bits fun i => condValues f.cond (value f (s.va f i)) (value f (s.secondBits f i)))))

/-- VSEL copies bits (R138). -/
def execVsel (f : Slot) (s : State) : Out :=
  guarded (.vsel f) f s (s.putLanes f fun i =>
    if gov (typeWidth f.t) (s.m f.c.toNat) i then s.va f i else s.secondBits f i)
/-- VAND (R138). -/
def execVand (f : Slot) (s : State) : Out :=
  guarded (.vand f) f s (s.putLanes f fun i => s.va f i &&& s.secondBits f i)
/-- VOR (R138). -/
def execVor (f : Slot) (s : State) : Out :=
  guarded (.vor f) f s (s.putLanes f fun i => s.va f i ||| s.secondBits f i)
/-- VXOR (R138). -/
def execVxor (f : Slot) (s : State) : Out :=
  guarded (.vxor f) f s (s.putLanes f fun i => s.va f i ^^^ s.secondBits f i)

/-- The shift amount of element `i`. -/
def State.vshift (s : State) (f : Slot) (i : Nat) : Nat := s.secondBits f i % typeWidth f.t

/-- VSHL (R135). -/
def execVshl (f : Slot) (s : State) : Out :=
  guarded (.vshl f) f s (s.arithmetic f 0 (fun _ => none) fun i =>
    match value f (s.va f i) with
    | .fin neg m e => .fin neg (m * 2 ^ s.vshift f i) e
    | x => x)
/-- VSHR (R135). -/
def execVshr (f : Slot) (s : State) : Out :=
  guarded (.vshr f) f s (s.putLanes f fun i => s.va f i / 2 ^ s.vshift f i)
/-- VSRA (R135). -/
def execVsra (f : Slot) (s : State) : Out :=
  guarded (.vsra f) f s (s.putLanes f fun i =>
    patternOf (typeWidth f.t) (intOf (typeWidth f.t) true (s.va f i) / (2 ^ s.vshift f i : Int)))

end Sys2Proof.Machine
end

