-- ==== Sys2Proof/Machine/Dispatch.lean ====
section
/-! DEFINITION. One arm per step of spec/opcode_table.json, each one call of its meaning. -/

namespace Sys2Proof.Machine

def exec (i : Instr) (s : State) : Host.Outcome State Fault Refusal :=
  match i with
  | .add f => Sys2Proof.Machine.execAdd f s
  | .sub f => Sys2Proof.Machine.execSub f s
  | .mul f => Sys2Proof.Machine.execMul f s
  | .mulh f => Sys2Proof.Machine.execMulh f s
  | .div f => Sys2Proof.Machine.execDiv f s
  | .rem f => Sys2Proof.Machine.execRem f s
  | .and f => Sys2Proof.Machine.execAnd f s
  | .or f => Sys2Proof.Machine.execOr f s
  | .xor f => Sys2Proof.Machine.execXor f s
  | .andn f => Sys2Proof.Machine.execAndn f s
  | .shl f => Sys2Proof.Machine.execShl f s
  | .shr f => Sys2Proof.Machine.execShr f s
  | .sra f => Sys2Proof.Machine.execSra f s
  | .rol f => Sys2Proof.Machine.execRol f s
  | .min f => Sys2Proof.Machine.execMin f s
  | .max f => Sys2Proof.Machine.execMax f s
  | .cmp f => Sys2Proof.Machine.execCmp f s
  | .sel f => Sys2Proof.Machine.execSel f s
  | .li f => Sys2Proof.Machine.execLi f s
  | .liHi f => Sys2Proof.Machine.execLiHi f s
  | .clz f => Sys2Proof.Machine.execClz f s
  | .popc f => Sys2Proof.Machine.execPopc f s
  | .bfx f => Sys2Proof.Machine.execBfx f s
  | .bfi f => Sys2Proof.Machine.execBfi f s
  | .plog f => Sys2Proof.Machine.execPlog f s
  | .br f => Sys2Proof.Machine.execBr f s
  | .call f => Sys2Proof.Machine.execCall f s
  | .ret f => Sys2Proof.Machine.execRet f s
  | .rep f => Sys2Proof.Machine.execRep f s
  | .loopb f => Sys2Proof.Machine.execLoopb f s
  | .endTask f => Sys2Proof.Machine.execEndTask f s
  | .trap f => Sys2Proof.Machine.execTrap f s
  | .eret f => Sys2Proof.Machine.execEret f s
  | .srd f => Sys2Proof.Machine.execSrd f s
  | .swr f => Sys2Proof.Machine.execSwr f s
  | .fence f => Sys2Proof.Machine.execFence f s
  | .nop f => Sys2Proof.Machine.execNop f s
  | .rand f => Sys2Proof.Machine.execRand f s
  | .grow f => Sys2Proof.Machine.execGrow f s
  | .shrink f => Sys2Proof.Machine.execShrink f s
  | .sealBolt f => Sys2Proof.Machine.execSealBolt f s
  | .ld f => Sys2Proof.Machine.execLd f s
  | .st f => Sys2Proof.Machine.execSt f s
  | .cas f => Sys2Proof.Machine.execCas f s
  | .amo f => Sys2Proof.Machine.execAmo f s
  | .vld f => Sys2Proof.Machine.execVld f s
  | .vst f => Sys2Proof.Machine.execVst f s
  | .vldg f => Sys2Proof.Machine.execVldg f s
  | .vsts f => Sys2Proof.Machine.execVsts f s
  | .vldb f => Sys2Proof.Machine.execVldb f s
  | .vadd f => Sys2Proof.Machine.execVadd f s
  | .vsub f => Sys2Proof.Machine.execVsub f s
  | .vmul f => Sys2Proof.Machine.execVmul f s
  | .vfma f => Sys2Proof.Machine.execVfma f s
  | .vfms f => Sys2Proof.Machine.execVfms f s
  | .vmin f => Sys2Proof.Machine.execVmin f s
  | .vmax f => Sys2Proof.Machine.execVmax f s
  | .vabs f => Sys2Proof.Machine.execVabs f s
  | .vneg f => Sys2Proof.Machine.execVneg f s
  | .vcmp f => Sys2Proof.Machine.execVcmp f s
  | .vsel f => Sys2Proof.Machine.execVsel f s
  | .vand f => Sys2Proof.Machine.execVand f s
  | .vor f => Sys2Proof.Machine.execVor f s
  | .vxor f => Sys2Proof.Machine.execVxor f s
  | .vshl f => Sys2Proof.Machine.execVshl f s
  | .vshr f => Sys2Proof.Machine.execVshr f s
  | .vsra f => Sys2Proof.Machine.execVsra f s
  | .vcvt f => Sys2Proof.Machine.execVcvt f s
  | .vpack4 f => Sys2Proof.Machine.execVpack4 f s
  | .vbsc f => Sys2Proof.Machine.execVbsc f s
  | .vrcp f => Sys2Proof.Machine.execVrcp f s
  | .vrsq f => Sys2Proof.Machine.execVrsq f s
  | .vsqrt f => Sys2Proof.Machine.execVsqrt f s
  | .vexp2 f => Sys2Proof.Machine.execVexp2 f s
  | .vlog2 f => Sys2Proof.Machine.execVlog2 f s
  | .vred f => Sys2Proof.Machine.execVred f s
  | .vscan f => Sys2Proof.Machine.execVscan f s
  | .vperm f => Sys2Proof.Machine.execVperm f s
  | .vbcast f => Sys2Proof.Machine.execVbcast f s
  | .vbcastLane f => Sys2Proof.Machine.execVbcastLane f s
  | .vext f => Sys2Proof.Machine.execVext f s
  | .viota f => Sys2Proof.Machine.execViota f s
  | .viotaCnt f => Sys2Proof.Machine.execViotaCnt f s
  | .klog f => Sys2Proof.Machine.execKlog f s
  | .spush f => Sys2Proof.Machine.execSpush f s
  | .spop f => Sys2Proof.Machine.execSpop f s
  | .scnt f => Sys2Proof.Machine.execScnt f s
  | .fpush f => Sys2Proof.Machine.execFpush f s
  | .plane f => Sys2Proof.Machine.execPlane f s
  | .mma f => Sys2Proof.Machine.execMma f s
  | .mmag f => Sys2Proof.Machine.execMmag f s
  | .mclr f => Sys2Proof.Machine.execMclr f s
  | .mlda f => Sys2Proof.Machine.execMlda f s
  | .mrd f => Sys2Proof.Machine.execMrd f s
  | .mst f => Sys2Proof.Machine.execMst f s
  | .mstat f => Sys2Proof.Machine.execMstat f s
  | .phase f => Sys2Proof.Machine.execPhase f s
  | .nset f => Sys2Proof.Machine.execNset f s
  | .nsetRst f => Sys2Proof.Machine.execNsetRst f s
  | .nsetStep f => Sys2Proof.Machine.execNsetStep f s
  | .nsetOff f => Sys2Proof.Machine.execNsetOff f s
  | .enqMove f => Sys2Proof.Machine.execEnqMove f s
  | .enqReduce f => Sys2Proof.Machine.execEnqReduce f s
  | .enqMailbox f => Sys2Proof.Machine.execEnqMailbox f s
  | .deq f => Sys2Proof.Machine.execDeq f s
  | .skmov f => Sys2Proof.Machine.execSkmov f s
  | .skmovNest f => Sys2Proof.Machine.execSkmovNest f s
  | .skgat f => Sys2Proof.Machine.execSkgat f s
  | .sksct f => Sys2Proof.Machine.execSksct f s
  | .skchn f => Sys2Proof.Machine.execSkchn f s
  | .skqset f => Sys2Proof.Machine.execSkqset f s
  | .tmov f => Sys2Proof.Machine.execTmov f s
  | .feopSet f => Sys2Proof.Machine.execFeopSet f s
  | .feopClr f => Sys2Proof.Machine.execFeopClr f s
  | .feopWait f => Sys2Proof.Machine.execFeopWait f s
  | .zenter f => Sys2Proof.Machine.execZenter f s
  | .zsync f => Sys2Proof.Machine.execZsync f s
  | .zred f => Sys2Proof.Machine.execZred f s
  | .zleave f => Sys2Proof.Machine.execZleave f s
  | .boom f => Sys2Proof.Machine.execBoom f s
  | .launch f => Sys2Proof.Machine.execLaunch f s
  | .spec f => Sys2Proof.Machine.execSpec f s
  | .decide f => Sys2Proof.Machine.execDecide f s
  | .evpost f => Sys2Proof.Machine.execEvpost f s
  | .cord f => Sys2Proof.Machine.execCord f s
  | .pxfer f => Sys2Proof.Machine.execPxfer f s
  | .pquery f => Sys2Proof.Machine.execPquery f s
  | .lease f => Sys2Proof.Machine.execLease f s
  | .lrel f => Sys2Proof.Machine.execLrel f s
  | .opreq f => Sys2Proof.Machine.execOpreq f s
  | .hskEnq rd rs1 rs2 => Sys2Proof.Machine.execHskEnq rd rs1 rs2 s
  | .hskDeq rd rs1 => Sys2Proof.Machine.execHskDeq rd rs1 s
  | .hskFew rd rs1 => Sys2Proof.Machine.execHskFew rd rs1 s
  | .hskFewClr rd rs1 => Sys2Proof.Machine.execHskFewClr rd rs1 s
  | .hskFes rs1 rs2 => Sys2Proof.Machine.execHskFes rs1 rs2 s
  | .hskMbr rd rs1 => Sys2Proof.Machine.execHskMbr rd rs1 s
  | .hskMbw rs1 rs2 => Sys2Proof.Machine.execHskMbw rs1 rs2 s
  | .hskDcc rd => Sys2Proof.Machine.execHskDcc rd s
  | .hskDccHi rd => Sys2Proof.Machine.execHskDccHi rd s
  | .brumationEntry => Sys2Proof.Machine.execBrumationEntry s
  | .trapEntry r => Sys2Proof.Machine.execTrapEntry r s
  | .asyncNoticeTaken => Sys2Proof.Machine.execAsyncNoticeTaken s
  | .errorDetected who src addr pa => Sys2Proof.Machine.execErrorDetected who src addr pa s
  | .boltReplay => Sys2Proof.Machine.execBoltReplay s
  | .sealComplete => Sys2Proof.Machine.execSealComplete s
  | .sealWatchdog => Sys2Proof.Machine.execSealWatchdog s
  | .loadWaitServed => Sys2Proof.Machine.execLoadWaitServed s
  | .fullEmptyWatchdog => Sys2Proof.Machine.execFullEmptyWatchdog s
  | .streamWaitServed => Sys2Proof.Machine.execStreamWaitServed s
  | .streamWatchdog => Sys2Proof.Machine.execStreamWatchdog s
  | .deqWaitServed => Sys2Proof.Machine.execDeqWaitServed s
  | .mailboxWatchdog => Sys2Proof.Machine.execMailboxWatchdog s
  | .preemptionRequest l => Sys2Proof.Machine.execPreemptionRequest l s
  | .preemption => Sys2Proof.Machine.execPreemption s
  | .taskResume n => Sys2Proof.Machine.execTaskResume n s
  | .taskStart l => Sys2Proof.Machine.execTaskStart l s
  | .taskEndComplete => Sys2Proof.Machine.execTaskEndComplete s
  | .tickBudgetExpiry => Sys2Proof.Machine.execTickBudgetExpiry s
  | .tileCommandStart l u => Sys2Proof.Machine.execTileCommandStart l u s
  | .stampedCommandStart l => Sys2Proof.Machine.execStampedCommandStart l s
  | .tileCommandComplete l u => Sys2Proof.Machine.execTileCommandComplete l u s
  | .operandWatchdog l part => Sys2Proof.Machine.execOperandWatchdog l part s
  | .commandMigration l part => Sys2Proof.Machine.execCommandMigration l part s
  | .migratedPartialAdd l => Sys2Proof.Machine.execMigratedPartialAdd l s
  | .undeclaredBurst l => Sys2Proof.Machine.execUndeclaredBurst l s
  | .regulatorPreposition who => Sys2Proof.Machine.execRegulatorPreposition who s
  | .phaseOnset who => Sys2Proof.Machine.execPhaseOnset who s
  | .phaseRampStep who => Sys2Proof.Machine.execPhaseRampStep who s
  | .phaseEnd who => Sys2Proof.Machine.execPhaseEnd who s
  | .retentionEntry l => Sys2Proof.Machine.execRetentionEntry l s
  | .retentionExit l => Sys2Proof.Machine.execRetentionExit l s
  | .skidderChunkMove l => Sys2Proof.Machine.execSkidderChunkMove l s
  | .skidderCommandComplete l => Sys2Proof.Machine.execSkidderCommandComplete l s
  | .sourceWatchdog l => Sys2Proof.Machine.execSourceWatchdog l s
  | .chainDescriptorWalk d ch => Sys2Proof.Machine.execChainDescriptorWalk d ch s
  | .barrierComplete stand => Sys2Proof.Machine.execBarrierComplete stand s
  | .standWatchdog => Sys2Proof.Machine.execStandWatchdog s
  | .collectiveComplete stand => Sys2Proof.Machine.execCollectiveComplete stand s
  | .padGaugeFire c n => Sys2Proof.Machine.execPadGaugeFire c n s
  | .controllerGaugeFire d n => Sys2Proof.Machine.execControllerGaugeFire d n s
  | .shedding c k => Sys2Proof.Machine.execShedding c k s
  | .timeShareSwitch c k => Sys2Proof.Machine.execTimeShareSwitch c k s
  | .decisionTickApply => Sys2Proof.Machine.execDecisionTickApply s
  | .eventRingInterrupt fn => Sys2Proof.Machine.execEventRingInterrupt fn s
  | .candidateAgingBlock l => Sys2Proof.Machine.execCandidateAgingBlock l s
  | .rmwService line => Sys2Proof.Machine.execRmwService line s
  | .translationWalk c fn va wr => Sys2Proof.Machine.execTranslationWalk c fn va wr s
  | .pxferRelease plot => Sys2Proof.Machine.execPxferRelease plot s
  | .plsetComplete => Sys2Proof.Machine.execPlsetComplete s
  | .tinvComplete => Sys2Proof.Machine.execTinvComplete s
  | .memoryScrub line r => Sys2Proof.Machine.execMemoryScrub line r s
  | .budgetInterval => Sys2Proof.Machine.execBudgetInterval s
  | .dieLinkFlitReceive g lane crcOk => Sys2Proof.Machine.execDieLinkFlitReceive g lane crcOk s
  | .laneSplice k => Sys2Proof.Machine.execLaneSplice k s
  | .spliceRetrainEnd k => Sys2Proof.Machine.execSpliceRetrainEnd k s
  | .dieComputeFailure d cause => Sys2Proof.Machine.execDieComputeFailure d cause s
  | .shoreLoss d => Sys2Proof.Machine.execShoreLoss d s
  | .railCurrentSample r amps cap => Sys2Proof.Machine.execRailCurrentSample r amps cap s
  | .railRampStep r => Sys2Proof.Machine.execRailRampStep r s
  | .meltUpdate reading => Sys2Proof.Machine.execMeltUpdate reading s
  | .leaseExpiry who => Sys2Proof.Machine.execLeaseExpiry who s
  | .leaseEndNotice who => Sys2Proof.Machine.execLeaseEndNotice who s
  | .growthRingUpdate r metric rate => Sys2Proof.Machine.execGrowthRingUpdate r metric rate s
  | .bankMeasure ok => Sys2Proof.Machine.execBankMeasure ok s
  | .inputPowerLoss => Sys2Proof.Machine.execInputPowerLoss s
  | .checkpointEnd ok => Sys2Proof.Machine.execCheckpointEnd ok s
  | .powerOnReset => Sys2Proof.Machine.execPowerOnReset s
  | .bootStage ok => Sys2Proof.Machine.execBootStage ok s
  | .deviceReset => Sys2Proof.Machine.execDeviceReset s
  | .portFlitReceive k flit => Sys2Proof.Machine.execPortFlitReceive k flit s
  | .flitResendTimeout k => Sys2Proof.Machine.execFlitResendTimeout k s
  | .hostBar2Read fn o n => Sys2Proof.Machine.execHostBar2Read fn o n s
  | .hostBar2Write fn o bytes => Sys2Proof.Machine.execHostBar2Write fn o bytes s
  | .hostApertureCompletion who pa r => Sys2Proof.Machine.execHostApertureCompletion who pa r s
  | .badRegisterAccess fn => Sys2Proof.Machine.execBadRegisterAccess fn s
  | .qheadWrite fn q v => Sys2Proof.Machine.execQheadWrite fn q v s
  | .qcfgEnSet fn q v => Sys2Proof.Machine.execQcfgEnSet fn q v s
  | .qstatThaw fn q => Sys2Proof.Machine.execQstatThaw fn q s
  | .errdWrite fn v => Sys2Proof.Machine.execErrdWrite fn v s
  | .erbaseWrite fn v => Sys2Proof.Machine.execErbaseWrite fn v s
  | .ercfgWrite fn v => Sys2Proof.Machine.execErcfgWrite fn v s
  | .npayWrite fn v => Sys2Proof.Machine.execNpayWrite fn v s
  | .plsetWrite v => Sys2Proof.Machine.execPlsetWrite v s
  | .adplotEnable v => Sys2Proof.Machine.execAdplotEnable v s
  | .adplotDisable v => Sys2Proof.Machine.execAdplotDisable v s
  | .tinvPage fn vpn => Sys2Proof.Machine.execTinvPage fn vpn s
  | .tinvFunction fn => Sys2Proof.Machine.execTinvFunction fn s
  | .tinvAll => Sys2Proof.Machine.execTinvAll s
  | .gcmdWrite v => Sys2Proof.Machine.execGcmdWrite v s
  | .hlprstWrite v => Sys2Proof.Machine.execHlprstWrite v s
  | .ldctlLoad fn => Sys2Proof.Machine.execLdctlLoad fn s
  | .ldctlUnload fn => Sys2Proof.Machine.execLdctlUnload fn s
  | .codeLoadEnd fn => Sys2Proof.Machine.execCodeLoadEnd fn s
  | .atctlGo fn => Sys2Proof.Machine.execAtctlGo fn s
  | .attestationEnd fn => Sys2Proof.Machine.execAttestationEnd fn s
  | .ckctlSave v => Sys2Proof.Machine.execCkctlSave v s
  | .ckctlRestore v => Sys2Proof.Machine.execCkctlRestore v s
  | .hstatSpenWrite v => Sys2Proof.Machine.execHstatSpenWrite v s
  | .registerWrite fn r v => Sys2Proof.Machine.execRegisterWrite fn r v s
  | .emptyBundle sp => Sys2Proof.Machine.execEmptyBundle sp s
  | .helperRiscvInstruction w => Sys2Proof.Machine.execHelperRiscvInstruction w s
  | .managementNotice q slot tile payload => Sys2Proof.Machine.execManagementNotice q slot tile payload s
  | .bankRunsOut => Sys2Proof.Machine.execBankRunsOut s
  | .hskSeal => Sys2Proof.Machine.execHskSeal s
  | .helperSealRelease => Sys2Proof.Machine.execHelperSealRelease s
  | .helperWatchdog => Sys2Proof.Machine.execHelperWatchdog s
  | .helperBoltReplay => Sys2Proof.Machine.execHelperBoltReplay s
  | .tapBypass => Sys2Proof.Machine.execTapBypass s
  | .tapIdcode => Sys2Proof.Machine.execTapIdcode s
  | .tapExtest => Sys2Proof.Machine.execTapExtest s
  | .tapSamplePreload => Sys2Proof.Machine.execTapSamplePreload s
  | .braddr => Sys2Proof.Machine.execBraddr s
  | .brdata => Sys2Proof.Machine.execBrdata s
  | .brstat => Sys2Proof.Machine.execBrstat s
  | .thaw => Sys2Proof.Machine.execThaw s

end Sys2Proof.Machine
end

