-- ==== Sys2Proof/Machine/Issue.lean ====
section
/-! DEFINITION. Issue of a partition's next bundle (spec/03_bundle_encoding.md R64 to R85, spec/06_task_traps_bolts.md
R170, R171) with repeats and loops (R108 to R112), issue of a helper's next instruction (R261), one step of the
machine, and the placing of an instruction where the next step fetches it. -/

namespace Sys2Proof.Machine

/-- Goes on with an outcome's next state. -/
def Out.andThen (o : Out) (k : State → Out) : Out :=
  match o with
  | .next s => k s
  | .fault r => .fault r
  | .refused r => .refused r

/-! ### Faults of the fetched code (R83, R84, R173) -/

/-- The trap of a defective bundle. -/
def State.trapDefect (s : State) : BundleDefect → State
  | .malformedHeader => s.trapBundle 4 0
  | .pairing => s.trapBundle 9 0
  | .slot inB op d =>
    let t := fun cause detail => s.trap 5 (syndWord cause (if inB then 1 else 0) op.toNat detail 0)
    match d with
    | .reservedOpcode => t 5 0
    | .slotClass => t 6 0
    | .reservedType code => t 7 code.toNat
    | .malformedField f => t 8 f.code

/-! ### Repeats (R107 to R109) -/

/-- The issue-time defect of an operation in the repetition that issues. -/
def State.repDefect (s : State) (i : Instr) : Option (Nat × Nat × Nat × Nat) :=
  match s.task.flow.rep with
  | none => s.issueDefect i
  | some r => s.steppedDefect i r.sd r.sa r.sb r.sc r.next

/-- The operation with its v fields moved to the repetition that issues. -/
def steppedInstr (rep : Option RepState) (w : SlotWord) (i : Instr) : Instr :=
  match rep, opForm i with
  | some r, some (f, o) =>
    let move := fun file x stride => BitVec.ofInt 9 (stepped file x stride r.next)
    (operationOf (slotOp w).toNat
      { f with d := move o.d f.d r.sd, a := move o.a f.a r.sa, b := move o.b f.b r.sb, c := move o.c f.c r.sc }).getD i
  | _, _ => i

/-! ### One bundle -/

def isTrap : Option Instr → Bool
  | some (.trap _) => true
  | _ => false

def isSeal : Option Instr → Bool
  | some (.sealBolt _) => true
  | _ => false

def isRep : Option Instr → Bool
  | some (.rep _) => true
  | _ => false

/-- Runs the operation of one slot. -/
def State.runSlot (s : State) (inB : Bool) : Option Instr → Out
  | none => .next s
  | some i => exec i (s.setFlow { s.task.flow with inB, fate := .retired })

/-- The state slot B reads: what slot A wrote to RMODE or released of the allotment governs later bundles (R19, R115). -/
def State.sourcesOf (s s0 : State) : State :=
  (s.setSys { s.task.sys with rmode := s0.task.sys.rmode }).setId { s.task.id with vgran := s0.task.id.vgran }

/-- Gives back what `sourcesOf` hid. -/
def State.resultsOf (s s1 : State) : State :=
  (s.setSys { s.task.sys with rmode := s1.task.sys.rmode }).setId { s.task.id with vgran := s1.task.id.vgran }

/-- The two operations of a bundle: slot A acts first (R79), but a TRAP is taken after slot B (R113); a trap or a
wait of either undoes both (R171). -/
def State.runPair (s0 : State) (a b : Option Instr) (finish : State → State) : Out :=
  if isTrap a then
    (s0.runSlot true b).andThen fun s1 =>
      match s1.task.flow.fate with
      | .trapped _ => .next s1
      | .waits _ => .next s1
      | .retired => (s1.runSlot false a).andThen fun s2 =>
        match s2.task.flow.fate with
        | .retired => .next (finish s2)
        | _ => .next s2
  else
    (s0.runSlot false a).andThen fun s1 =>
      match s1.task.flow.fate with
      | .trapped _ => .next s1
      | .waits _ => .next s1
      | .retired =>
        (State.runSlot (s1.sourcesOf s0) true b).andThen fun s2 =>
          match s2.task.flow.fate with
          | .trapped r => .next (if a.isNone then s2 else s0.takeTrap r)
          | .waits k => .next (if a.isNone then s2 else (s0.setFlow { s0.task.flow with inB := true }).waitFor k)
          | .retired => .next (finish (if a.isNone then s2 else s2.resultsOf s1))

/-- The issue-time checks of a decoded bundle, then its operations; a SEAL that has sealed is no operation of the bolt
that follows it (R181). -/
def State.issueDecoded (s : State) (w : BundleWord) (b : Bundle) : Out :=
  let rep := s.task.flow.rep
  let loop := s.task.flow.loop
  let control := controlOp b
  if control.isSome && rep.isSome then .next (s.trapInstr 0x088 0x12 0 0)
  else if let (some op, true) := (control, loop.isSome) then .next (s.trapInstr op 0x13 0 0)
  else
    let defect := fun inB (i : Option Instr) =>
      (i.bind s.repDefect).map fun (cause, op, detail, info) =>
        s.trap 5 (syndWord cause (if inB then 1 else 0) op detail info)
    match (defect false b.a).or (defect true b.b) with
    | some t => .next t
    | none =>
      let a := b.a.map (steppedInstr rep (w.extractLsb' 240 128))
      let bb := b.b.map (steppedInstr rep (w.extractLsb' 112 128))
      match a, bb with
      | none, none => Out.andThen (exec (.emptyBundle b.sp) s) fun s1 => .next (s1.retire rep loop false)
      | _, _ => s.runPair a bb fun t => t.retire rep loop (!isSeal b.a || t.task.bolt.work.num == s.task.bolt.work.num)

/-- The halfwords of a bundle are charged to the cluster (R356). -/
def State.chargeFetch (s : State) (o next : Nat) : State := s.chargeBudget s.myCluster (2 * (next - o))

/-- The selected task's next bundle: a SHRINK takes effect, the clocks of a wait pass (R29), windows that have closed are
settled, the bundle is fetched, decoded and checked, and its operations run. The tick of a task's first issue is its
stamp base (R216). -/
def State.issueBundle (s : State) : Out :=
  let s0 := s.giveUp
  let t := s0.task
  let o := t.flow.pc
  let clk := t.flow.wait.elim t.flow.clk fun w => w.clock s.dcc t.flow.clk
  let s1 := s0.setRegs (t.regs.settle clk)
  let s1 := if t.flow.clk = 0 then s1.setEng { s1.task.eng with stampBase := s.dcc } else s1
  let s2 := s1.setFlow { t.flow with
    clk, off := o, inB := false, fate := .retired, owns := none
    repix := t.flow.rep.elim t.flow.repix fun r => BitVec.ofNat 32 r.next }
  match s2.fetchBundle o with
  | .error (cause, info) => .next (s2.trapBundle cause info)
  | .ok (w, next) =>
    match decodeBundle w with
    | .error d => .next ((s2.setFlow { s2.task.flow with nextPc := next }).trapDefect d)
    | .ok b =>
      State.issueDecoded ((s2.chargeFetch o next).setFlow
        { s2.task.flow with nextPc := next, sp := b.sp && !isRep b.a, pool := b.imm }) w b

/-- A wait that only an event of its own ends. -/
def Wait.blocks (w : Wait) : Bool :=
  !w.ready && match w.kind with
    | .stall | .readout _ | .pad _ => false
    | _ => true

/-- What the selected task does: nothing while it does not run, waits, or has an error
charged to its bolt (R188), else its next bundle; a restarted task takes its granules first. -/
def State.issueTask (s : State) : Out :=
  if s.task.id.live && s.waitsFor (· == .allotment) then .next s.regain
  else if !s.task.id.live || !s.runs s.task.id.lcore || (s.task.flow.preempt && s.task.flow.safe) ||
      s.task.bolt.charged.isSome || decide (s.dcc < s.task.flow.holdOff) || s.task.flow.wait.any (·.blocks) then .next s else s.issueBundle

/-! ### Helpers (R261) -/

/-- The bytes of a helper's next instruction as a word: 16 bits when they do not end in 0b11. -/
def State.helperWord (s : State) : BitVec 32 :=
  let k := keyHelper s.hlp.lcore s.hlp.which s.hlp.pc.toNat
  let lo := natOfBytes (s.mem.readBytes k 2)
  BitVec.ofNat 32 (if lo % 4 = 3 then lo + natOfBytes (s.mem.readBytes (k + 2) 2) * 65536 else lo)

/-- What the selected helper does. -/
def State.issueHelper (s : State) : Out :=
  if s.hlp.mode = .stopped || !s.runs s.hlp.lcore || s.hlp.charged.isSome then .next s
  else match s.hFetchFault with
    | some a => .next (s.hTrap 1 a)
    | none => exec (decodeHelper s.helperWord) s

/-! ### One step -/

/-- The next task and helper take their turns. -/
def State.rotate (s : State) : State :=
  match s.turn with
  | .task =>
    let s1 := match s.parked with
      | [] => s
      | t :: ts => { s with task := t, parked := ts ++ (if s.task.id.live then [s.task] else []) }
    if s.hlp.mode = .running ∨ s.parkedH.any (·.mode == .running) then { s1 with turn := .helper } else s1
  | .helper =>
    match s.parkedH with
    | [] => { s with turn := .task }
    | h :: hs => { s with hlp := h, parkedH := hs ++ [s.hlp], turn := .task }

/-- A tick passes (R8, log 3) and free values change. -/
def State.tick (s : State) : State := { s with dcc := s.dcc + 1, epoch := s.epoch + 1 }

end Sys2Proof.Machine
end

