-- ==== Sys2Proof/Machine/Window.lean ====
section
/-! DEFINITION. The register windows (spec/17_fabric.md R389 to R391, R397): what a host function finds at an offset of its
BAR0, and the step that a write there is. The management core reaches the device block through a window of its own, as
function 0 does (R32; log 23). -/

namespace Sys2Proof.Machine

/-! ### Configuration space (R389) -/

/-- The size of a function's BAR0 and BAR2. -/
def barSize (fn bar : Nat) : Nat := if bar = 2 then 2 ^ 38 else if fn = 0 then 2 ^ 21 else 2 ^ 16

/-- BAR word `k` of a function: BAR0 is 64-bit and not prefetchable, BAR2 64-bit and prefetchable, and a BAR that the function
lacks reads zero. -/
def State.barWord (s : State) (fn k : Nat) : W32 :=
  let base := ((s.fn fn).bars.getD (k / 2) 0).toNat
  if 4 ≤ k then 0
  else BitVec.ofNat 32 (if k % 2 = 1 then base / 2 ^ 32 else base % 2 ^ 32 + if k = 0 then 4 else 12)

/-- A write to BAR word `k`: a base is a multiple of the BAR's size. -/
def State.writeBar (s : State) (fn k : Nat) (v : W32) : State :=
  let r := s.fn fn
  let old := (r.bars.getD (k / 2) 0).toNat
  let new := if k % 2 = 1 then v.toNat * 2 ^ 32 + old % 2 ^ 32 else old / 2 ^ 32 * 2 ^ 32 + v.toNat
  let size := barSize fn (k / 2 * 2)
  if 4 ≤ k then s else s.setFn fn { r with bars := r.bars.set (k / 2) (BitVec.ofNat 64 (new / size * size)) }

/-! ### Reads -/

/-- The word `i` of a queue's registers, as a function that sees the queue reads it (R299). -/
def State.queueWord (s : State) (q i : Nat) : Nat :=
  let x := s.queue q
  match i with
  | 0 => x.qbase.toNat
  | 1 => x.qcfg.toNat
  | 2 => x.qhead.toNat
  | 3 => x.qtail.toNat
  | 4 => bit x.frozen 63 + bit x.stop 62 + bit x.badhd 61 + s.entries q % 512 * 2 ^ 48 + Nat.min x.trig 65535 * 2 ^ 32
      + x.drops.toNat
  | _ => 0

/-- The registers of a function above its queues (R390); those that only act when written read zero. -/
def State.functionWord (s : State) (fn o : Nat) : Nat :=
  let r := s.fn fn
  match o with
  | 0x1000 => r.erbase.toNat
  | 0x1008 => r.ercfg.toNat
  | 0x1010 => r.erwr.toNat
  | 0x1018 => r.errd.toNat
  | 0x1020 => bit r.isFull 0
  | 0x1040 => r.ntgt.toNat
  | 0x1050 => r.fstat.toNat
  | 0x1080 => r.ldsrc.toNat
  | 0x1088 => r.ldcode.toNat
  | 0x1090 => bit r.ldop 1
  | 0x1098 => r.ldst.toNat
  | 0x10A0 => r.ldhnd.toNat
  | 0x10C0 => (r.nonce.getD 0 0).toNat
  | 0x10C8 => (r.nonce.getD 1 0).toNat
  | 0x10D0 => (r.nonce.getD 2 0).toNat
  | 0x10D8 => (r.nonce.getD 3 0).toNat
  | 0x10E0 => r.atstate * 2
  | 0x10E8 => r.ataddr.toNat
  | 0x2000 => r.troot.toNat
  | 0x4000 => (r.msix.getD 0 0).toNat
  | 0x4008 => (r.msix.getD 1 0).toNat
  | 0x4010 => (r.msix.getD 2 0).toNat
  | 0x4018 => (r.msix.getD 3 0).toNat
  | 0x5000 => r.msixPend.toNat
  | _ => 0

/-- The device block in the physical function's BAR0 (R397). -/
def blockBase : Nat := 0x100000

/-- The offset lies in the device block, which function 0 alone has (R389). -/
def inBlock (fn o : Nat) : Bool := fn == 0 && decide (blockBase ≤ o ∧ o < blockBase + 0x20000)

/-- The 8 bytes at an aligned offset of a function's BAR0 (R390, R391): another function's queue slots and unassigned
offsets read zero. -/
def State.windowWord (s : State) (fn o : Nat) : Nat :=
  if o < 0x1000 then (if s.sees fn (o / 64) then s.queueWord (o / 64) (o % 64 / 8) else 0)
  else if inBlock fn o then s.blockWord ((o - blockBase) / 8)
  else s.functionWord fn o

/-- Bytes of an aligned access of 4 or 8 bytes (R391). -/
def accessOk (off n : Nat) : Bool := (n == 4 || n == 8) && off % n == 0

/-- A read through a window; one of another size or alignment reads zero and sets BADACC. -/
def State.readWindow (s : State) (fn off n : Nat) : State :=
  if accessOk off n then
    s.emit (.readData fn (bytesOfNat n (s.windowWord fn (off / 8 * 8) / 2 ^ (8 * (off % 8)))))
  else (s.emit (.readData fn (List.replicate n 0))).setFstat fn 2

/-! ### Writes -/

/-- A write to a queue's word is a step. -/
def queueStep (fn q i : Nat) (v : W64) : Instr :=
  match i with
  | 0 => .registerWrite fn (.qbase q) v
  | 1 => .registerWrite fn (.qcfg q) v
  | 2 => .qheadWrite fn q v
  | 3 => .registerWrite fn (.qtail q) v
  | 4 => .registerWrite fn (.qstat q) v
  | _ => .registerWrite fn .unassigned v

/-- A write to a function's own registers is a step. -/
def functionStep (fn o : Nat) (v : W64) : Instr :=
  match o with
  | 0x1000 => .erbaseWrite fn v
  | 0x1008 => .ercfgWrite fn v
  | 0x1010 => .registerWrite fn (.erwr fn) v
  | 0x1018 => .errdWrite fn v
  | 0x1020 => .registerWrite fn (.erstat fn) v
  | 0x1040 => .registerWrite fn (.ntgt fn) v
  | 0x1048 => .npayWrite fn v
  | 0x1050 => .registerWrite fn (.fstat fn) v
  | 0x1080 => .registerWrite fn (.ldsrc fn) v
  | 0x1088 => .registerWrite fn (.ldcode fn) v
  | 0x1090 => .registerWrite fn (.ldctl fn) v
  | 0x1098 => .registerWrite fn (.ldst fn) v
  | 0x10A0 => .registerWrite fn (.ldhnd fn) v
  | 0x10C0 => .registerWrite fn (.atnonce fn 0) v
  | 0x10C8 => .registerWrite fn (.atnonce fn 1) v
  | 0x10D0 => .registerWrite fn (.atnonce fn 2) v
  | 0x10D8 => .registerWrite fn (.atnonce fn 3) v
  | 0x10E0 => if v.getLsbD 0 then .atctlGo fn else .registerWrite fn .unassigned v
  | 0x10E8 => .registerWrite fn (.ataddr fn) v
  | 0x2000 => .registerWrite fn (.troot fn) v
  | 0x4000 => .registerWrite fn (.msix fn 0) v
  | 0x4008 => .registerWrite fn (.msix fn 1) v
  | 0x4010 => .registerWrite fn (.msix fn 2) v
  | 0x4018 => .registerWrite fn (.msix fn 3) v
  | _ => .registerWrite fn .unassigned v

/-- A write to TINV is a step, by its SCOPE (R338). -/
def tinvStep (v : W64) : Instr :=
  match bitsOf v.toNat 63 62 with
  | 0 => .tinvPage (BitVec.ofNat 4 (bitsOf v.toNat 61 58)) (BitVec.ofNat 32 (bitsOf v.toNat 47 16))
  | 1 => .tinvFunction (BitVec.ofNat 4 (bitsOf v.toNat 61 58))
  | 2 => .tinvAll
  | _ => .registerWrite 0 .unassigned v

/-- A write to the device block is a step (R397); offsets without a writable register take none. -/
def blockStep (o : Nat) (v : W64) : Instr :=
  let i := o / 8
  let reg := fun (r : WinReg) => Instr.registerWrite 0 r v
  match o with
  | 0x08 => reg .adplot
  | 0x10 => .hstatSpenWrite v
  | 0x18 => reg .schage
  | 0x20 => .plsetWrite v
  | 0x28 => reg .plstat
  | 0x38 => tinvStep v
  | 0x48 => reg .ckctl
  | 0x58 => reg .hapbase
  | 0x60 => reg .mdpos
  | 0x68 => reg .mdq
  | 0x78 => .hlprstWrite v
  | 0x80 => reg (.gstg 0)
  | 0x88 => reg (.gstg 1)
  | 0x90 => reg (.gstg 2)
  | 0x98 => reg (.gstg 3)
  | 0xA0 => .gcmdWrite v
  | _ =>
    if 0x2000 ≤ o ∧ o < 0x2080 then reg (.troot (i - 0x400))
    else if 0x3000 ≤ o ∧ o < 0x3100 ∧ i % 2 = 0 then reg (.mbud ((i - 0x600) / 2))
    else if 0x6200 ≤ o ∧ o < 0x6400 then reg (.proute (i - 0xC40))
    else if 0x8000 ≤ o ∧ o < 0xC000 then reg (.padGauge ((i - 0x1000) / 128) ((i - 0x1000) / 4 % 32) (i % 4))
    else if 0xC000 ≤ o ∧ o < 0x10000 then reg (.ctlGauge ((i - 0x1800) / 1024) ((i - 0x1800) / 4 % 256) (i % 4))
    else reg .unassigned

/-- A write of 8 bytes at an aligned offset of a function's BAR0 is a step. -/
def windowStep (fn o : Nat) (v : W64) : Instr :=
  if o < 0x1000 then queueStep fn (o / 64) (o % 64 / 8) v
  else if inBlock fn o then blockStep (o - blockBase) v
  else functionStep fn o v

/-- Registers with W1C bits, whose other half a 4-byte write leaves alone (R391): QSTAT, FSTAT, PLSTAT and gauges. -/
def oneToClear (fn o : Nat) : Bool :=
  (decide (o < 0x1000) && o % 64 == 0x20) || o == 0x1050
    || (inBlock fn o && (o == blockBase + 0x28 || decide (blockBase + 0x8000 ≤ o ∧ o < blockBase + 0x10000)))

/-- A 4-byte write covers none of the bits that its register has in use, and its register does not act when written. -/
def uncovered (fn off n : Nat) : Bool := n == 4 && inBlock fn off && off - blockBase == 0x0C

/-- The value of the 8-byte write for which a write of 4 or 8 bytes stands: its other half holds the register's RW fields
and 0 in every WO and W1C field (R391). -/
def State.writeValue (s : State) (fn off n : Nat) (v : W64) : W64 :=
  let o := off / 8 * 8
  let old : W64 := if oneToClear fn o then 0 else BitVec.ofNat 64 (s.windowWord fn o)
  if n = 8 then v
  else if off % 8 = 0 then (old &&& 0xFFFFFFFF00000000) ||| (v &&& 0xFFFFFFFF)
  else (old &&& 0xFFFFFFFF) ||| (v <<< 32)

/-- The step that a write through a window is (R391). -/
def State.writeStep (s : State) (fn off n : Nat) (v : W64) : Instr :=
  if !accessOk off n then .badRegisterAccess fn
  else if uncovered fn off n then .registerWrite fn .unassigned v
  else windowStep fn (off / 8 * 8) (s.writeValue fn off n v)

end Sys2Proof.Machine
end

