-- ==== Sys2Proof/Machine/Run.lean ====
section
/-! DEFINITION. One step of the device: what the outside world does comes first, then an instruction of the test
port, then an event that is due, then the next bundle or helper instruction in turn (log 2); and the placing of an
instruction where the next step fetches it. -/

namespace Sys2Proof.Machine

/-- The caps after a step that may have ended leases: where the module's sprint level has fallen, they follow the lowered
power limit on that tick (R377). -/
def State.holdLimit (was t : State) : State := if t.sprint < was.sprint then t.lowerCaps else t

/-- Time passes and free values change, and a skidder without a ready command is idle (R239); while the device is stopped,
and on the ticks on which it stops and goes on, DCC is as the step has left it (R380). -/
def State.later (was t : State) : State :=
  let u := was.holdLimit t
  if was.tap.stopped || u.tap.stopped then { u with epoch := u.epoch + 1 } else u.restSkidders.tick

/-- Runs one instruction as a step. -/
def State.perform (s : State) (i : Instr) : Out := Out.andThen (exec i s) fun t => .next (s.later t)

/-- The bundle or helper instruction whose turn it is. -/
def State.issueNext (s : State) : Out :=
  Out.andThen (match s.turn with | .task => s.issueTask | .helper => s.issueHelper) fun t => .next (s.later t.rotate)

/-- The host function that asks for a step; the device's own window acts as function 0 (R390, R397). -/
def hostFunction : Instr → Option Nat
  | .hostBar2Read fn _ _ | .hostBar2Write fn _ _ | .badRegisterAccess fn | .qheadWrite fn _ _ | .qcfgEnSet fn _ _
  | .qstatThaw fn _ | .errdWrite fn _ | .erbaseWrite fn _ | .ercfgWrite fn _ | .npayWrite fn _ | .ldctlLoad fn
  | .ldctlUnload fn | .atctlGo fn | .registerWrite fn _ _ => some fn
  | .plsetWrite _ | .adplotEnable _ | .adplotDisable _ | .tinvPage _ _ | .tinvFunction _ | .tinvAll | .gcmdWrite _
  | .hlprstWrite _ | .ckctlSave _ | .ckctlRestore _ | .hstatSpenWrite _ => some 0
  | _ => none

/-- What goes on while the device is stopped: power, and the checkpoint of a loss of it (R380, R386). -/
def whileStopped : List Instr := [.powerOnReset, .inputPowerLoss, .bankRunsOut, .checkpointEnd true, .checkpointEnd false]

/-- The host link answers: it is trained, and the device is not stopped (R380, R420). -/
def State.linkReady (s : State) : Bool := s.dev.bootstage == 6 && !s.tap.stopped

/-- The firmware has not passed its check: the device is in ROM recovery (R420). -/
def State.inRecovery (s : State) : Bool := s.dev.booterr == 1 && !s.tap.stopped

/-- The device can take an input now; requests wait under withheld credits while it cannot (R380, R386, R420). -/
def State.admits (s : State) : Input → Bool
  | .event i =>
    if !s.pkg.powered then i == .powerOnReset
    else if (hostFunction i).isSome then s.linkReady
    else !s.tap.stopped || whileStopped.contains i
  | .pins .. => true
  | .shiftIR _ => true
  | .read fn off _ => s.pkg.powered && (s.linkReady || (s.inRecovery && fn == 0 && off / 8 * 8 == blockBase + 0x70))
  | .write .. => s.pkg.powered && s.linkReady
  | .config _ => s.pkg.powered && (s.linkReady || s.inRecovery)
  | .msixControl .. => s.pkg.powered && (s.linkReady || s.inRecovery)
  | .barRead .. => s.pkg.powered && (s.linkReady || s.inRecovery)
  | .barWrite .. => s.pkg.powered && (s.linkReady || s.inRecovery)
  | .streamError _ => s.pkg.powered && !s.tap.stopped

/-- A function that is enabled makes the request (R389). -/
def State.enabledFn (s : State) (fn : Nat) : Bool := decide (fn ≤ s.dev.vfs)

/-- A step that the outside world causes; one that a function asks for which is not enabled has no effect. -/
def State.performFor (s : State) (i : Instr) : Out :=
  if (hostFunction i).all s.enabledFn then s.perform i else .next (s.later s)

/-- What the outside world does. -/
def State.takeInput (s : State) : Input → Out
  | .event i => s.performFor i
  | .pins brumN shift => .next { s with tap := { s.tap with pin := brumN, shiftIn := shift } }
  | .shiftIR code => .next { s with tap := { s.tap with pending := some code } }
  | .read fn off n => .next (s.later (if s.enabledFn fn then s.readWindow fn off n else s))
  | .write fn off n v => s.performFor (s.writeStep fn off n v)
  | .config vfs => .next (s.later { s with dev := { s.dev with vfs := Nat.min vfs 15 } })
  | .msixControl fn on mask => .next (s.later (s.controlMsix fn on mask))
  | .barRead fn k => .next (s.later (s.emit (.barData fn k (s.barWord fn k))))
  | .barWrite fn k v => .next (s.later (s.writeBar fn k v))
  | .streamError l => .next (s.later (s.spoilStreams l))

/-- The first input that the device can take, and the others. -/
def State.firstInput (s : State) : List Input → Option (Input × List Input)
  | [] => none
  | x :: xs => if s.admits x then some (x, xs) else (s.firstInput xs).map fun (y, ys) => (y, x :: ys)

/-- The device boots: a stage is to come, and none has failed (R420). -/
def State.booting (s : State) : Bool := decide (s.dev.bootstage < 6) && s.dev.booterr == 0

/-- What the device does by itself: an instruction shifted into the test port, the next stage of its boot, whose outcome is
free where the outside world has not said it, an event that is due, or the next bundle; its compute starts in stage 3
(R420, log 23). -/
def State.ownStep (s : State) : Out :=
  match s.tap.pending with
  | some c => State.perform { s with tap := { s.tap with pending := none } } (decodeTap c)
  | none =>
    if s.tap.stopped then .next s
    else if s.booting then s.perform (.bootStage ((s.measured 6 1).getLsbD 0))
    else if s.dev.bootstage < 3 then .next (s.later s)
    else match s.due with
      | some i => s.perform i
      | none => s.issueNext

/-- One step; without power only a power-on reset has an effect (R386). -/
def State.oneStep (s : State) : Out :=
  match s.firstInput s.inputs with
  | some (x, rest) => State.takeInput { s with inputs := rest } x
  | none => if s.pkg.powered then s.ownStep else .fault .poweredDown

/-! ### Placing an instruction -/

/-- The task of partition 0 of logical core 0 at its kernel's first bundle. -/
def placedTask (t : Task) : Task :=
  { t with
    id := { t.id with live := true, dbase := 0, dsize := 1, clim := 1, stream := 0 }
    flow := { t.flow with pc := 0, holdOff := 0, wait := none, rep := none, loop := none, preempt := false, safe := false } }

/-- A bundle as entry 0 of the dictionary of the selected task's core; the index stream is one halfword 0 at virtual
address 0, in plot 1, which is owned by logical core 0 and translated by a cached translation. -/
def State.placeBundle (s : State) (w : BundleWord) : State :=
  let t := placedTask s.task
  let c := s.core t.id.lcore
  { s with
    task := t
    cores := sset Core.reset s.cores t.id.lcore { c with dict := sset (fun _ => 0) c.dict 0 w }
    mem := (s.mem.write 8 1).writeCells [(2 ^ 21, 0), (2 ^ 21 + 1, 0)]
    tlb := [⟨t.id.lcore / 12, t.id.func, 0, 65536, 2 ^ 21, true⟩]
    dev := { s.dev with bootstage := 6 }
    inputs := [], tap := { s.tap with pending := none, stopped := false }, turn := .task }

/-- A slot alone in a bundle, in a slot that its class permits, with the pool that its PSEL asks for. -/
def loneBundle (w : SlotWord) : BundleWord :=
  let pool := poolFormOfPsel (slotFields w).psel
  if classAllowed (slotOp w).toNat false then bundleWord false pool 0 (some w) none
  else bundleWord false pool 0 none (some w)

/-- A helper word at the pc of the selected helper, which runs. -/
def State.placeHelper (s : State) (w : Nat) : State :=
  { s with
    hlp := { s.hlp with mode := .running, wait := none }
    mem := s.mem.writeCells (cellsAt (keyHelper s.hlp.lcore s.hlp.which s.hlp.pc.toNat) (bytesOfNat 4 w))
    dev := { s.dev with bootstage := 6 }
    inputs := [], tap := { s.tap with pending := none, stopped := false }, turn := .helper }

/-- The instruction whose bits are `w`, where the next step fetches it. -/
def State.placeWord (s : State) (nbits w : Nat) : State :=
  match nbits with
  | 8 => { s with inputs := [], tap := { s.tap with pending := some (BitVec.ofNat 8 w) } }
  | 16 | 32 => s.placeHelper w
  | 128 => s.placeBundle (loneBundle (BitVec.ofNat 128 w))
  | 384 => s.placeBundle (BitVec.ofNat 384 w)
  | _ => s

end Sys2Proof.Machine
end

