-- ==== Sys2Proof/Safety.lean ====
section
/-! DEFINITION. What a safe run is, and the words in which claims about instructions are stated: the value a register
holds once its latency windows have closed, and what an instruction changes besides. -/

namespace Sys2Proof.Machine

/-- The invariant of a state: memory keeps its canonical form. -/
def Inv (s : State) : Prop := s.mem.wf = true

/-- A step is safe when it neither faults nor refuses. -/
def Safe (s : State) : Prop := ∃ t, step s = .next t

/-! ### Registers once every window has closed (R14, R29 to R31) -/

/-- The final value of g[n]. -/
def State.finalG (s : State) (n : Nat) : W64 := if n = 0 then 0 else s.task.regs.close.storedG n
/-- The final value of p[n]. -/
def State.finalP (s : State) (n : Nat) : Bool := if n = 0 then true else s.task.regs.close.p.getLsbD n
/-- The final value of m[n]. -/
def State.finalM (s : State) (n : Nat) : Mask := if n = 0 then BitVec.allOnes 256 else s.task.regs.close.storedM n
/-- The final value of v[n]. -/
def State.finalV (s : State) (n : Nat) : VReg := s.task.regs.close.storedV n

/-- Every g, p, m and v register but one keeps its final value. -/
def KeepsOthers (s t : State) (file : RegFile) (n : Nat) : Prop :=
  (∀ k, ¬(file = .g ∧ k = n) → t.finalG k = s.finalG k) ∧ (∀ k, k < 16 → ¬(file = .p ∧ k = n) → t.finalP k = s.finalP k) ∧
  (∀ k, ¬(file = .m ∧ k = n) → t.finalM k = s.finalM k) ∧ (∀ k, ¬(file = .v ∧ k = n) → t.finalV k = s.finalV k)

/-- Every g, p, m and v register keeps its final value. -/
def KeepsRegisters (s t : State) : Prop :=
  (∀ k, t.finalG k = s.finalG k) ∧ (∀ k, k < 16 → t.finalP k = s.finalP k) ∧ (∀ k, t.finalM k = s.finalM k) ∧
    (∀ k, t.finalV k = s.finalV k)

/-- Every byte of memory reads as before. -/
def KeepsMemory (s t : State) : Prop := ∀ a, t.mem.read a = s.mem.read a

/-- Nothing but one register changes: no special register, accumulator, exception register, byte of memory or anything
else of the device. -/
def OnlyRegister (s t : State) (file : RegFile) (n : Nat) : Prop :=
  t.setRegs s.task.regs = s ∧ KeepsMemory s t ∧ KeepsOthers s t file n

/-- Nothing changes but that g[n] gets a value; g0 discards it (R14). -/
def WritesG (s t : State) (n : Nat) (x : W64) : Prop :=
  OnlyRegister s t .g n ∧ t.finalG n = if n = 0 then 0 else x

/-- Nothing changes but that p[n] gets a value; p0 discards it (R14). -/
def WritesP (s t : State) (n : Nat) (x : Bool) : Prop :=
  OnlyRegister s t .p n ∧ t.finalP n = if n = 0 then true else x

/-- Nothing changes but that every governed element of v[D] gets a value; the others keep their bits (R15, R131). -/
def WritesLanes (s t : State) (f : Slot) (on : Nat → Bool) (val : Nat → Nat) : Prop :=
  OnlyRegister s t .v f.d.toNat ∧ ∀ i, i < laneCount f.t → elemBits (typeWidth f.t) (t.finalV f.d.toNat) i =
    if on i then val i % 2 ^ typeWidth f.t else elemBits (typeWidth f.t) (s.finalV f.d.toNat) i

/-- Nothing outside the selected task changes. -/
def KeepsOutside (s t : State) : Prop := t.setTask s.task = s

/-- What a seal, the handler's entry and a wait leave of a task besides its registers: who it is, its special registers,
its lease and its phase declaration. -/
def KeepsSpecials (s t : State) : Prop :=
  t.task.id = s.task.id ∧ t.task.sys = s.task.sys ∧ t.task.lease = s.task.lease ∧ t.task.phase = s.task.phase

/-! ### What a step runs (R64, R78, R84, R261) -/

/-- The device has booted as far as its compute, and nothing but the next bundle or helper instruction is there to be
run: no input that it can take, no instruction of the test port, no stage of its boot, no event that is due. -/
def State.idle (s : State) : Prop :=
  s.firstInput s.inputs = none ∧ s.pkg.powered = true ∧ s.tap.pending = none ∧ s.tap.stopped = false ∧
    s.booting = false ∧ 3 ≤ s.dev.bootstage ∧ s.due = none

/-- It is the turn of the selected task, which runs, waits for nothing and has no error charged to its bolt. -/
def State.mayIssue (s : State) : Prop :=
  s.turn = .task ∧ s.task.id.live = true ∧ s.runs s.task.id.lcore = true ∧ (s.task.flow.preempt && s.task.flow.safe) = false ∧
    s.task.bolt.charged = none ∧ s.task.flow.holdOff ≤ s.dcc ∧ s.waitsFor (· == .allotment) = false ∧
    s.task.flow.wait.any (·.blocks) = false

/-- The selected task at its pc: a SHRINK before it has taken effect, the clocks of a wait have passed, windows that have
closed are settled, and the first bundle of a task has its stamp base (R19, R29, R216). -/
def State.atPc (s : State) : State :=
  let u := s.giveUp
  let f := u.task.flow
  let clk := f.wait.elim f.clk fun w => w.clock s.dcc f.clk
  let v := (u.setRegs (u.task.regs.settle clk)).setEng
    { u.task.eng with stampBase := if f.clk = 0 then s.dcc else u.task.eng.stampBase }
  v.setFlow { f with
    clk, off := f.pc, inB := false, fate := .retired, owns := none
    repix := f.rep.elim f.repix fun r => BitVec.ofNat 32 r.next }

/-- The selected task at a bundle that has been fetched, charged and decoded: the flow names it and the offset after it. -/
def State.atBundle (s : State) (b : Bundle) (next : Nat) : State :=
  let v := s.atPc
  (v.chargeFetch v.task.flow.off next).setFlow
    { v.task.flow with nextPc := next, sp := b.sp && !isRep b.a, pool := b.imm }

/-- A task as slot B of a bundle finds it: slot A's write to RMODE and the allotment it gave up are for later bundles
(R19, R115). -/
def State.inSlotB (u t : State) : State :=
  let v := (u.setSys { u.task.sys with rmode := t.task.sys.rmode }).setId { u.task.id with vgran := t.task.id.vgran }
  v.setFlow { v.task.flow with inB := true, fate := .retired }

/-! ### Operations of a slot (R20, R78) -/

/-- An operation has no issue-time defect and is not suppressed. -/
def State.goes (s : State) (i : Instr) (f : Slot) : Prop := s.issueDefect i = none ∧ s.executes f = true

/-- A seal can complete at once: it has no engine fault to raise and no wait left (R181). -/
def State.sealable (s : State) : Prop := s.sealFault = none ∧ s.sealReady = true

/-- The task has entered its handler for a trap of a class, at the bundle or the REP that issues; no register and no byte
of memory has changed (R165, R166). -/
def Trapped (s t : State) (sclass : BitVec 8) (synd : W64) : Prop :=
  t.task.bolt.handler = true ∧ t.task.flow.pc = s.task.sys.tvec.toNat ∧ t.task.sys.sclass = sclass ∧
    t.task.sys.synd = synd ∧ t.task.sys.epc = offWord s.faultPc ∧ KeepsRegisters s t ∧ KeepsMemory s t ∧ KeepsOutside s t

/-- A synchronous trap would enter the handler: it is not running, and no error is charged to the bolt (R166, R169). -/
def State.mayTrap (s : State) : Prop := s.task.bolt.charged = none ∧ s.task.bolt.handler = false

/-! ### Integer types (R38, R53, R96) -/

/-- The width of an integer type of set S. -/
def intWidth (t : BitVec 5) : Nat := 8 * 2 ^ ((t.toNat - 1) % 4)
/-- s8 to s64 are signed, u8 to u64 are not. -/
def signedType (t : BitVec 5) : Bool := decide (t.toNat ≤ 4)
/-- The low bits of a register, as a type reads them. -/
def readAs (t : BitVec 5) (x : W64) : Int :=
  if signedType t then (x.setWidth (intWidth t)).toInt else (x.setWidth (intWidth t)).toNat
/-- An integer wrapped to a type and extended to a register. -/
def wrapAs (t : BitVec 5) (r : Int) : W64 :=
  if signedType t then (BitVec.ofInt (intWidth t) r).signExtend 64 else (BitVec.ofInt (intWidth t) r).setWidth 64
/-- An integer clamped to a type. -/
def clampAs (t : BitVec 5) (r : Int) : W64 :=
  let n := intWidth t
  BitVec.ofInt 64 (if signedType t then max (-(2 ^ (n - 1))) (min (2 ^ (n - 1) - 1) r) else max 0 (min (2 ^ n - 1) r))
/-- A result under SAT. -/
def satAs (f : Slot) (r : Int) : W64 := if f.sat = 1 then clampAs f.t r else wrapAs f.t r
/-- A pattern of a type extended to a register. -/
def extendAs (t : BitVec 5) (x : BitVec (intWidth t)) : W64 := if signedType t then x.signExtend 64 else x.setWidth 64


/-! ### Vector elements (R15, R16, R53, R130) -/

/-- A pattern of `w` bits as an element of a type. -/
def elementInt (t : BitVec 5) (x : Nat) : Int :=
  if signedType t && decide (2 ^ (typeWidth t - 1) ≤ x) then x - 2 ^ typeWidth t else x

/-- The pattern of an exact integer limited to an integer element type: clamped under SAT, else its low bits. -/
def elementOf (f : Slot) (r : Int) : Nat :=
  let w := typeWidth f.t
  ((if f.sat = 1 then (if signedType f.t then max (-(2 ^ (w - 1))) (min (2 ^ (w - 1) - 1) r) else max 0 (min (2 ^ w - 1) r))
    else r) % 2 ^ w).toNat

/-- The mask bit that governs element `i` of the operation's type in mask register `n`. -/
def State.governs (s : State) (f : Slot) (n i : Nat) : Bool := (s.m n).getLsbD (i * typeWidth f.t / 8)

end Sys2Proof.Machine
end

