-- ==== Sys2Proof/WellFormed.lean ====
section
/-! DEFINITION. Which instructions are well formed: a slot without a defect of spec/03_bundle_encoding.md R83, and events
and register writes whose objects exist. -/

namespace Sys2Proof

/-- The objects a register write names exist (R390, R397). -/
def WinReg.wf : WinReg → Bool
  | .qbase q | .qcfg q | .qtail q | .qstat q => decide (q < 64)
  | .erwr f | .erstat f | .ntgt f | .fstat f | .ldsrc f | .ldcode f | .ldst f | .ldhnd f
  | .ataddr f | .troot f | .ldctl f => decide (f < 16)
  | .atnonce f n | .msix f n => decide (f < 16 ∧ n < 4)
  | .gstg n => decide (n < 4)
  | .railst r => decide (r < 4)
  | .mbud c | .mbstat c | .clmap c | .clstat c => decide (c < 16)
  | .chcur d ch | .chstat d ch => decide (d < 2 ∧ ch < 16)
  | .ddgst g => decide (g < 16)
  | .pstat k => decide (k < 8)
  | .proute p => decide (p < 64)
  | .padGauge c i w => decide (c < 16 ∧ i < 32 ∧ w < 4)
  | .ctlGauge d i w => decide (d < 2 ∧ i < 256 ∧ w < 4)
  | .growth (.core c k) => decide (c < 16 ∧ k < 13)
  | .growth (.link j) => decide (j < 24)
  | .growth (.mem ch) => decide (ch < 64)
  | _ => true

def LinkRef.wf : LinkRef → Bool
  | .group g => decide (g < 16)
  | .port k => decide (k < 8)

def TaskRef.wf (r : TaskRef) : Bool := decide (r.lcore < 192 ∧ r.part < 16)

/-- The objects an event or a register write names exist. -/
def eventOk : Instr → Bool
  | .errorDetected who _ _ _ => decide (who.lcore < 192 ∧ who.part < 67)
  | .regulatorPreposition who | .phaseOnset who | .phaseRampStep who
  | .phaseEnd who | .leaseExpiry who | .leaseEndNotice who | .hostApertureCompletion who _ _ => who.wf
  | .preemptionRequest l | .taskStart l | .tileCommandStart l _ | .stampedCommandStart l
  | .tileCommandComplete l _ | .migratedPartialAdd l | .undeclaredBurst l | .retentionEntry l
  | .retentionExit l | .skidderChunkMove l | .skidderCommandComplete l | .sourceWatchdog l
  | .candidateAgingBlock l => decide (l < 192)
  | .operandWatchdog l p | .commandMigration l p => decide (l < 192 ∧ p < 16)
  | .chainDescriptorWalk d ch => decide (d < 2 ∧ ch < 16)
  | .padGaugeFire c i => decide (c < 16 ∧ i < 32)
  | .controllerGaugeFire d i => decide (d < 2 ∧ i < 256)
  | .shedding c k => decide (c < 16 ∧ k < 13)
  | .timeShareSwitch c k => decide (c < 16 ∧ k < 13)
  | .translationWalk c fn _ _ => decide (c < 16 ∧ fn < 16)
  | .pxferRelease p => decide (p < 262144)
  | .dieLinkFlitReceive g lane _ => decide (g < 16 ∧ lane < 66)
  | .laneSplice k | .spliceRetrainEnd k => k.wf
  | .dieComputeFailure d _ | .shoreLoss d => decide (d < 2)
  | .railCurrentSample r _ _ | .railRampStep r => decide (r < 4)
  | .portFlitReceive k flit => decide (k < 8 ∧ flit.length = 256)
  | .flitResendTimeout k => decide (k < 8)
  | .qheadWrite fn q _ | .qcfgEnSet fn q _ | .qstatThaw fn q => decide (fn < 16 ∧ q < 64)
  | .eventRingInterrupt fn | .badRegisterAccess fn | .errdWrite fn _ | .erbaseWrite fn _ | .ercfgWrite fn _
  | .npayWrite fn _ | .ldctlLoad fn | .ldctlUnload fn | .codeLoadEnd fn | .atctlGo fn | .attestationEnd fn
  | .hostBar2Read fn _ _ | .hostBar2Write fn _ _ => decide (fn < 16)
  | .registerWrite fn r _ => decide (fn < 16) && r.wf
  | .growthRingUpdate r _ _ => (WinReg.growth r).wf
  | .managementNotice q slot tile _ => decide (q < 64 ∧ slot < 2 ^ 14 ∧ tile < 2 ^ 32)
  | _ => true

/-- An instruction is well formed: its slot has no defect in a bundle with the pool form it asks for, and
what it names exists. -/
def Instr.wf (i : Instr) : Bool := (slotDefect i (poolFormOf i)).isNone && eventOk i

end Sys2Proof
end

