-- ==== Sys2Proof/Certificates/Slice0/Obligations.lean ====
section
/-! DEFINITION. The statements of this model, each with the rules of spec/ that it formalises. An instruction *goes* when it
has no issue-time defect and is not suppressed (R20, R78); the final value of a register is the one it holds once every
latency window has closed (R29). -/

open Sys2Proof Sys2Proof.Machine

/-! ### Encodings (spec/03_bundle_encoding.md R69 to R84) -/

/-- R73, R76, R81, R263, R380: every well-formed instruction that has a word is read back from it, with every operand. -/
def Obligations.EncodedWordsDecode : Prop :=
  ∀ (i : Instr) (c : Code), i.wf = true → encode i = some c → decodeCode c = some i

/-- R73, R76, R81, R263: a slot that decodes, and a word of Xhsk, is the only word of its operation.
R69 to R72, R79, R80, R83: a bundle of two slots, a pool and a header decodes to what it holds, and only so; an opcode of
class 7, a class in the wrong slot and a header bit out of place are refused by name. -/
def Obligations.WordsAndBundlesDecode : Prop :=
  ((∀ (inB : Bool) (pool : BitVec 2) (w : SlotWord) (i : Instr), decodeSlot inB pool w = .ok i → encode i = some (.slot w)) ∧
   ∀ (w : BitVec 32) (i : Instr), decodeXhsk w = some i → encode i = some (.helper w)) ∧
  ((∀ (sp : Bool) (pool : BitVec 2) (imm : BitVec 112) (wa wb : Option SlotWord) (a b : Option Instr),
     pool ≠ 3 → (pool = 0 → imm = 0) →
     (match wa, a with | some w, some i => decodeSlot false pool w = .ok i | none, none => True | _, _ => False) →
     (match wb, b with | some w, some i => decodeSlot true pool w = .ok i | none, none => True | _, _ => False) →
     decodeBundle (bundleWord sp pool imm wa wb) = if pairingBad a b then .error .pairing else .ok ⟨sp, pool, imm, a, b⟩) ∧
   (∀ (w : BundleWord) (b : Bundle), decodeBundle w = .ok b → ∃ wa wb : Option SlotWord,
     w = bundleWord b.sp b.pool b.imm wa wb ∧ wa.isSome = b.a.isSome ∧ wb.isSome = b.b.isSome ∧
     (∀ i, b.a = some i → encode i = wa.map .slot) ∧ ∀ i, b.b = some i → encode i = wb.map .slot) ∧
   (∀ (inB : Bool) (pool : BitVec 2) (w : SlotWord), (slotOp w).extractLsb' 7 3 = (7 : BitVec 3) →
     decodeSlot inB pool w = .error .reservedOpcode) ∧
   (∀ (pool : BitVec 2) (w : SlotWord) (i : Instr), decodeSlot true pool w = .ok i →
     (slotOp w).extractLsb' 7 3 ∉ ([1, 6] : List (BitVec 3))) ∧
   (∀ (pool : BitVec 2) (w : SlotWord) (i : Instr), decodeSlot false pool w = .ok i →
     (slotOp w).extractLsb' 7 3 ∈ ([0, 1, 2, 6] : List (BitVec 3))) ∧
   ∀ (w : BundleWord), w.extractLsb' 368 11 ≠ 0 ∨ w.extractLsb' 379 2 = 3 → decodeBundle w = .error .malformedHeader)

/-- The words that the manual writes out: the bundle `(p2) add.s64 g5, g1, g2 !1 || vadd.f32.sat v10, v11, v12, m3 !3` (R86),
`ld.acq.die.w g5, g1, 16 !4`, `mma.acc.res a1, g4, g5, 2`, `enq.q2.res 1, g9` and `skgat.q0.res g3, g2, v7, 16, 128`. -/
def Obligations.ManualWords : Prop :=
  decodeBundle
      0x600000040405008080040000000000000000600C400A058300090C000000000000000000000000000000000000000000 = .ok
    ⟨false, 0, 0, some (.add { Slot.zero with lat := 1, pnum := 2, d := 5, a := 1, b := 2, t := 4 }),
      some (.vadd { Slot.zero with lat := 3, sat := 1, d := 10, a := 11, b := 12, t := 9, msel := 3 })⟩ ∧
  decodeTableWord 128 0x40100005008000070000003200000010 =
    some (.ld { Slot.zero with lat := 4, d := 5, a := 1, t := 7, qual := 0x32, imm := 16 }) ∧
  decodeTableWord 128 0xA2000001020140000002008100000000 =
    some (.mma { Slot.zero with d := 1, a := 4, b := 5, qual := 0x20081 }) ∧
  decodeTableWord 128 0xC0000000048000000002000200000001 =
    some (.enqMove { Slot.zero with a := 9, qual := 0x20002, imm := 1 }) ∧
  decodeTableWord 128 0xC2400000018080E0000200F00000007F =
    some (.skgat { Slot.zero with a := 3, b := 2, c := 7, qual := 0x200F0, imm := 127 })

/-! ### Steps -/

/-- R64, R78, R79, R84, R171: when nothing else is there to be run, a step runs the bundle at the pc: an operation alone, or
slot A and then slot B; a trap or a wait of slot B undoes slot A. A fault of the fetch or a defect traps instead. -/
def Obligations.StepRunsTheBundle : Prop :=
  ∀ (s : State), s.idle → s.mayIssue →
    let goesOn := fun (u : State) => step s = .next (s.later u.rotate)
    let here := s.atPc
    let rep := here.task.flow.rep
    let loop := here.task.flow.loop
    (∀ cause info, here.fetchBundle here.task.flow.pc = .error (cause, info) → goesOn (here.trapBundle cause info)) ∧
    ∀ w next, here.fetchBundle here.task.flow.pc = .ok (w, next) →
      (∀ d, decodeBundle w = .error d → goesOn ((here.setFlow { here.task.flow with nextPc := next }).trapDefect d)) ∧
      ∀ b, decodeBundle w = .ok b → (controlOp b = none ∨ rep = none ∧ loop = none) →
        let t := s.atBundle b next
        let seals := fun (u : State) => !isSeal b.a || u.task.bolt.work.num == t.task.bolt.work.num
        (∀ x u, b.a = some x → b.b = none → t.repDefect x = none →
          exec (steppedInstr rep (w.extractLsb' 240 128) x) t = .next u →
          (u.task.flow.fate = .retired → goesOn (u.retire rep loop (seals u))) ∧
          (u.task.flow.fate ≠ .retired → goesOn u)) ∧
        (∀ y u, b.a = none → b.b = some y → t.repDefect y = none →
          exec (steppedInstr rep (w.extractLsb' 112 128) y) (t.setFlow { t.task.flow with inB := true }) = .next u →
          (u.task.flow.fate = .retired → goesOn (u.retire rep loop true)) ∧
          (u.task.flow.fate ≠ .retired → goesOn u)) ∧
        (∀ x y u v, b.a = some x → b.b = some y → (∀ f, x ≠ .trap f) → t.repDefect x = none → t.repDefect y = none →
          exec (steppedInstr rep (w.extractLsb' 240 128) x) t = .next u → u.task.flow.fate = .retired →
          exec (steppedInstr rep (w.extractLsb' 112 128) y) (u.inSlotB t) = .next v →
          (v.task.flow.fate = .retired → goesOn (((v.setSys { v.task.sys with rmode := u.task.sys.rmode }).setId
            { v.task.id with vgran := u.task.id.vgran }).retire rep loop (seals v))) ∧
          (∀ r, v.task.flow.fate = .trapped r → goesOn (t.takeTrap r)) ∧
          ∀ k, v.task.flow.fate = .waits k → goesOn ((t.setFlow { t.task.flow with inB := true }).waitFor k)) ∧
        (b.a = none → b.b = none → exec (.emptyBundle b.sp) t = .next (t.setFlow { t.task.flow with sp := b.sp }) ∧
          goesOn (t.retire rep loop false))

/-- R261, R380, R386, R389, R391, R420 and log 2: a step takes an input first, if it can be taken, then an instruction of the
test port, then a stage of the boot, then an event that is due, then the helper whose turn it is; a function that is not
enabled causes nothing; a register write of a window is decoded; compute waits for stage 3; without power a step stops. -/
def Obligations.StepRunsOtherWork : Prop :=
  ∀ (s : State),
    let asked := fun (x : Input) (rest : List Input) => s.firstInput s.inputs = some (x, rest)
    let quiet := s.firstInput s.inputs = none ∧ s.pkg.powered = true
    (∀ i rest t, asked (.event i) rest → (∀ fn, hostFunction i = some fn → fn ≤ s.dev.vfs) →
      exec i { s with inputs := rest } = .next t → step s = .next (s.later t)) ∧
    (∀ i rest fn, asked (.event i) rest → hostFunction i = some fn → s.dev.vfs < fn →
      step s = .next (s.later { s with inputs := rest })) ∧
    (∀ fn off n v rest t, asked (.write fn off n v) rest → (∀ x, hostFunction (State.writeStep { s with inputs := rest } fn off n v) = some x → x ≤ s.dev.vfs) →
      exec (State.writeStep { s with inputs := rest } fn off n v) { s with inputs := rest } = .next t → step s = .next (s.later t)) ∧
    (∀ fn off n rest, asked (.read fn off n) rest → fn ≤ s.dev.vfs →
      step s = .next (s.later (State.readWindow { s with inputs := rest } fn off n))) ∧
    (∀ c t, quiet → s.tap.pending = some c →
      exec (decodeTap c) { s with tap := { s.tap with pending := none } } = .next t → step s = .next (s.later t)) ∧
    (quiet → s.tap.pending = none → s.tap.stopped = false → s.booting = true →
      ∃ good, ∀ t, exec (.bootStage good) s = .next t → step s = .next (s.later t)) ∧
    (quiet → s.tap.pending = none → s.tap.stopped = false → s.booting = false → s.dev.bootstage < 3 →
      step s = .next (s.later s)) ∧
    (∀ i t, quiet → s.tap.pending = none → s.tap.stopped = false → s.booting = false → 3 ≤ s.dev.bootstage → s.due = some i →
      exec i s = .next t → step s = .next (s.later t)) ∧
    (∀ t, s.idle → s.turn = .helper → s.hlp.mode = .running → s.runs s.hlp.lcore = true → s.hlp.charged = none →
      s.hFetchFault = none → exec (decodeHelper s.helperWord) s = .next t → step s = .next (s.later t.rotate)) ∧
    (quiet → s.tap.pending = none → s.tap.stopped = true → step s = .next s) ∧
    (s.firstInput s.inputs = none → s.pkg.powered = false → step s = .fault .poweredDown)

/-! ### Memory and reset -/

/-- Every step of the device keeps memory in its canonical form. -/
def Obligations.StepsKeepMemoryCanonical : Prop :=
  ∀ (s t : State), Inv s → step s = .next t → Inv t

/-- R8, R14, R16, R28, R248, R271, R327, R367, R368, R378: the device right after reset. -/
def Obligations.ResetState : Prop :=
  let s := State.reset
  Inv s ∧ s.dcc = 0 ∧ s.task.id.live = false ∧ s.parked = [] ∧ s.pkg.state = 0 ∧ s.pkg.failed = 0 ∧ s.pkg.shore = 0 ∧
    s.pkg.cause = 0 ∧ s.pkg.spen = true ∧ s.tap.stopped = false ∧ s.task.sys.rmode = 0 ∧ s.task.sys.rlim = 3 ∧
    (∀ l, (s.core l).quanta = [16384, 8192, 4096, 2048] ∧ (s.core l).freeGran = 160 ∧
      ∀ g, (s.core l).isFull g = false ∧ (s.core l).claim g = 0) ∧
    (∀ a, s.mem.read a = if a = 0 then 5 else 0) ∧ s.plotState 0 = 5 ∧ (∀ p, p ≠ 0 → s.plotState p = 0) ∧
    ∀ q, (s.queue q).qcfg = 0 ∧ (s.queue q).frozen = false

/-! ### Scalar integer operations (spec/04_scalar_instructions.md) -/

/-- R96, R98: ADD, SUB and MUL are exact and then limited as R53 says; MULH, MIN and MAX are within the type.
R98, R99: DIV truncates toward zero and REM is what is left, for every pair of operands. -/
def Obligations.IntegerArithmetic : Prop :=
  (∀ (s : State) (f : Slot), 1 ≤ f.t.toNat → f.t.toNat ≤ 8 →
     let a := readAs f.t (s.g f.a.toNat)
     let b := readAs f.t (s.operandB f)
     let writes := fun (i : Instr) (r : W64) => s.goes i f → ∃ t, exec i s = .next t ∧ WritesG s t f.d.toNat r
     writes (.add f) (satAs f (a + b)) ∧ writes (.sub f) (satAs f (a - b)) ∧ writes (.mul f) (satAs f (a * b)) ∧
     writes (.mulh f) (wrapAs f.t (a * b / 2 ^ intWidth f.t)) ∧
     writes (.min f) (wrapAs f.t (if a ≤ b then a else b)) ∧ writes (.max f) (wrapAs f.t (if a ≤ b then b else a))) ∧
  (∀ (s : State) (f : Slot), 1 ≤ f.t.toNat → f.t.toNat ≤ 8 → s.goes (.div f) f → s.goes (.rem f) f →
     let a := readAs f.t (s.g f.a.toNat)
     let b := readAs f.t (s.operandB f)
     ∃ t u q r, exec (.div f) s = .next t ∧ exec (.rem f) s = .next u ∧
       WritesG s t f.d.toNat (satAs f q) ∧ WritesG s u f.d.toNat (wrapAs f.t r) ∧
       (b = 0 → q = (if signedType f.t then -1 else 2 ^ intWidth f.t - 1) ∧ r = a) ∧
       (b ≠ 0 → a = b * q + r ∧ r.natAbs < b.natAbs ∧ (r = 0 ∨ r.sign = a.sign)))

/-- R98: the bitwise operations, the shifts and the rotation on the patterns of the type; CLZ counts the zero bits above the
highest one, POPC the one bits.
R72, R97, R100 to R104: the second operand of a scalar operation, an immediate of the slot being extended as the type is and
a pool operand from 56 bits; CMP, SEL, LI, li.hi, BFX, BFI and PLOG. -/
def Obligations.BitwiseAndSelection : Prop :=
  ((∀ (s : State) (f : Slot), 1 ≤ f.t.toNat → f.t.toNat ≤ 8 →
      let x := (s.g f.a.toNat).setWidth (intWidth f.t)
      let y := (s.operandB f).setWidth (intWidth f.t)
      let k := y.toNat % intWidth f.t
      let writes := fun (i : Instr) (r : W64) => s.goes i f → ∃ t, exec i s = .next t ∧ WritesG s t f.d.toNat r
      writes (.and f) (extendAs f.t (x &&& y)) ∧ writes (.or f) (extendAs f.t (x ||| y)) ∧
      writes (.xor f) (extendAs f.t (x ^^^ y)) ∧ writes (.andn f) (extendAs f.t (x &&& ~~~y)) ∧
      writes (.shl f) (satAs f (readAs f.t (s.g f.a.toNat) * 2 ^ k)) ∧ writes (.shr f) (extendAs f.t (x >>> k)) ∧
      writes (.sra f) (extendAs f.t (x.sshiftRight k)) ∧ writes (.rol f) (extendAs f.t (x.rotateLeft k))) ∧
   (∀ (s : State) (f : Slot), 1 ≤ f.t.toNat → f.t.toNat ≤ 8 →
      let x := (s.g f.a.toNat).setWidth (intWidth f.t)
      (s.goes (.clz f) f → ∃ t c, exec (.clz f) s = .next t ∧ WritesG s t f.d.toNat (BitVec.ofNat 64 c) ∧ c ≤ intWidth f.t ∧
        (∀ j, j < c → x.getMsbD j = false) ∧ (c < intWidth f.t → x.getMsbD c = true)) ∧
      (s.goes (.popc f) f → ∃ t, exec (.popc f) s = .next t ∧
        WritesG s t f.d.toNat (BitVec.ofNat 64 (Finset.univ.filter fun j : Fin (intWidth f.t) => x.getLsbD j = true).card)))) ∧
  ((∀ (s : State) (f : Slot),
      (f.im = false → s.operandB f = s.g f.b.toNat) ∧
      (f.im = true → f.psel = 0 → 1 ≤ f.t.toNat → f.t.toNat ≤ 8 →
        s.operandB f = if signedType f.t then f.imm.signExtend 64 else f.imm.setWidth 64) ∧
      (f.im = true → f.psel = 1 → s.operandB f = (s.task.flow.pool.extractLsb' 0 56).signExtend 64) ∧
      (f.im = true → f.psel = 2 → s.operandB f = (s.task.flow.pool.extractLsb' 56 56).signExtend 64)) ∧
   (∀ (s : State) (f : Slot),
      let a := readAs f.t (s.g f.a.toNat)
      let b := readAs f.t (s.operandB f)
      let pos := f.imm.toNat % 64
      let len := f.imm.toNat / 256 % 64 + 1
      let x := s.g f.a.toNat
      let runs := fun (i : Instr) (r : State → Prop) => i.wf = true → s.goes i f → ∃ t, exec i s = .next t ∧ r t
      let sets := fun (i : Instr) (r : Prop) => runs i fun t => ∃ v, WritesP s t f.d.toNat v ∧ (v = true ↔ r)
      sets (.cmp f) (match f.q 3 1 with
        | 0 => a = b | 1 => a ≠ b | 2 => a < b | 3 => a ≤ b | 4 => b < a | _ => b ≤ a) ∧
      runs (.sel f) (fun t => WritesG s t f.d.toNat (if s.p f.c.toNat = true then x else s.operandB f)) ∧
      runs (.li f) (fun t => WritesG s t f.d.toNat (match f.psel.toNat with
        | 0 => f.imm.signExtend 64 | 1 => poolOperand s.task.flow.pool false | 2 => poolOperand s.task.flow.pool true
        | _ => s.task.flow.pool.extractLsb' 0 64)) ∧
      runs (.liHi f) (fun t => WritesG s t f.d.toNat (f.imm ++ x.extractLsb' 0 32)) ∧
      runs (.bfx f) (fun t => WritesG s t f.d.toNat
        (if f.t = 4 then (x.extractLsb' pos len).signExtend 64 else (x.extractLsb' pos len).setWidth 64)) ∧
      runs (.bfi f) (fun t => ∃ v, WritesG s t f.d.toNat v ∧ ∀ j, j < 64 → v.getLsbD j =
        if pos ≤ j ∧ j < pos + len then (s.g f.b.toNat).getLsbD (j - pos) else x.getLsbD j) ∧
      sets (.plog f) (f.imm.getLsbD ((if s.p f.a.toNat = true then 2 else 0) + if s.p f.b.toNat = true then 1 else 0) = true)))

/-- R29, R30: a register read in the clock that opens a window gives its old value, and a register with no open window
gives its final value; settling a clock applies exactly the windows of the registers whose windows have all closed. -/
def Obligations.LatencyWindows : Prop :=
  ∀ (s : State) (lat n : Nat) (w : RegWrite),
    ((s.put lat w).g n = s.g n ∧ (s.put lat w).p n = s.p n ∧ (s.put lat w).m n = s.m n ∧ (s.put lat w).v n = s.v n) ∧
    ((∀ x ∈ s.task.regs.wins, x.write.target ≠ (0, n)) → s.g n = s.finalG n) ∧
    ((∀ x ∈ s.task.regs.wins, x.write.target ≠ (1, n)) → n < 16 → s.p n = s.finalP n) ∧
    ((∀ x ∈ s.task.regs.wins, x.write.target ≠ (2, n)) → s.m n = s.finalM n) ∧
    ((∀ x ∈ s.task.regs.wins, x.write.target ≠ (3, n)) → s.v n = s.finalV n) ∧
    ∀ (r : TaskRegs) (clk : Nat),
      (let t := s.setRegs (r.settle clk)
       let u := s.setRegs r
       t.finalG n = u.finalG n ∧ t.finalP n = u.finalP n ∧ t.finalM n = u.finalM n ∧ t.finalV n = u.finalV n) ∧
      ∀ x, x ∈ (r.settle clk).wins ↔ x ∈ r.wins ∧ ∃ y ∈ r.wins, y.write.target = x.write.target ∧ clk ≤ y.closes

/-! ### Control, traps and special registers (spec/04_scalar_instructions.md, spec/06_task_traps_bolts.md) -/

/-- R105, R106: BR, CALL and RET set the offset at which issue goes on; CALL links to the bundle behind it. An offset out
of range is 2^32, which lies at or beyond every CLIM.
R113, R127: NOP changes nothing; FENCE changes nothing in this model, which makes every access in one step (log 8). -/
def Obligations.ControlTransfers : Prop :=
  (∀ (s : State) (f : Slot),
     let reach := fun (x : Int) => if 0 ≤ x ∧ x < 2 ^ 32 then x.toNat else 2 ^ 32
     let target : Int := if f.im then s.task.flow.off + f.imm.toInt else ((s.g f.a.toNat).extractLsb' 0 32).toNat
     let back : Int := ((s.g f.a.toNat).extractLsb' 0 32).toNat
     (s.goes (.br f) f → exec (.br f) s = .next (s.setFlow { s.task.flow with nextPc := reach target })) ∧
     (s.goes (.call f) f → ∃ t, exec (.call f) s = .next t ∧
       t.task.flow = { s.task.flow with nextPc := reach target } ∧
       WritesG s (t.setFlow s.task.flow) f.d.toNat (BitVec.ofNat 64 s.task.flow.nextPc)) ∧
     (s.goes (.ret f) f → exec (.ret f) s = .next (s.setFlow { s.task.flow with nextPc := reach back }))) ∧
  (∀ (s : State) (f : Slot), (s.goes (.nop f) f → exec (.nop f) s = .next s) ∧
     (s.goes (.fence f) f → exec (.fence f) s = .next s))

/-- R107 to R109, R111: REP and LOOPB set the repeat and the loop state, or skip what they would have run, measuring each
bundle by its first halfword.
R108, R111, R255: after a repetition the next one follows until the count is reached; after a pass the slot steps, and
the loop ends when that step wraps. -/
def Obligations.RepeatsAndLoops : Prop :=
  (∀ (s : State) (f : Slot),
     let count := if f.im then f.imm.toNat else ((s.g f.a.toNat).extractLsb' 0 32).toNat
     let stride := fun lo => (f.qual.extractLsb' lo 6 : BitVec 6)
     let nest := s.myCore.nest f.a.toNat
     let len := f.imm.toNat % 16 + 1
     (s.goes (.rep f) f → count ≠ 0 → exec (.rep f) s = .next (s.setFlow { s.task.flow with
       rep := some ⟨s.task.flow.off, s.task.flow.nextPc, count, stride 1, stride 7, stride 13, stride 19, 0⟩ })) ∧
     (∀ h, s.goes (.rep f) f → count = 0 → s.task.flow.nextPc < s.task.id.clim → s.half s.task.flow.nextPc = some h →
       exec (.rep f) s = .next (s.setFlow { s.task.flow with
         nextPc := s.task.flow.nextPc + if h = 0xFFFF then 25 else 1 })) ∧
     (s.goes (.loopb f) f → nest.points ≠ 0 → ∃ t, exec (.loopb f) s = .next t ∧
       t.task = { s.task with flow := { s.task.flow with loop := some ⟨s.task.flow.nextPc, len, f.a.toNat⟩ } } ∧
       t.myCore = s.myCore.setNest f.a.toNat { nest with idx := List.replicate 6 0, wrap := false } ∧
       { t with task := s.task, cores := s.cores } = s) ∧
     ∀ os e, s.goes (.loopb f) f → nest.points = 0 → s.bodyOffsets s.task.flow.nextPc len = .ok (os, e) →
       exec (.loopb f) s = .next (s.setFlow { s.task.flow with nextPc := e })) ∧
  (∀ (s : State) (hasOp : Bool), s.task.flow.owns = none →
     (∀ r, let t := s.retire (some r) none hasOp
       if r.next + 1 < r.count then t.task.flow.rep = some { r with next := r.next + 1 } ∧ t.task.flow.pc = r.body
       else t.task.flow.rep = none ∧ t.task.flow.repix = 0 ∧ t.task.flow.pc = s.task.flow.nextPc) ∧
     (∀ l, let t := s.retire none (some l) hasOp
       let n := ({ s.myCore.nest l.nest with wrap := false } : NestSlot).step
       if s.lastOfBody l s.task.flow.off = true then
         (if n.wrap = true then t.task.flow.loop = none ∧ t.task.flow.pc = s.task.flow.nextPc
          else t.task.flow.loop = s.task.flow.loop ∧ t.task.flow.pc = l.start)
       else t.task.flow.loop = s.task.flow.loop ∧ t.task.flow.pc = s.task.flow.nextPc) ∧
     (s.retire none none hasOp).task.flow.pc = s.task.flow.nextPc)

/-- R34, R35: END moves a task from its prologue to its iterations and to its epilogue, every older window having closed;
in the epilogue it seals, and the task ends once its commands have produced their results. -/
def Obligations.EndOfStages : Prop :=
  ∀ (s : State) (f : Slot), s.goes (.endTask f) f →
    let id := s.task.id
    ∃ t, exec (.endTask f) s = .next t ∧
      (s.task.flow.stage < 2 → t.task.regs.wins = [] ∧ KeepsRegisters s t ∧ KeepsMemory s t ∧ KeepsSpecials s t ∧
        KeepsOutside s t ∧ t.task.bolt = s.task.bolt ∧ t.task.eng = s.task.eng) ∧
      (s.task.flow.stage = 0 → id.trip = 0 → t.task.flow.stage = 2 ∧ t.task.flow.nextPc = id.ee) ∧
      (s.task.flow.stage = 0 → id.trip ≠ 0 →
        t.task.flow.stage = 1 ∧ t.task.flow.iter = 0 ∧ t.task.flow.nextPc = id.ke) ∧
      (s.task.flow.stage = 1 → t.task.flow.iter = s.task.flow.iter + 1 ∧
        if t.task.flow.iter.toNat < id.trip then t.task.flow.stage = 1 ∧ t.task.flow.nextPc = id.ke
        else t.task.flow.stage = 2 ∧ t.task.flow.nextPc = id.ee) ∧
      (s.task.flow.stage = 2 → s.sealFault = none → s.sealReady = true →
        let u := s.afterQuiet.sealNow s.task.flow.off
        u.commandsDone = true → u.task.eng.oldestFault [0, 1, 2, 3] = none → t.task.id.live = false)

/-- R110, R166, R167: taking a trap writes the syndrome and moves the repeat, loop and bolt state to their shadows, an operation's own bolt having ended; the
handler begins at TVEC with every window closed and a hold of its own.
R169: a synchronous trap in handler mode does not enter a second handler: the task ends.
R113, R165, R173: TRAP enters the handler with its 16-bit number, EPC being the bundle that follows; ERET outside the
handler and an operation with an issue-time defect trap as well.
R22, R114, R115, R323: the reads and writes of special registers that trap, and with which cause. -/
def Obligations.TrapsEnterHandler : Prop :=
  ((∀ (s : State) (r : TrapRec), s.mayTrap →
      let t := s.takeTrap r
      let b := s.task.bolt.endOwn
      (t.task.sys = { s.task.sys with synd := r.synd, sclass := r.sclass, epc := r.epc }) ∧
      (t.task.flow.pc = s.task.sys.tvec.toNat ∧ t.task.flow.rep = none ∧ t.task.flow.repSh = s.task.flow.rep ∧
        t.task.flow.loop = none ∧ t.task.flow.loopSh = s.task.flow.loop ∧ t.task.flow.notices = s.task.flow.notices ∧
        s.task.flow.quietAt ≤ t.task.flow.holdOff) ∧
      (t.task.bolt.handler = true ∧ t.task.bolt.shadow = some (b.boltpc, b.retry, b.holdb) ∧
        t.task.bolt.boltpc = s.task.sys.tvec.toNat ∧ t.task.bolt.retry = 0 ∧ t.task.bolt.holdb = b.holdb ∧
        t.task.bolt.outer = some b.work ∧ t.task.bolt.work.hold = [] ∧ t.task.bolt.work.claims = []) ∧
      t.task.regs.wins = [] ∧ KeepsRegisters s t ∧ KeepsMemory s t ∧ KeepsOutside s t ∧
      t.task.id = s.task.id ∧ t.task.eng = s.task.eng ∧ t.task.stand = s.task.stand ∧ t.task.lease = s.task.lease ∧
      t.task.phase = s.task.phase) ∧
   (∀ (s : State) (r : TrapRec), s.task.bolt.charged = none → s.task.bolt.handler = true →
      let t := s.takeTrap r
      t.task.id.live = false ∧ t.task.sys = s.task.sys ∧ KeepsMemory s t)) ∧
  ((∀ (s : State) (f : Slot), s.mayTrap →
      let slot := if s.task.flow.inB then 1 else 0
      (s.goes (.trap f) f → ∃ t, exec (.trap f) s = .next t ∧ t.task.bolt.handler = true ∧ t.task.sys.sclass = 5 ∧
        t.task.sys.epc = offWord s.task.flow.nextPc ∧ t.task.sys.synd.extractLsb' 56 8 = (0x15 : BitVec 8) ∧
        t.task.sys.synd.extractLsb' 54 2 = (0 : BitVec 2) ∧ t.task.sys.synd.extractLsb' 44 10 = (0x090 : BitVec 10) ∧
        t.task.sys.synd.extractLsb' 0 32 = f.imm &&& 0xFFFF) ∧
      (s.goes (.eret f) f → ∃ t x, exec (.eret f) s = .next t ∧ Trapped s t 5 x ∧
        x.extractLsb' 56 8 = (0x16 : BitVec 8) ∧ x.extractLsb' 44 10 = (0x091 : BitVec 10)) ∧
      ∀ i o cause detail info, opForm i = some (f, o) → s.issueDefect i = some (cause, o.op, detail, info) →
        ∃ t, exec i s = .next t ∧ Trapped s t 5 (syndWord cause slot o.op detail info)) ∧
   (∀ (s : State) (f : Slot), s.mayTrap →
      let n := f.imm.toNat % 4096
      let cause := fun (i : Instr) (sclass : BitVec 8) (c : BitVec 8) => s.goes i f →
        ∃ t x, exec i s = .next t ∧ Trapped s t sclass x ∧ x.extractLsb' 56 8 = c
      (n = 0x030 → s.task.id.detlvl ≠ 0 → cause (.srd f) 8 0x01) ∧
      (n ∈ [0x031, 0x032, 0x033, 0x034] → s.task.id.detlvl ≠ 0 → cause (.srd f) 8 0x11) ∧
      (n = 0 → 2 ≤ s.task.id.detlvl → cause (.srd f) 8 0x10) ∧
      (n = 0x015 ∨ 0x064 ≤ n → cause (.srd f) 5 0x18 ∧ cause (.swr f) 5 0x18) ∧
      (n ∈ [0x000, 0x001, 0x002, 0x003, 0x020, 0x021, 0x023, 0x024, 0x030, 0x050, 0x060, 0x061] → cause (.swr f) 5 0x17)))

/-- R113, R168, R110: ERET from a handler that has nothing to seal (log 44) gives back the bolt's registers and its hold, goes on at EPC,
and resumes a repeat whose REP stands at EPC at its next repetition.
R110, R166, R168: the return from a trap that a handler leaves at once undoes the entry: the interrupted bolt, its
repeat and its registers are as before. -/
def Obligations.ReturnFromTrap : Prop :=
  (∀ (s : State) (f : Slot) (pc retry holdb : Nat) (w : BoltWork), s.goes (.eret f) f → s.task.bolt.handler = true →
     s.handlerHolds = false → s.task.bolt.shadow = some (pc, retry, holdb) → s.task.bolt.outer = some w →
     let epc := s.task.sys.epc.toNat
     ∃ t, exec (.eret f) s = .next t ∧
       (t.task.bolt.handler = false ∧ t.task.bolt.boltpc = pc ∧ t.task.bolt.retry = retry ∧ t.task.bolt.holdb = holdb ∧
         t.task.bolt.work = w ∧ t.task.bolt.charged = s.task.bolt.outCharged) ∧
       (∀ r, s.task.flow.repSh = some r → r.off = epc → t.task.flow.rep = some r ∧ t.task.flow.nextPc = r.body) ∧
       ((∀ r, s.task.flow.repSh = some r → r.off ≠ epc) → t.task.flow.rep = none ∧ t.task.flow.nextPc = epc) ∧
       t.task.regs = s.task.regs ∧ KeepsMemory s t ∧ KeepsOutside s t ∧ KeepsSpecials s t ∧ t.task.eng = s.task.eng ∧
       t.task.stand = s.task.stand) ∧
  (∀ (s : State) (r : TrapRec), s.mayTrap → s.task.bolt.outCharged = none →
     s.task.flow.loop = none → (∀ x, s.task.flow.rep = some x → x.off = r.epc.toNat) →
     let t := (s.takeTrap r).leaveHandler
     t.task.flow.rep = s.task.flow.rep ∧ t.task.flow.loop = none ∧
     t.task.flow.nextPc = s.task.flow.rep.elim r.epc.toNat (·.body) ∧
     t.task.bolt.boltpc = s.task.bolt.endOwn.boltpc ∧ t.task.bolt.retry = s.task.bolt.endOwn.retry ∧
     t.task.bolt.holdb = s.task.bolt.holdb ∧ t.task.bolt.work = s.task.bolt.work ∧ t.task.bolt.snap = s.task.bolt.snap ∧
     t.task.bolt.handler = false ∧ KeepsRegisters s t ∧ KeepsMemory s t ∧ KeepsOutside s t)

/-- R22, R114, R323: SRD reads a special register, zero-extended, unless the determinism level forbids it.
R28, R115: SWR stores the low bits of g[A] in one RW register and changes nothing else; 7 written to RMODE stores 0.
R116: RAND draws by four rounds of a product, a shifted exclusive or and a seed half. -/
def Obligations.SpecialRegisters : Prop :=
  ((∀ (s : State) (f : Slot) (n : Nat) (x : W64), s.goes (.srd f) f → f.imm.toNat % 4096 = n →
      (n ∈ [0x030, 0x031, 0x032, 0x033, 0x034] → s.task.id.detlvl = 0) → (n = 0 → s.task.id.detlvl < 2) →
      (n, x) ∈ [(0x003, BitVec.ofNat 64 (s.task.flow.stage * 2 ^ 32 + s.task.flow.iter.toNat)),
        (0x010, s.task.sys.rmode.setWidth 64), (0x011, s.task.sys.synd), (0x012, s.task.sys.sclass.setWidth 64),
        (0x013, s.task.sys.epc.setWidth 64), (0x014, s.task.sys.tvec.setWidth 64),
        (0x020, BitVec.ofNat 64 s.task.bolt.boltpc), (0x021, BitVec.ofNat 64 s.task.bolt.retry),
        (0x022, s.task.sys.rlim.setWidth 64), (0x023, s.task.flow.repix.setWidth 64),
        (0x024, BitVec.ofNat 64 s.task.bolt.holdb), (0x030, BitVec.ofNat 64 s.dcc), (0x031, s.pkg.melt.setWidth 64),
        (0x050, s.task.id.seed), (0x051, s.task.id.ctrbase), (0x052, BitVec.ofNat 64 s.task.id.detlvl),
        (0x060, BitVec.ofNat 64 s.task.eng.fq.length), (0x061, BitVec.ofNat 64 s.task.id.clim)] →
      ∃ t, exec (.srd f) s = .next t ∧ WritesG s t f.d.toNat x) ∧
   (∀ (s : State) (f : Slot) (n : Nat), s.goes (.swr f) f → f.imm.toNat % 4096 = n →
      let x := s.g f.a.toNat
      let y := s.task.sys
      let stores := fun (z : TaskSys) => exec (.swr f) s = .next (s.setSys z)
      (n = 0x010 → stores { y with rmode := if x.extractLsb' 0 3 = 7 then 0 else x.extractLsb' 0 3 }) ∧
      (n = 0x011 → stores { y with synd := x }) ∧ (n = 0x012 → stores { y with sclass := x.extractLsb' 0 8 }) ∧
      (n = 0x013 → stores { y with epc := x.extractLsb' 0 32 }) ∧ (n = 0x014 → stores { y with tvec := x.extractLsb' 0 32 }) ∧
      (n = 0x022 → stores { y with rlim := x.extractLsb' 0 4 }))) ∧
  (∀ (s : State) (f : Slot), s.goes (.rand f) f →
     let index := if f.im then (if f.psel = 0 then f.imm.setWidth 64 else s.poolSel f) else s.g f.a.toNat
     let seed := s.task.id.seed
     let round := fun (x h : W64) =>
       (x * 0x9E3779B97F4A7C15 ^^^ ((x * 0x9E3779B97F4A7C15) >>> 29)) + h
     ∃ t, exec (.rand f) s = .next t ∧ ∃ x0 x1 x2 x3 x4 : W64, WritesG s t f.d.toNat x4 ∧
       x0 = s.task.id.ctrbase + index ∧ x1 = round x0 (seed &&& 0xFFFFFFFF) ∧ x2 = round x1 (seed >>> 32) ∧
       x3 = round x2 (seed &&& 0xFFFFFFFF) ∧ x4 = round x3 (seed >>> 32))

/-! ### Allotment and seals (R19, R117, R118, R180 to R186) -/

/-- R117, R118: GROW and SHRINK seal first; GROW takes granules from the core's pool if the allotment and the pool have
room, and says so in p[D]; SHRINK lowers the allotment at once, or traps when it asks for more than the task holds.
R19, R20, R117: before the next bundle, and once the outstanding writes to them have ended, the registers beyond the allotment
are given up and the granules are free; the others keep their contents.
R181, R182, R186, R333: SEAL releases what its bolt holds, but for bytes whose plot has become foreign (log 26), and begins the next bolt behind it, with RETRY and HOLDB cleared;
claimed granules become empty and unclaimed, and no register changes.
R181: a seal that cannot complete yet keeps its bundle waiting, with everything still held. -/
def Obligations.AllotmentsAndSeals : Prop :=
  ((∀ (s : State) (f : Slot), s.sealable →
      let k := f.imm.toNat
      let u := s.afterQuiet.sealNow s.task.flow.nextPc
      (s.goes (.grow f) f → f.d.toNat < 16 → ∃ t, exec (.grow f) s = .next t ∧ KeepsOthers u t .p f.d.toNat ∧
        KeepsMemory u t ∧ t.task.bolt = u.task.bolt ∧
        if u.task.id.vgran + k ≤ 32 ∧ k ≤ u.myCore.freeGran then
          t.task.id = { u.task.id with vgran := u.task.id.vgran + k } ∧
          t.myCore = { u.myCore with freeGran := u.myCore.freeGran - k } ∧ t.finalP f.d.toNat = true
        else t.task.id = u.task.id ∧ t.myCore = u.myCore ∧ (f.d.toNat ≠ 0 → t.finalP f.d.toNat = false)) ∧
      (s.goes (.shrink f) f → k ≤ s.task.id.vgran → ∃ t, exec (.shrink f) s = .next t ∧
        t.task.id = { u.task.id with vgran := u.task.id.vgran - k } ∧
        t.task.flow = { u.task.flow with freed := u.task.flow.freed + k } ∧ t.myCore = u.myCore ∧
        t.task.bolt = u.task.bolt ∧ t.task.regs = u.task.regs ∧ KeepsMemory u t) ∧
      (s.goes (.shrink f) f → s.task.id.vgran < k → s.mayTrap →
        let v := s.afterQuiet.sealNow s.task.flow.off
        ∃ t x, exec (.shrink f) s = .next t ∧ t.task.sys.synd = x ∧ x.extractLsb' 56 8 = (0x14 : BitVec 8) ∧
          t.task.bolt.handler = true ∧ t.task.id = v.task.id ∧ t.myCore = v.myCore)) ∧
   (∀ (s : State), s.task.flow.freed ≠ 0 →
      let t := s.giveUp
      t.task.flow.freed = 0 ∧ t.task.id = s.task.id ∧ KeepsMemory s t ∧
      t.myCore = { s.myCore with freeGran := s.myCore.freeGran + s.task.flow.freed } ∧
      (∀ x ∈ s.task.regs.wins, ∀ n m y, x.write = .v n m y → 16 * s.task.id.vgran ≤ n →
        x ∉ t.task.regs.wins ∧ x.closes < t.task.flow.clk) ∧
      ∀ n, (n < 16 * s.task.id.vgran → t.finalV n = s.finalV n) ∧
        (16 * s.task.id.vgran ≤ n → t.finalV n = 0) ∧ t.finalG n = s.finalG n ∧
        (n < 16 → t.finalP n = s.finalP n) ∧ t.finalM n = s.finalM n)) ∧
  ((∀ (s : State) (f : Slot), s.sealable → s.goes (.sealBolt f) f → ∃ t, exec (.sealBolt f) s = .next t ∧
      (t.task.bolt.boltpc = s.task.flow.nextPc ∧ t.task.bolt.retry = 0 ∧ t.task.bolt.work.hold = [] ∧
        t.task.bolt.work.claims = [] ∧ t.task.bolt.work.reserved = [] ∧ t.task.bolt.work.popped = [] ∧
        (s.task.bolt.handler = false → t.task.bolt.holdb = 0)) ∧
      (s.task.bolt.work.hold = [] → KeepsMemory s t) ∧
      (∀ cells, s.task.bolt.work.hold = [.store cells] → s.buffered = false →
        s.releasedCount s.task.releaser ≤ s.task.bolt.relNo →
        ∀ a, t.mem.read a = (s.mem.writeCells (cells.filter fun c => s.stillOpen s.task.id.lcore c.1)).read a) ∧
      (∀ k ∈ s.task.bolt.work.claims, ∀ l off, corePadOf k = some (l, off) →
        (t.core l).claim (off / 16) = 0 ∧ (t.core l).isFull (off / 16) = false) ∧
      KeepsRegisters s t ∧ t.task.sys = s.task.sys ∧ t.task.id = s.task.id ∧
      t.task.flow = { s.task.flow with clk := Nat.max s.task.flow.clk (s.task.flow.opClk + 32) } ∧
      t.task.phase = s.task.phase) ∧
   (∀ (s : State) (f : Slot), s.sealFault = none → s.sealReady = false → s.goes (.sealBolt f) f →
      ∃ t, exec (.sealBolt f) s = .next t ∧ t.task.flow.fate = .waits (.seal s.task.flow.nextPc) ∧
        t.task.bolt = s.task.bolt ∧ t.task.regs = s.task.regs ∧ KeepsMemory s t ∧ KeepsOutside s t))

/-! ### Memory accesses (spec/04_scalar_instructions.md R119 to R128, spec/01_tile_task.md R32, R33) -/

/-- R32, R33: the windows of a pointer: the own core pad, the cluster's and the die's pad, and virtual memory; a tag, a
hole and an access across an edge are refused with their reasons.
R120, R357: an access that fails a check traps with the memory class, the cause and the reason of the check, and the
kind of access; nothing is loaded or stored. -/
def Obligations.PointerWindows : Prop :=
  (∀ (s : State) (off n : Nat), 0 < n → n ≤ 256 →
     let l := s.task.id.lcore
     let at_ := fun (base : Nat) => s.place (BitVec.ofNat 64 (base + off)) n
     (off + n ≤ 2 ^ 21 → at_ 0xF00000000000 = .ok (.corePad l off false)) ∧
     (off < 2 ^ 21 → 2 ^ 21 < off + n → at_ 0xF00000000000 = .error 12) ∧
     (∀ k, k < 12 → k ≠ l % 12 → s.exchange = true → off + n ≤ 2 ^ 21 →
       at_ (0xF10000000000 + k * 2 ^ 21) = .ok (.corePad (l / 12 * 12 + k) off true)) ∧
     (∀ k, k < 12 → k ≠ l % 12 → s.exchange = false → off + n ≤ 2 ^ 21 →
       at_ (0xF10000000000 + k * 2 ^ 21) = .error 9) ∧
     (off + n ≤ 2 ^ 25 → at_ 0xF20000000000 = .ok (.clusterPad (l / 12) off)) ∧
     (off + n ≤ 2 ^ 27 → at_ 0xF30000000000 = .ok (.diePad (s.padDie l) off)) ∧
     (off + n ≤ 0xF00000000000 → at_ 0 = .ok (.global off)) ∧
     (off < 0xF00000000000 → 0xF00000000000 < off + n → at_ 0 = .error 12) ∧
     (off < 2 ^ 36 → at_ 0xF40000000000 = .error 11) ∧
     ∀ tag a, 0 < tag → tag < 2 ^ 16 → a < 2 ^ 48 → s.place (BitVec.ofNat 64 (tag * 2 ^ 48 + a)) n = .error 13) ∧
  (∀ (s : State) (f : Slot) (e : MemFault), s.mayTrap →
     let slot := if s.task.flow.inB then 1 else 0
     let n := typeWidth f.t / 8
     let fails := fun (i : Instr) (fm : AccessForm) (len align acc : Nat) => s.goes i f →
       s.resolve fm (s.g f.a.toNat + s.offset f) len align = .error e →
       ∃ t, exec i s = .next t ∧ Trapped s t 1 (BitVec.ofNat 64 (e.cause % 256 * 2 ^ 56 + slot * 2 ^ 54 + acc * 2 ^ 52
         + e.reason % 16 * 2 ^ 48 + e.addr.toNat))
     let load : AccessForm := { ordered := f.ord ≠ 0, fe := f.wf || f.clr }
     let store : AccessForm := { write := true, ordered := f.ord ≠ 0 }
     fails (.ld f) load n n 0 ∧ fails (.st f) store n n 1 ∧ fails (.cas f) { rmw := true } n n 2 ∧
     fails (.amo f) { rmw := true } n n 2 ∧ fails (.vld f) load 256 16 0 ∧ fails (.vst f) store 256 16 1 ∧
     fails (.vldb f) load n n 0)

/-- R120, R121: LD gives the bytes that its keys hold, least significant first, extended as the type says; the bytes of
the task's own held stores come first.
R123, R258: LD with WF waits while a granule it reads is empty; R233: LD waits for a core pad at rest.
R122, R160, R258: a store to the task's own core pad is visible at once, byte by byte, and sets the full bit of each
granule it touches.
R122, R182, R183, R185: a store anywhere else is held: memory does not change, HOLDB grows by its bytes, and the task's
own loads see them; past the limit it traps before it holds anything. -/
def Obligations.ScalarMemory : Prop :=
  ((∀ (s : State) (f : Slot) (ks : List Nat), 1 ≤ f.t.toNat → f.t.toNat ≤ 8 → s.goes (.ld f) f → f.wf = false →
      f.clr = false → s.resolve { ordered := f.ord ≠ 0 } (s.g f.a.toNat + s.offset f) (intWidth f.t / 8) (intWidth f.t / 8)
        = .ok ks → s.asleep ks = none →
      ∃ t, exec (.ld f) s = .next t ∧ KeepsOthers s t .g f.d.toNat ∧ KeepsMemory s t ∧ KeepsSpecials s t ∧
        t.task.bolt.work.hold = s.task.bolt.work.hold ∧
        (f.d.toNat ≠ 0 → t.finalG f.d.toNat = extendAs f.t (BitVec.ofNat _ (natOfBytes (ks.map s.loadByte)))) ∧
        (s.task.bolt.work.hold = [] → s.task.bolt.outer = none → s.myNode = none → ∀ k, s.loadByte k = s.mem.read k)) ∧
   (∀ (s : State) (f : Slot) (off : Nat), 1 ≤ f.t.toNat → f.t.toNat ≤ 8 → s.goes (.ld f) f → f.wf = true →
      s.task.id.lcore < 192 →
      let n := intWidth f.t / 8
      s.g f.a.toNat + s.offset f = BitVec.ofNat 64 (0xF00000000000 + off) → off + n ≤ 2 ^ 21 → off % n = 0 →
      s.myCore.awake s.dcc = true → s.myCore.isFull (off / 16) = false →
      ∃ t, exec (.ld f) s = .next t ∧
        t.task.flow.fate = .waits (.fullEmpty [BitVec.ofNat 48 (0xF00000000000 + off / 16 * 16)]) ∧
        t.task.regs = s.task.regs ∧ t.task.bolt = s.task.bolt ∧ KeepsMemory s t ∧ KeepsOutside s t) ∧
   (∀ (s : State) (f : Slot) (ks : List Nat) (l : Nat), s.goes (.ld f) f →
      s.resolve { ordered := f.ord ≠ 0, fe := f.wf || f.clr } (s.g f.a.toNat + s.offset f) (typeWidth f.t / 8) (typeWidth f.t / 8)
        = .ok ks → s.asleep ks = some l →
      ∃ t, exec (.ld f) s = .next t ∧ t.task.flow.fate = .waits (.pad l) ∧
        t.task.regs = s.task.regs ∧ t.task.bolt = s.task.bolt ∧ KeepsMemory s t ∧ KeepsOutside s t)) ∧
  ((∀ (s : State) (f : Slot) (off : Nat), 1 ≤ f.t.toNat → f.t.toNat ≤ 8 → s.goes (.st f) f → s.task.id.lcore < 192 →
      let n := intWidth f.t / 8
      let k := keyCorePad s.task.id.lcore off
      s.g f.a.toNat + s.offset f = BitVec.ofNat 64 (0xF00000000000 + off) → off + n ≤ 2 ^ 21 → off % n = 0 →
      s.task.bolt.holdb ≤ 65536 → s.myCore.awake s.dcc = true →
      s.writeStalls (claimMark s.task.id.lcore s.task.id.part) (s.task.id.lcore, off / 16) = false →
      ∃ t, exec (.st f) s = .next t ∧ KeepsRegisters s t ∧ KeepsSpecials s t ∧ t.task.bolt = s.task.bolt ∧
        (∀ i, i < n → t.mem.read (k + i) = (s.g f.b.toNat).extractLsb' (8 * i) 8) ∧
        (∀ a, a < k ∨ k + n ≤ a → t.mem.read a = s.mem.read a) ∧
        t.myCore.isFull (off / 16) = true) ∧
   (∀ (s : State) (f : Slot) (ks : List Nat), 1 ≤ f.t.toNat → f.t.toNat ≤ 8 → s.goes (.st f) f →
      let n := intWidth f.t / 8
      s.resolve { write := true, ordered := f.ord ≠ 0 } (s.g f.a.toNat + s.offset f) n n = .ok ks →
      (∀ k ∈ ks, s.ownPad k = false) →
      (s.task.bolt.holdb + n ≤ 65536 → ∃ t, exec (.st f) s = .next t ∧ KeepsRegisters s t ∧ KeepsMemory s t ∧
        KeepsSpecials s t ∧ t.task.bolt.holdb = s.task.bolt.holdb + n ∧
        t.task.bolt.work.hold = s.task.bolt.work.hold ++ [.store (ks.zip (bytesOfNat n (s.g f.b.toNat).toNat))] ∧
        ∀ i, i < n → t.loadByte (ks.getD i 0) = (s.g f.b.toNat).extractLsb' (8 * i) 8) ∧
      (65536 < s.task.bolt.holdb + n → s.mayTrap → ∃ t x, exec (.st f) s = .next t ∧ Trapped s t 5 x ∧
        x.extractLsb' 56 8 = (0x19 : BitVec 8))))

/-- R124 to R126, R180: CAS and AMO seal, unless they begin the bolt that replays, send their operands to the controller of the line under the task's next RMW
number, and wait for the reply.
R124, R125, R346: the controller serves a request once: it stores the new value, an unsuccessful CAS storing nothing,
and it logs the reply. -/
def Obligations.ReadModifyWrites : Prop :=
  (∀ (s : State) (f : Slot) (ks : List Nat), s.sealable ∨ s.task.flow.redo = true →
     let u := if s.task.flow.redo then s else s.afterQuiet.sealNow s.task.flow.off
     let sends := fun (i : Instr) (aop : Nat) => s.goes i f → u.buffered = false →
       (u.rmwQ.filter fun (r : Rmw) => r.line = ks.headD 0 / 64).length < 32 →
       s.resolve { rmw := true } (s.g f.a.toNat + s.offset f) (typeWidth f.t / 8) (typeWidth f.t / 8) = .ok ks →
       ∃ t r, exec i s = .next t ∧ t.task.flow.fate = .waits .rmw ∧ t.rmwQ = u.rmwQ ++ [r] ∧ r.who = s.task.ref ∧
         r.num = s.task.bolt.rmwNo ∧ r.addr = ks.headD 0 ∧ r.line = r.addr / 64 ∧ r.width = typeWidth f.t / 8 ∧
         r.aop = aop ∧ r.b = u.g f.b.toNat ∧ r.c = u.g f.c.toNat ∧ r.dest = f.d.toNat ∧
         t.task.regs = u.task.regs ∧ KeepsRegisters s t ∧ KeepsMemory u t
     sends (.cas f) 8 ∧ sends (.amo f) f.aop) ∧
  (∀ (s : State) (line : Nat) (r : Rmw) (t : Task), s.rmwQ.find? (·.line = line) = some r →
     s.taskAt r.who = some t → s.logged t r.num = none → t.bolt.work.hold = [] → r.width ∈ [4, 8] →
     let old := natOfBytes (s.mem.readBytes r.addr r.width)
     let b := r.b.toNat % 2 ^ (8 * r.width)
     let c := r.c.toNat % 2 ^ (8 * r.width)
     let new := match r.aop with
       | 0 => b | 1 => (old + b) % 2 ^ (8 * r.width)
       | 2 => if intOf (8 * r.width) r.signed old ≤ intOf (8 * r.width) r.signed b then old else b
       | 3 => if intOf (8 * r.width) r.signed old ≤ intOf (8 * r.width) r.signed b then b else old
       | 4 => old &&& b | 5 => old ||| b | 6 => old ^^^ b
       | _ => if old = b then c else old
     ∃ u, exec (.rmwService line) s = .next u ∧ u.rmwQ = s.rmwQ.erase r ∧
       (∀ a, a < r.addr ∨ r.addr + r.width ≤ a → u.mem.read a = s.mem.read a) ∧
       (r.aop = 8 → old ≠ b → KeepsMemory s u) ∧
       (r.aop ≠ 8 ∨ old = b → natOfBytes (u.mem.readBytes r.addr r.width) = new) ∧
       ∃ x ∈ u.replyLog, x.queue = t.id.queue ∧ x.packet = t.id.packet ∧ x.tile = t.id.tile ∧ x.num = r.num ∧
         x.old = BitVec.ofNat 64 old)

/-! ### Vector memory (spec/05_vector_instructions.md R157 to R162) -/

/-- R158, R159: VLD gives each governed byte of v[D] the byte at its key, VLDB one element to every governed lane, VLDG each
governed lane the element at its own address; everything else of v[D] stays.
R158, R160, R182: VST stores the governed bytes of v[B], VSTS each governed element of v[C] at its own address, a higher
lane last: at once where all of them lie in the task's own core pad, held where none does. -/
def Obligations.VectorMemory : Prop :=
  (∀ (s : State) (f : Slot), f.wf = false → f.clr = false →
     let w := typeWidth f.t
     let ea := s.g f.a.toNat + s.offset f
     let fm : AccessForm := { ordered := f.ord ≠ 0 }
     let runs := fun (i : Instr) (r : State → Prop) => i.wf = true → s.goes i f → ∃ t, exec i s = .next t ∧
       KeepsOthers s t .v f.d.toNat ∧ KeepsMemory s t ∧ KeepsSpecials s t ∧ r t
     (∀ ks, s.resolve fm ea 256 16 = .ok ks →
       s.asleep (((List.range 256).filter fun b => s.governs f f.msel.toNat (8 * b / w)).map fun b => ks.getD b 0) = none →
       runs (.vld f) fun t => ∀ b, b < 256 →
       elemBits 8 (t.finalV f.d.toNat) b = if s.governs f f.msel.toNat (8 * b / w) then (s.loadByte (ks.getD b 0)).toNat
         else elemBits 8 (s.finalV f.d.toNat) b) ∧
     (∀ ks, s.resolve fm ea (w / 8) (w / 8) = .ok ks →
       ((∃ i, i < laneCount f.t ∧ s.governs f f.msel.toNat i = true) → s.asleep ks = none) → runs (.vldb f) fun t => ∀ i, i < laneCount f.t →
       elemBits w (t.finalV f.d.toNat) i = if s.governs f f.msel.toNat i then natOfBytes (ks.map s.loadByte)
         else elemBits w (s.finalV f.d.toNat) i) ∧
     (∀ lanes, s.laneKeys f false false = .ok lanes → s.asleep (lanes.flatMap (·.2)) = none → runs (.vldg f) fun t => ∀ i, i < laneCount f.t →
       (s.governs f f.msel.toNat i = true → ∃ ks, (i, ks) ∈ lanes ∧
         s.resolve {} (ea + BitVec.ofNat 64 (elemBits w (s.v f.b.toNat) i * (w / 8))) (w / 8) (w / 8) = .ok ks ∧
         elemBits w (t.finalV f.d.toNat) i = natOfBytes (ks.map s.loadByte)) ∧
       (s.governs f f.msel.toNat i = false → elemBits w (t.finalV f.d.toNat) i = elemBits w (s.finalV f.d.toNat) i))) ∧
  (∀ (s : State) (f : Slot),
     let w := typeWidth f.t
     let ea := s.g f.a.toNat + s.offset f
     let stores := fun (i : Instr) (cells : List Host.Cell) => i.wf = true → s.goes i f →
       (cells ≠ [] → (∀ c ∈ cells, s.ownPad c.1 = false) → s.task.bolt.holdb + cells.length ≤ 65536 →
         ∃ t, exec i s = .next t ∧ KeepsRegisters s t ∧ KeepsMemory s t ∧ KeepsSpecials s t ∧
           t.task.bolt.work.hold = s.task.bolt.work.hold ++ [.store cells] ∧
           t.task.bolt.holdb = s.task.bolt.holdb + cells.length) ∧
       ((∀ c ∈ cells, s.ownPad c.1 = true) → s.task.bolt.holdb ≤ 65536 → s.asleep (cells.map (·.1)) = none →
         (∀ g ∈ granulesOf (cells.map (·.1)), s.writeStalls (claimMark s.task.id.lcore s.task.id.part) g = false) →
         ∃ t, exec i s = .next t ∧ KeepsRegisters s t ∧ KeepsSpecials s t ∧ t.task.bolt = s.task.bolt ∧
           ∀ a, t.mem.read a = (s.mem.writeCells cells).read a)
     (∀ ks, s.resolve { write := true, ordered := f.ord ≠ 0 } ea 256 16 = .ok ks →
       stores (.vst f) (((List.range 256).filter fun b => s.governs f f.msel.toNat (8 * b / w)).map fun b =>
         (ks.getD b 0, BitVec.ofNat 8 (elemBits 8 (s.v f.b.toNat) b)))) ∧
     (∀ lanes, s.laneKeys f false true = .ok lanes →
       stores (.vsts f) (lanes.flatMap fun (i, ks) => ks.zip (bytesOfNat (w / 8) (elemBits w (s.v f.c.toNat) i)))))

/-! ### Vector arithmetic (spec/05_vector_instructions.md R131 to R138) -/

/-- R53, R135: the arithmetic of integer elements is exact and then limited once; MIN and MAX compare as the type reads
them, and the right shifts work on the patterns. -/
def Obligations.VectorIntegers : Prop :=
  ∀ (s : State) (f : Slot), isVI f.t = true →
    let w := typeWidth f.t
    let x := fun i => elemBits w (s.v f.a.toNat) i
    let y := fun i => s.secondBits f i
    let a := fun i => elementInt f.t (x i)
    let b := fun i => elementInt f.t (y i)
    let c := fun i => elementInt f.t (elemBits w (s.v f.c.toNat) i)
    let k := fun i => y i % w
    let writes := fun (i : Instr) (val : Nat → Nat) => i.wf = true → s.goes i f →
      ∃ t, exec i s = .next t ∧ WritesLanes s t f (s.governs f f.msel.toNat) val
    writes (.vadd f) (fun i => elementOf f (a i + b i)) ∧ writes (.vsub f) (fun i => elementOf f (a i - b i)) ∧
    writes (.vmul f) (fun i => elementOf f (a i * b i)) ∧ writes (.vfma f) (fun i => elementOf f (a i * b i + c i)) ∧
    writes (.vfms f) (fun i => elementOf f (a i * b i - c i)) ∧ writes (.vabs f) (fun i => elementOf f |a i|) ∧
    writes (.vneg f) (fun i => elementOf f (-a i)) ∧ writes (.vshl f) (fun i => elementOf f (a i * 2 ^ k i)) ∧
    writes (.vmin f) (fun i => if a i ≤ b i then x i else y i) ∧
    writes (.vmax f) (fun i => if a i ≤ b i then y i else x i) ∧
    writes (.vshr f) (fun i => x i / 2 ^ k i) ∧
    writes (.vsra f) (fun i => ((x i - (if 2 ^ (w - 1) ≤ x i then 2 ^ w else 0 : Int)) / 2 ^ k i % 2 ^ w).toNat)

/-- R133, R135: the arithmetic of floating elements is the exact operation on the values of the elements, rounded once
under the code in force and limited.
R136: VMIN and VMAX of floating elements give one of the two operands, the other one of a NaN, and the canonical NaN of
two. -/
def Obligations.VectorFloats : Prop :=
  (∀ (s : State) (f : Slot), isVF f.t = true →
     let t := f.t.toNat
     let x := fun i => valueOf t (elemBits (typeWidth f.t) (s.v f.a.toNat) i)
     let y := fun i => valueOf t (s.secondBits f i)
     let z := fun i => valueOf t (elemBits (typeWidth f.t) (s.v f.c.toNat) i)
     let code := if f.rnd = 7 then s.task.sys.rmode.toNat else f.rnd.toNat
     let once := if code = 6 then 0 else code
     let writes := fun (i : Instr) (rnd : Nat) (rand : Nat → RandomBits) (val : Nat → FVal) => i.wf = true → s.goes i f →
       ∃ u, exec i s = .next u ∧
         WritesLanes s u f (s.governs f f.msel.toNat) fun j => convertTo t rnd (f.sat == 1) (rand j) (val j)
     let random := fun i => if code = 6 then some (typeWidth f.t, elemBits (typeWidth f.t) (s.v f.c.toNat) i) else none
     writes (.vadd f) code random (fun i => (x i).add code (y i)) ∧
     writes (.vsub f) code random (fun i => (x i).add code (y i).neg) ∧
     writes (.vmul f) code random (fun i => (x i).mul (y i)) ∧
     writes (.vfma f) once (fun _ => none) (fun i => ((x i).mul (y i)).add once (z i)) ∧
     writes (.vfms f) once (fun _ => none) (fun i => ((x i).mul (y i)).add once (z i).neg) ∧
     writes (.vneg f) 0 (fun _ => none) (fun i => (x i).neg) ∧
     writes (.vabs f) 0 (fun _ => none) (fun i => if (x i).isNeg then (x i).neg else x i)) ∧
  (∀ (s : State) (f : Slot), isVF f.t = true →
     let w := typeWidth f.t
     let x := fun i => elemBits w (s.v f.a.toNat) i
     let y := fun i => s.secondBits f i
     let val := fun p => valueOf f.t.toNat p
     let gives := fun (i : Instr) (worse : FVal → FVal → Bool) => i.wf = true → s.goes i f → ∃ t r, exec i s = .next t ∧
       WritesLanes s t f (s.governs f f.msel.toNat) r ∧ ∀ j,
         ((val (x j)).isNan = true → (val (y j)).isNan = true → r j = nanOf f.t.toNat) ∧
         ((val (x j)).isNan = true → (val (y j)).isNan = false → r j = y j) ∧
         ((val (x j)).isNan = false → (val (y j)).isNan = true → r j = x j) ∧
         ((val (x j)).isNan = false → (val (y j)).isNan = false → (r j = x j ∨ r j = y j) ∧
           worse (val (r j)) (val (x j)) = false ∧ worse (val (r j)) (val (y j)) = false)
     let above := fun (p q : FVal) => decide (0 < p.cmp q) || (decide (p.cmp q = 0) && !p.isNeg && q.isNeg)
     gives (.vmin f) above ∧ gives (.vmax f) fun p q => above q p)

/-- R137: VCMP sets the mask bits of the bytes of every governed element to the truth of the comparison, and keeps the other
bits of m[D].
R151: KLOG gives the number of governed elements, the least and the greatest; 0xFFFF stands for neither. -/
def Obligations.MasksOfLanes : Prop :=
  (∀ (s : State) (f : Slot), (Instr.vcmp f).wf = true → s.goes (.vcmp f) f → f.d.toNat ≠ 0 →
     let wb := typeWidth f.t / 8
     let x := fun i => valueOf f.t.toNat (elemBits (typeWidth f.t) (s.v f.a.toNat) i)
     let y := fun i => valueOf f.t.toNat (s.secondBits f i)
     let holds := fun i => if (x i).isNan || (y i).isNan then f.q 3 1 == 1 || f.q 3 1 == 6 else match f.q 3 1 with
       | 0 => (x i).cmp (y i) == 0 | 1 => (x i).cmp (y i) != 0 | 2 => decide ((x i).cmp (y i) < 0)
       | 3 => decide ((x i).cmp (y i) ≤ 0) | 4 => decide (0 < (x i).cmp (y i)) | 5 => decide (0 ≤ (x i).cmp (y i))
       | _ => false
     ∃ t, exec (.vcmp f) s = .next t ∧ OnlyRegister s t .m f.d.toNat ∧ ∀ j, j < 256 →
       (t.finalM f.d.toNat).getLsbD j =
         if s.governs f f.msel.toNat (j / wb) then holds (j / wb) else (s.finalM f.d.toNat).getLsbD j) ∧
  (∀ (s : State) (f : Slot), (Instr.klog f).wf = true → s.goes (.klog f) f →
     let on := (List.range (laneCount f.t)).filter fun i => s.governs f f.a.toNat i
     ∃ t x, exec (.klog f) s = .next t ∧ WritesG s t f.d.toNat x ∧ x.extractLsb' 48 16 = 0 ∧
       (x.extractLsb' 0 16).toNat = on.length ∧
       (on = [] → x.extractLsb' 16 16 = 0xFFFF ∧ x.extractLsb' 32 16 = 0xFFFF) ∧
       (on ≠ [] → (x.extractLsb' 16 16).toNat ∈ on ∧ (x.extractLsb' 32 16).toNat ∈ on ∧
         ∀ i ∈ on, (x.extractLsb' 16 16).toNat ≤ i ∧ i ≤ (x.extractLsb' 32 16).toNat))

/-! ### Rounding and number formats (spec/02_number_formats.md R37 to R56) -/

/-- R50: the rounding codes on a positive magnitude a/b: an exact value stays; otherwise the result is a neighbour, and
which one is the code's.
R39 to R44, R50: every number and every infinity of a floating format converts to its own pattern under every rounding
code.
R38, R53: an integer converts to an integer format clamped under SAT and reduced to its low bits otherwise, under every
rounding code. -/
def Obligations.FormatsAndRounding : Prop :=
  (∀ (neg : Bool) (a b : Nat), 0 < b →
     let q := a / b
     let r := a % b
     let n := fun code => (roundMag code neg a b none).1
     (∀ code, r = 0 → n code = q) ∧ (∀ code, n code = q ∨ n code = q + 1) ∧
     (r ≠ 0 → n 1 = q ∧ n 2 = (if neg then q else q + 1) ∧ n 3 = (if neg then q + 1 else q) ∧
       n 4 = (if 2 * r < b then q else q + 1) ∧ n 5 % 2 = 1 ∧
       n 0 = (if 2 * r < b ∨ (2 * r = b ∧ q % 2 = 0) then q else q + 1))) ∧
  ((∀ (t : BitVec 5) (rnd x : Nat) (sat : Bool), 9 ≤ t.toNat → t.toNat ≤ 15 → rnd < 7 →
      x < 2 ^ (if t = 15 then 9 else typeWidth t) → (valueOf t.toNat x).isNan = false →
      convertTo t.toNat rnd sat none (valueOf t.toNat x) = x) ∧
   (∀ (t rnd w : Nat) (signed : Bool) (n : Int), intFmt t = some (w, signed) →
      let lo : Int := if signed then -(2 ^ (w - 1)) else 0
      let hi : Int := if signed then 2 ^ (w - 1) - 1 else 2 ^ w - 1
      convertTo t rnd true none (.ofInt n) = (max lo (min hi n) % 2 ^ w).toNat ∧
      convertTo t rnd false none (.ofInt n) = (n % 2 ^ w).toNat))

/-! ### Conversions, special functions, lanes (spec/05_vector_instructions.md R139 to R151) -/

/-- R139, R140: VCVT converts one part of the elements between widths.
R45, R141: VBSC writes the scale of each block of sixteen elements into its slot of the scale words and keeps every
other bit of v[D].
R142: VPACK4 makes an e2m1 code of each element under the scale of its block, or traps when a scale word it reads has
its reserved bit set. -/
def Obligations.VectorConversions : Prop :=
  (∀ (s : State) (f : Slot), (Instr.vcvt f).wf = true → s.goes (.vcvt f) f →
     let ws := typeWidth f.st
     let wd := typeWidth f.t
     let code := if f.rnd = 7 then s.task.sys.rmode.toNat else f.rnd.toNat
     ∃ t, exec (.vcvt f) s = .next t ∧ OnlyRegister s t .v f.d.toNat ∧ ∀ i, i < 2048 / wd →
       let from_ := if wd ≤ ws then i - f.part * (2048 / ws) else f.part * (2048 / wd) + i
       let written := if wd ≤ ws then decide (f.part * (2048 / ws) ≤ i ∧ i < f.part * (2048 / ws) + 2048 / ws) else true
       let random := if code = 6 then some (ws, elemBits ws (s.v f.c.toNat) from_) else none
       elemBits wd (t.finalV f.d.toNat) i = if written && s.governs f f.msel.toNat i then
           convertTo f.t.toNat code (f.sat == 1) random (valueOf f.st.toNat (elem f.st (s.v f.a.toNat) from_)) % 2 ^ wd
         else elemBits wd (s.finalV f.d.toNat) i) ∧
  (∀ (s : State) (f : Slot), (Instr.vbsc f).wf = true → s.goes (.vbsc f) f →
     let b0 := f.imm.toNat % 256
     let n := 2048 / typeWidth f.st / 16
     let place := fun j => 64 * ((b0 + j) / 7) + 9 * ((b0 + j) % 7)
     let scale := fun j => blockScale (f.sat == 1)
       ((List.range 16).map fun i => valueOf f.st.toNat (elem f.st (s.v f.a.toNat) (16 * j + i)))
     ∃ t, exec (.vbsc f) s = .next t ∧ OnlyRegister s t .v f.d.toNat ∧
       (∀ j, j < n → (t.finalV f.d.toNat).extractLsb' (place j) 9 = BitVec.ofNat 9 (scale j)) ∧
       ∀ k, k < 2048 → (∀ j, j < n → k < place j ∨ place j + 9 ≤ k) →
         (t.finalV f.d.toNat).getLsbD k = (s.finalV f.d.toNat).getLsbD k) ∧
  (∀ (s : State) (f : Slot), (Instr.vpack4 f).wf = true → s.goes (.vpack4 f) f →
     let ns := 2048 / typeWidth f.st
     let slot := fun j => f.imm.toNat % 256 + j
     let reserved := fun j => (s.v f.b.toNat).getLsbD (64 * (slot j / 7) + 63)
     let scale := fun j => ((s.v f.b.toNat).extractLsb' (64 * (slot j / 7) + 9 * (slot j % 7)) 9).toNat
     let code := if f.rnd = 7 then s.task.sys.rmode.toNat else f.rnd.toNat
     ((∀ j, j < ns / 16 → reserved j = false) → ∃ t, exec (.vpack4 f) s = .next t ∧ OnlyRegister s t .v f.d.toNat ∧
       ∀ i, i < 512 → elemBits 4 (t.finalV f.d.toNat) i =
         if (decide (f.part * ns ≤ i ∧ i < f.part * ns + ns) && s.governs f f.msel.toNat i) = true then
           let k := i - f.part * ns
           packCode code (if code = 6 then some (typeWidth f.st, elemBits (typeWidth f.st) (s.v f.c.toNat) k) else none)
             (scale (k / 16)) (valueOf f.st.toNat (elem f.st (s.v f.a.toNat) k)) % 16
         else elemBits 4 (s.finalV f.d.toNat) i) ∧
     ((∃ j, j < ns / 16 ∧ reserved j = true) → s.mayTrap → ∃ t x, exec (.vpack4 f) s = .next t ∧ Trapped s t 2 x ∧
       x.extractLsb' 56 8 = (1 : BitVec 8)))

/-- R143 to R145, R323: the special functions write their governed elements; a .fast form approximates the inputs that have
no result of their own, and traps at determinism level 3.
R145: whatever the free pattern, a .fast result lies within two units in the last place of the exact value, where that
value is within the format.
R144: the root that VSQRT rounds lies between two neighbours whose squares enclose the operand. -/
def Obligations.SpecialFunctions : Prop :=
  (∀ (s : State) (f : Slot),
     let p := fun i => elemBits (typeWidth f.t) (s.v f.a.toNat) i
     let x := fun i => valueOf f.t.toNat (p i)
     let code := if f.rnd = 7 then s.task.sys.rmode.toNat else f.rnd.toNat
     let random := fun i => if code = 6 then some (typeWidth f.t, elemBits (typeWidth f.t) (s.v f.c.toNat) i) else none
     let rounded := fun (r : FVal → FVal) (fast : Nat → W32 → W32) (i : Nat) =>
       if (f.im && !specialInput (x i) && !(r (x i)).isNan) = true then
         fastResult f.t.toNat (f.sat == 1) (r (x i)) (fast f.t.toNat (BitVec.ofNat 32 (p i)))
       else convertTo f.t.toNat code (f.sat == 1) (random i) (r (x i))
     let writes := fun (i : Instr) (val : Nat → Nat) => i.wf = true → s.goes i f →
       (f.im = false ∨ s.task.id.detlvl ≠ 3 → ∃ t, exec i s = .next t ∧ WritesLanes s t f (s.governs f f.msel.toNat) val) ∧
       (f.im = true → s.task.id.detlvl = 3 → s.mayTrap → ∃ t y, exec i s = .next t ∧ Trapped s t 8 y ∧
         y.extractLsb' 56 8 = (2 : BitVec 8))
     writes (.vrcp f) (fun i => reciprocal f.t.toNat (f.sat == 1) (x i)) ∧
     writes (.vrsq f) (fun i => reciprocalRoot f.t.toNat (x i)) ∧
     writes (.vsqrt f) (rounded rootOf Config.fastSqrt) ∧ writes (.vexp2 f) (rounded exp2Of Config.fastExp2) ∧
     writes (.vlog2 f) (rounded log2Of Config.fastLog2)) ∧
  (∀ (t m : Nat) (e : Int) (neg sat : Bool) (free : W32), t ∈ [9, 10, 11] → 0 < m →
     (FVal.fin false m e).cmp (valueOf t (maxOf t)) ≤ 0 →
     withinUlps t (fastResult t sat (.fin neg m e) free) (.fin neg m e) = true) ∧
  (∀ n : Nat, intSqrt n * intSqrt n ≤ n ∧ n < (intSqrt n + 1) * (intSqrt n + 1))

/-- R53, R146, R147: an integer add over the governed elements is exact and limited once; a scan gives every element the sum
up to it, or before it.
R146, R147: the other reductions combine two patterns at a time: in halves for VRED, in lane order for VSCAN.
R148 to R150: the moves between lanes.
R132, R138: the bitwise operations and VSEL work on the patterns of the elements. -/
def Obligations.ReductionsAndLaneMoves : Prop :=
  ((∀ (s : State) (f : Slot), isVI f.t = true → f.q 3 1 = 0 →
      let w := typeWidth f.t
      let n := laneCount f.t
      let term := fun i => if s.governs f f.c.toNat i then elementInt f.t (elemBits w (s.v f.a.toNat) i) else 0
      ((Instr.vred f).wf = true → s.goes (.vred f) f → ∃ t, exec (.vred f) s = .next t ∧
        WritesLanes s t f (fun i => i == 0 && s.governs f f.msel.toNat 0) fun _ =>
          elementOf f (∑ i ∈ Finset.range n, term i)) ∧
      ((Instr.vscan f).wf = true → s.goes (.vscan f) f → ∃ t, exec (.vscan f) s = .next t ∧
        WritesLanes s t f (s.governs f f.msel.toNat) fun i =>
          elementOf f (∑ j ∈ Finset.range (if f.qual.getLsbD 4 then i else i + 1), term j))) ∧
   (∀ (s : State) (f : Slot), (isVF f.t = true ∨ f.q 3 1 ≠ 0) →
      let w := typeWidth f.t
      let xs := (List.range (laneCount f.t)).map fun i =>
        if s.governs f f.c.toNat i then elemBits w (s.v f.a.toNat) i else identityOf (f.q 3 1) f.t.toNat
      let code := if f.rnd = 7 then s.task.sys.rmode.toNat else f.rnd.toNat
      let op := combine (f.q 3 1) f.t.toNat (if code = 6 then 0 else code) (f.sat == 1)
      ((Instr.vred f).wf = true → s.goes (.vred f) f → ∃ t r, exec (.vred f) s = .next t ∧
        halves op (Nat.log2 (laneCount f.t)) xs = [r] ∧
        WritesLanes s t f (fun i => i == 0 && s.governs f f.msel.toNat 0) fun _ => r) ∧
      ((Instr.vscan f).wf = true → s.goes (.vscan f) f → ∃ t, exec (.vscan f) s = .next t ∧
        WritesLanes s t f (s.governs f f.msel.toNat) fun i =>
          (xs.take (if f.qual.getLsbD 4 then i else i + 1)).foldl op (identityOf (f.q 3 1) f.t.toNat)))) ∧
  ((∀ (s : State) (f : Slot),
      let w := typeWidth f.t
      let a := fun i => elemBits w (s.v f.a.toNat) i
      let writes := fun (i : Instr) (val : Nat → Nat) => i.wf = true → s.goes i f →
        ∃ t, exec i s = .next t ∧ WritesLanes s t f (s.governs f f.msel.toNat) val
      writes (.vperm f) (fun i => a (elemBits 8 (s.v f.b.toNat) i % laneCount f.t)) ∧
      writes (.vbcast f) (fun _ => (s.g f.a.toNat).toNat) ∧
      writes (.vbcastLane f) (fun _ => a f.imm.toNat) ∧
      ((Instr.vext f).wf = true → s.goes (.vext f) f → ∃ t, exec (.vext f) s = .next t ∧ WritesG s t f.d.toNat
        (if f.t.toNat ≤ 3 then (BitVec.ofNat w (a f.imm.toNat)).signExtend 64 else BitVec.ofNat 64 (a f.imm.toNat))) ∧
      writes (.viota f) (fun i => ((f.imm.toInt + i) % 2 ^ w).toNat) ∧
      writes (.viotaCnt f) (fun i => ((f.imm.toInt +
        ((List.range i).filter fun j => s.governs f f.c.toNat j).length) % 2 ^ w).toNat)) ∧
   (∀ (s : State) (f : Slot),
      let x := fun i => elemBits (typeWidth f.t) (s.v f.a.toNat) i
      let y := fun i => if f.im then (if f.psel = 0 then f.imm.toNat else (s.poolSel f).toNat) % 2 ^ typeWidth f.t
        else elemBits (typeWidth f.t) (s.v f.b.toNat) i
      let writes := fun (i : Instr) (val : Nat → Nat) => i.wf = true → s.goes i f →
        ∃ t, exec i s = .next t ∧ WritesLanes s t f (s.governs f f.msel.toNat) val
      writes (.vand f) (fun i => x i &&& y i) ∧ writes (.vor f) (fun i => x i ||| y i) ∧
      writes (.vxor f) (fun i => x i ^^^ y i) ∧
      writes (.vsel f) (fun i => if s.governs f f.c.toNat i then x i else y i)))

/-- R153 to R155: SPUSH holds the governed elements for a stream, SPOP reserves and writes the first available records, and
SCNT counts the available ones. -/
def Obligations.ConditionalStreams : Prop :=
  ∀ (s : State) (f : Slot),
    let i := f.imm.toNat % 8
    let w := typeWidth f.t
    let on := (List.range (laneCount f.t)).filter fun j => s.governs f f.msel.toNat j
    let bytes := on.flatMap fun j => bytesOfNat (w / 8) (elemBits w (s.v f.a.toNat) j)
    let available := bytesOf i s.task.bolt.returned ++ (s.myCore.stream i).bytes
    let b := on.length * (w / 8)
    ((Instr.spush f).wf = true → s.goes (.spush f) f → b ≠ 0 → b ≤ s.streamFree i → s.task.bolt.holdb + b ≤ 65536 →
      ∃ t, exec (.spush f) s = .next t ∧ t.task.bolt.work.hold = s.task.bolt.work.hold ++ [.push i bytes] ∧
        t.task.bolt.holdb = s.task.bolt.holdb + b ∧ (t.myCore.stream i).bytes = (s.myCore.stream i).bytes ∧
        KeepsRegisters s t ∧ KeepsMemory s t ∧ KeepsSpecials s t) ∧
    ((Instr.spop f).wf = true → s.goes (.spop f) f → b ≠ 0 → b ≤ available.length →
      ∃ t, exec (.spop f) s = .next t ∧ KeepsOthers s t .v f.d.toNat ∧ KeepsMemory s t ∧ KeepsSpecials s t ∧
        t.task.bolt.work.reserved = s.task.bolt.work.reserved ++ (available.take b).map (fun x => (i, x)) ∧
        t.task.bolt.work.hold = s.task.bolt.work.hold ∧
        ∀ n, n < on.length → elemBits w (t.finalV f.d.toNat) (on.getD n 0) =
          natOfBytes (((available.drop (n * (w / 8))).take (w / 8)).map (·.2))) ∧
    ((Instr.spop f).wf = true → s.goes (.spop f) f → available.length < b →
      ∃ t, exec (.spop f) s = .next t ∧ t.task.flow.fate = .waits (.stream i true b) ∧ t.task.regs = s.task.regs) ∧
    ((Instr.scnt f).wf = true → s.goes (.scnt f) f → ∃ t, exec (.scnt f) s = .next t ∧
      WritesG s t f.d.toNat (BitVec.ofNat 64 (available.length / (w / 8))))

/-! ### The matrix engine (spec/07_core_matrix.md) -/

/-- R203, R204, R57: a tile command takes one use of the head descriptor; FPUSH appends a descriptor that keeps the rules. A
full queue, a bad descriptor and a tile command without one are precise engine-class traps.
R199, R204, R207 to R209, R212 to R214, R218 to R222, R259: a tile command whose ranges lie where they may enters the queue
with the descriptor it takes, lends the pages it reads and counts the bytes it will hold; without an entry or a lend the
bundle stalls.
R209, R213, R218: an operand outside the windows, an accumulation into a tile that is not initialised and one with another
exponent trap, with the role of the range or the tile's L in DETAIL. -/
def Obligations.TileCommandsEnter : Prop :=
  ((∀ (d : Desc) (ds : List Desc), takeUse (d :: ds) = some (d, if d.extractLsb' 0 8 = 0 then ds else (d - 1) :: ds)) ∧
   ∀ (s : State) (f : Slot),
     let d : Desc := s.g f.b.toNat ++ s.g f.a.toNat
     let q := s.task.eng.fq
     let side := fun (ty p bs : Nat) => ty ∈ [1, 2, 5, 6, 9, 10, 11, 12, 13, 14, 17, 18] ∧
       (ty = 14 → p = 5 ∧ bs = 1) ∧ (ty ∈ [17, 18] → p = 4) ∧ (ty ∈ [1, 5] → p = 8) ∧ (ty ∈ [2, 6] → p = 16) ∧
       (ty ∈ [9, 10, 11, 12, 13] → 2 ≤ p) ∧ (bs = 1 → ty ∈ [12, 13, 14])
     let good := d.extractLsb' 8 17 = (0 : BitVec 17) ∧
       side (d.extractLsb' 25 5).toNat ((d.extractLsb' 30 4).toNat + 1) (d.extractLsb' 43 1).toNat ∧
       side (d.extractLsb' 34 5).toNat ((d.extractLsb' 39 4).toNat + 1) (d.extractLsb' 44 1).toNat ∧
       (d.extractLsb' 50 5).toNat ∈ [1, 2, 3, 5, 6, 7, 9, 10, 11, 12, 13] ∧
       -160 ≤ (d.extractLsb' 55 9).toInt ∧ (d.extractLsb' 55 9).toInt ≤ 63
     let traps := fun (i : Instr) (cause : BitVec 8) => s.goes i f → s.mayTrap → ∃ t x, exec i s = .next t ∧
       Trapped s t 3 x ∧ t.task.eng = s.task.eng ∧ x.extractLsb' 56 8 = cause ∧ x.extractLsb' 54 2 = (1 : BitVec 2) ∧
       x.extractLsb' 0 32 = BitVec.ofNat 32 s.task.flow.off
     (s.goes (.fpush f) f → q.length < 8 → good →
       exec (.fpush f) s = .next (s.setEng { s.task.eng with fq := q ++ [d] })) ∧
     (8 ≤ q.length → traps (.fpush f) 2) ∧ (q.length < 8 → ¬good → traps (.fpush f) 3) ∧
     (q = [] → traps (.plane f) 1 ∧ traps (.mma f) 1 ∧ traps (.mmag f) 1 ∧ traps (.mclr f) 1 ∧ traps (.mlda f) 1 ∧
       traps (.mrd f) 1 ∧ traps (.mst f) 1)) ∧
  (∀ (s : State) (f : Slot) (d : Desc) (fq : List Desc), takeUse s.task.eng.fq = some (d, fq) →
     let e := s.task.eng
     let bolt := s.task.bolt
     let core := s.myCore
     let dest := f.d.toNat % 4
     let record := fun (lo : Nat) => ((d.extractLsb' lo 4).toNat + 5) * 1024 + 256
     let lsb := (d.extractLsb' 55 9).toInt
     let enters := fun (i : Instr) (op held : Nat) (sets : Bool) (is : MCmd → Prop) => s.goes i f →
       bolt.holdb + held ≤ 65536 → ∃ c : MCmd, is c ∧ c.op = op ∧ c.desc = d ∧
         c.who = ⟨s.task.id.part, bolt.work.num, e.order, BitVec.ofNat 32 s.task.flow.off, s.dcc⟩ ∧
         exec i s = .next (if (core.mq.filter fun x => x.who.part = s.task.id.part).length < 16 ∧ ∀ p ∈ c.pages, core.lend p < 3
           then ((s.setCore { core.lendPages c.pages with mq := core.mq ++ [c] }).setEng { e with
             fq, order := e.order + 1, marks := if sets then e.marks ||| BitVec.twoPow 4 dest else e.marks
             tileL := if sets then e.tileL.set dest lsb else e.tileL }).setBolt { bolt with holdb := bolt.holdb + held }
           else s.waitFor .stall)
     let k := (f.qual.extractLsb' 0 7).toNat + 1
     let acc := f.qual.getLsbD 7
     let off := fun (stream : Nat) => if f.qual.getLsbD 10 then (core.nest f.c.toNat).offset stream else 0
     let product := fun (i : Instr) (op b bLen : Nat) => ∀ a,
       s.padRange false (s.g f.a.toNat + BitVec.ofInt 64 (off 0)) (k * record 30) 256 = some a →
       (acc = true → e.marks.getLsbD dest = true ∧ lsb = e.tileL.getD dest 0) →
       enters i op 0 (!acc) fun c => c.a = a ∧ c.b = b ∧ c.k = k ∧ c.acc = acc ∧ c.tile = dest ∧
         c.smode = (f.qual.extractLsb' 8 2).toNat ∧ c.stamp = f.imm.toNat ∧
         ∀ p, p ∈ c.pages ↔ p ∈ pagesOf a (k * record 30) ∨ p ∈ pagesOf b bLen
     (∀ b, s.padRange false (s.g f.b.toNat + BitVec.ofInt 64 (off 1)) (k * record 39) 256 = some b →
       product (.mma f) 0x288 b (k * record 39)) ∧
     (∀ b, s.padRange false (s.g f.b.toNat) 8 16 = some b → product (.mmag f) 0x289 b 8) ∧
     enters (.mclr f) 0x28A 0 true (fun c => c.tile = dest ∧ c.pages = []) ∧
     (let n := if f.t = 16 then 262144 else 65536
      ∀ a, s.padRange true (s.g f.a.toNat) n 16 = some a → enters (.mlda f) 0x28B 0 true fun c =>
       c.tile = dest ∧ c.a = a ∧ c.ty = f.t.toNat ∧ c.pages = pagesOf a n) ∧
     (let row := f.imm.toNat % 128
      let rows := f.imm.toNat / 256 % 128 + 1
      ∀ b, s.padRange true (s.g f.b.toNat) (2048 * rows) 16 = some b →
       enters (.mst f) 0x291 (if s.ownPad b then 0 else 2048 * rows) false fun c =>
         c.tile = f.a.toNat % 4 ∧ c.b = b ∧ c.row = row ∧ c.rows = rows ∧ c.pages = []) ∧
     (let side := f.qual.getLsbD 0
      let w := typeWidth (d.extractLsb' (if side then 34 else 25) 5)
      let steps := (f.qual.extractLsb' 2 7).toNat + 1
      let pitch := f.imm.toNat % 2 ^ 24
      let tr := f.qual.getLsbD 1
      let extent := if tr then (64 * steps - 1) * pitch + 128 * w / 8 else 127 * pitch + 64 * steps * w / 8
      let scales := d.getLsbD (if side then 44 else 43)
      let words := (512 * steps + 6) / 7
      ∀ a b c', s.padRange true (s.g f.a.toNat) extent (Nat.max 1 (w / 8)) = some a →
       s.padRange false (s.g f.b.toNat) (steps * record (if side then 39 else 30)) 256 = some b →
       (scales = true → s.padRange true (s.g f.c.toNat) (8 * words) 8 = some c') →
       enters (.plane f) 0x281 0 false fun c => c.a = a ∧ c.b = b ∧ (scales = true → c.c = c') ∧ c.k = steps ∧ c.side = side ∧
         c.tr = tr ∧ c.pitch = pitch ∧
         ∀ p, p ∈ c.pages ↔ (∃ j, j < (if tr then 64 * steps else 128) ∧
             p ∈ pagesOf (a + j * pitch) (if tr then 128 * w / 8 else 64 * steps * w / 8)) ∨
           scales = true ∧ p ∈ pagesOf c' (8 * words))) ∧
  (∀ (s : State) (f : Slot) (d : Desc) (fq : List Desc), takeUse s.task.eng.fq = some (d, fq) → s.mayTrap →
     let dest := f.d.toNat % 4
     let traps := fun (i : Instr) (cause : BitVec 8) (tile : BitVec 2) (detail : BitVec 10) => s.goes i f →
       ∃ t x, exec i s = .next t ∧ Trapped s t 3 x ∧ t.task.eng = s.task.eng ∧ x.extractLsb' 56 8 = cause ∧
         x.extractLsb' 42 2 = tile ∧ x.extractLsb' 32 10 = detail
     let rows := f.imm.toNat / 256 % 128 + 1
     let k := (f.qual.extractLsb' 0 7).toNat + 1
     let record := fun (lo : Nat) => ((d.extractLsb' lo 4).toNat + 5) * 1024 + 256
     let off := fun (stream : Nat) => if f.qual.getLsbD 10 then (s.myCore.nest f.c.toNat).offset stream else 0
     let aKey := s.padRange false (s.g f.a.toNat + BitVec.ofInt 64 (off 0)) (k * record 30) 256
     let bKey := s.padRange false (s.g f.b.toNat + BitVec.ofInt 64 (off 1)) (k * record 39) 256
     (s.padRange true (s.g f.a.toNat) (if f.t = 16 then 262144 else 65536) 16 = none → traps (.mlda f) 6 (BitVec.ofNat 2 dest) 1) ∧
     (s.padRange true (s.g f.b.toNat) (2048 * rows) 16 = none → traps (.mst f) 6 (BitVec.ofNat 2 f.a.toNat) 4) ∧
     (aKey = none → traps (.mma f) 6 (BitVec.ofNat 2 dest) 1 ∧ traps (.mmag f) 6 (BitVec.ofNat 2 dest) 1) ∧
     (aKey.isSome = true → bKey = none → traps (.mma f) 6 (BitVec.ofNat 2 dest) 2) ∧
     (aKey.isSome = true → bKey.isSome = true → f.qual.getLsbD 7 = true →
       (s.task.eng.marks.getLsbD dest = false → traps (.mma f) 4 (BitVec.ofNat 2 dest) 0) ∧
       (s.task.eng.marks.getLsbD dest = true → (d.extractLsb' 55 9).toInt ≠ s.task.eng.tileL.getD dest 0 →
         traps (.mma f) 5 (BitVec.ofNat 2 dest) ((BitVec.ofInt 9 (s.task.eng.tileL.getD dest 0)).setWidth 10))))

/-- R62, R198 to R200, R221, R223: MRD reads elements of the tile under the descriptor it takes, in its turn on the tile port,
once every earlier command of its partition has started and those on the tile are complete; until then it waits. MSTAT reports the tiles, and with .wt waits for every tile command of the partition. -/
def Obligations.TileReadout : Prop :=
  (∀ (s : State) (f : Slot) (d : Desc) (fq : List Desc), takeUse s.task.eng.fq = some (d, fq) → s.goes (.mrd f) f →
    let ty := if f.t = 0 then d.extractLsb' 50 5 else f.t
    let w := typeWidth ty
    let e := f.imm.toNat % 2 ^ 14
    let t := s.myCore.tiles.getD (f.a.toNat % 4) .reset
    let tile := f.a.toNat % 4
    let ready := s.readoutReady s.task.id.lcore s.task.id.part tile = true ∧
      s.readoutFirst s.task.id.lcore s.task.id.part = false
    (ready → (∀ x ∈ s.myCore.mq, x.who.part ≠ s.task.id.part) ∧
      (∀ r ∈ s.myCore.run, r.cmd.who.part = s.task.id.part → r.cmd.op ≠ 0x281 → r.cmd.tile ≠ tile) ∧
      ∀ r ∈ s.myCore.run, r.cmd.away = none → unitTakes .tilePort r.cmd.op = false) ∧
    (e % (2048 / w) = 0 → ¬ready → exec (.mrd f) s = .next (s.waitFor (.readout tile))) ∧
    (e % (2048 / w) = 0 → ready → ∃ u, exec (.mrd f) s = .next u ∧
      OnlyRegister ((s.setCore { s.myCore with served := s.myCore.served.set 2 s.task.id.part }).setEng
        { s.task.eng with fq }) u .v f.d.toNat ∧
      ∀ i, i < 2048 / w → elemBits w (u.finalV f.d.toNat) i =
        convertTo ty.toNat (effRnd0 s f.rnd) (f.sat == 1) none (readoutValue d t.l (t.elem (e + i))) % 2 ^ w)) ∧
  (∀ (d : Desc) (l : Int) (x : AElem),
    let sa := valueOf 9 (d.extractLsb' 64 32).toNat
    let sb := valueOf 9 (d.extractLsb' 96 32).toNat
    (x.tag = 3 ∨ sa = .nan ∨ sb = .nan → readoutValue d l x = .nan) ∧
    ∀ na ma ea nb mb eb, sa = .fin na ma ea → sb = .fin nb mb eb →
      (x.tag = 0 → readoutValue d l x =
        .fin ((x.q.natAbs * ma * mb != 0) && ((decide (x.q < 0) != na) != nb)) (x.q.natAbs * ma * mb) (l + ea + eb)) ∧
      (x.tag = 1 ∨ x.tag = 2 → readoutValue d l x =
        if ma = 0 ∨ mb = 0 then .nan else .inf ((decide (x.tag = 2) != na) != nb))) ∧
  ∀ (s : State) (f : Slot), s.goes (.mstat f) f → s.pending < 256 → s.task.eng.fifo0.length < 256 →
    let tile := fun (k : Nat) => s.myCore.tiles.getD k .reset
    let bound := fun (k : Nat) => s.task.id.abind.getLsbD k
    let cleared := (List.range 4).map fun k =>
      if bound k then { tile k with clamp := false, accsat := false, capd := false } else tile k
    (f.qual.getLsbD 1 = true → s.pending ≠ 0 → exec (.mstat f) s = .next (s.waitFor .stall)) ∧
    (f.qual.getLsbD 1 = false ∨ s.pending = 0 → ∃ u x, exec (.mstat f) s = .next u ∧
      WritesG (if f.qual.getLsbD 0 then s.setCore { s.myCore with tiles := cleared } else s) u f.d.toNat x ∧
      x.extractLsb' 32 8 = BitVec.ofNat 8 s.pending ∧ x.extractLsb' 24 8 = BitVec.ofNat 8 s.task.eng.fifo0.length ∧
      x.extractLsb' 40 24 = (0 : BitVec 24) ∧ x.extractLsb' 16 4 = (0 : BitVec 4) ∧ x.extractLsb' 0 4 = (0 : BitVec 4) ∧
      ∀ k, k < 4 → x.getLsbD (20 + k) = (bound k && (tile k).capd) ∧ x.getLsbD (8 + k) = (bound k && (tile k).clamp) ∧
        x.getLsbD (4 + k) = (bound k && (tile k).accsat) ∧
        (x.getLsbD (12 + k) = true ↔ bound k = true ∧ ∃ n, n < 16384 ∧ ((tile k).elem n).tag ≠ 0))

/-- R48, R49, R60, R61: contributions added to an element without saturating give one result in every order; a tag that is not
finite stays and keeps Q at 0; a sum stays within 96 bits; the 16-byte image of an element gives the element back.
R57, R58, R205, R206: a planed integer lies within its bound; the bytes of a record are RecSize(p) long, and its lines read
back as the integers, classes and factors they were planed to, and its checksum row as the column sums. -/
def Obligations.AccumulatorsAndPlanes : Prop :=
  (let run := fun (x : AElem) (l : List (BitVec 2 × Int)) =>
     l.foldl (fun a c => let r := a.1.add c.1 c.2; (r.1, a.2 || r.2)) (x, false)
   (∀ (x : AElem) (l l' : List (BitVec 2 × Int)), l.Perm l' → (run x l).2 = false → (run x l').2 = false →
     (run x l).1 = (run x l').1) ∧
   (∀ (x : AElem) (tag : BitVec 2) (c : Int),
     let y := x.add tag c
     y.1.tag = x.tag ||| tag ∧ -(2 ^ 95) ≤ y.1.q ∧ y.1.q < 2 ^ 95 ∧ (y.1.tag ≠ 0 → y.1.q = 0 ∧ y.2 = false) ∧
     (y.1.tag = 0 → (y.2 = false ↔ -(2 ^ 95) ≤ x.q + c ∧ x.q + c < 2 ^ 95) ∧ (y.2 = false → y.1.q = x.q + c))) ∧
   ∀ (x : AElem), -(2 ^ 95) ≤ x.q → x.q < 2 ^ 95 → (x.tag ≠ 0 → x.q = 0) → x.image.length = 16 ∧ elemOfImage x.image = some x) ∧
  ((∀ (ty p arnd : Nat) (u : Int) (x : FVal), 2 ≤ p → (floatFmt ty).isSome = true → ty ≠ 14 →
     (planed ty p arnd u x).1.natAbs ≤ 2 ^ (p - 1) - 1) ∧
   ∀ (m : Memory) (key p : Nat) (unsigned : Bool) (lines : List (List PlanedBlock)), 1 ≤ p → p ≤ 16 → lines.length = 128 →
     (∀ l ∈ lines, l.length = 4 ∧ ∀ b ∈ l, b.qs.length = 16 ∧ b.cls.length = 16 ∧ b.fac < 2 ^ 16 ∧
       ∀ q ∈ b.qs, if unsigned then 0 ≤ q ∧ q < 2 ^ p else -(2 ^ (p - 1)) ≤ q ∧ q < 2 ^ (p - 1)) →
     (recordBytes p lines).length = (p + 4) * 1024 + 256 ∧
     (m.readBytes key ((p + 4) * 1024 + 256) = recordBytes p lines → ∀ r, r < 128 →
       let bs := lines.getD r []
       (readLine m key p unsigned r).facs = bs.map (·.fac) ∧
       (readLine m key p unsigned r).elems = List.zipWith takenElem (bs.flatMap (·.qs)) (bs.flatMap (·.cls)) ∧
       ∀ k, k < 64 → (readChecksum m key p).getD k 0 =
         ((lines.map fun l => (List.flatMap PlanedBlock.qs l).getD k 0).sum % 2 ^ 32).toNat))

/-- R228, R229, R231: PHASE replaces the task's declaration, its fields being kept as declared, and the pre-positioning, the onset, a ramp step and the end of a
declaration change it in their time; the engine's declared level is the sum of the active INT values, at most 8. -/
def Obligations.PhaseDeclarations : Prop :=
  let level := fun (t : State) (l : Nat) => (t.core l).phases = Nat.min 8 ((t.tasks.filter fun x =>
    x.id.live && x.id.lcore == l && x.phase.act).map fun x => Nat.min 8 x.phase.int).sum
  (∀ (s : State) (f : Slot), s.goes (.phase f) f →
    let x := if f.psel = 0 then s.g f.a.toNat else poolOperand s.task.flow.pool (f.psel == 2)
    let int := (x.extractLsb' 36 4).toNat
    let len := (x.extractLsb' 20 16).toNat
    let onset := (x.extractLsb' 0 20).toNat
    let on := decide (int ≠ 0 ∧ len ≠ 0)
    ∃ t, exec (.phase f) s = .next t ∧ { t with task := s.task, cores := s.cores } = s ∧ level t s.task.id.lcore ∧
      t.task = { s.task with phase :=
        ⟨int, len, onset, s.dcc, on && decide (64 * onset < 4400), false, on, 8, false, s.task.phase.uburst⟩ }) ∧
  ∀ (s : State) (who : TaskRef) (x : Task), s.taskAt who = some x →
    let p := x.phase
    let start := p.t0 + 64 * p.onset
    let becomes := fun (i : Instr) (due : Prop) (q : TaskPhase) => due → ∃ t, exec i s = .next t ∧
      t.taskAt who = some { x with phase := q } ∧ level t who.lcore ∧ t.mem = s.mem ∧ t.dcc = s.dcc
    becomes (.regulatorPreposition who) (p.pend = true ∧ p.asked = false ∧ start ≤ s.dcc + 4400) { p with asked := true } ∧
    becomes (.phaseOnset who) (p.pend = true ∧ start ≤ s.dcc)
      { p with pend := false, act := true, level := if p.ramp then 2 else 8 } ∧
    (p.pend = true → start ≤ s.dcc → ∃ t, exec (.phaseOnset who) s = .next t ∧ (t.core who.lcore).stagger = some start) ∧
    becomes (.phaseRampStep who) (p.act = true ∧ p.ramp = true ∧ p.level < 8 ∧ start + 256 * (p.level - 1) ≤ s.dcc)
      { p with level := p.level + 1 } ∧
    becomes (.phaseEnd who) (p.act = true ∧ start + 1024 * p.len ≤ s.dcc)
      { p with act := false, pend := false, ramp := false, level := 8, asked := false }

/-- R254 to R256: a step of a slot within its bounds moves to the next index point and wraps past the last; nset.off gives the
sum of index times stride; nset.rst returns to the first point; NSET loads a valid image. -/
def Obligations.NestSlots : Prop :=
  let lin := fun (n : NestSlot) => ∑ d ∈ Finset.range n.nd, n.idx.getD d 0 * ∏ e ∈ Finset.range d, n.bound.getD e 0
  let fits := fun (n : NestSlot) => n.nd ≤ 6 ∧ n.bound.length = 6 ∧ n.idx.length = 6 ∧
    ∀ d, d < n.nd → n.idx.getD d 0 < n.bound.getD d 0
  (∀ (n : NestSlot), fits n →
    let points := ∏ d ∈ Finset.range n.nd, n.bound.getD d 0
    let m := n.step
    n.points = points ∧ lin n < points ∧ fits m ∧ lin m = (lin n + 1) % points ∧
      m.wrap = (n.wrap || decide (lin n + 1 = points)) ∧ m.nd = n.nd ∧ m.bound = n.bound ∧ m.stride = n.stride) ∧
  (∀ (s : State) (f : Slot),
    let n := s.myCore.nest f.c.toNat
    let put := fun (i : Instr) (m : NestSlot) => s.goes i f → exec i s = .next (s.setCore (s.myCore.setNest f.c.toNat m))
    put (.nsetRst f) { n with idx := List.replicate 6 0, wrap := false } ∧ put (.nsetStep f) n.step ∧
    (s.goes (.nsetOff f) f → ∃ t, exec (.nsetOff f) s = .next t ∧ WritesG s t f.d.toNat (BitVec.ofInt 64
      (∑ d ∈ Finset.range n.nd, (n.idx.getD d 0 : Int) * n.stride.getD (3 * d + f.imm.toNat % 4) 0)))) ∧
  ∀ (s : State) (f : Slot) (l off : Nat) (n : NestSlot), s.goes (.nset f) f →
    s.place (s.g f.a.toNat) 128 = .ok (.corePad l off false) → (s.g f.a.toNat).toNat % 16 = 0 →
    n.nd ≤ 6 → n.bound.length = 6 → n.idx.length = 6 → n.stride.length = 18 →
    (∀ d, d < 6 → n.bound.getD d 0 < 2 ^ 24 ∧
      if d < n.nd then n.idx.getD d 0 < n.bound.getD d 0 ∨ n.idx.getD d 0 = 0 else n.bound.getD d 0 = 0 ∧ n.idx.getD d 0 = 0) →
    (∀ i, i < 18 → -(2 ^ 31) ≤ n.stride.getD i 0 ∧ n.stride.getD i 0 < 2 ^ 31 ∧ (n.nd ≤ i / 3 → n.stride.getD i 0 = 0)) →
    ((List.range 128).map fun i => s.loadByte (keyCorePad l off + i)) = n.image →
    f.c.toNat < s.myCore.nests.length → s.myCore.awake s.dcc = true →
    ∃ t, exec (.nset f) s = .next t ∧ t.myCore.nest f.c.toNat = n ∧
      (∀ k, k ≠ f.c.toNat → t.myCore.nest k = s.myCore.nest k) ∧ KeepsRegisters s t ∧ KeepsMemory s t ∧ KeepsSpecials s t

/-- R199 to R201, R210, R216, R225 to R227, R230, R233: a unit that is free takes the ready oldest command of the partition next in
turn; a stamped command starts or is missed; commands wait no longer than 2^24 ticks, migrate and come back; bursts throttle the
array and an idle pad enters retention.
R205, R207, R211, R213, R219, R220, R222: what a tile command leaves when it completes: the tile or the bytes it writes, its
place in the engine, and its consumed and complete elements. -/
def Obligations.TileCommandsRun : Prop :=
  ((∀ (s : State) (l : Nat) (u : EngUnit) (c : MCmd), s.unsettled l = false → s.nextCmd l u = some c →
     let core := s.core l
     let away := fun (x : MCmd) => turnOf (core.served.getD (unitIndex u) 15) x.who.part
     let t := s.startCmd l u c
     (∃ pre post, core.mq = pre ++ c :: post ∧ ∀ x ∈ pre, x.who.part ≠ c.who.part) ∧ s.operandsFull l c = true ∧
     (∀ r ∈ core.run, unitTakes u r.cmd.op = true → r.cmd.away ≠ none) ∧ (u = .array → s.guest l = false) ∧
     (∀ x ∈ core.oldest, unitTakes u x.op = true → s.cmdReady l x = true → away c ≤ away x) ∧
     exec (.tileCommandStart l u) s = .next (t.settleOldest l) ∧ (t.settleOldest l).mem = s.mem ∧
     (t.core l).mq = core.mq.erase c ∧ (t.core l).run = core.run ++ [s.started l c]) ∧
   (∀ (s : State) (l : Nat) (c : MCmd), s.matrixClock = 44 →
     (c.op = 0x288 → s.arrayRate (c.away.getD l) = 352 → (s.started l c).ends = s.dcc + 8 +
       ((c.desc.extractLsb' 30 4).toNat + 1) * ((c.desc.extractLsb' 39 4).toNat + 1) * c.k + 12) ∧
     (c.op = 0x28A → (s.started l c).ends = s.dcc + 64)) ∧
   (∀ (s : State) (l : Nat) (c : MCmd), s.unsettled l = false → s.nextStamped l = some c →
     exec (.stampedCommandStart l) s = .next ((match s.missOf l c with
       | none => s.startCmd l .array c
       | some d => s.engineFault l c 0x10 d).settleOldest l) ∧
     (c.passed = true → s.missOf l c = some 1) ∧
     (s.resident l = false → s.missOf l c = some 1) ∧
     (c.passed = false → s.resident l = true → c.op = 0x288 → (s.core l).rangesFull (claimMark l c.who.part) c.reads = false →
       s.missOf l c = some 2)) ∧
   (∀ (s : State) (l cause detail : Nat) (c : MCmd) (x : Task), s.taskAt ⟨l, c.who.part⟩ = some x →
     let t := s.engineFault l c cause detail
     (t.core l).mq = (s.core l).mq.erase c ∧ (t.core l).run = (s.core l).run.filter (·.cmd ≠ c) ∧ t.mem = s.mem ∧
     (t.core l).tiles = (s.core l).tiles ∧ t.taskAt ⟨l, c.who.part⟩ = some { x with eng := { x.eng with
       faults := x.eng.faults ++ [⟨0, c.who.bolt, c.who.order, 3, syndEngine cause 2 c.op c.tile detail c.who.cpos.toNat⟩] } }) ∧
   (∀ (s : State) (l part : Nat) (c : MCmd), s.lateOperands l part = some c →
     exec (.operandWatchdog l part) s = .next ((s.engineFault l c 0x11 0).settleOldest l)) ∧
   (∀ (s : State) (l part nb : Nat) (c : MCmd), s.migrant l part = some (c, nb) →
     (nb = l / 12 * 12 + (l + 11) % 12 ∨ nb = l / 12 * 12 + (l + 1) % 12) ∧ (s.core nb).mq = [] ∧ (s.core nb).run = [] ∧
     c.acc = true ∧ c.desc.getLsbD 45 = true ∧ c.smode = 0 ∧
     let s1 := s.setCore ((s.core nb).freshWindow s.dcc)
     exec (.commandMigration l part) s = .next ((s1.setCore { s1.core l with
       mq := (s1.core l).mq.erase c
       run := (s1.core l).run ++ [s1.started l { c with away := some nb }] }).settleOldest l)) ∧
   (∀ (s : State) (l nb : Nat) (c : MCmd),
     (s.returning l = some (c, nb, false) → ∃ t, exec (.migratedPartialAdd l) s = .next t ∧ t.mem = s.mem ∧
       (t.core l).mq = (((s.core l).run.filter fun r => r.cmd.away = some nb).map fun r => { r.cmd with away := none })
         ++ (s.core l).mq ∧
       (t.core l).run = ((s.core l).run.filter fun r => r.cmd.away ≠ some nb) ∧ (t.core l).tiles = (s.core l).tiles) ∧
     (s.returning l = some (c, nb, true) → c.checked s.mem = true → c.tile < (s.core l).tiles.length →
       ∃ t, exec (.migratedPartialAdd l) s = .next t ∧ t.mem = s.mem ∧ ∀ n, n < 16384 →
         let home := (s.core l).tile c.tile
         let part := (c.product s.mem (Tile.cleared home.l)).elem n
         ((t.core l).tile c.tile).elem n = ((home.elem n).add part.tag part.q).1)) ∧
   (∀ (s : State) (l : Nat), s.windowDue l = true →
     let c := s.core l
     let limit := if c.thrt then Nat.max c.phases c.thrLvl else c.phases
     let excess := if limit < (s.windowClocks l + 7) / 8 then c.excess + 1 else 0
     ∃ t, exec (.undeclaredBurst l) s = .next t ∧ t.mem = s.mem ∧ (t.core l).window = c.window + 64 ∧
       (t.core l).excess = (if excess < 5 then excess else 0) ∧ (t.core l).thrt = (c.thrt || decide (5 ≤ excess)) ∧
       (t.core l).thrLvl = (if excess < 5 then c.thrLvl else if c.phases = 0 then 2 else c.phases) ∧
       ∀ who ∈ c.winParts ++ (s.arrayRuns l).map (·.1), ∀ x, s.taskAt who = some x → ∃ y, t.taskAt who = some y ∧
         y.phase.uburst.toNat = if excess < 5 then x.phase.uburst.toNat else Nat.min (x.phase.uburst.toNat + 1) (2 ^ 32 - 1)) ∧
   ∀ (s : State) (l : Nat),
     (s.retentionDue l = true → exec (.retentionEntry l) s =
       .next (s.setCore { s.core l with rest := .entering (s.dcc + s.sramTicks 4096) })) ∧
     (s.wakeDue l = true → exec (.retentionExit l) s = .next (s.setCore { s.core l with
       rest := .leaving (s.dcc + s.sramTicks 4608), touched := s.dcc + s.sramTicks 4608 }))) ∧
  (∀ (s : State) (l : Nat) (u : EngUnit) (c : MCmd), s.endingCmd l u = some c → c.tile < (s.core l).tiles.length →
     let home := (s.core l).tile c.tile
     let lsb := (c.desc.extractLsb' 55 9).toInt
     let word := fun (kind : BitVec 4) => kind ++ BitVec.ofNat 2 (if c.op = 0x281 then 0 else c.tile) ++ BitVec.ofNat 10 c.op ++
       (0 : BitVec 16) ++ c.who.cpos
     let completes := fun (p : State → Prop) => ∃ t, exec (.tileCommandComplete l u) s = .next t ∧ p t ∧
       (t.core l).mq = (s.core l).mq.erase c ∧ (t.core l).run = (s.core l).run.filter (·.cmd ≠ c) ∧
       ∀ x, s.taskAt ⟨l, c.who.part⟩ = some x → (t.taskAt ⟨l, c.who.part⟩).map (·.eng.fifo0) = some (x.eng.fifo0 ++
         (if c.con then [⟨word 1, c.who.bolt⟩] else []) ++ if c.res then [⟨word 2, c.who.bolt⟩] else [])
     let writes := fun (t : State) (bs : List Byte) =>
       (∀ a, t.mem.read a = if c.b ≤ a ∧ a < c.b + bs.length then bs.getD (a - c.b) 0 else s.mem.read a) ∧
       ∀ i l' o, i < bs.length → corePadOf (c.b + i) = some (l', o) → (t.core l').isFull (o / 16) = true
     let others := fun (t : State) => t.mem = s.mem ∧ ∀ k, k ≠ c.tile → (t.core l).tile k = (s.core l).tile k
     let image := ((List.range (128 * c.rows)).map fun n => (home.elem (128 * c.row + n)).image).flatten
     let unsigned := fun (side : Bool) => (intFmt (Desc.ty c.desc side)).any fun x => !x.2
     let rec_ := fun (side : Bool) => ((c.desc.extractLsb' (if side then 39 else 30) 4).toNat + 5) * 1024 + 256
     (c.op = 0x28A → completes fun t => others t ∧ (t.core l).tile c.tile = Tile.cleared lsb) ∧
     (c.op = 0x28B → ∀ x, s.loadedTile c = .ok x → completes fun t => others t ∧ (t.core l).tile c.tile = x) ∧
     (c.op = 0x28B → ∀ row, s.loadedTile c = .error row →
       exec (.tileCommandComplete l u) s = .next (s.engineFault l c 0x13 row)) ∧
     (c.op = 0x291 → (corePadOf c.b).isSome = true → completes fun t => writes t image ∧ (t.core l).tiles = (s.core l).tiles) ∧
     (c.op = 0x291 → corePadOf c.b = none → completes fun t => t.mem = s.mem ∧
       ∀ x, s.taskAt ⟨l, c.who.part⟩ = some x → x.bolt.work.num = c.who.bolt → c.who.part < 16 →
         (t.taskAt ⟨l, c.who.part⟩).map (·.bolt.work.hold) = some (x.bolt.work.hold ++
           [.moved ((cellsAt c.b image).map fun y => (s.padKey y.1, y.2))])) ∧
     (c.op = 0x281 → ∀ bs clamp, s.planeOut l c = .ok (bs, clamp) → completes fun t => writes t bs) ∧
     (c.op = 0x281 → ∀ w, s.planeOut l c = .error w →
       exec (.tileCommandComplete l u) s = .next (s.engineFault l c 0x12 (w % 1024))) ∧
     (c.op = 0x288 → c.checked s.mem = true → completes fun t => others t ∧ ∀ i j, i < 128 → j < 128 →
       let base := if c.acc then home else Tile.cleared lsb
       ((t.core l).tile c.tile).elem (128 * i + j) = ((List.range c.k).foldl (fun acc st => addLines base.l c.rnd
         (readLine s.mem (c.a + st * rec_ false) (Desc.planes c.desc false) (unsigned false) i)
         (readLine s.mem (c.b + st * rec_ true) (Desc.planes c.desc true) (unsigned true) j) acc)
           (base.elem (128 * i + j), false)).1) ∧
     (c.op = 0x289 → c.checked s.mem = true → completes fun t => others t ∧ ∀ n, n < 16384 →
       let base := if c.acc then home else Tile.cleared lsb
       match bandOf (c.groups.getD []) (n / 128) with
       | none => ((t.core l).tile c.tile).elem n = base.elem n
       | some g => ((t.core l).tile c.tile).elem n = ((List.range c.k).foldl (fun acc st => addLines base.l c.rnd
         (readLine s.mem (c.a + st * rec_ false) (Desc.planes c.desc false) (unsigned false) (n / 128))
         (readLine s.mem (((c.groups.getD []).getD g (0, 0)).2 + st * rec_ true) (Desc.planes c.desc true) (unsigned true) (n % 128))
           acc) (base.elem n, false)).1) ∧
     (arrayOp c.op = true → c.checked s.mem = false → exec (.tileCommandComplete l u) s =
       .next (s.chargeAll (boltId (claimMark l c.who.part) c.who.bolt) ⟨.core, 0, 0⟩)))

/-! ### Movement (spec/08_core_movement.md) -/

/-- R184, R235, R238, R241, R244 to R247, R249: a skidder instruction whose ranges lie in windows enters the queue of its class
with what it captures, charged with the bytes it writes outside the own core pad; with 16 commands outstanding it stalls.
R239 to R242, R246: the next chunk of a ready command moves at most 2,048 bytes, in the own core pad at once and into the hold
elsewhere; a command that has moved every byte completes with its element; a TMOV does not wait beyond its watchdog. -/
def Obligations.SkidderCommands : Prop :=
  (∀ (s : State) (f : Slot),
     let core := s.myCore
     let bolt := s.task.bolt
     let a := s.g f.a.toNat
     let b := s.g f.b.toNat
     let n := (s.g f.c.toNat).toNat
     let ok := fun (p : W64) (k : Nat) => k = 0 ∨ ∃ x, s.place p k = .ok x
     let own := fun (p : W64) (k : Nat) => k = 0 ∨ ∃ l off, s.place p k = .ok (.corePad l off false)
     let charges := fun (p : W64) (k charge : Nat) => own p k ∧ charge = 0 ∨ ¬own p k ∧ charge = k
     let entersFrom := fun (u : State) (i : Instr) (op path charge : Nat) (is : SkCmd → Prop) => s.goes i f →
       bolt.holdb + charge ≤ 65536 → ∃ c : SkCmd, is c ∧ c.op = op ∧ c.path = path ∧ c.cls = (f.qual.extractLsb' 0 2).toNat ∧
         c.who = ⟨s.task.id.part, bolt.work.num, s.task.eng.order, BitVec.ofNat 32 s.task.flow.off, s.dcc⟩ ∧ c.pos = 0 ∧
         c.done = false ∧ c.res = f.res ∧ c.con = f.con ∧ c.func = s.task.id.func ∧
         exec i s = .next (if (core.sq.filter fun x => x.who.part = s.task.id.part).length < 16
           then ((u.setCore { u.myCore with sq := core.sq ++ [c] }).setEng { s.task.eng with order := s.task.eng.order + 1 }).setBolt
             { u.task.bolt with holdb := bolt.holdb + charge }
           else u.waitFor .stall)
     let enters := entersFrom s
     let traps := fun (i : Instr) (detail : Nat) => s.goes i f → s.mayTrap → ∃ t x, exec i s = .next t ∧ Trapped s t 3 x ∧
       x.extractLsb' 56 8 = (0x22 : BitVec 8) ∧ x.extractLsb' 32 10 = BitVec.ofNat 10 detail
     let l := f.imm.toNat % 2 ^ 16 + 1
     let rows := (f.qual.extractLsb' 4 5).toNat + 1
     let idx := fun (i : Nat) => elemBits 32 (s.v f.c.toNat) i
     let near := fun (p : W64) (i : Nat) => p + BitVec.ofNat 64 (i * l)
     let moves := fun (i : Instr) (op : Nat) (kind : List Nat → SkKind) (src dst : Nat → W64) =>
       (∀ charge, (∀ j, j < rows → ok (src j) l ∧ ok (dst j) l) →
         ((∀ j, j < rows → own (dst j) l) ∧ charge = 0 ∨ ¬(∀ j, j < rows → own (dst j) l) ∧ charge = rows * l) →
         enters i op 2 charge fun c => c.kind = kind ((List.range rows).map idx) ∧ c.src = b ∧ c.dst = a ∧ c.len = rows * l) ∧
       ∀ j, j < rows → ¬(ok (src j) l ∧ ok (dst j) l) → (∀ k, k < j → ok (src k) l ∧ ok (dst k) l) → traps i (4 + j)
     let nest := core.nest f.c.toNat
     let run := f.imm.toNat % 2 ^ 24
     let total := nest.points * run
     let lo := fun (stream : Nat) => (nest.extent stream).1
     let span := fun (stream : Nat) => if total = 0 then 0 else ((nest.extent stream).2 - lo stream).toNat + run
     let full := fun (i : Instr) (fop : Nat) => a.toNat % 16 = 0 → b.toNat % 16 = 0 → b.toNat ≤ 2 ^ 21 → own a b.toNat →
       enters i 0x310 1 0 fun c => c.kind = .feop fop ∧ c.src = a ∧ c.dst = a ∧ c.len = b.toNat
     (∀ charge, n < 2 ^ 32 → ok a n → ok b n → charges a n charge → enters (.skmov f) 0x308 1 charge fun c =>
       c.kind = .mov ∧ c.src = b ∧ c.dst = a ∧ c.len = n) ∧
     (2 ^ 32 ≤ n → traps (.skmov f) 3) ∧ (n < 2 ^ 32 → ¬ok a n → traps (.skmov f) 1) ∧
     (n < 2 ^ 32 → ok a n → ¬ok b n → traps (.skmov f) 2) ∧
     (∀ charge, ok (a + BitVec.ofInt 64 (lo 1)) (span 1) → ok (b + BitVec.ofInt 64 (lo 0)) (span 0) →
       (own (a + BitVec.ofInt 64 (lo 1)) (span 1) ∧ charge = 0 ∨ ¬own (a + BitVec.ofInt 64 (lo 1)) (span 1) ∧ charge = total) →
       enters (.skmovNest f) 0x308 1 charge fun c => c.kind = .nest nest run ∧ c.src = b ∧ c.dst = a ∧ c.len = total) ∧
     moves (.skgat f) 0x309 (fun ix => .gather ix l) (fun j => near b (idx j)) (near a) ∧
     moves (.sksct f) 0x30A (fun ix => .scatter ix l) (near b) (fun j => near a (idx j)) ∧
     (∀ charge, n % 16 = 0 → n ≤ 2 ^ 21 → b.toNat % 16 = 0 → own b n → ok a n → charges a n charge →
       enters (.tmov f) 0x30D 1 charge fun c => c.kind = .tmov ∧ c.src = b ∧ c.dst = a ∧ c.len = n) ∧
     full (.feopSet f) 0 ∧ full (.feopClr f) 1 ∧ full (.feopWait f) 2 ∧
     (∀ key charge, s.padRange true a 64 64 = some key →
       let ks := (List.range 64).map fun i => s.padKey (key + i)
       let d := moveDesc (ks.map s.mem.read)
       let room := if d.xf = 0 then d.len else d.outmax
       (∀ x, s.asleep ks = some x → s.goes (.enqMove f) f → exec (.enqMove f) s = .next (s.waitFor (.pad x))) ∧
       (s.asleep ks = none → ok d.src d.len → ok d.dst room → charges d.dst room charge →
       entersFrom (s.noteReads ks) (.enqMove f) 0x300 1 charge fun c => c.kind = d.kind s.task.id.detlvl ∧ c.src = d.src ∧ c.dst = d.dst ∧ c.len = d.len))) ∧
  ((∀ (s : State) (l n : Nat) (x : Core) (c : SkCmd), s.skNext l = some (x, c, n) → c.kind = .mov → c.who.part < 18 → ∀ src dst,
     s.skKeys (c.ctx l) false (c.src + BitVec.ofNat 64 c.pos) n = (src, none) →
     s.skKeys (c.ctx l) true (c.dst + BitVec.ofNat 64 c.pos) n = (dst, none) → dst.Nodup → c.con = false →
     n = Nat.min 2048 (c.len - c.pos) ∧ s.skReady l c = true ∧ ∃ t, exec (.skidderChunkMove l) s = .next t ∧
       (t.core l).sq = (s.core l).sq.map (fun y => if y = c then
         { c with pos := c.pos + n, since := s.dcc, done := decide (c.pos + n = c.len), conDone := c.conDone || (c.pos + n == c.len) }
         else y) ∧
       ((∀ k ∈ dst, (corePadOf k).any (·.1 == l) = true) → (∀ a, a ∉ dst → t.mem.read a = s.mem.read a) ∧
         ∀ i, i < n → t.mem.read (dst.getD i 0) = s.mem.read (src.getD i 0)) ∧
       ((∀ k ∈ dst, (corePadOf k).any (·.1 == l) = false) → t.mem = s.mem ∧ (n ≠ 0 → c.who.part < 16 → ∀ y,
         s.taskAt ⟨l, c.who.part⟩ = some y → y.bolt.work.num = c.who.bolt →
           (t.taskAt ⟨l, c.who.part⟩).map (·.bolt.work.hold) =
             some (y.bolt.work.hold ++ [.moved (dst.zip (src.map s.mem.read))])))) ∧
   (∀ (s : State) (l : Nat) (c : SkCmd), (s.core l).sq.find? (·.done) = some c → ∃ t,
     exec (.skidderCommandComplete l) s = .next t ∧ t.mem = s.mem ∧ (t.core l).sq.length + 1 = (s.core l).sq.length ∧
       (c.who.part < 16 → c.path = 1 → ∀ x, s.taskAt ⟨l, c.who.part⟩ = some x →
         (t.taskAt ⟨l, c.who.part⟩).map (·.eng.fifo1) = some (x.eng.fifo1 ++ if c.res then
           [⟨(2 : BitVec 4) ++ (0 : BitVec 2) ++ BitVec.ofNat 10 c.op ++ (0 : BitVec 16) ++ c.who.cpos, c.who.bolt⟩] else []))) ∧
   ∀ (s : State) (l : Nat) (c : SkCmd), s.lateSource l = some c → c.kind = .tmov ∧ c.since + 2 ^ 24 ≤ s.dcc ∧ ∃ t,
     exec (.sourceWatchdog l) s = .next t ∧ t.mem = s.mem ∧ (t.core l).sq.length + 1 = (s.core l).sq.length ∧
       (c.who.part < 16 → ∀ x, s.taskAt ⟨l, c.who.part⟩ = some x → (t.taskAt ⟨l, c.who.part⟩).map (·.eng.faults) =
         some (x.eng.faults ++ [⟨c.path, c.who.bolt, c.who.order, 3, syndEngine 0x24 2 c.op 0 0 c.who.cpos.toNat⟩])))

/-- R239, R249 to R251, R313, R321: a chain reads its descriptor and moves its data in chunks of its class, at once; when they
have been written it writes OUTLEN and CODE, clears OWN and goes on at NEXT, or stops behind the last; a descriptor without
OWN stalls it, and one that cannot be read, has a defect or names a bad range leaves its CODE. -/
def Obligations.ChainsWalk : Prop :=
  (∀ (s : State) (d ch : Nat), s.chainReady d ch = true → ch < (s.die d).chains.length →
    let c := s.chain d ch
    let goes := fun (p : State → Prop) => ∃ t, exec (.chainDescriptorWalk d ch) s = .next t ∧ p t
    let posts := fun (t : State) (kind w2 : Nat) => ∃ e ∈ t.events, e.tick = s.dcc + 512 ∧ ∃ body : BitVec 192,
      e.kind = .record 0 body ∧ body.extractLsb' 56 8 = BitVec.ofNat 8 kind ∧ body.extractLsb' 0 56 = BitVec.ofNat 56 w2 ∧
        body.extractLsb' 64 64 = c.cur
    let fails := fun (code : Nat) => goes fun t =>
      t.mem = (match s.chainStatus c with
        | some k => s.mem.writeCells (cellsAt (k + 0x28) (bytesOfNat 5 (code * 2 ^ 32)))
        | none => s.mem) ∧
      t.chain d ch = { c with code }.resume 2 ∧ posts t 4 (16 * d + ch)
    c.state = 1 ∧
    (c.cmd = none → s.chainDesc c = none → fails 2) ∧
    (c.cmd = none → ∀ k, s.chainDesc c = some k →
      let m := moveDesc (s.mem.readBytes k 64)
      let within := s.chainRangeOk c.lcore m.src m.len = true ∧ s.chainRangeOk c.lcore m.dst m.room = true
      (m.ctrl % 2 = 0 → goes fun t => t.mem = s.mem ∧ t.chain d ch = c.resume 2 ∧ posts t 3 (16 * d + ch)) ∧
      (m.ctrl % 2 = 1 → m.defect ≠ none → fails 1) ∧
      (m.ctrl % 2 = 1 → m.defect = none → ¬within → fails 2) ∧
      (m.ctrl % 2 = 1 → m.defect = none → within → goes fun t => t.mem = s.mem ∧ ∃ x : SkCmd,
        t.chain d ch = { c with cmd := some x, out := 0 } ∧ x.cls = c.cls ∧ x.src = m.src ∧ x.dst = m.dst ∧ x.len = m.len ∧
        x.pos = 0 ∧ x.done = false ∧ x.func = c.func ∧ x.who.part = 18 + ch ∧
        x.kind = .desc none m.xf m.outmax m.dict m.dlen)) ∧
    (∀ x k, c.cmd = some x → s.chainStatus c = some k →
      let m := moveDesc (s.mem.readBytes k 64)
      goes fun t =>
        t.mem = (s.mem.writeCells (cellsAt (k + 0x28) (bytesOfNat 5 c.out))).writeCells
          [(k + 8, BitVec.ofNat 8 (m.ctrl % 256 / 2 * 2))] ∧
        (let c1 := { c with code := 0, done := c.done + 1, tries := 0, cmd := none, out := 0 }
         t.chain d ch = if m.next = 0 then c1.resume 0 else { c1 with cur := BitVec.ofNat 64 m.next }) ∧
        (m.ctrl.testBit 1 = true → posts t 5 (16 * d + ch)))) ∧
  ∀ (s : State) (l n ch outmax dict dlen : Nat) (x : Core) (c : SkCmd), s.skNext l = some (x, c, n) →
    c.who.part = 18 + ch → ch < (s.die (l / 96)).chains.length → c.kind = .desc none 0 outmax dict dlen → ∀ src dst,
    s.skKeys (c.ctx l) false (c.src + BitVec.ofNat 64 c.pos) n = (src, none) →
    s.skKeys (c.ctx l) true (c.dst + BitVec.ofNat 64 c.pos) n = (dst, none) → dst.Nodup →
    n = Nat.min 2048 (c.len - c.pos) ∧ ∃ t, exec (.skidderChunkMove l) s = .next t ∧
      (let y := s.chain (l / 96) ch
       t.chain (l / 96) ch = { y with
         out := y.out + n
         cmd := some { c with pos := c.pos + n, since := s.dcc, done := decide (c.pos + n = c.len) } }) ∧
      (∀ a, a ∉ dst → t.mem.read a = s.mem.read a) ∧
      ∀ i, i < n → t.mem.read (dst.getD i 0) = s.mem.read (src.getD i 0)

/-- R182 to R184, R248, R251, R280, R316 to R320, R332, R333, R373: the operations whose effect a bolt holds add it to the hold with its
bytes, or trap when the hold would pass 65,536 bytes; one that reads an image waits for a pad at rest (R233); the level changes, PXFER and OPREQ trap on what they may not ask for.
R185, R248, R251, R280, R318, R320, R333, R373: what each held effect does when it is released: stores become visible with
their full bits, but for bytes whose plot has become foreign (log 26), quanta and plots and levels change, and records, packets and gauge images become package events. -/
def Obligations.HeldEffects : Prop :=
  (∀ (s : State) (f : Slot),
     let bolt := s.task.bolt
     let a := s.g f.a.toNat
     let imm := f.imm.toNat
     let z := s.task.stand
     let trapsFrom := fun (u : State) (i : Instr) (sclass cause : BitVec 8) (info : W64 → Prop) => s.goes i f → s.mayTrap →
       ∃ t x, exec i s = .next t ∧ Trapped u t sclass x ∧ t.task.bolt.outer = some u.task.bolt.work ∧
         x.extractLsb' 56 8 = cause ∧ info x
     let holdsFrom := fun (u : State) (i : Instr) (n : Nat) (item : HoldItem) =>
       (s.goes i f → bolt.holdb + n ≤ 65536 → exec i s = .next (u.setBolt { u.task.bolt with
         work := { u.task.bolt.work with hold := bolt.work.hold ++ [item] }, holdb := bolt.holdb + n })) ∧
       (65536 < bolt.holdb + n → trapsFrom u i 5 0x19 fun x => x.extractLsb' 0 32 = BitVec.ofNat 32 n)
     let traps := trapsFrom s
     let holds := holdsFrom s
     let rests := fun (i : Instr) (ks : List Nat) => ∀ l, s.asleep ks = some l → s.goes i f →
       exec i s = .next (s.waitFor (.pad l))
     let act := (pendingStand z bolt.work.hold).act
     holds (.skchn f) 16 (.skchn (imm % 16) a (f.qual.extractLsb' 0 2).toNat) ∧ holds (.skqset f) 16 (.skqset a) ∧
     (∀ p, s.padImage a 128 = .ok p → p.length = 128 ∧ rests (.launch f) p ∧
       (s.asleep p = none → holdsFrom (s.noteReads p) (.launch f) 128 (.launch (imm % 64) (p.map s.mem.read)))) ∧
     (∀ p q, s.padImage a 128 = .ok p → s.padImage (s.g f.b.toNat) 128 = .ok q → rests (.spec f) p ∧
       (s.asleep p = none → s.asleep q = none → holdsFrom ((s.noteReads p).noteReads q) (.spec f) 256
         (.spec (imm / 256 % 16) (imm % 64) (p.map s.mem.read) (q.map s.mem.read)))) ∧
     holds (.decide f) 16 (.decide (imm / 256 % 16) (a.getLsbD 0)) ∧
     holds (.evpost f) 32 (.post (f.imm.setWidth 16) a) ∧
     (∀ b, s.padImage a 32 = .ok b → rests (.cord f) b ∧ (s.asleep b = none → holdsFrom (s.noteReads b) (.cord f) 32
       (.cord (f.imm.setWidth 16) (BitVec.ofNat 256 (natOfBytes (b.map s.mem.read)))))) ∧
     (a.toNat < 8 → holds (.opreq f) 16 (.opreq (imm % 4) (a.setWidth 3))) ∧
     (8 ≤ a.toNat → traps (.opreq f) 7 0x11 fun _ => True) ∧
     (z.level ≠ 0 → imm % 8 < act → holds (.zenter f) 16 (.zenter (imm % 8))) ∧
     (z.level ≠ 0 → act ≤ imm % 8 → traps (.zenter f) 6 0x12 fun x => x.extractLsb' 0 48 = BitVec.ofNat 48 (imm % 8)) ∧
     (z.level ≠ 0 → act ≠ z.level → holds (.zleave f) 16 .zleave) ∧
     (z.level ≠ 0 → act = z.level → traps (.zleave f) 6 0x12 fun _ => True) ∧
     (z.level = 0 → traps (.zenter f) 6 0x11 (fun _ => True) ∧ traps (.zleave f) 6 0x11 fun _ => True) ∧
     ∀ pa, s.plotAddress a = .ok pa →
       let w := s.g f.b.toNat
       let e : W64 := BitVec.ofNat 64 (s.plotEntry (pa / 2 ^ 21))
       let nstate := (w.extractLsb' 8 3).toNat
       let fits := w.extractLsb' 11 53 = (0 : BitVec 53) ∧ nstate ≤ 2 ∧ (w.extractLsb' 0 8).toNat ≤ 191 ∧
         (nstate ≠ 1 → w.extractLsb' 0 8 = (0 : BitVec 8))
       let mine := e.extractLsb' 0 3 = (1 : BitVec 3) ∧ (e.extractLsb' 8 8).toNat = s.task.id.lcore
       (fits → mine → holds (.pxfer f) 16 (.pxfer (pa / 2 ^ 21) nstate (w.extractLsb' 0 8).toNat)) ∧
       (¬fits → traps (.pxfer f) 1 9 fun x => x.extractLsb' 48 4 = (15 : BitVec 4)) ∧
       (fits → ¬mine → traps (.pxfer f) 1 5 fun x => x.extractLsb' 48 4 = BitVec.ofNat 4 (plotReason (e.extractLsb' 0 3).toNat))) ∧
  (∀ (s : State) (r : Releaser),
     let rel := s.releaseItem r
     let event := fun (i : HoldItem) (q seq : Nat) (k : EventKind) =>
       rel i = { s with events := s.events ++ [⟨s.dcc + 512, q, seq, k⟩] }
     (∀ cells, rel (.moved cells) = rel (.store cells) ∧
       (rel (.store cells)).mem = s.mem.writeCells (cells.filter fun c => s.stillOpen r.lcore c.1) ∧
       ∀ k ∈ cells.map Prod.fst, ∀ l o, corePadOf k = some (l, o) → ((rel (.store cells)).core l).isFull (o / 16) = true) ∧
     (∀ i bs, i < (s.core r.lcore).streams.length →
       let x := (s.core r.lcore).stream i
       let y := ((rel (.push i bs)).core r.lcore).stream i
       y.bytes.map Prod.snd = x.bytes.map Prod.snd ++ bs ∧ y.pending = x.pending - bs.length ∧ y.reserved = x.reserved) ∧
     (∀ q pk, event (.launch q pk) r.queue r.seq (.launch q pk r.det r.func)) ∧
     (∀ k q p0 p1, event (.spec k q p0 p1) r.queue r.seq (.spec q k p0 p1 r.queue r.seq r.det r.func (r.lcore / 96))) ∧
     (∀ k b, event (.decide k b) r.queue r.seq (.decide r.queue r.seq k b)) ∧
     (∀ gid img, event (.cord gid img) r.queue r.seq (.cord gid img)) ∧
     (∀ code payload, r.tile < 2 ^ 32 → ∃ body, event (.post code payload) r.queue r.seq (.record r.func body) ∧
       body.extractLsb' 56 8 = (2 : BitVec 8) ∧ body.extractLsb' 128 64 = payload ∧ body.extractLsb' 96 16 = code) ∧
     (∀ q : W64, ∀ i, i < 4 → ((rel (.skqset q)).core r.lcore).quanta.getD i 0 =
       if q.extractLsb' (16 * i) 16 = 0 then (s.core r.lcore).quanta.getD i 0 else 64 * (q.extractLsb' (16 * i) 16).toNat) ∧
     (∀ ch head cls, ch < (s.die (r.lcore / 96)).chains.length →
       let c := s.chain (r.lcore / 96) ch
       let d := (rel (.skchn ch head cls)).chain (r.lcore / 96) ch
       if c.state = 1 then d = { c with pend := some (head, cls, r.lcore, r.func) }
       else d.state = 1 ∧ d.cur = head ∧ d.cls = cls ∧ d.lcore = r.lcore ∧ d.func = r.func ∧ d.code = c.code ∧ d.done = c.done) ∧
     (∀ plot st ow, st < 8 → ow < 256 →
       let mine := s.plotState plot = 1 ∧ s.plotOwner plot = r.lcore
       (mine → (rel (.pxfer plot st ow)).plotState plot = st ∧ (rel (.pxfer plot st ow)).plotOwner plot = ow) ∧
       (¬mine → rel (.pxfer plot st ow) = s)) ∧
     (∀ rail op, rail < s.pkg.rails.length →
       ((rel (.opreq rail op)).pkg.rails.getD rail .reset).req = op ∧ (rel (.opreq rail op)).mem = s.mem) ∧
     (∀ level t, s.taskAt ⟨r.lcore, r.part⟩ = some t → r.of t = true → 1 ≤ level → level ≤ 4 → ∃ u,
       (rel (.zenter level)).taskAt ⟨r.lcore, r.part⟩ = some u ∧ u.stand.act = level ∧ u.stand.ent.getLsbD (level - 1) = true) ∧
     ∀ t, s.taskAt ⟨r.lcore, r.part⟩ = some t → r.of t = true → 1 ≤ t.stand.act → t.stand.act ≤ 4 → ∃ u,
       (rel .zleave).taskAt ⟨r.lcore, r.part⟩ = some u ∧ u.stand.ent.getLsbD (t.stand.act - 1) = false ∧
       (u.stand.ent ≠ 0 → 1 ≤ u.stand.act ∧ u.stand.ent.getLsbD (u.stand.act - 1) = true ∧
         ∀ k, k < u.stand.act - 1 → u.stand.ent.getLsbD k = false))

/-- R234 to R237: DEQ surfaces the oldest fault of its engine, or pops the oldest element, or waits for one, or traps when nothing can
come; ENQ of a mailbox word gives it to the helper unsealed, and stalls behind eight. -/
def Obligations.ElementsAndMailboxes : Prop :=
  ∀ (s : State) (f : Slot),
    let e := f.imm.toNat % 8
    let l := s.task.id.lcore
    let which := e - 4
    let h := s.helperAt l which
    let mine := (h.inbox.filter fun x => x.1 = s.task.id.part).length
    (∀ x, s.goes (.deq f) f → s.task.eng.oldestFault [e] = some x → s.mayTrap → ∃ t, exec (.deq f) s = .next t ∧
      Trapped s t x.sclass x.synd ∧ x ∈ s.task.eng.faults ∧ x.engine = e ∧ t.task.eng = { s.task.eng with faults := s.task.eng.faults.erase x } ∧
      ∀ y ∈ s.task.eng.faults, y.engine = e → x.order ≤ y.order) ∧
    (∀ x rest, s.goes (.deq f) f → s.task.eng.oldestFault [e] = none → s.elements e = x :: rest → e < 6 →
      ∃ t u, exec (.deq f) s = .next t ∧ WritesG u t f.d.toNat x.word ∧ u.elements e = rest ∧
        u.task.bolt = { s.task.bolt with work := { s.task.bolt.work with popped := s.task.bolt.work.popped ++ [(e, x)] } } ∧
        (e < 4 → u = { s with task := { s.task with eng := s.task.eng.setFifo e rest, bolt := u.task.bolt } }) ∧
        (4 ≤ e → u = { s with task := { s.task with bolt := u.task.bolt }, cores := u.cores })) ∧
    (s.goes (.deq f) f → s.task.eng.oldestFault [e] = none → s.elements e = [] → e < 6 →
      (4 ≤ e → exec (.deq f) s = .next (s.waitFor (.mailbox e))) ∧
      (e < 4 → s.outstanding e = true → exec (.deq f) s = .next (s.waitFor (.deq e))) ∧
      (e < 4 → s.outstanding e = false → s.mayTrap → ∃ t x, exec (.deq f) s = .next t ∧ Trapped s t 3 x ∧
        x.extractLsb' 56 8 = (0x21 : BitVec 8) ∧ x.extractLsb' 32 10 = BitVec.ofNat 10 e)) ∧
    (s.goes (.enqMailbox f) f → 4 ≤ e → e < 6 → 8 ≤ mine → exec (.enqMailbox f) s = .next (s.waitFor .stall)) ∧
    (s.goes (.enqMailbox f) f → 4 ≤ e → e < 6 → mine < 8 → ∃ t, exec (.enqMailbox f) s = .next t ∧ t.task = s.task ∧
      t.cores = s.cores ∧ t.mem = s.mem ∧ t.helperAt l which = { h with inbox := h.inbox ++
        [(s.task.id.part, (s.g f.a.toNat).setWidth 32, false, s.task.bolt.work.num)] })

/-! ### Stands and collectives (spec/10_cluster_stands.md) -/

/-- R277, R281: ZSYNC seals, arrives and waits; a barrier whose members have all arrived or ended flips the phase of every cluster
sub-stand within it and lets its members go on; an arrival that waits too long is withdrawn with a sync-class trap, which a
member in its handler takes when it issues its ZSYNC again. -/
def Obligations.Barriers : Prop :=
  (∀ (s : State) (f : Slot), s.goes (.zsync f) f →
    let z := s.task.stand
    let u := s.afterQuiet.sealNow s.task.flow.nextPc
    (z.level = 0 → s.mayTrap → ∃ t x, exec (.zsync f) s = .next t ∧ Trapped s t 6 x ∧ x.extractLsb' 56 8 = (0x11 : BitVec 8)) ∧
    (∀ obj, z.level ≠ 0 → z.late = some obj → s.mayTrap → ∃ t x, exec (.zsync f) s = .next t ∧ Trapped s t 6 x ∧
      x.extractLsb' 56 8 = (0x10 : BitVec 8) ∧ x.extractLsb' 0 48 = BitVec.ofNat 48 obj ∧
      t.task.stand = { z with late := none }) ∧
    (z.level ≠ 0 → z.late = none → z.bst = 2 → exec (.zsync f) s = .next (s.setStand { z with bst := 0 })) ∧
    (z.level ≠ 0 → z.late = none → z.bst = 1 → exec (.zsync f) s = .next (s.waitFor .barrier)) ∧
    (z.level ≠ 0 → z.late = none → z.bst ≠ 1 → z.bst ≠ 2 → s.sealable → ∀ x, u.myStand u.task.stand.act = some x →
      u.task.stand.act ≠ 4 →
      let v := { u with stands := u.stands.map fun (y : Stand) => if y.queue = u.task.id.queue ∧ y.seq = u.task.id.seq ∧
        y.level = u.task.stand.act ∧ y.group = groupOf u.task.stand.act u.task.id.lcore
        then { y with arrived := y.arrived ++ [(x.base + (u.task.id.tile - x.lo), u.dcc, y.count)] } else y }
      exec (.zsync f) s = .next ((v.setStand { u.task.stand with bst := 1 }).waitFor .barrier))) ∧
  (∀ (s : State) (i : Nat) (z : Stand), (s.stands.drop i).find? s.barrierReady = some z →
    (∀ m, m < z.size → (∃ since, (m, since, z.count) ∈ z.arrived) ∨ m ∈ z.ended) ∧
    (z.gauge.isSome = true → z.fired = true) ∧
    ∃ t, exec (.barrierComplete i) s = .next t ∧ t.stands = s.stands.map fun x =>
      let y := if x.level = 1 ∧ x.queue = z.queue ∧ x.seq = z.seq ∧ z.lo ≤ x.lo ∧ x.lo + x.n ≤ z.lo + z.n
        then { x with phase := !x.phase, epoch := (x.epoch + 1) % 128 } else x
      if x = z then { y with count := z.count + 1, arrived := z.arrived.filter (·.2.2 ≠ z.count), fired := false } else y) ∧
  (∀ (s : State) (x : Task), s.taskAt x.ref = some x →
    let t := s.passBarrier x
    let waits := x.flow.wait.any fun w => w.kind == .barrier
    t.task.id = x.id ∧ t.task.stand.bst = (if waits then 0 else 2) ∧ (waits = true → t.task.flow.wait = none) ∧
      (waits = false → t.task.flow = x.flow)) ∧
  (∀ (s : State) (i : Nat), (s.stands.drop i).find? s.barrierReady = none → exec (.barrierComplete i) s = .next s) ∧
  ∀ (s : State) (z : Stand) (m : Nat) (x : Task), s.lateArrival = some (z, m) → s.member z m = some x → s.taskAt x.ref = some x →
    let waits := x.flow.wait.any fun w => w.kind == .barrier
    let obj := z.missing.length % 2 ^ 24 * 2 ^ 24 + z.level
    let withdrawn := s.stands.map fun v => if v = z then { v with arrived := v.arrived.filter (·.1 ≠ m) } else v
    z.level ≤ 4 →
    (waits = true → x.bolt.charged = none → x.bolt.handler = false → ∃ t y, exec .standWatchdog s = .next t ∧
      t.task.id = x.id ∧ t.task.stand = { x.stand with bst := 0 } ∧ t.task.bolt.handler = true ∧ t.task.sys.sclass = 6 ∧
      t.task.sys.synd = y ∧ y.extractLsb' 56 8 = (0x10 : BitVec 8) ∧ y.extractLsb' 0 48 = BitVec.ofNat 48 obj ∧
      t.stands = withdrawn) ∧
    (waits = false → ∃ t, exec .standWatchdog s = .next t ∧ t.stands = withdrawn ∧ t.mem = s.mem ∧
      t.task = { x with stand := { x.stand with bst := 0, late := some obj } })

/-- R283 to R287: ZRED, BOOM and ENQ of engine 3 seal, unless their bolt replays, and contribute to the collective of their number, at
the level that the seal leaves active; or they complete from the record of their latest one; ENQ waits for a pad at rest (R233).
A collective whose members have all issued it or ended ends: each participant gets the same outcome, an error where a member ended
or disagrees, else the result of the tree or its count of records; each step that completes one answers a next state. -/
def Obligations.Collectives : Prop :=
  (∀ (s : State) (f : Slot), s.task.stand.level ≠ 0 → s.buffered = false →
    let z := s.task.stand
    let u := if s.task.flow.redo then s else s.afterQuiet.sealNow s.task.flow.off
    let seals := s.task.flow.redo = true ∨ s.sealable
    let waits := fun (i : Instr) => s.goes i f → (z.result.filter (·.num = z.collNo)) = none → z.bst = 1 →
      exec i s = .next (s.waitFor .collective)
    let contributes := fun (i : Instr) (level kind : Nat) (args : List Nat) (data : List VReg) => s.goes i f →
      (z.result.filter (·.num = z.collNo)) = none → z.bst ≠ 1 → seals → ∀ x, u.myStand level = some x → x.level ≠ 4 →
      ∃ c : Contribution, exec i s = .next
          ((State.setStand { u with colls := u.colls ++ [c] } { u.task.stand with bst := 1 }).waitFor .collective) ∧
        c.queue = x.queue ∧ c.seq = x.seq ∧ c.level = x.level ∧ c.group = x.group ∧ c.num = u.task.stand.collNo ∧
        c.member = x.base + (u.task.id.tile - x.lo) ∧ c.who = some u.task.ref ∧ c.kind = kind ∧ c.args = args ∧ c.data = data ∧
        c.dest = f.d.toNat ∧ c.lat = f.lat.toNat ∧ c.since = u.dcc ∧ c.bad = false ∧ c.tile = u.task.id.tile ∧ c.here = true
    let answered := fun (r : CollResult) (t : State) => t.task.stand = { z with bst := 0, collNo := r.num + 1, result := some r } ∧
      t.task.flow = { s.task.flow with owns := some .collective } ∧ KeepsMemory s t ∧ KeepsOutside s t
    waits (.zred f) ∧ waits (.boom f) ∧
    contributes (.zred f) u.task.stand.act 0 [f.cond, f.t.toNat, effRnd0 s f.rnd, f.sat.toNat] [s.v f.a.toNat] ∧
    contributes (.boom f) 1 1 [f.t.toNat, f.imm.toNat % 8] [] ∧
    (∀ r, s.goes (.zred f) f → z.result = some r → r.num = z.collNo → r.err = none → ∃ t, exec (.zred f) s = .next t ∧
      answered r t ∧ t.finalV f.d.toNat = r.val ∧ KeepsOthers s t .v f.d.toNat) ∧
    (∀ r, s.goes (.boom f) f → z.result = some r → r.num = z.collNo → r.err = none → ∃ t, exec (.boom f) s = .next t ∧
      answered r t ∧ t.finalG f.d.toNat = (if f.d = 0 then 0 else r.count) ∧ KeepsOthers s t .g f.d.toNat) ∧
    (s.goes (.enqReduce f) f → z.result.any (fun r => r.num == z.collNo) = true → exec (.enqReduce f) s = .next
      (((s.setEng { s.task.eng with fifo3 := s.task.eng.fifo3 ++ [⟨(2 : BitVec 4) ++ (0 : BitVec 2) ++ (0x300 : BitVec 10) ++
          (0 : BitVec 16) ++ BitVec.ofNat 32 s.task.flow.off, s.task.bolt.work.num⟩] }).setStand
        { z with collNo := z.collNo + 1 }).setFlow { s.task.flow with owns := some .collective })) ∧
    (∀ c ∈ s.colls, c.who = some s.task.ref → c.num = z.collNo → c.kind = 2 → s.goes (.enqReduce f) f →
      z.result.any (fun r => r.num == z.collNo) = false → exec (.enqReduce f) s = .next
        ((State.setStand { s with colls := s.colls.map fun (c : Contribution) => if c.who = some s.task.ref ∧ c.num = z.collNo
          then { c with bolt := s.task.bolt.work.num } else c } { z with collNo := z.collNo + 1 }).setFlow
            { s.task.flow with owns := some .collective })) ∧
    let fresh := s.goes (.enqReduce f) f ∧ z.result.any (fun r => r.num == z.collNo) = false ∧
      ∀ c ∈ s.colls, ¬(c.who = some s.task.ref ∧ c.num = z.collNo ∧ c.kind = 2)
    (fresh → s.myCore.awake s.dcc = false → exec (.enqReduce f) s = .next (s.waitFor (.pad s.task.id.lcore))) ∧
    ∀ x key, fresh → s.myCore.awake s.dcc = true → seals → u.myStand u.task.stand.act = some x →
      x.level ≠ 4 → u.padRange false (u.g f.a.toNat) 32 32 = some key →
      let d := redDesc (u.mem.readBytes key 32)
      ∃ t c, exec (.enqReduce f) s = .next t ∧ t.colls = u.colls ++ [c] ∧ t.mem = u.mem ∧
        c.kind = 2 ∧ c.num = u.task.stand.collNo ∧ c.who = some u.task.ref ∧ c.bad = (u.redDefect d).isSome ∧
        t.task.stand.collNo = z.collNo + 1 ∧ t.task.flow.owns = some .collective ∧
        (∀ src dst, u.redDefect d = none → u.padRange false d.src d.len 256 = some src →
          u.padRange false d.dst d.len 256 = some dst →
          c.data = chunksAt u.mem src (d.len / 256) ∧ c.dst = dst ∧ t.task.eng.faults = u.task.eng.faults) ∧
        ∀ o, u.redDefect d = some o → t.task.eng.faults = u.task.eng.faults ++
          [⟨3, c.bolt, c.order, 3, syndEngine 0x23 2 0x300 0 o c.cpos.toNat⟩]) ∧
  (∀ (s : State) (i : Nat) (z : Stand), (s.stands.drop i).find? s.collectiveReady = some z →
    let cs := s.contributions z
    let u := { s with colls := s.colls.filter fun c => !c.taken cs }
    let give := fun (v : State) (r : Contribution → CollResult) (data : List VReg) =>
      cs.foldl (fun acc c => acc.giveResult c (r c) data) v
    cs ≠ [] ∧ (∀ m, m < z.size → (∃ c ∈ cs, c.member = m) ∨ m ∈ z.ended) ∧ (∀ c ∈ cs, ∀ c' ∈ cs, c.num = c'.num) ∧
    (∀ m, m < z.size → (∀ c ∈ cs, c.member ≠ m) → ∃ k, k ≤ m ∧ (∀ c ∈ cs, c.member ≠ k) ∧
      exec (.collectiveComplete i) s = .next (give u (fun c => ⟨c.num, 0, 0, some (0x14, k)⟩) [])) ∧
    ((∀ m, m < z.size → ∃ c ∈ cs, c.member = m) →
      (∀ m, disagreeing cs = some m →
        exec (.collectiveComplete i) s = .next (give u (fun c => ⟨c.num, 0, 0, some (0x13, m)⟩) [])) ∧
      ∀ c0 rest, cs = c0 :: rest → disagreeing cs = none →
        (∀ c ∈ cs, c.kind = c0.kind ∧ c.args = c0.args ∧ c.level = c0.level ∧ c.bad = false ∨ cs = [c]) ∧
        (c0.kind ≠ 1 → let data := reduceAll c0.args cs
          exec (.collectiveComplete i) s = .next (give u (fun c => ⟨c.num, data.headD 0, 0, none⟩) data)) ∧
        (c0.kind = 1 → ∃ t, exec (.collectiveComplete i) s = .next t ∧
          let w := typeWidth (BitVec.ofNat 5 (c0.args.getD 0 0))
          ∀ k, u.rebalance (cs.filterMap fun c => c.who.map (·.lcore)).dedup (c0.args.getD 1 0) (w / 8) (2048 / w) = .error k →
            t = give u (fun c => ⟨c.num, 0, 0, some (0x15, k)⟩) []))) ∧
  (∀ (s : State) (i : Nat), (s.stands.drop i).find? s.collectiveReady = none → exec (.collectiveComplete i) s = .next s) ∧
  (∀ (s : State) (c : Contribution) (r : CollResult) (who : TaskRef) (x : Task) (w : Wait) (data : List VReg),
    c.who = some who → s.taskAt who = some x → x.flow.wait = some w → w.kind = .collective → r.err = none →
    let t := s.giveResult c r data
    t.task.id = x.id ∧ (c.kind = 0 → c.dest < 16 * x.id.vgran → t.finalV c.dest = r.val) ∧
      (c.kind = 1 → t.finalG c.dest = if c.dest = 0 then 0 else r.count) ∧
      (c.kind < 2 → t.task.stand.collNo = r.num + 1 ∧ t.task.stand.bst = 0 ∧ t.task.flow.wait = none)) ∧
  (∀ (op : Nat → Nat → Nat) (xs : List Nat), 2 ≤ xs.length →
    let ys := pairUp op xs
    reduceTree op xs.length xs = reduceTree op ys.length ys ∧ ys.length = (xs.length + 1) / 2 ∧
    (∀ j, 2 * j + 1 < xs.length → ys.getD j 0 = op (xs.getD (2 * j) 0) (xs.getD (2 * j + 1) 0)) ∧
    (xs.length % 2 = 1 → ys.getD (xs.length / 2) 0 = xs.getD (xs.length - 1) 0)) ∧
  (∀ (op : Nat → Nat → Nat) (x n : Nat), reduceTree op n [x] = x) ∧
  ∀ (n c : Nat) (r : List (List Byte)), 0 < n → 0 < c → (shares n c r).length = c ∧ (shares n c r).flatten = r ∧
    ∀ j, j + 1 < c → ((shares n c r).getD j []).length % n = 0

/-- R334, R374 to R377: PQUERY reports a plot's entry; LEASE grants what the store can take and starts the lease; a lease ends by LREL,
by its ticks or by the melt limit, and its notice is posted once every rail has reached a point within the limit; the points of
that limit are free (log 24). MELT is updated at the multiples of 2,200,000 ticks. -/
def Obligations.PlotsAndLeases : Prop :=
  (∀ (s : State) (f : Slot), s.goes (.pquery f) f →
    (∀ pa, s.plotAddress (s.g f.a.toNat) = .ok pa → ∃ t, exec (.pquery f) s = .next t ∧ WritesG s t f.d.toNat
      (BitVec.ofNat 32 (pa / 2 ^ 21) ++ BitVec.ofNat 32 (s.plotEntry (pa / 2 ^ 21)))) ∧
    ∀ e, s.plotAddress (s.g f.a.toNat) = .error e → s.mayTrap → ∃ t x, exec (.pquery f) s = .next t ∧ Trapped s t 1 x ∧
      x.extractLsb' 56 8 = BitVec.ofNat 8 e.cause ∧ x.extractLsb' 52 2 = (3 : BitVec 2)) ∧
  (∀ (s : State) (f : Slot), s.goes (.lease f) f →
    let req := (s.g f.a.toNat).toNat
    let lvl := f.imm.toNat % 4
    let own := { s.task.flow with owns := some .lease }
    (req = 0 ∨ 2 ^ 40 ≤ req → s.mayTrap → ∃ t x, exec (.lease f) s = .next t ∧ Trapped s t 7 x ∧
      x.extractLsb' 56 8 = (0x10 : BitVec 8)) ∧
    (req ≠ 0 → req < 2 ^ 40 →
      (∀ g, s.task.lease.grant = some (s.task.lease.num, g) → ∃ t, exec (.lease f) s = .next t ∧ WritesG
        ((s.setLease { s.task.lease with num := s.task.lease.num + 1 }).setFlow own) t f.d.toNat (BitVec.ofNat 64 g)) ∧
      ((∀ g, s.task.lease.grant ≠ some (s.task.lease.num, g)) → s.task.flow.redo = true ∨ s.sealable →
        let u := if s.task.flow.redo then s else s.afterQuiet.sealNow s.task.flow.off
        let l := u.task.lease
        let claims := ((u.tasks.filter fun t => t.id.live && t.lease.lvl != 0 && !t.is u.task.ref).map fun t =>
          (u.remaining t.lease + Config.leaseK t.lease.lvl - 1) / Config.leaseK t.lease.lvl).sum
        let g := if u.pkg.refz ∨ u.pkg.spen = false then 0
          else Nat.min req ((0xF333 - u.pkg.melt.toNat - claims) * Config.leaseK lvl)
        ∃ t, exec (.lease f) s = .next t ∧ WritesG ((u.setLease
          { lvl := if g = 0 then 0 else lvl, granted := if g = 0 ∧ l.lvl = 0 then l.granted else g
            last := if l.lvl = 0 then l.last else 5, since := if g = 0 then (if l.lvl = 0 then l.since else 0) else u.dcc
            num := l.num + 1, grant := some (l.num, g), pend := l.pend }).setFlow { u.task.flow with owns := some .lease })
          t f.d.toNat (BitVec.ofNat 64 g)))) ∧
  (∀ (s : State) (f : Slot), s.goes (.lrel f) f → exec (.lrel f) s = .next (if s.task.lease.lvl = 0 then s else
    s.setLease { s.task.lease with lvl := 0, granted := 0, last := 4, since := 0 })) ∧
  (∀ (s : State) (who : TaskRef) (x : Task), s.taskAt who = some x →
    (x.lease.lvl ≠ 0 → x.lease.granted ≤ s.dcc - x.lease.since → ∃ t, exec (.leaseExpiry who) s = .next t ∧ t.mem = s.mem ∧
      t.taskAt who = some { x with lease := { x.lease with
        lvl := 0, granted := 0, last := 1, since := 0, pend := some (1, x.lease.lvl, s.pkg.melt.toNat, x.lease.granted) } }) ∧
    (x.lease.lvl = 0 ∨ s.dcc - x.lease.since < x.lease.granted → ∃ t, exec (.leaseExpiry who) s = .next t ∧ t.mem = s.mem ∧
      t.taskAt who = some x) ∧
    let within := ∀ k r, s.pkg.rails[k]? = some r → r.opc.toNat ≤ (Config.limitPoint s.sprint k).toNat
    (∀ cause lvl melt ticks, within → x.lease.pend = some (cause, lvl, melt, ticks) →
      ∃ t, exec (.leaseEndNotice who) s = .next t ∧ t.mem = s.mem ∧ t.taskAt who = some { x with
        lease := { x.lease with pend := none }
        flow := { x.flow with notices := x.flow.notices ++ [⟨7, syndPower cause 2 lvl melt ticks⟩] } }) ∧
    (¬within → exec (.leaseEndNotice who) s = .next s)) ∧
  ∀ (s : State) (reading : BitVec 16),
    let refz := decide (0xE667 ≤ reading.toNat) || decide (0x4000 ≤ reading.toNat) && s.pkg.refz
    (s.dcc / 2200000 = s.pkg.melted → exec (.meltUpdate reading) s = .next s) ∧
    (s.dcc / 2200000 ≠ s.pkg.melted → ∃ t, exec (.meltUpdate reading) s = .next t ∧ t.mem = s.mem ∧
      t.pkg = { s.pkg with
        melt := reading, refz, melted := s.dcc / 2200000
        cycles := if s.pkg.refz = true ∧ refz = false then (s.pkg.service + s.dcc) :: s.pkg.cycles else s.pkg.cycles } ∧
      t.tasks = s.tasks.map fun x => if 0xF333 ≤ reading.toNat ∧ x.id.live = true ∧ x.lease.lvl ≠ 0 then { x with
        lease := { x.lease with
          lvl := 0, granted := 0, last := 2, since := 0
          pend := some (2, x.lease.lvl, reading.toNat, Nat.min x.lease.granted (s.dcc - x.lease.since)) } } else x)

/-! ### Helper cores (spec/08_core_movement.md) -/

/-- R264 to R266, R186, R258, R309: each hsk instruction does its step, writes rd and no other register, CSR or byte of memory, and
goes on 4 bytes further; it waits at its own pc for an element, a word, a full granule, room, a pad at rest (R233) or its bolt's steps, and raises exceptions
4, 5, 7, 24 and 26 as the rules say.
R264 to R266, R188, R313: a helper's seal, at once or once its bolt is quiet, releases the held effects in order, resolves its
claims and begins the next bolt, or raises exception 24 with the tag of a failed move that no element reports (log 25); the watchdog
raises exception 25; a detected error replays the bolt from the pc behind its last seal, in the trap handler or out of it as the bolt
began, and after three replays sheds the core. -/
def Obligations.HelperInstructions : Prop :=
  (∀ (s : State) (rd rs1 rs2 : BitVec 5),
     let h := s.hlp
     let x := s.hx rs1.toNat
     let y := s.hx rs2.toNat
     let c := s.core h.lcore
     let mine := s.hMark
     let keeps := fun (t : State) => t.mem = s.mem ∧ t.hlp.lcore = h.lcore ∧ t.hlp.which = h.which ∧ t.hlp.mtvec = h.mtvec ∧
       t.hlp.mscratch = h.mscratch ∧ t.hlp.mie = h.mie ∧ t.hlp.boltpc = h.boltpc ∧ t.hlp.retry = h.retry ∧ t.tasks = s.tasks
     let runs := fun (i : Instr) (v : Option W32) (p : State → Prop) => ∃ t, exec i s = .next t ∧ keeps t ∧ t.hlp.pc = h.pc + 4 ∧
       t.hlp.wait = none ∧ t.hlp.quietAt = s.dcc + 32 ∧ t.hlp.mepc = h.mepc ∧ t.hlp.mcause = h.mcause ∧ t.hlp.mtval = h.mtval ∧
       t.hlp.mstatus = h.mstatus ∧ (∀ n, t.hx n = if n = rd.toNat ∧ n ≠ 0 then v.getD (s.hx n) else s.hx n) ∧ p t
     let waits := fun (i : Instr) (k : HelperWait) => ∃ t since, exec i s = .next t ∧ keeps t ∧ t.hlp.pc = h.pc ∧
       t.hlp.wait = some (k, since) ∧ (h.wait = none → since = s.dcc) ∧ t.hlp.work = h.work ∧ (∀ n, t.hx n = s.hx n) ∧ t.cores = s.cores
     let traps := fun (i : Instr) (cause : Nat) (tval : W32) => ∃ t, exec i s = .next t ∧ keeps t ∧
       t.hlp.pc = h.mtvec &&& 0xFFFFFFFC ∧ t.hlp.mepc = h.pc ∧ t.hlp.mcause = BitVec.ofNat 32 cause ∧ t.hlp.mtval = tval ∧
       t.hlp.inTrap = true ∧ t.hlp.work = h.work ∧ (∀ n, t.hx n = s.hx n) ∧ t.cores = s.cores
     let granule := x.toNat / 16
     let few := fun (i : Instr) (clears : Bool) =>
       (x.toNat % 4 ≠ 0 → traps i 4 x) ∧ (x.toNat % 4 = 0 → 0x200000 < x.toNat + 4 → traps i 5 x) ∧
       let reads := x.toNat % 4 = 0 ∧ x.toNat + 4 ≤ 0x200000
       let awake := s.hAsleep (keyCorePad h.lcore x.toNat) = false
       (reads → ¬awake → waits i (.pad h.lcore)) ∧
       (reads → awake → c.fullFor granule mine = false → waits i (.few x.toNat rd.toNat clears)) ∧
       (reads → awake → c.fullFor granule mine = true →
         runs i (some (BitVec.ofNat 32 (natOfBytes (s.mem.readBytes (keyCorePad h.lcore x.toNat) 4)))) fun t =>
           (t.core h.lcore).isFull granule = true ∧ (t.core h.lcore).claim granule = if clears then mine else c.claim granule)
     let sealed := fun (p : Nat) (z : Nat × W32 × Bool × Nat) => z.1 = p ∧ z.2.2.1 = true
     -- moves
     (∀ k, x.toNat % 64 = 0 → s.hKey x 64 = some k → s.hAsleep k = true → waits (.hskEnq rd rs1 rs2) (.pad h.lcore)) ∧
     (∀ k, x.toNat % 64 = 0 → s.hKey x 64 = some k → s.hAsleep k = false →
       let d := moveDesc (s.mem.readBytes k 64)
       s.hRangeOk d.src d.len = true → s.hRangeOk d.dst d.room = true →
       let charge := if s.hOwnRange d.dst d.room then 0 else d.room
       (65536 < h.holdb + charge → traps (.hskEnq rd rs1 rs2) 26 (BitVec.ofNat 32 charge)) ∧
       (h.holdb + charge ≤ 65536 → 16 ≤ (c.sq.filter fun w => w.who.part = 16 + h.which).length → waits (.hskEnq rd rs1 rs2) .enq) ∧
       (h.holdb + charge ≤ 65536 → (c.sq.filter fun w => w.who.part = 16 + h.which).length < 16 →
         runs (.hskEnq rd rs1 rs2) (some (BitVec.ofNat 32 (h.tags % 65536))) fun t =>
           t.hlp.holdb = h.holdb + charge ∧ t.hlp.tags = h.tags + 1 ∧ ∃ m : SkCmd, (t.core h.lcore).sq = c.sq ++ [m] ∧
             m.who.part = 16 + h.which ∧ m.who.bolt = h.work.num ∧ m.kind = d.kind 0 ∧ m.src = d.src ∧ m.dst = d.dst ∧
             m.len = d.len ∧ m.cls = y.toNat % 4 ∧ m.con = y.getLsbD 8 ∧ m.res = y.getLsbD 9 ∧ m.done = false)) ∧
     (x.toNat % 64 ≠ 0 ∨ s.hKey x 64 = none → traps (.hskEnq rd rs1 rs2) 24 x) ∧
     (∀ k, x.toNat % 64 = 0 → s.hKey x 64 = some k → s.hAsleep k = false →
       let d := moveDesc (s.mem.readBytes k 64)
       s.hRangeOk d.src d.len = false ∨ s.hRangeOk d.dst d.room = false → traps (.hskEnq rd rs1 rs2) 24 x) ∧
     -- elements
     (x = 0 → h.elems = [] → waits (.hskDeq rd rs1) .deq) ∧
     (∀ e rest, x = 0 → h.elems = e :: rest → runs (.hskDeq rd rs1) (some (e.word.setWidth 32)) fun t => t.hlp.elems = rest) ∧
     (x = 1 → runs (.hskDeq rd rs1) (some (BitVec.ofNat 32 h.elems.length)) fun t => t.hlp.elems = h.elems) ∧
     (1 < x.toNat → ∃ v, runs (.hskDeq rd rs1) (some v) fun t => t.hlp.elems = h.elems) ∧
     -- full bits
     few (.hskFew rd rs1) false ∧ few (.hskFewClr rd rs1) true ∧
     (0x200000 ≤ x.toNat → traps (.hskFes rs1 rs2) 7 x) ∧
     (x.toNat < 0x200000 → s.hAsleep (keyCorePad h.lcore x.toNat) = true → waits (.hskFes rs1 rs2) (.pad h.lcore)) ∧
     (x.toNat < 0x200000 → s.hAsleep (keyCorePad h.lcore x.toNat) = false →
       (y.getLsbD 0 = true → s.writeStalls mine (h.lcore, granule) = true → waits (.hskFes rs1 rs2) .store) ∧
       (y.getLsbD 0 = true → s.writeStalls mine (h.lcore, granule) = false → runs (.hskFes rs1 rs2) none fun t =>
         (t.core h.lcore).isFull granule = true ∧ t.cores = (s.setCore (t.core h.lcore)).cores) ∧
       (y.getLsbD 0 = false → runs (.hskFes rs1 rs2) none fun t =>
         (t.core h.lcore).claim granule = if c.fullFor granule mine then mine else c.claim granule)) ∧
     -- mailboxes
     (∀ l1 z l2, x.toNat < 16 → h.inbox = l1 ++ z :: l2 → sealed x.toNat z → (∀ w ∈ l1, ¬sealed x.toNat w) →
       runs (.hskMbr rd rs1) (some z.2.1) fun t => t.hlp.inbox = l1 ++ l2) ∧
     (x.toNat < 16 → (∀ w ∈ h.inbox, ¬sealed x.toNat w) → waits (.hskMbr rd rs1) (.mbr x.toNat)) ∧
     (x = 16 → ∃ v, runs (.hskMbr rd rs1) (some v) (fun t => t.hlp.inbox = h.inbox) ∧
       ∀ k, k < 32 → (v.getLsbD k = true ↔ k < 16 ∧ ∃ w ∈ h.inbox, sealed k w)) ∧
     (16 < x.toNat → ∃ v, runs (.hskMbr rd rs1) (some v) fun t => t.hlp.inbox = h.inbox) ∧
     (16 ≤ x.toNat → runs (.hskMbw rs1 rs2) none fun t => t.hlp.work = h.work) ∧
     (x.toNat < 16 →
       let used := (c.box x.toNat h.which).length + heldMail x.toNat h.work.hold
       (8 ≤ used → waits (.hskMbw rs1 rs2) (.mbw x.toNat)) ∧
       (used < 8 → 65536 < h.holdb + 16 → traps (.hskMbw rs1 rs2) 26 16) ∧
       (used < 8 → h.holdb + 16 ≤ 65536 → runs (.hskMbw rs1 rs2) none fun t =>
         t.hlp.work = { h.work with hold := h.work.hold ++ [.mail x.toNat y] } ∧ t.hlp.holdb = h.holdb + 16)) ∧
     -- the device cycle counter
     runs (.hskDcc rd) (some (BitVec.ofNat 32 s.dcc)) (fun t => t.hlp.latch = BitVec.ofNat 32 (s.dcc / 2 ^ 32)) ∧
     runs (.hskDccHi rd) (some h.latch) (fun t => t.hlp.latch = h.latch) ∧
     -- seals
     (s.hFault = none → ¬(h.quietAt ≤ s.dcc ∧ s.hQuiet = true) → waits .hskSeal .seal)) ∧
  (∀ (s : State),
     let claimed := fun (u : State) (full : Bool) (ks : List Nat) => ∀ k ∈ ks, ∀ l o, corePadOf k = some (l, o) →
       (u.core l).isFull (o / 16) = full ∧ (u.core l).claim (o / 16) = 0
     let sealed := fun (t u : State) => u.hlp.pc = t.hlp.pc + 4 ∧ u.hlp.boltpc = t.hlp.pc + 4 ∧ u.hlp.holdb = 0 ∧ u.hlp.retry = 0 ∧
       u.hlp.wait = none ∧ u.hlp.work.hold = [] ∧ u.hlp.work.claims = [] ∧ u.hlp.work.num = t.hlp.work.num + 1 ∧
       u.mem = (t.hlp.work.hold.foldl (fun acc i => acc.releaseItem t.hReleaser i) t).mem ∧
       claimed u false t.hlp.work.claims ∧ ∀ n, u.hx n = t.hx n
     let fails := fun (t u : State) (x : Nat × Nat) => x ∈ t.hlp.faults ∧ x.1 = t.hlp.work.num ∧ u.mem = t.mem ∧
       u.hlp.pc = t.hlp.mtvec &&& 0xFFFFFFFC ∧ u.hlp.mepc = t.hlp.pc ∧ u.hlp.mcause = 24 ∧ u.hlp.mtval = BitVec.ofNat 32 x.2 ∧
       u.hlp.faults = t.hlp.faults.erase x ∧ u.hlp.work = t.hlp.work ∧ u.hlp.inTrap = true ∧ ∀ n, u.hx n = t.hx n
     (s.hFault = none → s.hlp.quietAt ≤ s.dcc → s.hQuiet = true → ∃ u, exec .hskSeal s = .next u ∧ sealed s u) ∧
     (∀ x, s.hFault = some x → ∃ u, exec .hskSeal s = .next u ∧ fails s u x) ∧
     (∀ t, s.findHelper State.hSealWaits = some t → ∃ u, exec .helperSealRelease s = .next u ∧
       (∃ since, t.hlp.wait = some (.seal, since)) ∧ (∃ h ∈ s.helpers, t = s.selectHelper h.lcore h.which) ∧
       t.hlp.mode = .running ∧ (t.hFault = none → t.hlp.quietAt ≤ t.dcc ∧ sealed t u) ∧ ∀ x, t.hFault = some x → fails t u x) ∧
     (∀ t, s.findHelper State.hLate = some t → ∃ k since n, t.hlp.wait = some (k, since) ∧ k.selector = some n ∧ since + 2 ^ 24 ≤ t.dcc ∧
       ∃ u, exec .helperWatchdog s = .next u ∧ u.hlp.pc = t.hlp.mtvec &&& 0xFFFFFFFC ∧ u.hlp.mepc = t.hlp.pc ∧ u.hlp.mcause = 25 ∧
         u.hlp.mtval = BitVec.ofNat 32 n ∧ u.hlp.wait = none ∧ u.hlp.inTrap = true ∧ u.mem = t.mem ∧ (∀ r, u.hx r = t.hx r) ∧
         (t.hlp.inTrap = true → u.hlp.mode = .stopped ∧ ∃ e ∈ u.events, ∃ body : BitVec 192, e.kind = .record 0 body ∧
           body.extractLsb' 56 8 = (6 : BitVec 8)) ∧ (t.hlp.inTrap = false → u.hlp.mode = t.hlp.mode)) ∧
     (∀ t, s.findHelper (fun t => t.hlp.charged.isSome) = some t →
       let h := t.hlp
       (3 ≤ h.retry → exec .helperBoltReplay s = .next (t.shedCore (t.hostOf h.lcore).1 (t.hostOf h.lcore).2)) ∧
       (h.retry < 3 → ∃ u, exec .helperBoltReplay s = .next u ∧ u.mem = t.mem ∧ u.hlp.pc = h.boltpc ∧ u.hlp.retry = h.retry + 1 ∧
         u.hlp.charged = none ∧ u.hlp.wait = none ∧ u.hlp.holdb = 0 ∧ u.hlp.work.hold = [] ∧ u.hlp.work.num = h.work.num ∧
         u.hlp.inTrap = h.boltTrap ∧ u.hlp.faults = h.faults.filter (·.1 ≠ h.work.num) ∧
         claimed u true h.work.claims ∧ u.hlp.inbox = h.work.mail.map (fun m => (m.1, m.2.1, true, m.2.2)) ++ h.inbox ∧
         (∀ e ∈ u.hlp.elems, e.bolt ≠ h.work.num) ∧
         ∀ c ∈ (u.core h.lcore).sq, ¬(c.who.part = 16 + h.which ∧ c.who.bolt = h.work.num))) ∧
     (s.findHelper State.hSealWaits = none → exec .helperSealRelease s = .next s) ∧
     (s.findHelper State.hLate = none → exec .helperWatchdog s = .next s) ∧
     (s.findHelper (fun t => t.hlp.charged.isSome) = none → exec .helperBoltReplay s = .next s))

/-- R261, R262, R265, R266 (log 6: the meaning of the RISC-V instructions is that of the RISC-V specifications): an instruction of the
helper's base set, of 32 bits or 16, does its step and goes on behind itself; an encoding outside the set raises exception 2. -/
def Obligations.HelperRiscv : Prop :=
  ∀ (s : State) (w x : BitVec 32) (len : Nat),
    let h := s.hlp
    let op := (x.extractLsb' 0 7).toNat
    let f3 := (x.extractLsb' 12 3).toNat
    let f7 := (x.extractLsb' 25 7).toNat
    let rd := (x.extractLsb' 7 5).toNat
    let a := s.hx (x.extractLsb' 15 5).toNat
    let b := s.hx (x.extractLsb' 20 5).toNat
    let immI := (x.extractLsb' 20 12).signExtend 32
    let immS := (x.extractLsb' 25 7 ++ x.extractLsb' 7 5).signExtend 32
    let immB := (x.extractLsb' 31 1 ++ x.extractLsb' 7 1 ++ x.extractLsb' 25 6 ++ x.extractLsb' 8 4 ++ (0 : BitVec 1)).signExtend 32
    let immJ := (x.extractLsb' 31 1 ++ x.extractLsb' 12 8 ++ x.extractLsb' 20 1 ++ x.extractLsb' 21 10 ++ (0 : BitVec 1)).signExtend 32
    let immU := x.extractLsb' 12 20 ++ (0 : BitVec 12)
    let behind := h.pc + BitVec.ofNat 32 len
    let keeps := fun (t : State) => t.hlp.work.num = h.work.num ∧ t.hlp.boltpc = h.boltpc ∧ t.hlp.inbox = h.inbox ∧
      t.hlp.elems = h.elems ∧ t.tasks = s.tasks
    let goes := fun (pc : W32) (v : Option W32) (p : State → Prop) => ∃ t, exec (.helperRiscvInstruction w) s = .next t ∧ keeps t ∧
      t.hlp.pc = pc ∧ t.hlp.wait = none ∧ t.hlp.quietAt = s.dcc + 32 ∧
      (∀ n, t.hx n = if n = rd ∧ n ≠ 0 then v.getD (s.hx n) else s.hx n) ∧ p t
    let still := fun (t : State) => t.mem = s.mem ∧ t.hlp.mepc = h.mepc ∧ t.hlp.mcause = h.mcause ∧ t.hlp.mtval = h.mtval ∧
      t.hlp.mtvec = h.mtvec ∧ t.hlp.mscratch = h.mscratch ∧ t.hlp.mstatus = h.mstatus ∧ t.hlp.work.hold = h.work.hold
    let computes := fun (v : W32) => goes behind (some v) still
    let rests := ∃ t since, exec (.helperRiscvInstruction w) s = .next t ∧ t.hlp.pc = h.pc ∧
      t.hlp.wait = some (.pad h.lcore, since) ∧ t.mem = s.mem
    let traps := fun (cause : Nat) (tval : W32) => ∃ t, exec (.helperRiscvInstruction w) s = .next t ∧ keeps t ∧
      t.hlp.pc = h.mtvec &&& 0xFFFFFFFC ∧ t.hlp.mepc = h.pc ∧ t.hlp.mcause = BitVec.ofNat 32 cause ∧ t.hlp.mtval = tval ∧
      t.hlp.inTrap = true ∧ t.mem = s.mem ∧ ∀ n, t.hx n = s.hx n
    (w.extractLsb' 0 2 ≠ (3 : BitVec 2) → rvExpand w = none → traps 2 w) ∧
    ((w.extractLsb' 0 2 = (3 : BitVec 2) ∧ x = w ∧ len = 4 ∨ w.extractLsb' 0 2 ≠ (3 : BitVec 2) ∧ rvExpand w = some x ∧ len = 2) →
      (op = 0x37 → computes immU) ∧ (op = 0x17 → computes (h.pc + immU)) ∧
      (op = 0x6F → goes (h.pc + immJ) (some behind) still) ∧
      (op = 0x67 → f3 = 0 → goes ((a + immI) &&& 0xFFFFFFFE) (some behind) still) ∧
      (op = 0x63 → ∀ taken, (f3 = 0 ∧ taken = decide (a = b) ∨ f3 = 1 ∧ taken = decide (a ≠ b) ∨ f3 = 4 ∧ taken = a.slt b ∨
          f3 = 5 ∧ taken = !a.slt b ∨ f3 = 6 ∧ taken = a.ult b ∨ f3 = 7 ∧ taken = !a.ult b) →
        goes (if taken then h.pc + immB else behind) none still) ∧
      (op = 0x13 ∨ op = 0x33 →
        let y := if op = 0x13 then immI else b
        let alt := f7 = 0x20
        let plain := op = 0x13 ∨ f7 = 0
        (f3 = 0 → plain → computes (a + y)) ∧ (f3 = 0 → op = 0x33 → alt → computes (a - y)) ∧
        (f3 = 1 → f7 = 0 → computes (a <<< (y.extractLsb' 0 5).toNat)) ∧
        (f3 = 2 → plain → computes (if a.slt y then 1 else 0)) ∧ (f3 = 3 → plain → computes (if a.ult y then 1 else 0)) ∧
        (f3 = 4 → plain → computes (a ^^^ y)) ∧ (f3 = 6 → plain → computes (a ||| y)) ∧ (f3 = 7 → plain → computes (a &&& y)) ∧
        (f3 = 5 → f7 = 0 → computes (a >>> (y.extractLsb' 0 5).toNat)) ∧
        (f3 = 5 → alt → computes (a.sshiftRight (y.extractLsb' 0 5).toNat))) ∧
      (op = 0x33 → f7 = 1 →
        (f3 = 0 → computes (a * b)) ∧ (f3 = 1 → computes ((a.signExtend 64 * b.signExtend 64).extractLsb' 32 32)) ∧
        (f3 = 2 → computes ((a.signExtend 64 * b.setWidth 64).extractLsb' 32 32)) ∧
        (f3 = 3 → computes ((a.setWidth 64 * b.setWidth 64).extractLsb' 32 32)) ∧
        (f3 = 4 → computes (if b = 0 then BitVec.allOnes 32 else a.sdiv b)) ∧
        (f3 = 5 → computes (if b = 0 then BitVec.allOnes 32 else a.udiv b)) ∧
        (f3 = 6 → computes (if b = 0 then a else a.srem b)) ∧ (f3 = 7 → computes (if b = 0 then a else a.umod b))) ∧
      (op = 0x03 → ∀ n signed, (f3 = 0 ∧ n = 1 ∧ signed = true ∨ f3 = 1 ∧ n = 2 ∧ signed = true ∨ f3 = 2 ∧ n = 4 ∧ signed = true ∨
          f3 = 4 ∧ n = 1 ∧ signed = false ∨ f3 = 5 ∧ n = 2 ∧ signed = false) →
        let e := a + immI
        (e.toNat % n ≠ 0 → traps 4 e) ∧ (e.toNat % n = 0 → s.hKey e n = none → traps 5 e) ∧
        (∀ k, e.toNat % n = 0 → s.hKey e n = some k → s.hAsleep k = true → rests) ∧
        ∀ k, e.toNat % n = 0 → s.hKey e n = some k → s.hAsleep k = false →
          let v := BitVec.ofNat (8 * n) (natOfBytes ((List.range n).map fun i => s.hByte (k + i)))
          computes (if signed then v.signExtend 32 else v.setWidth 32)) ∧
      (op = 0x23 → f3 ≤ 2 →
        let n := 2 ^ f3
        let e := a + immS
        (e.toNat % n ≠ 0 → traps 6 e) ∧ (e.toNat % n = 0 → s.hKey e n = none → traps 7 e) ∧
        ∀ k, e.toNat % n = 0 → s.hKey e n = some k →
          let cells := (List.range n).map fun i => (k + i, b.extractLsb' (8 * i) 8)
          ((corePadOf k).isSome = true → s.hAsleep k = true → rests) ∧
          ((corePadOf k).isSome = true → s.hAsleep k = false → (∀ g ∈ granulesOf (cells.map Prod.fst), s.writeStalls s.hMark g = false) →
            goes behind none fun t => t.mem = s.mem.writeCells cells ∧ t.hlp.work.hold = h.work.hold) ∧
          ((corePadOf k).isSome = true → s.hAsleep k = false → (∃ g ∈ granulesOf (cells.map Prod.fst), s.writeStalls s.hMark g = true) →
            ∃ t since, exec (.helperRiscvInstruction w) s = .next t ∧ t.hlp.pc = h.pc ∧ t.hlp.wait = some (.store, since) ∧
              t.mem = s.mem) ∧
          (corePadOf k = none → h.holdb + n ≤ 65536 → goes behind none fun t => t.mem = s.mem ∧
            t.hlp.work.hold = h.work.hold ++ [.store cells] ∧ t.hlp.holdb = h.holdb + n) ∧
          (corePadOf k = none → 65536 < h.holdb + n → traps 26 (BitVec.ofNat 32 n))) ∧
      (op = 0x0F → f3 = 0 → goes behind none still) ∧
      (x = 0x00000073 → traps 11 0) ∧ (x = 0x00100073 → traps 3 0) ∧ (x = 0x10500073 → goes behind none still) ∧
      (x = 0x30200073 → goes h.mepc none fun t => t.hlp.inTrap = false ∧ t.hlp.mstatus.getLsbD 3 = h.mstatus.getLsbD 7 ∧
        t.hlp.mstatus.getLsbD 7 = true ∧ t.mem = s.mem) ∧
      (op = 0x73 → f3 ≠ 0 → f3 ≠ 4 →
        let n := (x.extractLsb' 20 12).toNat
        let z := (x.extractLsb' 15 5).toNat
        let src := if 4 ≤ f3 then BitVec.ofNat 32 z else a
        let writes := f3 % 4 = 1 ∨ z ≠ 0
        (h.csr n = none → traps 2 x) ∧ (∀ old, h.csr n = some old → writes → 0xC00 ≤ n → traps 2 x) ∧
        ∀ old, h.csr n = some old → ¬(writes ∧ 0xC00 ≤ n) →
          let new := if f3 % 4 = 1 then src else if f3 % 4 = 2 then old ||| src else old &&& ~~~src
          goes behind (some old) fun t => t.mem = s.mem ∧ t.hlp.work = h.work ∧
            t.hlp.mscratch = (if writes ∧ n = 0x340 then new else h.mscratch) ∧
            t.hlp.mtvec = (if writes ∧ n = 0x305 then new &&& 0xFFFFFFFD else h.mtvec) ∧
            t.hlp.mepc = (if writes ∧ n = 0x341 then new &&& 0xFFFFFFFE else h.mepc) ∧
            t.hlp.mcause = (if writes ∧ n = 0x342 then new else h.mcause) ∧
            t.hlp.mtval = (if writes ∧ n = 0x343 then new else h.mtval) ∧
            t.hlp.mie = (if writes ∧ n = 0x304 then new &&& 0x888 else h.mie)) ∧
      ((∀ k ∈ [0x37, 0x17, 0x6F, 0x67, 0x63, 0x03, 0x23, 0x13, 0x33, 0x0F, 0x73], op ≠ k) → traps 2 w))

/-! ### Events of tile tasks (spec/06_task_traps_bolts.md) -/

/-- R123, R153, R154, R181, R236, R264: a wait whose condition holds is served and its bundle issues next, a helper's hsk.few taking its
turn among the loads; a wait that its watchdog ends raises the sync-class or engine-class trap of the rule, or a seal's engine fault,
which comes before its watchdog (R170); with nothing to serve, each step changes nothing. -/
def Obligations.WaitsEnd : Prop :=
  (∀ (s u : State),
    let found := fun (test : State → Bool) => s.findTask test = some u
    let running := u.runs u.task.id.lcore = true ∧ u.task.bolt.charged = none ∧ u.task.id.live = true
    let served := fun (i : Instr) => running ∧ ∃ w t, u.task.flow.wait = some w ∧ w.ready = false ∧ exec i s = .next t ∧
      t = { u with task := { u.task with flow := { u.task.flow with wait := some { w with ready := true } } }, turn := .task }
    let traps := fun (i : Instr) (sclass : BitVec 8) (cause : BitVec 8) (p : W64 → Prop) => running ∧
      (u.task.bolt.handler = false → ∃ t x, exec i s = .next t ∧ Trapped u t sclass x ∧ x.extractLsb' 56 8 = cause ∧ p x)
    let object := fun (n : Nat) (x : W64) => x.extractLsb' 0 48 = BitVec.ofNat 48 n
    (found State.streamServed → served .streamWaitServed ∧ ∃ i pop n, (u.task.flow.wait.map (·.kind)) = some (.stream i pop n) ∧
      (if pop then n ≤ (u.streamAvailable i).length else n ≤ u.streamFree i)) ∧
    (found State.deqServed → served .deqWaitServed ∧ ∃ e, ((u.task.flow.wait.map (·.kind)) = some (.deq e) ∧
      (u.elements e ≠ [] ∨ (u.task.eng.oldestFault [e]).isSome = true ∨ u.outstanding e = false) ∨
      (u.task.flow.wait.map (·.kind)) = some (.mailbox e) ∧ u.elements e ≠ [])) ∧
    (s.firstServed State.loadServed = some u →
      (∀ v, s.firstHelper = some v → u.task.flow.wait.elim 0 (·.since) ≤ v.hlp.wait.elim 0 (·.2)) →
      served .loadWaitServed ∧ ∃ as, (u.task.flow.wait.map (·.kind)) = some (.fullEmpty as) ∧ ∀ a ∈ as, u.fullAt a = true) ∧
    (s.firstHelper = some u →
      (∀ v, s.firstServed State.loadServed = some v → u.hlp.wait.elim 0 (·.2) < v.task.flow.wait.elim 0 (·.since)) →
      ∃ a rd clear since t, u.hlp.wait = some (.few a rd clear, since) ∧ u.hlp.mode = .running ∧
        (u.core u.hlp.lcore).fullFor (a / 16) u.hMark = true ∧ exec .loadWaitServed s = .next t ∧ t.mem = u.mem ∧
        t.hlp.pc = u.hlp.pc + 4 ∧ t.hlp.wait = none ∧
        (∀ n, t.hx n = if n = rd ∧ n ≠ 0
          then BitVec.ofNat 32 (natOfBytes (u.mem.readBytes (keyCorePad u.hlp.lcore a) 4)) else u.hx n) ∧
        (t.core u.hlp.lcore).claim (a / 16) = if clear then u.hMark else (u.core u.hlp.lcore).claim (a / 16)) ∧
    (∀ w next, s.findTask State.ownDone = none → found State.sealDue → u.task.flow.wait = some w → w.kind = .seal next →
      (u.sealFault.isSome = true → served .sealComplete) ∧
      (u.sealFault = none → running ∧ u.sealReady = true ∧ ∃ t, exec .sealComplete s = .next t ∧ t.task.bolt.boltpc = next ∧
        t.task.bolt.retry = 0 ∧ t.task.bolt.work.hold = [] ∧ t.task.bolt.work.claims = [] ∧ t.turn = .task ∧
        (t.task.flow.wait.any fun v => v.ready && v.kind == .seal next) = true ∧ t.task.regs = u.task.regs ∧
        t.mem = (u.sealNow next).mem)) ∧
    (found State.ownDone → ∃ t, exec .sealComplete s = .next t ∧ t.task.bolt = { u.task.bolt with own := none } ∧
      t.task.lease = { u.task.lease with grant := none } ∧ t.task.regs = u.task.regs ∧ t.mem = u.mem ∧
      (u.task.stand.bst ≠ 2 → t.task.stand.result = none) ∧ KeepsOutside u t) ∧
    (found State.sealLate → u.boltFault = none → traps .sealWatchdog 6 0x03 (object 0)) ∧
    (∀ x, found State.sealLate → u.boltFault = some x → running ∧ (u.task.bolt.handler = false →
      ∃ t, exec .sealWatchdog s = .next t ∧ Trapped u t x.sclass x.synd ∧ x ∈ u.task.eng.faults ∧
        t.task.eng = { u.task.eng with faults := u.task.eng.faults.erase x })) ∧
    (∀ w as a, found State.loadLate → u.task.flow.wait = some w → w.kind = .fullEmpty as → a ∈ as → u.fullAt a = false →
      (∀ b ∈ as, u.fullAt b = false → a.toNat ≤ b.toNat) →
      w.since + 2 ^ 24 ≤ u.dcc ∧ traps .fullEmptyWatchdog 6 0x01 (object a.toNat)) ∧
    (∀ w i pop n, found State.streamLate → u.task.flow.wait = some w → w.kind = .stream i pop n →
      w.since + 2 ^ 24 ≤ u.dcc ∧ traps .streamWatchdog 6 0x02 (object i)) ∧
    ∀ w e, found State.mailboxLate → u.task.flow.wait = some w → w.kind = .mailbox e →
      w.since + 2 ^ 24 ≤ u.dcc ∧ traps .mailboxWatchdog 3 0x25 fun x => x.extractLsb' 44 10 = (0x301 : BitVec 10) ∧
        x.extractLsb' 32 10 = BitVec.ofNat 10 e) ∧
  ∀ (s : State),
    (s.findTask State.streamServed = none → exec .streamWaitServed s = .next s) ∧
    (s.findTask State.deqServed = none → exec .deqWaitServed s = .next s) ∧
    (s.firstServed State.loadServed = none → s.firstHelper = none → exec .loadWaitServed s = .next s) ∧
    (s.findTask State.ownDone = none → s.findTask State.sealDue = none → exec .sealComplete s = .next s) ∧
    (s.findTask State.sealLate = none → exec .sealWatchdog s = .next s) ∧
    (s.findTask State.loadLate = none → exec .fullEmptyWatchdog s = .next s) ∧
    (s.findTask State.streamLate = none → exec .streamWatchdog s = .next s) ∧
    (s.findTask State.mailboxLate = none → exec .mailboxWatchdog s = .next s)

/-- R165, R166, R169, R170, R310, R35, R380: a trap enters the handler or ends a task that is in it; a notice is taken at a boundary,
the lowest class first; a task's END completes, and a budget that runs out ends it as faulted; brumation stops the rail clocks. -/
def Obligations.TasksAreInterrupted : Prop :=
  ∀ (s : State),
    (∀ r, s.task.id.live = true → s.task.bolt.charged = none → ∃ t, exec (.trapEntry r) s = .next t ∧ t.mem = s.mem ∧
      (s.task.bolt.handler = true → t.task.id.live = false) ∧
      (s.task.bolt.handler = false → t.task.bolt.handler = true ∧ t.task.flow.pc = s.task.sys.tvec.toNat ∧
        t.task.sys = { s.task.sys with synd := r.synd, sclass := r.sclass, epc := r.epc } ∧ t.task.bolt.work.hold = [] ∧
        t.task.bolt.outer = some s.task.bolt.work ∧ KeepsRegisters s t ∧ KeepsOutside s t)) ∧
    (∀ r, s.task.id.live = false → exec (.trapEntry r) s = .next s) ∧
    (∀ u, s.findTask State.noticeReady = some u → u.task.bolt.handler = false ∧ u.runs u.task.id.lcore = true ∧
      u.task.bolt.charged = none ∧ ∃ n ∈ u.task.flow.notices, (∀ m ∈ u.task.flow.notices, n.sclass.toNat ≤ m.sclass.toNat) ∧
        ∃ t, exec .asyncNoticeTaken s = .next t ∧ t.task.bolt.handler = true ∧ t.task.flow.pc = u.task.sys.tvec.toNat ∧
          t.task.flow.notices = u.task.flow.notices.erase n ∧ t.task.flow.wait = none ∧
          (let epc := offWord (u.task.flow.rep.elim u.task.flow.pc (·.off))
           t.task.sys = { u.task.sys with synd := n.synd, sclass := n.sclass, epc }) ∧
          KeepsRegisters u t ∧ KeepsMemory u t ∧ KeepsOutside u t) ∧
    (s.findTask State.noticeReady = none → exec .asyncNoticeTaken s = .next s) ∧
    (∀ u, s.findTask State.endDue = some u → u.sealable →
      let v := u.afterQuiet.sealNow u.task.flow.off
      v.commandsDone = true → v.task.eng.oldestFault [0, 1, 2, 3] = none →
      ∃ t, exec .taskEndComplete s = .next t ∧ t.task.id.live = false ∧ t.mem = v.mem) ∧
    (s.findTask State.endDue = none → exec .taskEndComplete s = .next s) ∧
    (∀ u, s.findTask State.overBudget = some u → u.task.id.budget ≠ 0 ∧ u.task.id.started + 4096 * u.task.id.budget ≤ u.dcc ∧
      ∃ t, exec .tickBudgetExpiry s = .next t ∧ t.task.id.live = false ∧ t.task.sys = u.task.sys ∧ t.mem = u.mem ∧
        (∀ c ∈ (t.core u.task.id.lcore).sq, c.who.part ≠ u.task.id.part) ∧
        ∀ n, u.nodeAt u.task.id.queue u.task.id.seq = some n → ∃ m, t.nodeAt u.task.id.queue u.task.id.seq = some m ∧
          m.failed = true ∧ (n.fault = none → m.fault = some ⟨u.dcc, u.task.id.tile, 0, 0x20, 0⟩)) ∧
    (s.findTask State.overBudget = none → exec .tickBudgetExpiry s = .next s) ∧
    exec .brumationEntry s = .next { s with tap := { s.tap with pin := false, stopped := true, ts := BitVec.ofNat 64 s.dcc } }

/-- R187 to R190, R237, R252: a detected error is charged to the bolt it concerns, the current one or the one that the handler has
interrupted, and cancels the bolt's commands; the bolt replays from its first bundle with what it held discarded and its claims full
again; past RLIM a memory error becomes a hardware-error trap; a chain repeats its descriptor, and the fourth error, or one under an
overlap, fails it with CODE 5. Which partition number stands for which of these is the model's choice (log 20). -/
def Obligations.ErrorsReplayBolts : Prop :=
  (∀ (s : State) (who : TaskRef) (src : ErrSource) (addr : BitVec 48) (pa : Nat) (x : Task), who.part < 16 →
    s.taskAt who = some x → x.entering s.dcc = false → x.bolt.work.num < 2 ^ 32 → x.bolt.charged = none →
    ∃ t, exec (.errorDetected who src addr pa) s = .next t ∧ t.mem = s.mem ∧
      (t.taskAt who).map (·.bolt.charged) = some (some ⟨src, addr, pa⟩) ∧
      (∀ c ∈ (t.core who.lcore).sq, ¬(c.who.part = who.part ∧ c.who.bolt = x.bolt.work.num)) ∧
      (∀ c ∈ (t.core who.lcore).mq, ¬(c.who.part = who.part ∧ c.who.bolt = x.bolt.work.num)) ∧
      (∀ c ∈ (t.core who.lcore).run, ¬(c.cmd.who.part = who.part ∧ c.cmd.who.bolt = x.bolt.work.num))) ∧
  (∀ (s : State) (who : TaskRef) (src : ErrSource) (addr : BitVec 48) (pa : Nat) (x : Task) (w : BoltWork),
    34 ≤ who.part → who.part < 50 →
    let ref : TaskRef := ⟨who.lcore, who.part - 34⟩
    s.taskAt ref = some x → x.bolt.outer = some w → x.entering s.dcc = false → w.num < 2 ^ 32 → w.num ≠ x.bolt.work.num →
    x.bolt.outCharged = none →
    ∃ t, exec (.errorDetected who src addr pa) s = .next t ∧ t.mem = s.mem ∧
      (t.taskAt ref).map (·.bolt.outCharged) = some (some ⟨src, addr, pa⟩) ∧
      (∀ c ∈ (t.core who.lcore).sq, ¬(c.who.part = ref.part ∧ c.who.bolt = w.num)) ∧
      (∀ c ∈ (t.core who.lcore).mq, ¬(c.who.part = ref.part ∧ c.who.bolt = w.num))) ∧
  (∀ (s : State) (who : TaskRef) (addr : BitVec 48) (pa : Nat) (x : SkCmd), 18 ≤ who.part → who.part < 34 →
    let d := who.lcore / 96
    let ch := who.part - 18
    let c := s.chain d ch
    ch < (s.die d).chains.length → c.state = 1 → c.cmd = some x →
    let again := c.tries < 3 ∧ s.chainOverlaps c x = false
    (again → ∃ t, exec (.errorDetected who .core addr pa) s = .next t ∧ t.mem = s.mem ∧
      t.chain d ch = { c with
        tries := c.tries + 1, reps := Nat.min (c.reps + 1) 65535, out := 0
        cmd := some { x with pos := 0, done := false, since := s.dcc } }) ∧
    (¬again → c.pend = none → ∃ t, exec (.errorDetected who .core addr pa) s = .next t ∧
      (t.chain d ch).state = 2 ∧ (t.chain d ch).code = 5 ∧ (t.chain d ch).cur = c.cur ∧ (t.chain d ch).cmd = none)) ∧
  ∀ (s : State),
    (s.findTask (fun t => t.task.bolt.charged.isSome) = none → exec .boltReplay s = .next s) ∧
    ∀ u c, s.findTask (fun t => t.task.bolt.charged.isSome) = some u → u.task.bolt.charged = some c →
      let b := u.task.bolt
      let pc := match b.own with
        | some o => o.off
        | none => if u.waitsFor (· == .barrier) then u.task.flow.pc else b.boltpc
      (b.retry < u.task.sys.rlim.toNat → ∃ t, exec .boltReplay s = .next t ∧ t.task.flow.pc = pc ∧ t.task.bolt.boltpc = pc ∧
        t.task.flow.wait = none ∧ t.task.flow.rep = none ∧ t.task.bolt.retry = b.retry + 1 ∧ t.task.bolt.replays = b.replays + 1 ∧
        t.task.bolt.charged = none ∧ t.task.bolt.work.hold = [] ∧ t.task.bolt.work.claims = [] ∧ t.task.bolt.work.num = b.work.num ∧
        t.task.regs.wins = [] ∧ KeepsRegisters u t ∧ t.task.sys = u.task.sys ∧ t.task.id = u.task.id ∧ t.mem = u.mem ∧
        (∀ k ∈ b.work.claims, ∀ l o, corePadOf k = some (l, o) →
          (t.core l).isFull (o / 16) = true ∧ (t.core l).claim (o / 16) = 0) ∧
        ∀ w ∈ (t.core u.task.id.lcore).sq, ¬(w.who.part = u.task.id.part ∧ w.who.bolt = b.work.num)) ∧
      (u.task.sys.rlim.toNat ≤ b.retry → c.src = .memory → b.handler = false → 2 ^ 38 ≤ c.pa → ∃ t, exec .boltReplay s = .next t ∧
        t.task.bolt.handler = true ∧ t.task.flow.pc = u.task.sys.tvec.toNat ∧ t.task.sys.sclass = 4 ∧
        t.task.sys.epc = offWord pc ∧ t.task.sys.synd.extractLsb' 56 8 = (1 : BitVec 8) ∧
        t.task.sys.synd.extractLsb' 52 4 = (2 : BitVec 4) ∧ t.task.sys.synd.extractLsb' 0 48 = c.addr ∧ t.mem = u.mem ∧
        KeepsRegisters u t) ∧
      (u.task.sys.rlim.toNat ≤ b.retry → c.src = .core → exec .boltReplay s = .next
        (let v := u.replayNow
         v.shedCore (v.hostOf v.task.id.lcore).1 (v.hostOf v.task.id.lcore).2))

/-! ### Scheduling (spec/12_die_scheduling.md, spec/10_cluster_stands.md) -/

/-- R14, R21, R34, R302, R306 to R308: the first candidate that can starts, its task beginning at the prologue with the packet's
argument in g1 and every other register 0; a stand's members start at once, when the candidate has its turn on every core of the
stand (R275); a candidate that has waited too long blocks the others; the scheduler asks for a
pre-emption where a candidate lacks resources; each of these changes nothing where it does not apply. -/
def Obligations.TasksStart : Prop :=
  ∀ (s : State) (l : Nat),
    (∀ t, s.startOn l = some t → exec (.taskStart l) s = .next t ∧ ∃ n ∈ s.candidates l, s.startCandidate l n = some t) ∧
    (s.startOn l = none → exec (.taskStart l) s = .next s) ∧
    (∀ n t, s.startCandidate l n = some t → (∀ i ∈ n.startCores l, i ≠ l → s.hasTurn n i = true) ∧
      (packetStand n.packet = 0 → s.startTile l n.queue n.seq = some t) ∧
      (packetStand n.packet ≠ 0 → s.restarting n = false ∧
        s.startTiles n.queue n.seq ((n.startCores l).flatMap fun i => List.replicate (n.sliceSize i) i) = some t)) ∧
    (∀ n i, s.hasTurn n i = true → ∃ l1 m l2, s.candidates i = l1 ++ m :: l2 ∧ m.ageKey = n.ageKey ∧
      ∀ x ∈ l1, x.ageKey ≠ n.ageKey ∧ s.tryStart i x = none) ∧
    (∀ q seq t, s.startTile l q seq = some t → ∃ n k part, s.nodeAt q seq = some n ∧ s.kernelAt n.kernel = some k ∧ part < 16 ∧
      (∀ x ∈ s.tasks, x.is ⟨l, part⟩ = false) ∧ k.gran ≤ (s.core l).freeGran ∧ s.unbound l k.abind k.nbind = true ∧
      s.hosted l = true ∧ s.pkg.state ≠ 2 ∧
      (let i := t.task.id
       i.live = true ∧ i.lcore = l ∧ i.part = part ∧ i.queue = n.queue ∧ i.seq = n.seq ∧ i.func = n.func ∧ i.kernel = k.handle ∧
       i.tile = sliceStart n.tiles l + counter n.started l ∧ i.vgran = k.gran ∧ i.detlvl = n.detlvl ∧ i.started = s.dcc ∧
       t.task.flow.pc = k.entry (packetField n.packet 0x08 31 0) ∧ t.task.flow.stage = 0 ∧ t.task.flow.wait = none ∧
       t.task.bolt.boltpc = t.task.flow.pc ∧ t.task.bolt.work.hold = [] ∧ t.task.stand.level = packetStand n.packet ∧
       t.finalG 1 = BitVec.ofNat 64 (packetField n.packet 0x50 63 0) ∧ (∀ j, j ≠ 1 → t.finalG j = 0) ∧
       (∀ j, 0 < j → t.finalP j = false ∧ t.finalM j = 0) ∧ (∀ j, t.finalV j = 0)) ∧
      (t.core l).freeGran = (s.core l).freeGran - k.gran ∧
      (t.nodeAt q seq).map (fun m => counter m.started l) = some (counter n.started l + 1) ∧
      (s.task.id.live = true → s.task ∈ t.parked)) ∧
    (∀ n, s.agedOn l = some n → n ∈ s.nodes ∧ n.candidate l = true ∧ 4 * s.age < s.waited n ∧ ∃ t,
      exec (.candidateAgingBlock l) s = .next t ∧ t.tasks = s.tasks ∧ t.mem = s.mem ∧ t.nodes = s.nodes ∧
      ∀ m ∈ t.candidates l, m.candidate l = true ∧ m.ageKey = n.ageKey) ∧
    (s.agedOn l = none → exec (.candidateAgingBlock l) s = .next s) ∧
    (∀ r x, s.preemptOn l = some r → s.taskAt r = some x →
      (∃ y ∈ s.tasks, y.ref = r ∧ y.id.live = true ∧ y.id.lcore = l ∧ y.stand.level = 0) ∧
      (∀ y ∈ s.tasks, y.id.live = true → y.id.lcore = l → y.flow.preempt = false) ∧
      (∃ m ∈ s.candidates l, s.age ≤ s.waited m ∧ s.lacks l m = true) ∧ ∃ t, exec (.preemptionRequest l) s = .next t ∧
      t.taskAt r = some { x with flow := { x.flow with preempt := true, safe := false } } ∧ t.mem = s.mem ∧ t.cores = s.cores) ∧
    (s.preemptOn l = none → exec (.preemptionRequest l) s = .next s)

/-- R195 to R197, R295: a pre-empted task seals, gives up its core and is saved with its block in the die pad's context region; a saved
task resumes where it was, with its registers; the switch of a shared host makes the next logical core resident for a slice. -/
def Obligations.TasksLeaveAndReturn : Prop :=
  (∀ (s u : State), s.findTask State.preemptReady = some u → u.task.flow.preempt = true ∧ u.task.flow.safe = true ∧
    u.task.bolt.handler = false ∧ u.sealReady = true ∧ ∃ t v x d, exec .preemption s = .next t ∧ t.task.id.live = false ∧
    t.saved = u.saved ++ [x] ∧ x.task = { v.task with id := { v.task.id with started := u.dcc - u.task.id.started } } ∧
    v.task.flow.pc = u.task.flow.pc ∧ v.task.flow.wait = u.task.flow.wait ∧ v.task.bolt.work.hold = [] ∧ v.task.regs.wins = [] ∧
    KeepsRegisters u.giveUp v ∧ v.task.sys = u.task.sys ∧ v.task.lease.lvl = 0 ∧ d = u.padDie u.task.id.lcore ∧
    (∀ i b, v.contextBlock[i]? = some b → t.mem.read (keyDiePad d (0x8000000 + x.off) + i) = b) ∧
    (t.core u.task.id.lcore).freeGran = (v.core u.task.id.lcore).freeGran + u.task.id.vgran) ∧
  (∀ (s : State), s.findTask State.preemptReady = none → exec .preemption s = .next s) ∧
  (∀ (s t : State) (i : Nat) (x : SavedTask), s.saved[i]? = some x → s.resumeTask x = some t →
    exec (.taskResume i) s = .next t ∧ t.task.id.live = true ∧ t.task.id.tile = x.task.id.tile ∧ t.task.id.vgran = x.task.id.vgran ∧
    t.task.flow = x.task.flow ∧ t.task.regs = x.task.regs ∧ t.task.sys = x.task.sys ∧ t.task.eng = x.task.eng ∧
    t.task.stand = x.task.stand ∧ t.task.id.started = s.dcc - x.task.id.started ∧ t.task.bolt.boltpc = x.task.flow.pc ∧ t.task.bolt.retry = 0 ∧ t.task.bolt.holdb = 0 ∧
    t.saved = s.saved.erase x ∧ x.task.id.vgran ≤ (s.core x.task.id.lcore).freeGran ∧
    (t.core x.task.id.lcore).freeGran = (s.core x.task.id.lcore).freeGran - x.task.id.vgran) ∧
  (∀ (s : State) (i : Nat), s.saved[i]?.bind s.resumeTask = none → exec (.taskResume i) s = .next s) ∧
  ∀ (s : State) (c k : Nat),
    (s.switchDue c k = none → exec (.timeShareSwitch c k) s = .next s) ∧
    ∀ l n, s.switchDue c k = some (l, n) → k < (s.cluster c).resident.length → k < (s.cluster c).sliceEnd.length →
      2 ≤ (s.hostedBy c k).length ∧ n ∈ s.hostedBy c k ∧ (s.core l).run = [] ∧ (s.core l).mq = [] ∧ (s.core l).sq = [] ∧
      (s.cluster c).sliceEnd.getD k 0 ≤ s.dcc ∧
      ∃ t, exec (.timeShareSwitch c k) s = .next t ∧ t.mem = s.mem ∧ (t.cluster c).resident.getD k 0 = n ∧
        (t.cluster c).sliceEnd.getD k 0 = s.dcc + 4194304 ∧
        ∀ who x, s.taskAt who = some x → ∃ y, t.taskAt who = some y ∧ y.flow.pc = x.flow.pc ∧ y.sys = x.sys ∧ y.bolt = x.bolt ∧
          (∀ j, y.regs.close.storedG j = x.regs.close.storedG j) ∧ ∀ j, y.regs.close.storedV j = x.regs.close.storedV j

/-- R36, R190, R292 to R294: shedding gives the logical core of a physical core to the cluster's spare core; a restarted task begins at
its prologue again with the identity of its start, and takes the allotment of its start when the pool has it (R17; that it waits for
it is the model's choice, log 44). -/
def Obligations.CoresAreShed : Prop :=
  (∀ (s : State) (c k : Nat), s.hostedBy c k = [] → exec (.shedding c k) s = .next s) ∧
  (∀ (s : State) (c k j : Nat), s.pkg.state ≠ 1 → s.hostedBy c k = [12 * c + j] → j < 12 → c < 16 → (s.cluster c).shed < 4 →
    (s.cluster c).spare < 15 → ∃ t, exec (.shedding c k) s = .next t ∧ t.hostOf (12 * c + j) = (c, (s.cluster c).spare) ∧
      (t.cluster c).spare = 15 ∧ (t.cluster c).shed = (s.cluster c).shed + 1 ∧ t.pkg.shtot = Nat.min (s.pkg.shtot + 1) 255 ∧
      ∀ i, i < 12 → i ≠ j → t.hostOf (12 * c + i) = s.hostOf (12 * c + i)) ∧
  (∀ (s : State),
    let c := s.myCore
    let n := s.task.id.vstart
    (n ≤ c.freeGran → s.regain.task.id = { s.task.id with vgran := n } ∧ s.regain.task.flow.wait = none ∧
      s.regain.myCore = { c with freeGran := c.freeGran - n } ∧ s.regain.task.regs = s.task.regs) ∧
    (c.freeGran < n → s.regain = s)) ∧
  ∀ (s : State),
    let t := s.restartTask
    let i := s.task.id
    t.task.id = { i with live := true, vgran := 0, started := s.dcc } ∧ t.task.flow.pc = i.pe ∧
    t.task.flow.stage = 0 ∧ (∃ w, t.task.flow.wait = some w ∧ w.kind = .allotment) ∧ t.finalG 1 = i.arg ∧ (∀ n, n ≠ 1 → t.finalG n = 0) ∧
    t.task.bolt.handler = false ∧ t.task.bolt.work.hold = [] ∧ t.task.bolt.replays = s.task.bolt.replays ∧
    t.task.bolt.degr.getLsbD 5 = true ∧ t.mem = s.mem ∧
    (t.core i.lcore).freeGran = (s.core i.lcore).freeGran + i.vgran + s.task.flow.freed

/-! ### The die's steps (spec/12_die_scheduling.md, spec/13_die_memory.md, spec/10_cluster_stands.md) -/

/-- R301, R310, R314, R317, R319, R320: a decision tick applies the events of the earliest tick that has come, in their order and as of
that tick (log 3), cancels the unstarted tiles of nodes whose faulted end it applied, and then settles the queues; what each simple
event changes; an event ring that has enough records raises its interrupt, which is sent, or pending while its vector is masked (R394;
the MSI-X layout is presumed, log 6). Both steps answer a next state of every state. -/
def Obligations.DecisionTicks : Prop :=
  (∀ (s : State), s.decisionTick = none → exec .decisionTickApply s = .next s) ∧
  (∀ (s : State) (k : Nat), s.decisionTick = some k → ∃ t, exec .decisionTickApply s = .next t ∧ t.dcc = s.dcc ∧
    k ≤ s.dcc ∧ (∃ e ∈ s.events, e.tick = k) ∧ (∀ e ∈ s.events, k ≤ e.tick) ∧
    ∃ (now : List PkgEvent) (fuel : Nat), now.Perm (s.events.filter (·.tick = k)) ∧ now.Pairwise (fun a b => eventBefore a b = true) ∧
      let u := now.foldl State.applyEvent { s with dcc := k, events := s.events.filter (·.tick ≠ k) }
      t = { u.cancelFailed.settleQueues fuel with dcc := s.dcc }) ∧
  (∀ (a b : PkgEvent), eventBefore a b = true ↔ eventRank a.kind < eventRank b.kind ∨ eventRank a.kind = eventRank b.kind ∧
    (a.queue < b.queue ∨ a.queue = b.queue ∧ a.seq ≤ b.seq)) ∧
  (∀ (s : State) (e : PkgEvent) (q : Nat),
    let t := s.applyEvent e
    let x := s.queue q
    (e.kind = .thaw q → t = s.setQueue q { x with frozen := false }) ∧
    (e.kind = .trigger q → t = s.setQueue q { x with trig := Nat.min (x.trig + 1) 65535 }) ∧
    (∀ head, e.kind = .doorbell q head → t = s.setQueue q { x with seen := head }) ∧
    (∀ on, e.kind = .enable q on → t = s.setQueue q { x with on := x.qcfg.getLsbD 27 }) ∧
    (∀ p det fn, e.kind = .launch q p det fn → s.appendable q = true → ∃ p', p'.length = p.length ∧
      (∀ i, i ≠ 0x22 → p'.getD i 0 = p.getD i 0) ∧ (p.length = 128 → packetDet p ≤ 3 → det ≤ 3 → packetDet p' = Nat.max (packetDet p) det) ∧
      t = s.setQueue q { x with backlog := x.backlog ++ [⟨(x.qtail.toNat + x.backlog.length) % 2 ^ 32, p', none, false, false⟩] }) ∧
    (∀ seq n, e.kind = .faultedEnd q seq → s.nodeAt q seq = some n → n.frozen = false →
      (t.queue q).frozen = true ∧ (t.nodeAt q seq).map (·.frozen) = some true ∧ t.tasks = s.tasks) ∧
    (∀ seq k second, e.kind = .decide q seq k second → (s.specs.find? fun y => y.of q seq && y.k == k) = none → t = s)) ∧
  ∀ (s : State) (fn : Nat),
    let r := s.fn fn
    let cfg := r.ring.2.1
    let due := cfg.getLsbD 5 = true ∧ r.since ≠ 0 ∧ (Nat.max 1 (cfg.extractLsb' 16 16).toNat ≤ r.since ∨
      (cfg.extractLsb' 32 32 ≠ (0 : BitVec 32) ∧ ∃ k, r.first = some k ∧ k + (cfg.extractLsb' 32 32).toNat ≤ s.dcc))
    (¬due → exec (.eventRingInterrupt fn) s = .next s) ∧
    let masked := r.msixMask = true ∨ (r.msix.getD 1 0).getLsbD 32 = true
    (due → ∃ t, exec (.eventRingInterrupt fn) s = .next t ∧ (t.fn fn).since = 0 ∧ (t.fn fn).first = none ∧ t.mem = s.mem ∧
      t.tasks = s.tasks ∧
      (t.fn fn).msixPend = (if r.msixOn = true ∧ masked then r.msixPend ||| 1 else r.msixPend) ∧
      t.outputs = if r.msixOn = true ∧ ¬masked then s.outputs ++ [.msix fn 0] else s.outputs)

/-- R330, R331, R333, R337, R338, R350, R356: walks, invalidations, plot changes and transfers, scrubbing and budgets: a walk that succeeds
leaves its translation, an invalidation removes those in its scope once no access that used them is on its way, a plot, and the plots
that a change of ADPLOT sets aside or gives back (R327, R367), take their new state once they have drained, a corrected line is counted
for its channel, an uncorrectable one makes its plot bad, and a new interval clears the budgets. -/
def Obligations.ControllerSteps : Prop :=
  ∀ (s : State),
    (∀ (c fn : Nat) (va : BitVec 48) (wr : Bool),
      let a := va.toNat
      let hit := ∃ x ∈ s.tlb, x.cluster = c ∧ x.fn = fn ∧ x.va ≤ a ∧ a < x.va + x.size
      (hit → exec (.translationWalk c fn va wr) s = .next s) ∧
      (∀ r, ¬hit → s.walk fn a wr = .error r → exec (.translationWalk c fn va wr) s = .next s) ∧
      ∀ x, ¬hit → s.walk fn a wr = .ok x → ∃ t, exec (.translationWalk c fn va wr) s = .next t ∧
        t.tlb.getLast? = some ⟨c, fn, a - a % x.size, x.size, x.pa, x.wr⟩ ∧ t.mem = s.mem ∧ t.tasks = s.tasks ∧
        ((s.tlb.filter fun e => e.cluster = c).length < 4096 → ∀ e ∈ s.tlb, e ∈ t.tlb)) ∧
    (s.dev.tinv = none → exec .tinvComplete s = .next s) ∧
    (∀ w, s.dev.tinv = some w →
      let fn := (w.extractLsb' 58 4).toNat
      let va := 65536 * (w.extractLsb' 16 32).toNat
      let scope := (w.extractLsb' 62 2).toNat
      (s.tinvReady w = false → exec .tinvComplete s = .next s) ∧
      (s.tinvReady w = true → ∃ t, exec .tinvComplete s = .next t ∧ t.dev.tinv = none ∧ t.mem = s.mem ∧ t.tasks = s.tasks ∧ ∀ x, x ∈ t.tlb ↔ x ∈ s.tlb ∧
        (scope = 0 → ¬(x.fn = fn ∧ x.va ≤ va ∧ va < x.va + x.size)) ∧ (scope = 1 → x.fn ≠ fn) ∧ scope ≤ 1)) ∧
    (∀ u plot next w, s.findTask (fun t => t.transfers plot && t.sealDue) = some u → u.task.flow.wait = some w →
      w.kind = .seal next → u.sealFault = none →
      (∃ st ow, HoldItem.pxfer plot st ow ∈ u.task.bolt.work.hold) ∧ ∃ t, exec (.pxferRelease plot) s = .next t ∧
        t.task.bolt.boltpc = next ∧ t.task.bolt.work.hold = [] ∧ t.task.regs = u.task.regs ∧ t.mem = (u.sealNow next).mem ∧
        ∀ st ow, st < 8 → ow < 256 → u.task.bolt.work.hold = [.pxfer plot st ow] → u.buffered = false →
          u.releasedCount u.task.releaser ≤ u.task.bolt.relNo → u.plotState plot = 1 → u.plotOwner plot = u.task.id.lcore →
          t.plotState plot = st ∧ t.plotOwner plot = ow) ∧
    (∀ plot, s.findTask (fun t => t.transfers plot && t.sealDue) = none → exec (.pxferRelease plot) s = .next s) ∧
    (s.plotDrained = false → s.runDrained = false → exec .plsetComplete s = .next s) ∧
    (s.dev.plreq = none → s.plotDrained = false) ∧ (s.dev.adreq = none → s.runDrained = false) ∧
    (∀ v, s.plotDrained = false → s.dev.adreq = some v → (∀ i, i < 1024 → s.drainedByAll (s.adRun v + i) = true) →
      let on := v.getLsbD 31
      let kept := s.pkg.state ≠ 0 ∨ ∃ l, l < 192 ∧ s.timeShared l = true
      let base := if on then (v.extractLsb' 0 18).toNat else (s.pkg.adplot.extractLsb' 0 18).toNat
      ∃ t, exec .plsetComplete s = .next t ∧ t.dev.adreq = none ∧ t.tasks = s.tasks ∧
        (on = false → kept → t = { s with dev := { s.dev with adreq := none, rej := true } }) ∧
        (on = true ∨ ¬kept → t.pkg = { s.pkg with adplot := v } ∧
          ∀ p, t.plotState p = if base ≤ p ∧ p < base + 1024 then (if on then 5 else 0) else s.plotState p)) ∧
    (∀ w, s.dev.plreq = some w →
      let plot := (w.extractLsb' 32 18).toNat
      (s.drainedByAll plot = true → ∃ t, exec .plsetComplete s = .next t ∧ t.dev.plreq = none ∧ t.tasks = s.tasks ∧
        t.plotState plot = (w.extractLsb' 0 3).toNat ∧ t.plotOwner plot = (w.extractLsb' 8 8).toNat ∧
        ∀ p, p ≠ plot → t.plotEntry p = s.plotEntry p)) ∧
    (∀ line r, r = .clean ∨ r = .uncorrectable ∧ 2 ^ 30 ≤ line → exec (.memoryScrub line r) s = .next s) ∧
    (∀ line, ∃ t, exec (.memoryScrub line .corrected) s = .next t ∧ t.mem = s.mem ∧ t.tasks = s.tasks ∧
      ∀ k, sget (fun _ => (0 : Nat)) t.pkg.corrected k = sget (fun _ => (0 : Nat)) s.pkg.corrected k +
        if k = 32 * (line / 8192 % 2) + line % 32 then 1 else 0) ∧
    (∀ line, line < 2 ^ 30 → ∃ t, exec (.memoryScrub line .uncorrectable) s = .next t ∧
      t.plotState (line / 8192) = 4 ∧ t.dev.plbad = Nat.min (s.dev.plbad + 1) (2 ^ 32 - 1) ∧
      t.dev.pllast = BitVec.ofNat 18 (line / 8192) ∧ t.tasks = s.tasks ∧
      ∀ a, a / 2 ^ 21 ≠ line / 8192 → a / 8 ≠ line / 8192 → t.mem.read a = s.mem.read a) ∧
    ∃ t, exec .budgetInterval s = .next t ∧ t.dev.interval = s.dcc / 2200 ∧ (∀ c, (t.cluster c).used = 0) ∧ t.mem = s.mem ∧
      t.tasks = s.tasks

/-- R291, R320, R347 to R349: a gauge that has counted TOTAL bytes fires once: FIRED is set, a one-shot is disarmed and a re-armed one goes
on counting, and its action frees a stand, triggers a queue or posts a record. -/
def Obligations.GaugesFire : Prop :=
  ∀ (s : State) (r : GaugeRef),
    let i := if r.ctl then Instr.controllerGaugeFire r.home r.index else .padGaugeFire r.home r.index
    let x := s.gauge r
    let count := (x.extractLsb' 208 40).toNat
    let total := (x.extractLsb' 168 40).toNat
    let target := (x.extractLsb' 128 32).toNat
    let action := (x.extractLsb' 0 3).toNat
    let posts := fun (t : State) (p : EventKind → Prop) => ∃ e ∈ t.events, e.tick = s.dcc + 512 ∧ p e.kind
    (¬(x.getLsbD 6 = true ∧ total ≤ count) → exec i s = .next s) ∧
    (x.getLsbD 6 = true → total ≤ count → ∃ t, exec i s = .next t ∧ t.tasks = s.tasks ∧
      (let y := t.gauge r
       y.getLsbD 7 = true ∧ y.getLsbD 6 = x.getLsbD 3 ∧ y.extractLsb' 0 6 = x.extractLsb' 0 6 ∧
       y.extractLsb' 8 200 = x.extractLsb' 8 200 ∧
       (y.extractLsb' 208 40).toNat = if x.getLsbD 3 then count - total else count) ∧
      (r.ctl = false ∨ x.getLsbD 3 = true → t.mem = s.mem) ∧
      (action = 1 → ∀ z ∈ s.stands, z.gauge = some r.gid → ∃ w ∈ t.stands, w.fired = true ∧ w.queue = z.queue ∧ w.seq = z.seq ∧
        w.level = z.level ∧ w.group = z.group ∧ w.gauge = if x.getLsbD 3 then z.gauge else none) ∧
      (action = 2 → posts t fun k => k = .trigger (target % 64)) ∧
      (action = 3 → posts t fun k => ∃ body : BitVec 192, k = .record 0 body ∧ body.extractLsb' 56 8 = (7 : BitVec 8) ∧
        body.extractLsb' 0 56 = BitVec.ofNat 56 r.gid ∧ body.extractLsb' 64 64 = BitVec.ofNat 64 target ∧
        body.extractLsb' 128 64 = BitVec.ofNat 64 count))

/-! ### The package (spec/15_package.md, spec/17_fabric.md) -/

/-- R187, R363, R365, R403, R420: lane groups count failing flits and splice worn lanes until no spare is left; a splice ends with its
retrain window; a failed die or a lost shore is recorded and leads to adoption or device fault.
R370 to R373, R381, R382, R386: every 1,100 ticks a rail takes its reading and its cap, within the limit of the sprint level, and moves
one point at a time towards its target; every 2^35 ticks a growth ring takes its metric and the life left, and the weakest source is
reported; the bank's measure is kept. The eighth failure of one flit in a row is charged to bolts whose traffic it carried: which, and
the points within the limit, are free (log 14, log 24). -/
def Obligations.LinksRailsAndFailures : Prop :=
  (∀ (s : State),
     let present := fun (k : LinkRef) => match k with
       | .group g => g < s.pkg.groups.length
       | .port p => p < s.ports.length
     let follows := fun (t : State) (k : EventKind) => ∃ e ∈ t.events, e.tick = s.dcc + 512 ∧ e.kind = k
     (∀ g lane ok, present (.group g) →
       let x := s.laneGroup (.group g)
       (x.state ≠ 0 → exec (.dieLinkFlitReceive g lane ok) s = .next s) ∧
       (x.state = 0 → ok = true → exec (.dieLinkFlitReceive g lane ok) s = .next (s.setLaneGroup (.group g) { x with same := 0 })) ∧
       (x.state = 0 → ok = false → ∃ y : LaneGroup, y.crcf = x.crcf + 1 ∧ y.same = x.same + 1 ∧ y.spare = x.spare ∧ y.state = 0 ∧
         (lane, s.dcc) ∈ y.fails ∧ (∀ f ∈ x.fails, s.dcc < f.2 + 2 ^ 24 → f ∈ y.fails) ∧
         let t := s.setLaneGroup (.group g) y
         exec (.dieLinkFlitReceive g lane ok) s = .next (if x.same = 7 then t.chargeTraffic s.linkUsers else t))) ∧
     (∀ k, present k →
       let x := s.laneGroup k
       let due := x.state = 0 ∧ ((∃ f ∈ x.fails, 16 ≤ (x.fails.filter fun h => h.1 = f.1 ∧ s.dcc < h.2 + 2 ^ 24).length) ∨
         s.dev.bootstage < match k with | .group _ => 3 | .port _ => 5)
       (¬due → exec (.laneSplice k) s = .next s) ∧
       (due → ∃ t, exec (.laneSplice k) s = .next t ∧ t.mem = s.mem ∧ t.tasks = s.tasks ∧
         (let y := t.laneGroup k
          (0 < x.spare → y.spare + 1 = x.spare ∧ y.state = 1 ∧ y.retrained = s.dcc + 26400 ∧
            y.splc = if x.splc = BitVec.allOnes 16 then x.splc else x.splc + 1) ∧
          (x.spare = 0 → y.state = 2 ∧ y.splc = x.splc)) ∧
         (s.linkLost = false → t.linkLost = true → follows t (.deviceFault 5) ∧ t.pkg.cause = 5)) ∧
       (¬(x.state = 1 ∧ x.retrained ≤ s.dcc) → exec (.spliceRetrainEnd k) s = .next s) ∧
       (x.state = 1 → x.retrained ≤ s.dcc → ∃ t, exec (.spliceRetrainEnd k) s = .next t ∧ (t.laneGroup k).state = 0 ∧
         (t.laneGroup k).spare = x.spare ∧ t.mem = s.mem ∧ t.tasks = s.tasks)) ∧
     (∀ d cause, d < 2 →
       (s.dieFailed d = true → exec (.dieComputeFailure d cause) s = .next s) ∧
       (s.dieFailed d = false → ∃ t, exec (.dieComputeFailure d cause) s = .next t ∧ t.dieFailed d = true ∧
         t.dieFailed (1 - d) = s.dieFailed (1 - d) ∧ t.pkg.cause = cause.toNat ∧ t.mem = s.mem ∧ t.tasks = s.tasks ∧
         if s.pkg.failed = 0 ∧ s.pkg.shore = 0 ∧ s.pkg.adplot.getLsbD 31 = true then follows t (.adopt d cause.toNat s.pkg.fcl)
         else follows t (.deviceFault cause.toNat))) ∧
     ∀ d, d < 2 →
       (s.pkg.shore.getLsbD d = true → exec (.shoreLoss d) s = .next s) ∧
       (s.pkg.shore.getLsbD d = false → ∃ t, exec (.shoreLoss d) s = .next t ∧ t.pkg.shore.getLsbD d = true ∧ t.pkg.cause = 4 ∧
         t.tasks = s.tasks ∧ follows t (.deviceFault 4) ∧ ∀ p, p < 131072 → p % 2 = d → t.plotState p = 4)) ∧
  (∀ (s : State),
     (∀ r amps cap, r < s.pkg.rails.length →
       let x := s.rail r
       let limit := Config.limitPoint s.sprint r
       (s.dcc / 1100 = x.sampled → exec (.railCurrentSample r amps cap) s = .next s) ∧
       (s.dcc / 1100 ≠ x.sampled → ∃ t, exec (.railCurrentSample r amps cap) s = .next t ∧ t.mem = s.mem ∧
         t.rail r = { x with cur := amps, cap := if cap.toNat ≤ limit.toNat then cap else limit, sampled := s.dcc / 1100 } ∧
         (∀ k, k ≠ r → t.rail k = s.rail k) ∧ (t.pkg.capped = true → ∀ u ∈ t.tasks, u.id.live = true → u.bolt.degr.getLsbD 2 = true))) ∧
     (∀ r, r < s.pkg.rails.length →
       let x := s.rail r
       let target := if x.req.toNat ≤ x.cap.toNat then x.req else x.cap
       let steps := fun (y : Rail) => exec (.railRampStep r) s = .next (if r = 0 ∧ x.drive ≠ y.drive
         then (s.setRail r y).rerateAll else s.setRail r y)
       (x.ramp = true → steps { x with opc := x.next, ramp := false }) ∧
       (x.ramp = false → s.dcc / 1100 = x.checked → exec (.railRampStep r) s = .next s) ∧
       (x.ramp = false → s.dcc / 1100 ≠ x.checked → x.opc = target → steps { x with checked := s.dcc / 1100 }) ∧
       (x.ramp = false → s.dcc / 1100 ≠ x.checked → x.opc.toNat < target.toNat →
         steps { x with checked := s.dcc / 1100, ramp := true, next := x.opc + 1 }) ∧
       (x.ramp = false → s.dcc / 1100 ≠ x.checked → target.toNat < x.opc.toNat →
         steps { x with checked := s.dcc / 1100, ramp := true, next := x.opc - 1 })) ∧
     (∀ r (metric rate : Int),
       let slot := s.dcc / 2 ^ 35
       let word := fun (n : Int) => BitVec.ofNat 24 (Nat.min n.toNat (2 ^ 24 - 1))
       let done : Int := s.pkg.cycles.length
       let recent : Int := (s.pkg.cycles.filter fun k => s.pkg.service + s.dcc < k + 792 * 10 ^ 12).length
       (slot = (s.growth r).slot → exec (.growthRingUpdate r metric rate) s = .next s) ∧
       (slot ≠ (s.growth r).slot → ∃ t, exec (.growthRingUpdate r metric rate) s = .next t ∧
         t.growth r = (if r = .heat then ⟨word done, lifeOf r done recent 10, slot⟩ else ⟨word metric, lifeOf r metric rate 1, slot⟩) ∧
         (∀ k, k ≠ r → t.growth k = s.growth k) ∧ t.mem = s.mem ∧ t.tasks = s.tasks ∧
         t.outputs = s.outputs ++ [.health t.weakest])) ∧
     (∀ k ∈ growthRegs, (s.growth s.weakest).life.toNat ≤ (s.growth k).life.toNat) ∧
     (∀ r (metric growth : Int) (hours : Nat), (∀ k, r ≠ .link k) → 0 < growth → metric < growthLimit r →
       (growthLimit r - metric) * hours / growth < 2 ^ 24 →
       (lifeOf r metric growth hours).toNat = ((growthLimit r - metric) * hours / growth).toNat) ∧
     (∀ r (metric growth : Int) (hours : Nat), (∀ k, r ≠ .link k) → growth ≤ 0 → metric < growthLimit r →
       lifeOf r metric growth hours = BitVec.allOnes 24) ∧
     (∀ ok, exec (.bankMeasure ok) s = .next (if s.dcc / 2 ^ 35 ≠ s.pkg.banked ∨ s.dev.bootstage < 6
       then s.setPkg { s.pkg with bank := ok, banked := s.dcc / 2 ^ 35 } else s)) ∧
     (s.pkg.dying = true ∧ s.pkg.bank = false ∧ s.pkg.ckstate = 1 →
       exec .bankRunsOut s = .next (s.setPkg { s.pkg with powered := false })) ∧
     (¬(s.pkg.dying = true ∧ s.pkg.bank = false ∧ s.pkg.ckstate = 1) → exec .bankRunsOut s = .next s))

/-- R368, R369, R377, R385, R386, R420 (log 21: what a reset keeps is the model's choice): a loss of input power stops the clocks, revokes
the leases and starts the checkpoint; a checkpoint ends with its image valid or as an error; a power-on, a boot stage and a device
reset. -/
def Obligations.CheckpointsAndResets : Prop :=
  ∀ (s : State),
    (∃ t, exec .inputPowerLoss s = .next t ∧ t.pkg.dying = true ∧ t.tap.stopped = true ∧ t.mem = s.mem ∧
      (s.tap.stopped = false → t.tap.ts = BitVec.ofNat 64 s.dcc) ∧
      (∀ who x, s.taskAt who = some x → x.id.live = true → (t.taskAt who).map (·.lease.lvl) = some 0) ∧
      (s.pkg.ckstate = 1 → t.pkg.ckstate = 1 ∧ t.pkg.powered = s.pkg.powered) ∧
      (s.pkg.ckstate ≠ 1 → s.pkg.plck = true → t.pkg.ckstate = 1 ∧ t.pkg.powered = s.pkg.powered ∧
        t.pkg.ckslot = (if s.pkg.valid.getLsbD s.pkg.newest then 1 - s.pkg.newest else s.pkg.newest)) ∧
      (s.pkg.ckstate ≠ 1 → s.pkg.plck = false → t.pkg.powered = false)) ∧
    (∀ ok, ∃ t, exec (.checkpointEnd ok) s = .next t ∧
      let down := if s.pkg.dying then false else s.pkg.powered
      let slot := s.pkg.ckslot
      let holds := ok = true ∨ s.pkg.dying = true ∧ s.pkg.bank = true
      (s.pkg.ckstate ≠ 1 → s.pkg.ckstate ≠ 2 → t = s) ∧
      (s.pkg.ckstate = 1 → holds → slot < 4 → t.pkg.ckstate = 0 ∧ t.pkg.newest = slot ∧ t.pkg.valid.getLsbD slot = true ∧
        t.pkg.powered = down ∧ (∀ a, a < 2 ^ 38 → t.mem.read a = s.mem.read a) ∧
        ∀ a, Inv s → a < 2 ^ 38 → s.plotState (a / 2 ^ 21) ∈ [1, 2, 5] → t.mem.read (keySafe slot a) = s.mem.read a) ∧
      (s.pkg.ckstate = 1 → ¬holds → t.pkg.ckstate = 3 ∧ t.pkg.valid = s.pkg.valid ∧ t.mem = s.mem ∧ t.pkg.powered = down) ∧
      (s.pkg.ckstate = 2 → ok = false → t.pkg.ckstate = 3 ∧ t.mem = s.mem ∧ t.pkg.powered = down) ∧
      (s.pkg.ckstate = 2 → ok = true → t.pkg.ckstate = 0 ∧ t.pkg.powered = down ∧ (s.pkg.shore = 0 → Inv s →
        (∀ p, (s.pkg.newest, p) ∈ s.pkg.saved → ∀ a, a / 2 ^ 21 = p → 0 < p → p < 131072 →
          t.mem.read a = s.mem.read (keySafe s.pkg.newest a)) ∧
        (∀ a, 8 ≤ a → a < 8 * 131072 → s.plotState (a / 8) ≠ 4 → t.mem.read a = s.mem.read (keySafe s.pkg.newest a)) ∧
        ∀ p, 0 < p → p < 131072 → s.plotState p = 4 → (s.pkg.newest, p) ∉ s.pkg.saved → t.plotState p = 4))) ∧
    (∃ t, exec .powerOnReset s = .next t ∧ t.tasks = State.reset.tasks ∧ t.nodes = State.reset.nodes ∧ t.queues = State.reset.queues ∧
      t.dev = State.reset.dev ∧ t.dcc = State.reset.dcc ∧ t.pkg.powered = State.reset.pkg.powered ∧ t.pkg.valid = s.pkg.valid ∧
      t.keys = s.keys ∧ (∀ r, t.growth r = growthReset) ∧ ∀ slot a, slot < 4 → a < 2 ^ 38 → t.mem.read (keySafe slot a) = s.mem.read (keySafe slot a)) ∧
    (∀ ok, (s.dev.booterr ≠ 0 ∨ 6 ≤ s.dev.bootstage → exec (.bootStage ok) s = .next s) ∧
      (s.dev.booterr = 0 → s.dev.bootstage < 6 → ∃ t, exec (.bootStage ok) s = .next t ∧ t.tasks = s.tasks ∧
        t.dev.bootstage = (if ok then s.dev.bootstage + 1 else s.dev.bootstage) ∧
        t.dev.booterr = (if ok then 0 else s.dev.bootstage + 1))) ∧
    ∃ t, exec .deviceReset s = .next t ∧ t.tasks = State.reset.tasks ∧ t.nodes = State.reset.nodes ∧ t.queues = State.reset.queues ∧
      t.fns = State.reset.fns ∧ t.mem = s.mem ∧ t.dcc = s.dcc ∧ t.pkg.state = 0 ∧ t.pkg.failed = 0 ∧ t.pkg.shore = 0 ∧
      t.pkg.cause = 0 ∧ t.pkg.groups = s.pkg.groups ∧ t.dev.bootstage = s.dev.bootstage ∧
      (∀ c, (t.cluster c).map = (s.cluster c).map ∧ (t.cluster c).shed = (s.cluster c).shed)

/-! ### The host fabric (spec/17_fabric.md) -/

/-- R391 to R396, R401 to R404, R177: flits that arrive in sequence are taken and those that fail are counted; unacknowledged flits go out
again; the host reads and writes common plots through its window, an access that is refused being reported in FSTAT; notices reach
the running or saved task they name. -/
def Obligations.HostAndPorts : Prop :=
  ∀ (s : State),
    let keeps := fun (t : State) => t.mem = s.mem ∧ t.tasks = s.tasks
    let flags := fun (i : Instr) (fn : Nat) (k : BitVec 5) => ∃ t, exec i s = .next t ∧ keeps t ∧
      (t.fn fn).fstat = (s.fn fn).fstat ||| k
    (∀ k flit, k < s.ports.length →
      let p := s.port k
      (p.lanes.state ≠ 0 → exec (.portFlitReceive k flit) s = .next s) ∧
      (p.lanes.state = 0 → flitFields flit = none → ∃ x : LaneGroup, x.crcf = p.lanes.crcf + 1 ∧ x.same = p.lanes.same + 1 ∧
        x.spare = p.lanes.spare ∧ x.state = 0 ∧
        let t := s.setPort k { p with lanes := x }
        exec (.portFlitReceive k flit) s = .next (if p.lanes.same = 7 then t.chargeTraffic s.portUsers else t)) ∧
      ∀ f, p.lanes.state = 0 → flitFields flit = some f → ∃ y : PortState, y.lanes = { p.lanes with same := 0 } ∧
        y.stop0 = f.stop0 ∧ y.stop1 = f.stop1 ∧
        (let room := (p.buffer f.vc).length < Config.portBuffer
         let fits := f.type ≠ 0 ∧ f.seq = p.rxSeq ∧ room
         y.rxSeq = (if fits then (p.rxSeq + 1) % 65536 else p.rxSeq) ∧
         y.buffer f.vc = if fits ∧ f.type ≠ 4 then p.buffer f.vc ++ [f.payload] else p.buffer f.vc) ∧
        exec (.portFlitReceive k flit) s = .next (((s.setPort k y).takeMessages k f.vc (Config.portBuffer + 1)).portResume k)) ∧
    (∀ (p : PortState) l1 x l2 now, p.sent = l1 ++ x :: l2 → (∀ y ∈ l1, y.1 ≠ x.1) → (p.acknowledge x.1 now).sent = l2) ∧
    (∀ k, k < s.ports.length →
      let p := s.port k
      let late := p.sent ≠ [] ∧ p.lanes.state = 0 ∧ p.since + 4096 ≤ s.dcc
      (¬late → exec (.flitResendTimeout k) s = .next s) ∧
      (late → ∃ t, exec (.flitResendTimeout k) s = .next t ∧ keeps t ∧ t.port k = { p with since := s.dcc } ∧
        t.outputs = s.outputs ++ p.sent.map fun x => .portFlit k (p.flit x.1 x.2.2.1 x.2.2.2))) ∧
    (∀ fn o n,
      (∀ pas, s.hostAddresses fn (BitVec.toNat o) n false = some pas → pas.length = n ∧
        (∀ pa ∈ pas, s.plotState (pa / 2 ^ 21) = 2) ∧
        exec (.hostBar2Read fn o n) s = .next { s with outputs := s.outputs ++ [.readData fn (pas.map s.mem.read)] }) ∧
      (s.hostAddresses fn (BitVec.toNat o) n false = none → flags (.hostBar2Read fn o n) fn 2)) ∧
    (∀ fn o bytes,
      (∀ pas, s.hostAddresses fn (BitVec.toNat o) bytes.length true = some pas → ∃ t, exec (.hostBar2Write fn o bytes) s = .next t ∧
        t.mem = s.mem.writeCells (pas.zip bytes) ∧ t.tasks = s.tasks) ∧
      (s.hostAddresses fn (BitVec.toNat o) bytes.length true = none → flags (.hostBar2Write fn o bytes) fn 1)) ∧
    (∀ who pa bytes, 2 ^ 38 ≤ pa → pa + bytes.length ≤ 2 ^ 39 → ∃ t,
      exec (.hostApertureCompletion who pa (.data bytes)) s = .next t ∧ t.tasks = s.tasks ∧
      (∀ i b, bytes[i]? = some b → t.mem.read (pa + i) = b) ∧ ∀ a, a < pa ∨ pa + bytes.length ≤ a → t.mem.read a = s.mem.read a) ∧
    (∀ who pa, ∀ r ∈ [HostReply.unsupported, .aborted, .poisoned],
      exec (.hostApertureCompletion who pa r) s = exec (.errorDetected who .memory 0 pa) s) ∧
    (∀ fn, flags (.badRegisterAccess fn) fn 4) ∧
    (∀ q slot tile payload (x : Task), (s.tasks.find? (·.named q slot tile)) = some x → s.taskAt x.ref = some x →
      (x.noticed = true → flags (.managementNotice q slot tile payload) (s.queue q).func 16) ∧
      (x.noticed = false → ∃ t n, exec (.managementNotice q slot tile payload) s = .next t ∧ t.mem = s.mem ∧
        t.taskAt x.ref = some (x.addNotice n) ∧ n.sclass = 9 ∧ n.synd.extractLsb' 56 8 = (2 : BitVec 8) ∧
        n.synd.extractLsb' 0 32 = payload)) ∧
    (∀ q slot tile payload, (∀ x ∈ s.tasks, x.named q slot tile = false) → (∀ x ∈ s.saved, x.task.named q slot tile = false) →
      flags (.managementNotice q slot tile payload) (s.queue q).func 8) ∧
    ∀ fn v, fn < 16 →
      let w := (s.fn fn).ntgt
      let q := (w.extractLsb' 58 6).toNat
      let named := fun (x : Task) => x.named q (w.extractLsb' 44 14).toNat (w.extractLsb' 0 32).toNat
      ((s.queue q).func ≠ fn → flags (.npayWrite fn v) fn 8) ∧
      ((s.queue q).func = fn → (∀ x ∈ s.tasks, named x = false) → (∀ x ∈ s.saved, named x.task = false) →
        flags (.npayWrite fn v) fn 8) ∧
      ((s.queue q).func = fn → ∀ x, s.tasks.find? named = some x → s.taskAt x.ref = some x →
        (x.noticed = true → flags (.npayWrite fn v) fn 16) ∧
        (x.noticed = false → ∃ t n, exec (.npayWrite fn v) s = .next t ∧ t.mem = s.mem ∧ t.taskAt x.ref = some (x.addNotice n) ∧
          n.sclass = 9 ∧ n.synd.extractLsb' 56 8 = (1 : BitVec 8) ∧ n.synd.extractLsb' 48 4 = BitVec.ofNat 4 fn ∧
          n.synd.extractLsb' 0 32 = BitVec.extractLsb' 0 32 v))

/-- R299, R300, R310, R314, R320, R399: writes of the queue, ring, gauge and helper registers: what is readable at once, which package
event follows on its decision tick, and which writes are ignored or refused. -/
def Obligations.QueueAndRingRegisters : Prop :=
  ∀ (s : State) (fn q : Nat) (v : BitVec 64),
    let x := s.queue q
    let sees := fn = 0 ∨ x.func = fn
    let event := fun (t : State) (n : Nat) (k : EventKind) => { t with events := t.events ++ [⟨s.dcc + 512, n, 0, k⟩] }
    let head : BitVec 32 := v.extractLsb' 0 32
    let full := 2 ^ x.lsize < (head - x.qtail).toNat
    let remote := s.standQueue q = true ∧ s.position.1 ≠ 0
    (¬sees → exec (.qheadWrite fn q v) s = .next s ∧ exec (.qcfgEnSet fn q v) s = .next s ∧ exec (.qstatThaw fn q) s = .next s) ∧
    (sees → x.qcfg.getLsbD 28 = true → exec (.qheadWrite fn q v) s = .next s) ∧
    (sees → x.qcfg.getLsbD 28 = false → remote ∨ full →
      exec (.qheadWrite fn q v) s = .next (s.setQueue q { x with badhd := true })) ∧
    (sees → x.qcfg.getLsbD 28 = false → ¬(remote ∨ full) →
      exec (.qheadWrite fn q v) s = .next (event (s.setQueue q { x with qhead := head }) q (.doorbell q head))) ∧
    (sees → x.qcfg.getLsbD 27 = true → exec (.qcfgEnSet fn q v) s = .next s) ∧
    (sees → x.qcfg.getLsbD 27 = false → ∃ cfg : BitVec 64, cfg.getLsbD 27 = true ∧ cfg.extractLsb' 0 19 = x.qcfg.extractLsb' 0 19 ∧
      cfg.extractLsb' 40 24 = x.qcfg.extractLsb' 40 24 ∧ cfg.extractLsb' 19 4 = v.extractLsb' 19 4 ∧
      cfg.extractLsb' 32 8 = v.extractLsb' 32 8 ∧
      (cfg.extractLsb' 23 4 = if fn = 0 then v.extractLsb' 23 4 else x.qcfg.extractLsb' 23 4) ∧
      (cfg.getLsbD 28 = if fn = 0 then v.getLsbD 28 else x.qcfg.getLsbD 28) ∧
      exec (.qcfgEnSet fn q v) s = .next (if 4 ≤ (v.extractLsb' 19 4).toNat ∧ (v.extractLsb' 19 4).toNat ≤ 14
        then event (s.setQueue q { x with qcfg := cfg }) q (.enable q cfg) else s)) ∧
    (sees → exec (.qstatThaw fn q) s = .next (event s q (.thaw q))) ∧
    exec (.errdWrite fn v) s = .next (event (s.setFn fn { s.fn fn with errd := head }) 0 (.ringRegs fn 0 (v &&& 0xFFFFFFFF))) ∧
    (let w := v &&& 0x0000FFFFFFFFFFE0
     exec (.erbaseWrite fn v) s = .next (event (s.setFn fn { s.fn fn with erbase := w }) 0 (.ringRegs fn 1 w))) ∧
    (let w := v &&& 0xFFFFFFFFFFFF003F
     let lsize := (v.extractLsb' 0 5).toNat
     exec (.ercfgWrite fn v) s = .next (if 6 ≤ lsize ∧ lsize ≤ 20 then event (s.setFn fn { s.fn fn with ercfg := w }) 0
       (.ringRegs fn 2 w) else s)) ∧
    (∃ image : BitVec 256, (∀ i, i < 4 → image.extractLsb' (64 * i) 64 = s.dev.gstg.getD i 0) ∧
      exec (.gcmdWrite v) s = .next (event s 0 (.cord (v.extractLsb' 0 16) image))) ∧
    (let l := (v.extractLsb' 0 8).toNat
     let n := (v.extractLsb' 8 1).toNat
     (192 ≤ l → exec (.hlprstWrite v) s = .next s) ∧
     (l < 192 → ∃ t, exec (.hlprstWrite v) s = .next t ∧ t.mem = s.mem ∧ t.tasks = s.tasks ∧
       ((s.helperAt l n).mode = .running → t.helperAt l n = s.helperAt l n) ∧
       ((s.helperAt l n).mode ≠ .running → (t.helperAt l n).mode = .running ∧ (t.helperAt l n).pc = 0 ∧
         (∀ k, sget (fun _ => (0 : BitVec 32)) (t.helperAt l n).x k = 0) ∧ (t.helperAt l n).work.hold = [])))

/-- R330, R338, R367, R377, R378, R385: writes of the device block's registers: plot changes, the plots set aside for adoption,
invalidations, sprint and checkpoints. A change of ADPLOT.EN waits until its plots have drained (R327; what is refused meanwhile: log
34). -/
def Obligations.DeviceRegisters : Prop :=
  ∀ (s : State) (v : BitVec 64),
    let rejects := fun (i : Instr) => exec i s = .next { s with dev := { s.dev with rej := true } }
    let plot := (v.extractLsb' 32 18).toNat
    let owner := (v.extractLsb' 8 8).toNat
    let st := (v.extractLsb' 0 3).toNat
    let refused := plot = 0 ∨ s.plotState plot = 5 ∨ 4 < st ∨ 191 < owner ∨ owner ≠ 0 ∧ st ≠ 1 ∨ st = 3 ∧ plot < 131072 ∨
      (st = 1 ∨ st = 2) ∧ 131072 ≤ plot ∨ s.dev.plreq.isSome = true ∨ s.dev.adreq.isSome = true
    let base := (v.extractLsb' 0 18).toNat
    let free := base % 2 = 0 ∧ base + 1023 ≤ 131071 ∧ s.pkg.adplot.getLsbD 31 = false ∧ s.dev.plreq = none ∧ s.dev.adreq = none ∧
      ∀ i, i < 1024 → s.plotState (base + i) = 0
    let shared := s.pkg.state ≠ 0 ∨ ∃ l, l < 192 ∧ s.timeShared l = true
    let waits := fun (i : Instr) (x : BitVec 64) => exec i s = .next { s with dev := { s.dev with adreq := some x } }
    let idle := s.dev.adreq = none
    let tinv := fun (i : Instr) (w : BitVec 64) => exec i s = .next (if s.dev.tinv.isSome then s
      else { s with dev := { s.dev with tinv := some w } })
    (refused → rejects (.plsetWrite v)) ∧
    (¬refused → exec (.plsetWrite v) s = .next { s with dev := { s.dev with plreq := some v } }) ∧
    (¬free → rejects (.adplotEnable v)) ∧
    (free → waits (.adplotEnable v) ((v &&& 0x3FFFF) ||| 0x80000000)) ∧
    (¬idle → rejects (.adplotDisable v)) ∧
    (idle → s.pkg.adplot.getLsbD 31 = true → shared → rejects (.adplotDisable v)) ∧
    (idle → s.pkg.adplot.getLsbD 31 = true → ¬shared → waits (.adplotDisable v) (v &&& 0x3FFFF)) ∧
    (idle → s.pkg.adplot.getLsbD 31 = false → exec (.adplotDisable v) s = .next (s.setPkg { s.pkg with adplot := v &&& 0x3FFFF })) ∧
    (∀ (fn : BitVec 4) (vpn : BitVec 32), tinv (.tinvPage fn vpn) ((0 : BitVec 2) ++ fn ++ (0 : BitVec 10) ++ vpn ++ (0 : BitVec 16)) ∧
      tinv (.tinvFunction fn) ((1 : BitVec 2) ++ fn ++ (0 : BitVec 58))) ∧
    tinv .tinvAll 0x8000000000000000 ∧
    (∃ t, exec (.hstatSpenWrite v) s = .next t ∧ t.pkg = { s.pkg with spen := v.getLsbD 32 } ∧ t.mem = s.mem ∧
      (v.getLsbD 32 = true → t.tasks = s.tasks) ∧
      (v.getLsbD 32 = false → ∀ who x, s.taskAt who = some x → x.id.live = true → ∃ y, t.taskAt who = some y ∧ y.lease.lvl = 0 ∧ y.regs = x.regs ∧
        (x.lease.lvl ≠ 0 → y.lease.last = 3 ∧ y.lease.pend.isSome = true))) ∧
    (let fields := { s.pkg with plck := v.getLsbD 3, cmp := v.getLsbD 2, op := false }
     let slot := if s.pkg.valid.getLsbD s.pkg.newest then 1 - s.pkg.newest else s.pkg.newest
     exec (.ckctlSave v) s = .next (s.setPkg (if s.pkg.ckstate = 0
       then { fields with ckstate := 1, ckslot := slot, valid := s.pkg.valid &&& ~~~BitVec.twoPow 4 slot } else fields))) ∧
    (let fields := { s.pkg with plck := v.getLsbD 3, cmp := v.getLsbD 2, op := true }
     let ready := (∀ x ∈ s.tasks, x.id.live = false) ∧ (∀ z ∈ s.queues, z.2.frozen = true ∨ z.2.qcfg.getLsbD 27 = false) ∧
       s.pkg.valid.getLsbD s.pkg.newest = true
     (s.pkg.ckstate ≠ 0 → exec (.ckctlRestore v) s = .next (s.setPkg fields)) ∧
     (s.pkg.ckstate = 0 → ready → exec (.ckctlRestore v) s = .next (s.setPkg { fields with ckstate := 2 })) ∧
     (s.pkg.ckstate = 0 → ¬ready → exec (.ckctlRestore v) s = .next (s.setPkg { fields with ckstate := 3 })))

/-- R391, R394, R397, R416, R417, R419 (log 22: a load acts as a whole when it ends): GO captures what a load or a report needs; a load that
ends leaves its result in LDST and, where it holds, its kernels; a report is written or refused; a write of any other register
changes that register alone. -/
def Obligations.LoadsAndReports : Prop :=
  ∀ (s : State) (fn : Nat),
    let r := s.fn fn
    let starts := fun (i : Instr) (op : Bool) => exec i s = .next (s.setFn fn (if r.ldst.extractLsb' 0 2 = (1 : BitVec 2)
      then { r with ldop := op }
      else { r with ldop := op, ldst := 1, ldcap := [if op then 1 else 0, r.ldsrc, r.ldcode, r.ldhnd] }))
    let cap := fun (i : Nat) => (r.ldcap.getD i 0).toNat
    let ends := fun (p : State → Prop) => ∃ t, exec (.codeLoadEnd fn) s = .next t ∧ t.tasks = s.tasks ∧ p t
    let failed := fun (t : State) (e : LoadError) =>
      (t.fn fn).ldst.extractLsb' 0 2 = (3 : BitVec 2) ∧ (t.fn fn).ldst.extractLsb' 8 8 = BitVec.ofNat 8 e.code ∧
        (t.fn fn).ldst.extractLsb' 24 8 = BitVec.ofNat 8 e.sect ∧ (t.fn fn).ldst.extractLsb' 32 32 = BitVec.ofNat 32 e.detail ∧
        t.kernels = s.kernels ∧ t.objects = s.objects ∧ t.mem = s.mem
    let busy := r.ldst.extractLsb' 0 2 = (1 : BitVec 2)
    let h := r.ldcap.getD 3 0
    let known := ∃ o ∈ s.objects, o.1 = h ∧ h.toNat / 2 ^ 60 = fn
    starts (.ldctlLoad fn) false ∧ starts (.ldctlUnload fn) true ∧
    (¬busy → exec (.codeLoadEnd fn) s = .next s) ∧
    let read := s.fetchObject fn (cap 1)
    (busy → cap 0 ≠ 1 → ∀ e, read.loadObject fn (cap 1) (cap 2) = .error e → ends fun t => failed t e) ∧
    (busy → cap 0 ≠ 1 → ∀ u g, read.loadObject fn (cap 1) (cap 2) = .ok (u, some g) → ends fun t => (t.fn fn).ldst = 2 ∧
      (t.fn fn).ldhnd = g ∧ t.kernels = u.kernels ∧ t.objects = s.objects ++ [(g, u.kernels.length - s.kernels.length)] ∧
      ∀ k ∈ s.kernels, k ∈ t.kernels) ∧
    (busy → cap 0 ≠ 1 → ∀ u, read.loadObject fn (cap 1) (cap 2) = .ok (u, none) → ends fun t => (t.fn fn).ldst = 2 ∧ t.keys = u.keys ∧
      t.kernels = s.kernels ∧ t.mem = s.mem) ∧
    (busy → cap 0 = 1 → known → s.objectBusy h = true → ends fun t => failed t ⟨1, 0, 0⟩) ∧
    (busy → cap 0 = 1 → known → s.objectBusy h = false → ends fun t => (t.fn fn).ldst = 2 ∧ t.mem = s.mem ∧
      (∀ o, o ∈ t.objects ↔ o ∈ s.objects ∧ o.1 ≠ h) ∧ (∀ k, k ∈ t.kernels ↔ k ∈ s.kernels ∧ objectOf k.handle ≠ h) ∧
      ∀ l, ∀ x ∈ (t.core l).residents, objectOf x.kernel ≠ h) ∧
    (busy → cap 0 = 1 → ¬known → ends fun t => t.mem = s.mem ∧ t.kernels = s.kernels) ∧
    exec (.atctlGo fn) s = .next (if r.atstate = 1 then s
      else s.setFn fn { r with atstate := 1, atcap := r.nonce ++ [r.ataddr] }) ∧
    (r.atstate ≠ 1 → exec (.attestationEnd fn) s = .next s) ∧
    (r.atstate = 1 → s.reportKeys fn (r.atcap.getD 4 0).toNat = none → ∃ t, exec (.attestationEnd fn) s = .next t ∧
      (t.fn fn).atstate = 3 ∧ t.mem = s.mem ∧ t.tasks = s.tasks) ∧
    (∀ ks, r.atstate = 1 → s.reportKeys fn (r.atcap.getD 4 0).toNat = some ks → ∃ t, exec (.attestationEnd fn) s = .next t ∧
      (t.fn fn).atstate = 2 ∧ t.mem = s.mem.writeCells (ks.zip (s.report fn r.atcap)) ∧ t.tasks = s.tasks ∧ ks.length = 320) ∧
    (∀ w v, ∃ t, exec (.registerWrite fn w v) s = .next t ∧
      (fn ≠ 0 → regHome w = .block → t = s) ∧ (∀ g, regHome w = .function g → g ≠ fn → t = s) ∧
      (∀ g, w = .ldsrc g → g = fn → t = s.setFn fn { r with ldsrc := v &&& 0x0000FFFFFFFFFFFF }) ∧
      (∀ g, w = .ldcode g → g = fn → t = s.setFn fn { r with ldcode := v &&& 0xFFFFFFFFFFFF0000 }) ∧
      (∀ g, w = .ldhnd g → g = fn → t = s.setFn fn { r with ldhnd := v }) ∧
      (∀ g, w = .ataddr g → g = fn → t = s.setFn fn { r with ataddr := v &&& 0x0000FFFFFFFFFFFF }) ∧
      (∀ g, w = .ntgt g → g = fn → t = s.setFn fn { r with ntgt := v &&& 0xFFFFF000FFFFFFFF }) ∧
      (∀ g, w = .fstat g → g = fn → t = s.setFn fn { r with fstat := r.fstat &&& ~~~v.extractLsb' 0 5 }) ∧
      (∀ g, w = .troot g → g = fn ∨ fn = 0 → t = s.setFn g { s.fn g with troot := v &&& 0x0000007FFFFFF001 }) ∧
      (∀ q, w = .qbase q → fn = 0 ∨ (s.queue q).func = fn → (s.queue q).qcfg.getLsbD 27 = false → ∃ b, t = s.setQueue q
        { s.queue q with qbase := b } ∧ b = (s.queue q).qbase &&& 0xFFFF00000000007F ||| v &&& 0x0000FFFFFFFFFF80) ∧
      (w = .schage → fn = 0 → t = { s with dev := { s.dev with schage := v.extractLsb' 0 32 } }) ∧
      (w = .hapbase → fn = 0 → t = { s with dev := { s.dev with hapbase := v &&& 0xFFFFFFC000000000 } }) ∧
      (w ∈ [.pkstat, .plbad, .tinvst, .ckstat, .bootst, .unassigned] → t = s))

/-! ### The test access port (spec/15_package.md) -/

/-- R380, R386: an instruction of the test port stands in the instruction register and its data leaves the device; BRDATA reads 8
bytes at the read-out address, which advances; THAW resumes a brumated device one tick after it stopped. -/
def Obligations.TestPort : Prop :=
  ∀ (s : State),
    let x := s.tap
    let shows := fun (i : Instr) (code : BitVec 8) (dr : BitVec 65) => exec i s =
      .next { s with tap := { x with ir := code, dr }, outputs := s.outputs ++ [.tap dr] }
    let a := x.addr
    let reads := fun (space : BitVec 4) (o key size : Nat) => a.extractLsb' 60 4 = space → (a.extractLsb' 0 51).toNat = o → o + 8 ≤ size →
      ∃ t, exec .brdata s = .next t ∧ t.tap = { x with ir := 0x41, dr := t.tap.dr, addr := a + 8 } ∧ t.mem = s.mem ∧ t.tasks = s.tasks ∧
        t.outputs = s.outputs ++ [.tap t.tap.dr] ∧ ∀ i, i < 8 → t.tap.dr.extractLsb' (8 * i) 8 = s.mem.read (key + o + i)
    shows .tapBypass 0xFF 0 ∧ shows .tapIdcode 0x02 (Config.idcode.setWidth 65) ∧ (∃ dr, shows .tapExtest 0x00 dr) ∧
    (∃ dr, shows .tapSamplePreload 0x01 dr) ∧ shows .brstat 0x42 (BitVec.ofBool x.stopped ++ x.ts) ∧
    exec .braddr s = .next { s with tap := { x with ir := 0x40, addr := x.shiftIn } } ∧
    (∃ dr, exec .brdata s = .next { s with tap := { x with ir := 0x41, dr, addr := a + 8 }, outputs := s.outputs ++ [.tap dr] }) ∧
    (∀ o, reads 0 o 0 (2 ^ 38)) ∧
    (∀ o, s.dieFailed (a.extractLsb' 59 1).toNat = false → reads 1 o (keyDiePad (a.extractLsb' 59 1).toNat 0) (2 ^ 28)) ∧
    (∀ o, s.dieFailed (a.extractLsb' 58 1).toNat = false → reads 2 o (keyClusterPad (a.extractLsb' 55 4).toNat 0) (2 ^ 25)) ∧
    (∀ l o, s.coreOn (a.extractLsb' 55 4).toNat (a.extractLsb' 51 4).toNat = some l → o + 8 ≤ 2 ^ 21 →
      a.extractLsb' 0 51 = BitVec.ofNat 51 o → reads 3 o (keyCorePad l 0) (2 ^ 21)) ∧
    (let wakes := x.shiftIn.getLsbD 0 = true ∧ x.pin = true ∧ x.stopped = true ∧ s.pkg.dying = false
     (wakes → exec .thaw s = .next { s with tap := { x with ir := 0x43, stopped := false }, dcc := x.ts.toNat + 1 }) ∧
     (¬wakes → exec .thaw s = .next { s with tap := { x with ir := 0x43 } }))
end

