-- ==== Sys2Proof/Laws/Memory.lean ====
section
/-! SUPPORT. Sparse stores and memory: every operation keeps the canonical form, and a read after a write gives what was
written there and what was there elsewhere. -/

namespace Sys2Proof.Machine

/-! ### Sparse stores -/

variable {α : Type} [DecidableEq α] {d : Nat → α}

theorem swfFrom_cons (lo j : Nat) (w : α) (l : Sparse α) :
    swfFrom d lo ((j, w) :: l) = true ↔ lo ≤ j ∧ w ≠ d j ∧ swfFrom d (j + 1) l = true := by
  simp [swfFrom, and_assoc]

/-- A canonical store stays canonical from a lower key on. -/
theorem swfFrom_mono {lo lo' : Nat} {l : Sparse α} (h : lo ≤ lo') (hw : swfFrom d lo' l = true) :
    swfFrom d lo l = true := by
  cases l with
  | nil => rfl
  | cons x l => obtain ⟨j, w⟩ := x; rw [swfFrom_cons] at *; exact ⟨h.trans hw.1, hw.2⟩

/-- Leaving entries out keeps the canonical form. -/
theorem swfFrom_filter (p : Nat × α → Bool) {lo : Nat} {l : Sparse α} (hw : swfFrom d lo l = true) :
    swfFrom d lo (l.filter p) = true := by
  induction l generalizing lo with
  | nil => rfl
  | cons x l ih =>
    obtain ⟨j, w⟩ := x
    obtain ⟨hj, hd, ht⟩ := (swfFrom_cons ..).1 hw
    rw [List.filter_cons]
    split
    · exact (swfFrom_cons ..).2 ⟨hj, hd, ih ht⟩
    · exact swfFrom_mono (by omega) (ih ht)

theorem swf_filter (p : Nat × α → Bool) {l : Sparse α} (hw : swf d l = true) : swf d (l.filter p) = true :=
  swfFrom_filter p hw

/-- Setting a key keeps the canonical form. -/
theorem swfFrom_sset {lo k : Nat} {v : α} {l : Sparse α} (hk : lo ≤ k) (hw : swfFrom d lo l = true) :
    swfFrom d lo (sset d l k v) = true := by
  induction l generalizing lo with
  | nil => unfold sset; split
           · rfl
           · rw [swfFrom_cons]; exact ⟨hk, ‹_›, rfl⟩
  | cons x l ih =>
    obtain ⟨j, w⟩ := x
    obtain ⟨hj, hd, ht⟩ := (swfFrom_cons ..).1 hw
    unfold sset
    split
    · subst k; split
      · exact swfFrom_mono (by omega) (swfFrom_filter _ ht)
      · exact (swfFrom_cons ..).2 ⟨hj, ‹_›, ht⟩
    · split
      · split
        · exact (swfFrom_cons ..).2 ⟨hj, hd, swfFrom_filter _ ht⟩
        · exact (swfFrom_cons ..).2 ⟨hk, ‹_›, (swfFrom_cons ..).2 ⟨by omega, hd, ht⟩⟩
      · exact (swfFrom_cons ..).2 ⟨hj, hd, ih (by omega) ht⟩

/-- Setting a key keeps the canonical form. -/
theorem swf_sset {k : Nat} {v : α} {l : Sparse α} (hw : swf d l = true) : swf d (sset d l k v) = true :=
  swfFrom_sset (Nat.zero_le k) hw

/-- A key below the first entry reads as unlisted. -/
theorem sget_of_lt {k lo : Nat} {l : Sparse α} (hk : k < lo) (hw : swfFrom d lo l = true) :
    sget d l k = d k := by
  induction l generalizing lo with
  | nil => rfl
  | cons x l ih =>
    obtain ⟨j, w⟩ := x
    obtain ⟨hj, -, ht⟩ := (swfFrom_cons ..).1 hw
    rw [sget, if_neg (by omega)]
    exact ih (by omega) ht

/-- An entry left out reads as unlisted. -/
theorem sget_sdrop {α : Type} {d : Nat → α} {k j : Nat} {l : Sparse α} :
    sget d (sdrop l k) j = if j = k then d j else sget d l j := by
  induction l with
  | nil => simp [sdrop, sget]
  | cons x l ih =>
    obtain ⟨i, w⟩ := x
    unfold sdrop at *
    rw [List.filter_cons]
    by_cases hi : i = k
    · subst hi; simp only [ne_eq, decide_not, decide_true, Bool.not_true, Bool.false_eq_true, if_false]
      simp only [ne_eq, decide_not] at ih
      rw [ih]; simp only [sget]; split <;> simp_all
    · simp only [ne_eq, hi, not_false_eq_true, decide_true, if_true, sget]
      rw [ih]; split <;> simp_all

/-- A read after a write. -/
@[simp] theorem sget_sset {k j : Nat} {v : α} {l : Sparse α} :
    sget d (sset d l k v) j = if j = k then v else sget d l j := by
  induction l with
  | nil => unfold sset; split <;> simp_all [sget]
  | cons x l ih =>
    obtain ⟨i, w⟩ := x
    unfold sset
    repeat' split
    all_goals simp only [sget, sget_sdrop, ih]
    all_goals repeat' split
    all_goals first | rfl | omega | simp_all

/-! ### Memory -/

/-- A write of one byte keeps the canonical form. -/
@[simp] theorem Memory.write_wf {m : Memory} {k : Nat} {b : Byte} (h : m.wf = true) : (m.write k b).wf = true :=
  swf_sset h

/-- A write of a list of bytes keeps the canonical form. -/
@[simp] theorem Memory.writeCells_wf {m : Memory} {cs : List Host.Cell} (h : m.wf = true) :
    (m.writeCells cs).wf = true := by
  induction cs generalizing m with
  | nil => exact h
  | cons c cs ih => exact ih (Memory.write_wf h)

/-- Memory of which some bytes are lost keeps the canonical form. -/
@[simp] theorem Memory.filter_wf {m : Memory} (p : Host.Cell → Bool) (h : m.wf = true) :
    Memory.wf (List.filter p m) = true := swf_filter p h

/-- A byte read after a byte is written. -/
@[simp] theorem Memory.read_write {m : Memory} {k j : Nat} {b : Byte} :
    (m.write k b).read j = if j = k then b else m.read j := sget_sset

/-- Bytes outside the written ones read as before. -/
theorem Memory.read_writeCells_of_not_mem {m : Memory} {cs : List Host.Cell} {j : Nat}
    (hj : j ∉ cs.map (·.1)) : (m.writeCells cs).read j = m.read j := by
  induction cs generalizing m with
  | nil => rfl
  | cons c cs ih =>
    simp only [List.map_cons, List.mem_cons, not_or] at hj
    rw [writeCells, ih hj.2, Memory.read_write, if_neg hj.1]

/-- Equal contents are equal lists: two canonical memories that read alike are the same. -/
theorem swfFrom_ext {lo : Nat} {l l' : Sparse α} (h : swfFrom d lo l = true) (h' : swfFrom d lo l' = true)
    (e : ∀ k, sget d l k = sget d l' k) : l = l' := by
  induction l generalizing lo l' with
  | nil =>
    cases l' with
    | nil => rfl
    | cons x l' =>
      obtain ⟨j, w⟩ := x
      have := e j
      simp only [sget, if_true] at this
      exact absurd this.symm ((swfFrom_cons ..).1 h').2.1
  | cons x l ih =>
    obtain ⟨j, w⟩ := x
    obtain ⟨-, hd, ht⟩ := (swfFrom_cons ..).1 h
    cases l' with
    | nil =>
      have := e j
      simp only [sget, if_true] at this
      exact absurd this hd
    | cons y l' =>
      obtain ⟨i, v⟩ := y
      obtain ⟨-, hd', ht'⟩ := (swfFrom_cons ..).1 h'
      have h'i : swfFrom d i ((i, v) :: l') = true := (swfFrom_cons ..).2 ⟨le_rfl, hd', ht'⟩
      have hj : swfFrom d j ((j, w) :: l) = true := (swfFrom_cons ..).2 ⟨le_rfl, hd, ht⟩
      have hj : j = i := by
        rcases Nat.lt_trichotomy j i with hlt | heq | hgt
        · have := e j
          rw [sget, if_pos rfl, sget_of_lt hlt h'i] at this
          exact absurd this hd
        · exact heq
        · have := e i
          rw [sget_of_lt hgt hj, sget, if_pos rfl] at this
          exact absurd this.symm hd'
      subst hj
      have hw : w = v := by have := e j; simpa [sget] using this
      subst hw
      congr 1
      refine ih ht ht' fun k => ?_
      rcases Nat.lt_trichotomy k j with hlt | heq | hgt
      · rw [sget_of_lt (by omega : k < j + 1) ht, sget_of_lt (by omega : k < j + 1) ht']
      · rw [sget_of_lt (by omega : k < j + 1) ht, sget_of_lt (by omega : k < j + 1) ht']
      · have := e k
        simpa [sget, show k ≠ j by omega] using this

end Sys2Proof.Machine
end

