-- ==== Sys2Proof/Laws/State.lean ====
section
/-! SUPPORT. What each plain update of State leaves in each of its fields. -/

namespace Sys2Proof.Machine

/-! ### setTask -/

@[simp] theorem State.setTask_task (s : State) (x : Task) : (s.setTask x).task = x := rfl
@[simp] theorem State.setTask_parked (s : State) (x : Task) : (s.setTask x).parked = s.parked := rfl
@[simp] theorem State.setTask_hlp (s : State) (x : Task) : (s.setTask x).hlp = s.hlp := rfl
@[simp] theorem State.setTask_parkedH (s : State) (x : Task) : (s.setTask x).parkedH = s.parkedH := rfl
@[simp] theorem State.setTask_saved (s : State) (x : Task) : (s.setTask x).saved = s.saved := rfl
@[simp] theorem State.setTask_cores (s : State) (x : Task) : (s.setTask x).cores = s.cores := rfl
@[simp] theorem State.setTask_clusters (s : State) (x : Task) : (s.setTask x).clusters = s.clusters := rfl
@[simp] theorem State.setTask_dies (s : State) (x : Task) : (s.setTask x).dies = s.dies := rfl
@[simp] theorem State.setTask_mem (s : State) (x : Task) : (s.setTask x).mem = s.mem := rfl
@[simp] theorem State.setTask_writers (s : State) (x : Task) : (s.setTask x).writers = s.writers := rfl
@[simp] theorem State.setTask_dcc (s : State) (x : Task) : (s.setTask x).dcc = s.dcc := rfl
@[simp] theorem State.setTask_queues (s : State) (x : Task) : (s.setTask x).queues = s.queues := rfl
@[simp] theorem State.setTask_nodes (s : State) (x : Task) : (s.setTask x).nodes = s.nodes := rfl
@[simp] theorem State.setTask_events (s : State) (x : Task) : (s.setTask x).events = s.events := rfl
@[simp] theorem State.setTask_fns (s : State) (x : Task) : (s.setTask x).fns = s.fns := rfl
@[simp] theorem State.setTask_kernels (s : State) (x : Task) : (s.setTask x).kernels = s.kernels := rfl
@[simp] theorem State.setTask_objects (s : State) (x : Task) : (s.setTask x).objects = s.objects := rfl
@[simp] theorem State.setTask_keys (s : State) (x : Task) : (s.setTask x).keys = s.keys := rfl
@[simp] theorem State.setTask_stands (s : State) (x : Task) : (s.setTask x).stands = s.stands := rfl
@[simp] theorem State.setTask_colls (s : State) (x : Task) : (s.setTask x).colls = s.colls := rfl
@[simp] theorem State.setTask_specs (s : State) (x : Task) : (s.setTask x).specs = s.specs := rfl
@[simp] theorem State.setTask_rmwQ (s : State) (x : Task) : (s.setTask x).rmwQ = s.rmwQ := rfl
@[simp] theorem State.setTask_replyLog (s : State) (x : Task) : (s.setTask x).replyLog = s.replyLog := rfl
@[simp] theorem State.setTask_released (s : State) (x : Task) : (s.setTask x).released = s.released := rfl
@[simp] theorem State.setTask_live (s : State) (x : Task) : (s.setTask x).live = s.live := rfl
@[simp] theorem State.setTask_tlb (s : State) (x : Task) : (s.setTask x).tlb = s.tlb := rfl
@[simp] theorem State.setTask_pkg (s : State) (x : Task) : (s.setTask x).pkg = s.pkg := rfl
@[simp] theorem State.setTask_dev (s : State) (x : Task) : (s.setTask x).dev = s.dev := rfl
@[simp] theorem State.setTask_ports (s : State) (x : Task) : (s.setTask x).ports = s.ports := rfl
@[simp] theorem State.setTask_tap (s : State) (x : Task) : (s.setTask x).tap = s.tap := rfl
@[simp] theorem State.setTask_inputs (s : State) (x : Task) : (s.setTask x).inputs = s.inputs := rfl
@[simp] theorem State.setTask_outputs (s : State) (x : Task) : (s.setTask x).outputs = s.outputs := rfl
@[simp] theorem State.setTask_turn (s : State) (x : Task) : (s.setTask x).turn = s.turn := rfl
@[simp] theorem State.setTask_epoch (s : State) (x : Task) : (s.setTask x).epoch = s.epoch := rfl
@[simp] theorem State.setTask_poison (s : State) (x : Task) : (s.setTask x).poison = s.poison := rfl
@[simp] theorem State.setTask_oldCode (s : State) (x : Task) : (s.setTask x).oldCode = s.oldCode := rfl

/-! ### setRegs -/

@[simp] theorem State.setRegs_task (s : State) (x : TaskRegs) : (s.setRegs x).task = { s.task with regs := x } := rfl
@[simp] theorem State.setRegs_parked (s : State) (x : TaskRegs) : (s.setRegs x).parked = s.parked := rfl
@[simp] theorem State.setRegs_hlp (s : State) (x : TaskRegs) : (s.setRegs x).hlp = s.hlp := rfl
@[simp] theorem State.setRegs_parkedH (s : State) (x : TaskRegs) : (s.setRegs x).parkedH = s.parkedH := rfl
@[simp] theorem State.setRegs_saved (s : State) (x : TaskRegs) : (s.setRegs x).saved = s.saved := rfl
@[simp] theorem State.setRegs_cores (s : State) (x : TaskRegs) : (s.setRegs x).cores = s.cores := rfl
@[simp] theorem State.setRegs_clusters (s : State) (x : TaskRegs) : (s.setRegs x).clusters = s.clusters := rfl
@[simp] theorem State.setRegs_dies (s : State) (x : TaskRegs) : (s.setRegs x).dies = s.dies := rfl
@[simp] theorem State.setRegs_mem (s : State) (x : TaskRegs) : (s.setRegs x).mem = s.mem := rfl
@[simp] theorem State.setRegs_writers (s : State) (x : TaskRegs) : (s.setRegs x).writers = s.writers := rfl
@[simp] theorem State.setRegs_dcc (s : State) (x : TaskRegs) : (s.setRegs x).dcc = s.dcc := rfl
@[simp] theorem State.setRegs_queues (s : State) (x : TaskRegs) : (s.setRegs x).queues = s.queues := rfl
@[simp] theorem State.setRegs_nodes (s : State) (x : TaskRegs) : (s.setRegs x).nodes = s.nodes := rfl
@[simp] theorem State.setRegs_events (s : State) (x : TaskRegs) : (s.setRegs x).events = s.events := rfl
@[simp] theorem State.setRegs_fns (s : State) (x : TaskRegs) : (s.setRegs x).fns = s.fns := rfl
@[simp] theorem State.setRegs_kernels (s : State) (x : TaskRegs) : (s.setRegs x).kernels = s.kernels := rfl
@[simp] theorem State.setRegs_objects (s : State) (x : TaskRegs) : (s.setRegs x).objects = s.objects := rfl
@[simp] theorem State.setRegs_keys (s : State) (x : TaskRegs) : (s.setRegs x).keys = s.keys := rfl
@[simp] theorem State.setRegs_stands (s : State) (x : TaskRegs) : (s.setRegs x).stands = s.stands := rfl
@[simp] theorem State.setRegs_colls (s : State) (x : TaskRegs) : (s.setRegs x).colls = s.colls := rfl
@[simp] theorem State.setRegs_specs (s : State) (x : TaskRegs) : (s.setRegs x).specs = s.specs := rfl
@[simp] theorem State.setRegs_rmwQ (s : State) (x : TaskRegs) : (s.setRegs x).rmwQ = s.rmwQ := rfl
@[simp] theorem State.setRegs_replyLog (s : State) (x : TaskRegs) : (s.setRegs x).replyLog = s.replyLog := rfl
@[simp] theorem State.setRegs_released (s : State) (x : TaskRegs) : (s.setRegs x).released = s.released := rfl
@[simp] theorem State.setRegs_live (s : State) (x : TaskRegs) : (s.setRegs x).live = s.live := rfl
@[simp] theorem State.setRegs_tlb (s : State) (x : TaskRegs) : (s.setRegs x).tlb = s.tlb := rfl
@[simp] theorem State.setRegs_pkg (s : State) (x : TaskRegs) : (s.setRegs x).pkg = s.pkg := rfl
@[simp] theorem State.setRegs_dev (s : State) (x : TaskRegs) : (s.setRegs x).dev = s.dev := rfl
@[simp] theorem State.setRegs_ports (s : State) (x : TaskRegs) : (s.setRegs x).ports = s.ports := rfl
@[simp] theorem State.setRegs_tap (s : State) (x : TaskRegs) : (s.setRegs x).tap = s.tap := rfl
@[simp] theorem State.setRegs_inputs (s : State) (x : TaskRegs) : (s.setRegs x).inputs = s.inputs := rfl
@[simp] theorem State.setRegs_outputs (s : State) (x : TaskRegs) : (s.setRegs x).outputs = s.outputs := rfl
@[simp] theorem State.setRegs_turn (s : State) (x : TaskRegs) : (s.setRegs x).turn = s.turn := rfl
@[simp] theorem State.setRegs_epoch (s : State) (x : TaskRegs) : (s.setRegs x).epoch = s.epoch := rfl
@[simp] theorem State.setRegs_poison (s : State) (x : TaskRegs) : (s.setRegs x).poison = s.poison := rfl
@[simp] theorem State.setRegs_oldCode (s : State) (x : TaskRegs) : (s.setRegs x).oldCode = s.oldCode := rfl

/-! ### setFlow -/

@[simp] theorem State.setFlow_task (s : State) (x : TaskFlow) : (s.setFlow x).task = { s.task with flow := x } := rfl
@[simp] theorem State.setFlow_parked (s : State) (x : TaskFlow) : (s.setFlow x).parked = s.parked := rfl
@[simp] theorem State.setFlow_hlp (s : State) (x : TaskFlow) : (s.setFlow x).hlp = s.hlp := rfl
@[simp] theorem State.setFlow_parkedH (s : State) (x : TaskFlow) : (s.setFlow x).parkedH = s.parkedH := rfl
@[simp] theorem State.setFlow_saved (s : State) (x : TaskFlow) : (s.setFlow x).saved = s.saved := rfl
@[simp] theorem State.setFlow_cores (s : State) (x : TaskFlow) : (s.setFlow x).cores = s.cores := rfl
@[simp] theorem State.setFlow_clusters (s : State) (x : TaskFlow) : (s.setFlow x).clusters = s.clusters := rfl
@[simp] theorem State.setFlow_dies (s : State) (x : TaskFlow) : (s.setFlow x).dies = s.dies := rfl
@[simp] theorem State.setFlow_mem (s : State) (x : TaskFlow) : (s.setFlow x).mem = s.mem := rfl
@[simp] theorem State.setFlow_writers (s : State) (x : TaskFlow) : (s.setFlow x).writers = s.writers := rfl
@[simp] theorem State.setFlow_dcc (s : State) (x : TaskFlow) : (s.setFlow x).dcc = s.dcc := rfl
@[simp] theorem State.setFlow_queues (s : State) (x : TaskFlow) : (s.setFlow x).queues = s.queues := rfl
@[simp] theorem State.setFlow_nodes (s : State) (x : TaskFlow) : (s.setFlow x).nodes = s.nodes := rfl
@[simp] theorem State.setFlow_events (s : State) (x : TaskFlow) : (s.setFlow x).events = s.events := rfl
@[simp] theorem State.setFlow_fns (s : State) (x : TaskFlow) : (s.setFlow x).fns = s.fns := rfl
@[simp] theorem State.setFlow_kernels (s : State) (x : TaskFlow) : (s.setFlow x).kernels = s.kernels := rfl
@[simp] theorem State.setFlow_objects (s : State) (x : TaskFlow) : (s.setFlow x).objects = s.objects := rfl
@[simp] theorem State.setFlow_keys (s : State) (x : TaskFlow) : (s.setFlow x).keys = s.keys := rfl
@[simp] theorem State.setFlow_stands (s : State) (x : TaskFlow) : (s.setFlow x).stands = s.stands := rfl
@[simp] theorem State.setFlow_colls (s : State) (x : TaskFlow) : (s.setFlow x).colls = s.colls := rfl
@[simp] theorem State.setFlow_specs (s : State) (x : TaskFlow) : (s.setFlow x).specs = s.specs := rfl
@[simp] theorem State.setFlow_rmwQ (s : State) (x : TaskFlow) : (s.setFlow x).rmwQ = s.rmwQ := rfl
@[simp] theorem State.setFlow_replyLog (s : State) (x : TaskFlow) : (s.setFlow x).replyLog = s.replyLog := rfl
@[simp] theorem State.setFlow_released (s : State) (x : TaskFlow) : (s.setFlow x).released = s.released := rfl
@[simp] theorem State.setFlow_live (s : State) (x : TaskFlow) : (s.setFlow x).live = s.live := rfl
@[simp] theorem State.setFlow_tlb (s : State) (x : TaskFlow) : (s.setFlow x).tlb = s.tlb := rfl
@[simp] theorem State.setFlow_pkg (s : State) (x : TaskFlow) : (s.setFlow x).pkg = s.pkg := rfl
@[simp] theorem State.setFlow_dev (s : State) (x : TaskFlow) : (s.setFlow x).dev = s.dev := rfl
@[simp] theorem State.setFlow_ports (s : State) (x : TaskFlow) : (s.setFlow x).ports = s.ports := rfl
@[simp] theorem State.setFlow_tap (s : State) (x : TaskFlow) : (s.setFlow x).tap = s.tap := rfl
@[simp] theorem State.setFlow_inputs (s : State) (x : TaskFlow) : (s.setFlow x).inputs = s.inputs := rfl
@[simp] theorem State.setFlow_outputs (s : State) (x : TaskFlow) : (s.setFlow x).outputs = s.outputs := rfl
@[simp] theorem State.setFlow_turn (s : State) (x : TaskFlow) : (s.setFlow x).turn = s.turn := rfl
@[simp] theorem State.setFlow_epoch (s : State) (x : TaskFlow) : (s.setFlow x).epoch = s.epoch := rfl
@[simp] theorem State.setFlow_poison (s : State) (x : TaskFlow) : (s.setFlow x).poison = s.poison := rfl
@[simp] theorem State.setFlow_oldCode (s : State) (x : TaskFlow) : (s.setFlow x).oldCode = s.oldCode := rfl

/-! ### setSys -/

@[simp] theorem State.setSys_task (s : State) (x : TaskSys) : (s.setSys x).task = { s.task with sys := x } := rfl
@[simp] theorem State.setSys_parked (s : State) (x : TaskSys) : (s.setSys x).parked = s.parked := rfl
@[simp] theorem State.setSys_hlp (s : State) (x : TaskSys) : (s.setSys x).hlp = s.hlp := rfl
@[simp] theorem State.setSys_parkedH (s : State) (x : TaskSys) : (s.setSys x).parkedH = s.parkedH := rfl
@[simp] theorem State.setSys_saved (s : State) (x : TaskSys) : (s.setSys x).saved = s.saved := rfl
@[simp] theorem State.setSys_cores (s : State) (x : TaskSys) : (s.setSys x).cores = s.cores := rfl
@[simp] theorem State.setSys_clusters (s : State) (x : TaskSys) : (s.setSys x).clusters = s.clusters := rfl
@[simp] theorem State.setSys_dies (s : State) (x : TaskSys) : (s.setSys x).dies = s.dies := rfl
@[simp] theorem State.setSys_mem (s : State) (x : TaskSys) : (s.setSys x).mem = s.mem := rfl
@[simp] theorem State.setSys_writers (s : State) (x : TaskSys) : (s.setSys x).writers = s.writers := rfl
@[simp] theorem State.setSys_dcc (s : State) (x : TaskSys) : (s.setSys x).dcc = s.dcc := rfl
@[simp] theorem State.setSys_queues (s : State) (x : TaskSys) : (s.setSys x).queues = s.queues := rfl
@[simp] theorem State.setSys_nodes (s : State) (x : TaskSys) : (s.setSys x).nodes = s.nodes := rfl
@[simp] theorem State.setSys_events (s : State) (x : TaskSys) : (s.setSys x).events = s.events := rfl
@[simp] theorem State.setSys_fns (s : State) (x : TaskSys) : (s.setSys x).fns = s.fns := rfl
@[simp] theorem State.setSys_kernels (s : State) (x : TaskSys) : (s.setSys x).kernels = s.kernels := rfl
@[simp] theorem State.setSys_objects (s : State) (x : TaskSys) : (s.setSys x).objects = s.objects := rfl
@[simp] theorem State.setSys_keys (s : State) (x : TaskSys) : (s.setSys x).keys = s.keys := rfl
@[simp] theorem State.setSys_stands (s : State) (x : TaskSys) : (s.setSys x).stands = s.stands := rfl
@[simp] theorem State.setSys_colls (s : State) (x : TaskSys) : (s.setSys x).colls = s.colls := rfl
@[simp] theorem State.setSys_specs (s : State) (x : TaskSys) : (s.setSys x).specs = s.specs := rfl
@[simp] theorem State.setSys_rmwQ (s : State) (x : TaskSys) : (s.setSys x).rmwQ = s.rmwQ := rfl
@[simp] theorem State.setSys_replyLog (s : State) (x : TaskSys) : (s.setSys x).replyLog = s.replyLog := rfl
@[simp] theorem State.setSys_released (s : State) (x : TaskSys) : (s.setSys x).released = s.released := rfl
@[simp] theorem State.setSys_live (s : State) (x : TaskSys) : (s.setSys x).live = s.live := rfl
@[simp] theorem State.setSys_tlb (s : State) (x : TaskSys) : (s.setSys x).tlb = s.tlb := rfl
@[simp] theorem State.setSys_pkg (s : State) (x : TaskSys) : (s.setSys x).pkg = s.pkg := rfl
@[simp] theorem State.setSys_dev (s : State) (x : TaskSys) : (s.setSys x).dev = s.dev := rfl
@[simp] theorem State.setSys_ports (s : State) (x : TaskSys) : (s.setSys x).ports = s.ports := rfl
@[simp] theorem State.setSys_tap (s : State) (x : TaskSys) : (s.setSys x).tap = s.tap := rfl
@[simp] theorem State.setSys_inputs (s : State) (x : TaskSys) : (s.setSys x).inputs = s.inputs := rfl
@[simp] theorem State.setSys_outputs (s : State) (x : TaskSys) : (s.setSys x).outputs = s.outputs := rfl
@[simp] theorem State.setSys_turn (s : State) (x : TaskSys) : (s.setSys x).turn = s.turn := rfl
@[simp] theorem State.setSys_epoch (s : State) (x : TaskSys) : (s.setSys x).epoch = s.epoch := rfl
@[simp] theorem State.setSys_poison (s : State) (x : TaskSys) : (s.setSys x).poison = s.poison := rfl
@[simp] theorem State.setSys_oldCode (s : State) (x : TaskSys) : (s.setSys x).oldCode = s.oldCode := rfl

/-! ### setId -/

@[simp] theorem State.setId_task (s : State) (x : TaskId) : (s.setId x).task = { s.task with id := x } := rfl
@[simp] theorem State.setId_parked (s : State) (x : TaskId) : (s.setId x).parked = s.parked := rfl
@[simp] theorem State.setId_hlp (s : State) (x : TaskId) : (s.setId x).hlp = s.hlp := rfl
@[simp] theorem State.setId_parkedH (s : State) (x : TaskId) : (s.setId x).parkedH = s.parkedH := rfl
@[simp] theorem State.setId_saved (s : State) (x : TaskId) : (s.setId x).saved = s.saved := rfl
@[simp] theorem State.setId_cores (s : State) (x : TaskId) : (s.setId x).cores = s.cores := rfl
@[simp] theorem State.setId_clusters (s : State) (x : TaskId) : (s.setId x).clusters = s.clusters := rfl
@[simp] theorem State.setId_dies (s : State) (x : TaskId) : (s.setId x).dies = s.dies := rfl
@[simp] theorem State.setId_mem (s : State) (x : TaskId) : (s.setId x).mem = s.mem := rfl
@[simp] theorem State.setId_writers (s : State) (x : TaskId) : (s.setId x).writers = s.writers := rfl
@[simp] theorem State.setId_dcc (s : State) (x : TaskId) : (s.setId x).dcc = s.dcc := rfl
@[simp] theorem State.setId_queues (s : State) (x : TaskId) : (s.setId x).queues = s.queues := rfl
@[simp] theorem State.setId_nodes (s : State) (x : TaskId) : (s.setId x).nodes = s.nodes := rfl
@[simp] theorem State.setId_events (s : State) (x : TaskId) : (s.setId x).events = s.events := rfl
@[simp] theorem State.setId_fns (s : State) (x : TaskId) : (s.setId x).fns = s.fns := rfl
@[simp] theorem State.setId_kernels (s : State) (x : TaskId) : (s.setId x).kernels = s.kernels := rfl
@[simp] theorem State.setId_objects (s : State) (x : TaskId) : (s.setId x).objects = s.objects := rfl
@[simp] theorem State.setId_keys (s : State) (x : TaskId) : (s.setId x).keys = s.keys := rfl
@[simp] theorem State.setId_stands (s : State) (x : TaskId) : (s.setId x).stands = s.stands := rfl
@[simp] theorem State.setId_colls (s : State) (x : TaskId) : (s.setId x).colls = s.colls := rfl
@[simp] theorem State.setId_specs (s : State) (x : TaskId) : (s.setId x).specs = s.specs := rfl
@[simp] theorem State.setId_rmwQ (s : State) (x : TaskId) : (s.setId x).rmwQ = s.rmwQ := rfl
@[simp] theorem State.setId_replyLog (s : State) (x : TaskId) : (s.setId x).replyLog = s.replyLog := rfl
@[simp] theorem State.setId_released (s : State) (x : TaskId) : (s.setId x).released = s.released := rfl
@[simp] theorem State.setId_live (s : State) (x : TaskId) : (s.setId x).live = s.live := rfl
@[simp] theorem State.setId_tlb (s : State) (x : TaskId) : (s.setId x).tlb = s.tlb := rfl
@[simp] theorem State.setId_pkg (s : State) (x : TaskId) : (s.setId x).pkg = s.pkg := rfl
@[simp] theorem State.setId_dev (s : State) (x : TaskId) : (s.setId x).dev = s.dev := rfl
@[simp] theorem State.setId_ports (s : State) (x : TaskId) : (s.setId x).ports = s.ports := rfl
@[simp] theorem State.setId_tap (s : State) (x : TaskId) : (s.setId x).tap = s.tap := rfl
@[simp] theorem State.setId_inputs (s : State) (x : TaskId) : (s.setId x).inputs = s.inputs := rfl
@[simp] theorem State.setId_outputs (s : State) (x : TaskId) : (s.setId x).outputs = s.outputs := rfl
@[simp] theorem State.setId_turn (s : State) (x : TaskId) : (s.setId x).turn = s.turn := rfl
@[simp] theorem State.setId_epoch (s : State) (x : TaskId) : (s.setId x).epoch = s.epoch := rfl
@[simp] theorem State.setId_poison (s : State) (x : TaskId) : (s.setId x).poison = s.poison := rfl
@[simp] theorem State.setId_oldCode (s : State) (x : TaskId) : (s.setId x).oldCode = s.oldCode := rfl

/-! ### setBolt -/

@[simp] theorem State.setBolt_task (s : State) (x : TaskBolt) : (s.setBolt x).task = { s.task with bolt := x } := rfl
@[simp] theorem State.setBolt_parked (s : State) (x : TaskBolt) : (s.setBolt x).parked = s.parked := rfl
@[simp] theorem State.setBolt_hlp (s : State) (x : TaskBolt) : (s.setBolt x).hlp = s.hlp := rfl
@[simp] theorem State.setBolt_parkedH (s : State) (x : TaskBolt) : (s.setBolt x).parkedH = s.parkedH := rfl
@[simp] theorem State.setBolt_saved (s : State) (x : TaskBolt) : (s.setBolt x).saved = s.saved := rfl
@[simp] theorem State.setBolt_cores (s : State) (x : TaskBolt) : (s.setBolt x).cores = s.cores := rfl
@[simp] theorem State.setBolt_clusters (s : State) (x : TaskBolt) : (s.setBolt x).clusters = s.clusters := rfl
@[simp] theorem State.setBolt_dies (s : State) (x : TaskBolt) : (s.setBolt x).dies = s.dies := rfl
@[simp] theorem State.setBolt_mem (s : State) (x : TaskBolt) : (s.setBolt x).mem = s.mem := rfl
@[simp] theorem State.setBolt_writers (s : State) (x : TaskBolt) : (s.setBolt x).writers = s.writers := rfl
@[simp] theorem State.setBolt_dcc (s : State) (x : TaskBolt) : (s.setBolt x).dcc = s.dcc := rfl
@[simp] theorem State.setBolt_queues (s : State) (x : TaskBolt) : (s.setBolt x).queues = s.queues := rfl
@[simp] theorem State.setBolt_nodes (s : State) (x : TaskBolt) : (s.setBolt x).nodes = s.nodes := rfl
@[simp] theorem State.setBolt_events (s : State) (x : TaskBolt) : (s.setBolt x).events = s.events := rfl
@[simp] theorem State.setBolt_fns (s : State) (x : TaskBolt) : (s.setBolt x).fns = s.fns := rfl
@[simp] theorem State.setBolt_kernels (s : State) (x : TaskBolt) : (s.setBolt x).kernels = s.kernels := rfl
@[simp] theorem State.setBolt_objects (s : State) (x : TaskBolt) : (s.setBolt x).objects = s.objects := rfl
@[simp] theorem State.setBolt_keys (s : State) (x : TaskBolt) : (s.setBolt x).keys = s.keys := rfl
@[simp] theorem State.setBolt_stands (s : State) (x : TaskBolt) : (s.setBolt x).stands = s.stands := rfl
@[simp] theorem State.setBolt_colls (s : State) (x : TaskBolt) : (s.setBolt x).colls = s.colls := rfl
@[simp] theorem State.setBolt_specs (s : State) (x : TaskBolt) : (s.setBolt x).specs = s.specs := rfl
@[simp] theorem State.setBolt_rmwQ (s : State) (x : TaskBolt) : (s.setBolt x).rmwQ = s.rmwQ := rfl
@[simp] theorem State.setBolt_replyLog (s : State) (x : TaskBolt) : (s.setBolt x).replyLog = s.replyLog := rfl
@[simp] theorem State.setBolt_released (s : State) (x : TaskBolt) : (s.setBolt x).released = s.released := rfl
@[simp] theorem State.setBolt_live (s : State) (x : TaskBolt) : (s.setBolt x).live = s.live := rfl
@[simp] theorem State.setBolt_tlb (s : State) (x : TaskBolt) : (s.setBolt x).tlb = s.tlb := rfl
@[simp] theorem State.setBolt_pkg (s : State) (x : TaskBolt) : (s.setBolt x).pkg = s.pkg := rfl
@[simp] theorem State.setBolt_dev (s : State) (x : TaskBolt) : (s.setBolt x).dev = s.dev := rfl
@[simp] theorem State.setBolt_ports (s : State) (x : TaskBolt) : (s.setBolt x).ports = s.ports := rfl
@[simp] theorem State.setBolt_tap (s : State) (x : TaskBolt) : (s.setBolt x).tap = s.tap := rfl
@[simp] theorem State.setBolt_inputs (s : State) (x : TaskBolt) : (s.setBolt x).inputs = s.inputs := rfl
@[simp] theorem State.setBolt_outputs (s : State) (x : TaskBolt) : (s.setBolt x).outputs = s.outputs := rfl
@[simp] theorem State.setBolt_turn (s : State) (x : TaskBolt) : (s.setBolt x).turn = s.turn := rfl
@[simp] theorem State.setBolt_epoch (s : State) (x : TaskBolt) : (s.setBolt x).epoch = s.epoch := rfl
@[simp] theorem State.setBolt_poison (s : State) (x : TaskBolt) : (s.setBolt x).poison = s.poison := rfl
@[simp] theorem State.setBolt_oldCode (s : State) (x : TaskBolt) : (s.setBolt x).oldCode = s.oldCode := rfl

/-! ### setEng -/

@[simp] theorem State.setEng_task (s : State) (x : TaskEng) : (s.setEng x).task = { s.task with eng := x } := rfl
@[simp] theorem State.setEng_parked (s : State) (x : TaskEng) : (s.setEng x).parked = s.parked := rfl
@[simp] theorem State.setEng_hlp (s : State) (x : TaskEng) : (s.setEng x).hlp = s.hlp := rfl
@[simp] theorem State.setEng_parkedH (s : State) (x : TaskEng) : (s.setEng x).parkedH = s.parkedH := rfl
@[simp] theorem State.setEng_saved (s : State) (x : TaskEng) : (s.setEng x).saved = s.saved := rfl
@[simp] theorem State.setEng_cores (s : State) (x : TaskEng) : (s.setEng x).cores = s.cores := rfl
@[simp] theorem State.setEng_clusters (s : State) (x : TaskEng) : (s.setEng x).clusters = s.clusters := rfl
@[simp] theorem State.setEng_dies (s : State) (x : TaskEng) : (s.setEng x).dies = s.dies := rfl
@[simp] theorem State.setEng_mem (s : State) (x : TaskEng) : (s.setEng x).mem = s.mem := rfl
@[simp] theorem State.setEng_writers (s : State) (x : TaskEng) : (s.setEng x).writers = s.writers := rfl
@[simp] theorem State.setEng_dcc (s : State) (x : TaskEng) : (s.setEng x).dcc = s.dcc := rfl
@[simp] theorem State.setEng_queues (s : State) (x : TaskEng) : (s.setEng x).queues = s.queues := rfl
@[simp] theorem State.setEng_nodes (s : State) (x : TaskEng) : (s.setEng x).nodes = s.nodes := rfl
@[simp] theorem State.setEng_events (s : State) (x : TaskEng) : (s.setEng x).events = s.events := rfl
@[simp] theorem State.setEng_fns (s : State) (x : TaskEng) : (s.setEng x).fns = s.fns := rfl
@[simp] theorem State.setEng_kernels (s : State) (x : TaskEng) : (s.setEng x).kernels = s.kernels := rfl
@[simp] theorem State.setEng_objects (s : State) (x : TaskEng) : (s.setEng x).objects = s.objects := rfl
@[simp] theorem State.setEng_keys (s : State) (x : TaskEng) : (s.setEng x).keys = s.keys := rfl
@[simp] theorem State.setEng_stands (s : State) (x : TaskEng) : (s.setEng x).stands = s.stands := rfl
@[simp] theorem State.setEng_colls (s : State) (x : TaskEng) : (s.setEng x).colls = s.colls := rfl
@[simp] theorem State.setEng_specs (s : State) (x : TaskEng) : (s.setEng x).specs = s.specs := rfl
@[simp] theorem State.setEng_rmwQ (s : State) (x : TaskEng) : (s.setEng x).rmwQ = s.rmwQ := rfl
@[simp] theorem State.setEng_replyLog (s : State) (x : TaskEng) : (s.setEng x).replyLog = s.replyLog := rfl
@[simp] theorem State.setEng_released (s : State) (x : TaskEng) : (s.setEng x).released = s.released := rfl
@[simp] theorem State.setEng_live (s : State) (x : TaskEng) : (s.setEng x).live = s.live := rfl
@[simp] theorem State.setEng_tlb (s : State) (x : TaskEng) : (s.setEng x).tlb = s.tlb := rfl
@[simp] theorem State.setEng_pkg (s : State) (x : TaskEng) : (s.setEng x).pkg = s.pkg := rfl
@[simp] theorem State.setEng_dev (s : State) (x : TaskEng) : (s.setEng x).dev = s.dev := rfl
@[simp] theorem State.setEng_ports (s : State) (x : TaskEng) : (s.setEng x).ports = s.ports := rfl
@[simp] theorem State.setEng_tap (s : State) (x : TaskEng) : (s.setEng x).tap = s.tap := rfl
@[simp] theorem State.setEng_inputs (s : State) (x : TaskEng) : (s.setEng x).inputs = s.inputs := rfl
@[simp] theorem State.setEng_outputs (s : State) (x : TaskEng) : (s.setEng x).outputs = s.outputs := rfl
@[simp] theorem State.setEng_turn (s : State) (x : TaskEng) : (s.setEng x).turn = s.turn := rfl
@[simp] theorem State.setEng_epoch (s : State) (x : TaskEng) : (s.setEng x).epoch = s.epoch := rfl
@[simp] theorem State.setEng_poison (s : State) (x : TaskEng) : (s.setEng x).poison = s.poison := rfl
@[simp] theorem State.setEng_oldCode (s : State) (x : TaskEng) : (s.setEng x).oldCode = s.oldCode := rfl

/-! ### setStand -/

@[simp] theorem State.setStand_task (s : State) (x : TaskStand) : (s.setStand x).task = { s.task with stand := x } := rfl
@[simp] theorem State.setStand_parked (s : State) (x : TaskStand) : (s.setStand x).parked = s.parked := rfl
@[simp] theorem State.setStand_hlp (s : State) (x : TaskStand) : (s.setStand x).hlp = s.hlp := rfl
@[simp] theorem State.setStand_parkedH (s : State) (x : TaskStand) : (s.setStand x).parkedH = s.parkedH := rfl
@[simp] theorem State.setStand_saved (s : State) (x : TaskStand) : (s.setStand x).saved = s.saved := rfl
@[simp] theorem State.setStand_cores (s : State) (x : TaskStand) : (s.setStand x).cores = s.cores := rfl
@[simp] theorem State.setStand_clusters (s : State) (x : TaskStand) : (s.setStand x).clusters = s.clusters := rfl
@[simp] theorem State.setStand_dies (s : State) (x : TaskStand) : (s.setStand x).dies = s.dies := rfl
@[simp] theorem State.setStand_mem (s : State) (x : TaskStand) : (s.setStand x).mem = s.mem := rfl
@[simp] theorem State.setStand_writers (s : State) (x : TaskStand) : (s.setStand x).writers = s.writers := rfl
@[simp] theorem State.setStand_dcc (s : State) (x : TaskStand) : (s.setStand x).dcc = s.dcc := rfl
@[simp] theorem State.setStand_queues (s : State) (x : TaskStand) : (s.setStand x).queues = s.queues := rfl
@[simp] theorem State.setStand_nodes (s : State) (x : TaskStand) : (s.setStand x).nodes = s.nodes := rfl
@[simp] theorem State.setStand_events (s : State) (x : TaskStand) : (s.setStand x).events = s.events := rfl
@[simp] theorem State.setStand_fns (s : State) (x : TaskStand) : (s.setStand x).fns = s.fns := rfl
@[simp] theorem State.setStand_kernels (s : State) (x : TaskStand) : (s.setStand x).kernels = s.kernels := rfl
@[simp] theorem State.setStand_objects (s : State) (x : TaskStand) : (s.setStand x).objects = s.objects := rfl
@[simp] theorem State.setStand_keys (s : State) (x : TaskStand) : (s.setStand x).keys = s.keys := rfl
@[simp] theorem State.setStand_stands (s : State) (x : TaskStand) : (s.setStand x).stands = s.stands := rfl
@[simp] theorem State.setStand_colls (s : State) (x : TaskStand) : (s.setStand x).colls = s.colls := rfl
@[simp] theorem State.setStand_specs (s : State) (x : TaskStand) : (s.setStand x).specs = s.specs := rfl
@[simp] theorem State.setStand_rmwQ (s : State) (x : TaskStand) : (s.setStand x).rmwQ = s.rmwQ := rfl
@[simp] theorem State.setStand_replyLog (s : State) (x : TaskStand) : (s.setStand x).replyLog = s.replyLog := rfl
@[simp] theorem State.setStand_released (s : State) (x : TaskStand) : (s.setStand x).released = s.released := rfl
@[simp] theorem State.setStand_live (s : State) (x : TaskStand) : (s.setStand x).live = s.live := rfl
@[simp] theorem State.setStand_tlb (s : State) (x : TaskStand) : (s.setStand x).tlb = s.tlb := rfl
@[simp] theorem State.setStand_pkg (s : State) (x : TaskStand) : (s.setStand x).pkg = s.pkg := rfl
@[simp] theorem State.setStand_dev (s : State) (x : TaskStand) : (s.setStand x).dev = s.dev := rfl
@[simp] theorem State.setStand_ports (s : State) (x : TaskStand) : (s.setStand x).ports = s.ports := rfl
@[simp] theorem State.setStand_tap (s : State) (x : TaskStand) : (s.setStand x).tap = s.tap := rfl
@[simp] theorem State.setStand_inputs (s : State) (x : TaskStand) : (s.setStand x).inputs = s.inputs := rfl
@[simp] theorem State.setStand_outputs (s : State) (x : TaskStand) : (s.setStand x).outputs = s.outputs := rfl
@[simp] theorem State.setStand_turn (s : State) (x : TaskStand) : (s.setStand x).turn = s.turn := rfl
@[simp] theorem State.setStand_epoch (s : State) (x : TaskStand) : (s.setStand x).epoch = s.epoch := rfl
@[simp] theorem State.setStand_poison (s : State) (x : TaskStand) : (s.setStand x).poison = s.poison := rfl
@[simp] theorem State.setStand_oldCode (s : State) (x : TaskStand) : (s.setStand x).oldCode = s.oldCode := rfl

/-! ### setLease -/

@[simp] theorem State.setLease_task (s : State) (x : TaskLease) : (s.setLease x).task = { s.task with lease := x } := rfl
@[simp] theorem State.setLease_parked (s : State) (x : TaskLease) : (s.setLease x).parked = s.parked := rfl
@[simp] theorem State.setLease_hlp (s : State) (x : TaskLease) : (s.setLease x).hlp = s.hlp := rfl
@[simp] theorem State.setLease_parkedH (s : State) (x : TaskLease) : (s.setLease x).parkedH = s.parkedH := rfl
@[simp] theorem State.setLease_saved (s : State) (x : TaskLease) : (s.setLease x).saved = s.saved := rfl
@[simp] theorem State.setLease_cores (s : State) (x : TaskLease) : (s.setLease x).cores = s.cores := rfl
@[simp] theorem State.setLease_clusters (s : State) (x : TaskLease) : (s.setLease x).clusters = s.clusters := rfl
@[simp] theorem State.setLease_dies (s : State) (x : TaskLease) : (s.setLease x).dies = s.dies := rfl
@[simp] theorem State.setLease_mem (s : State) (x : TaskLease) : (s.setLease x).mem = s.mem := rfl
@[simp] theorem State.setLease_writers (s : State) (x : TaskLease) : (s.setLease x).writers = s.writers := rfl
@[simp] theorem State.setLease_dcc (s : State) (x : TaskLease) : (s.setLease x).dcc = s.dcc := rfl
@[simp] theorem State.setLease_queues (s : State) (x : TaskLease) : (s.setLease x).queues = s.queues := rfl
@[simp] theorem State.setLease_nodes (s : State) (x : TaskLease) : (s.setLease x).nodes = s.nodes := rfl
@[simp] theorem State.setLease_events (s : State) (x : TaskLease) : (s.setLease x).events = s.events := rfl
@[simp] theorem State.setLease_fns (s : State) (x : TaskLease) : (s.setLease x).fns = s.fns := rfl
@[simp] theorem State.setLease_kernels (s : State) (x : TaskLease) : (s.setLease x).kernels = s.kernels := rfl
@[simp] theorem State.setLease_objects (s : State) (x : TaskLease) : (s.setLease x).objects = s.objects := rfl
@[simp] theorem State.setLease_keys (s : State) (x : TaskLease) : (s.setLease x).keys = s.keys := rfl
@[simp] theorem State.setLease_stands (s : State) (x : TaskLease) : (s.setLease x).stands = s.stands := rfl
@[simp] theorem State.setLease_colls (s : State) (x : TaskLease) : (s.setLease x).colls = s.colls := rfl
@[simp] theorem State.setLease_specs (s : State) (x : TaskLease) : (s.setLease x).specs = s.specs := rfl
@[simp] theorem State.setLease_rmwQ (s : State) (x : TaskLease) : (s.setLease x).rmwQ = s.rmwQ := rfl
@[simp] theorem State.setLease_replyLog (s : State) (x : TaskLease) : (s.setLease x).replyLog = s.replyLog := rfl
@[simp] theorem State.setLease_released (s : State) (x : TaskLease) : (s.setLease x).released = s.released := rfl
@[simp] theorem State.setLease_live (s : State) (x : TaskLease) : (s.setLease x).live = s.live := rfl
@[simp] theorem State.setLease_tlb (s : State) (x : TaskLease) : (s.setLease x).tlb = s.tlb := rfl
@[simp] theorem State.setLease_pkg (s : State) (x : TaskLease) : (s.setLease x).pkg = s.pkg := rfl
@[simp] theorem State.setLease_dev (s : State) (x : TaskLease) : (s.setLease x).dev = s.dev := rfl
@[simp] theorem State.setLease_ports (s : State) (x : TaskLease) : (s.setLease x).ports = s.ports := rfl
@[simp] theorem State.setLease_tap (s : State) (x : TaskLease) : (s.setLease x).tap = s.tap := rfl
@[simp] theorem State.setLease_inputs (s : State) (x : TaskLease) : (s.setLease x).inputs = s.inputs := rfl
@[simp] theorem State.setLease_outputs (s : State) (x : TaskLease) : (s.setLease x).outputs = s.outputs := rfl
@[simp] theorem State.setLease_turn (s : State) (x : TaskLease) : (s.setLease x).turn = s.turn := rfl
@[simp] theorem State.setLease_epoch (s : State) (x : TaskLease) : (s.setLease x).epoch = s.epoch := rfl
@[simp] theorem State.setLease_poison (s : State) (x : TaskLease) : (s.setLease x).poison = s.poison := rfl
@[simp] theorem State.setLease_oldCode (s : State) (x : TaskLease) : (s.setLease x).oldCode = s.oldCode := rfl

/-! ### setPhase -/

@[simp] theorem State.setPhase_task (s : State) (x : TaskPhase) : (s.setPhase x).task = { s.task with phase := x } := rfl
@[simp] theorem State.setPhase_parked (s : State) (x : TaskPhase) : (s.setPhase x).parked = s.parked := rfl
@[simp] theorem State.setPhase_hlp (s : State) (x : TaskPhase) : (s.setPhase x).hlp = s.hlp := rfl
@[simp] theorem State.setPhase_parkedH (s : State) (x : TaskPhase) : (s.setPhase x).parkedH = s.parkedH := rfl
@[simp] theorem State.setPhase_saved (s : State) (x : TaskPhase) : (s.setPhase x).saved = s.saved := rfl
@[simp] theorem State.setPhase_cores (s : State) (x : TaskPhase) : (s.setPhase x).cores = s.cores := rfl
@[simp] theorem State.setPhase_clusters (s : State) (x : TaskPhase) : (s.setPhase x).clusters = s.clusters := rfl
@[simp] theorem State.setPhase_dies (s : State) (x : TaskPhase) : (s.setPhase x).dies = s.dies := rfl
@[simp] theorem State.setPhase_mem (s : State) (x : TaskPhase) : (s.setPhase x).mem = s.mem := rfl
@[simp] theorem State.setPhase_writers (s : State) (x : TaskPhase) : (s.setPhase x).writers = s.writers := rfl
@[simp] theorem State.setPhase_dcc (s : State) (x : TaskPhase) : (s.setPhase x).dcc = s.dcc := rfl
@[simp] theorem State.setPhase_queues (s : State) (x : TaskPhase) : (s.setPhase x).queues = s.queues := rfl
@[simp] theorem State.setPhase_nodes (s : State) (x : TaskPhase) : (s.setPhase x).nodes = s.nodes := rfl
@[simp] theorem State.setPhase_events (s : State) (x : TaskPhase) : (s.setPhase x).events = s.events := rfl
@[simp] theorem State.setPhase_fns (s : State) (x : TaskPhase) : (s.setPhase x).fns = s.fns := rfl
@[simp] theorem State.setPhase_kernels (s : State) (x : TaskPhase) : (s.setPhase x).kernels = s.kernels := rfl
@[simp] theorem State.setPhase_objects (s : State) (x : TaskPhase) : (s.setPhase x).objects = s.objects := rfl
@[simp] theorem State.setPhase_keys (s : State) (x : TaskPhase) : (s.setPhase x).keys = s.keys := rfl
@[simp] theorem State.setPhase_stands (s : State) (x : TaskPhase) : (s.setPhase x).stands = s.stands := rfl
@[simp] theorem State.setPhase_colls (s : State) (x : TaskPhase) : (s.setPhase x).colls = s.colls := rfl
@[simp] theorem State.setPhase_specs (s : State) (x : TaskPhase) : (s.setPhase x).specs = s.specs := rfl
@[simp] theorem State.setPhase_rmwQ (s : State) (x : TaskPhase) : (s.setPhase x).rmwQ = s.rmwQ := rfl
@[simp] theorem State.setPhase_replyLog (s : State) (x : TaskPhase) : (s.setPhase x).replyLog = s.replyLog := rfl
@[simp] theorem State.setPhase_released (s : State) (x : TaskPhase) : (s.setPhase x).released = s.released := rfl
@[simp] theorem State.setPhase_live (s : State) (x : TaskPhase) : (s.setPhase x).live = s.live := rfl
@[simp] theorem State.setPhase_tlb (s : State) (x : TaskPhase) : (s.setPhase x).tlb = s.tlb := rfl
@[simp] theorem State.setPhase_pkg (s : State) (x : TaskPhase) : (s.setPhase x).pkg = s.pkg := rfl
@[simp] theorem State.setPhase_dev (s : State) (x : TaskPhase) : (s.setPhase x).dev = s.dev := rfl
@[simp] theorem State.setPhase_ports (s : State) (x : TaskPhase) : (s.setPhase x).ports = s.ports := rfl
@[simp] theorem State.setPhase_tap (s : State) (x : TaskPhase) : (s.setPhase x).tap = s.tap := rfl
@[simp] theorem State.setPhase_inputs (s : State) (x : TaskPhase) : (s.setPhase x).inputs = s.inputs := rfl
@[simp] theorem State.setPhase_outputs (s : State) (x : TaskPhase) : (s.setPhase x).outputs = s.outputs := rfl
@[simp] theorem State.setPhase_turn (s : State) (x : TaskPhase) : (s.setPhase x).turn = s.turn := rfl
@[simp] theorem State.setPhase_epoch (s : State) (x : TaskPhase) : (s.setPhase x).epoch = s.epoch := rfl
@[simp] theorem State.setPhase_poison (s : State) (x : TaskPhase) : (s.setPhase x).poison = s.poison := rfl
@[simp] theorem State.setPhase_oldCode (s : State) (x : TaskPhase) : (s.setPhase x).oldCode = s.oldCode := rfl

/-! ### setMem -/

@[simp] theorem State.setMem_task (s : State) (x : Memory) : (s.setMem x).task = s.task := rfl
@[simp] theorem State.setMem_parked (s : State) (x : Memory) : (s.setMem x).parked = s.parked := rfl
@[simp] theorem State.setMem_hlp (s : State) (x : Memory) : (s.setMem x).hlp = s.hlp := rfl
@[simp] theorem State.setMem_parkedH (s : State) (x : Memory) : (s.setMem x).parkedH = s.parkedH := rfl
@[simp] theorem State.setMem_saved (s : State) (x : Memory) : (s.setMem x).saved = s.saved := rfl
@[simp] theorem State.setMem_cores (s : State) (x : Memory) : (s.setMem x).cores = s.cores := rfl
@[simp] theorem State.setMem_clusters (s : State) (x : Memory) : (s.setMem x).clusters = s.clusters := rfl
@[simp] theorem State.setMem_dies (s : State) (x : Memory) : (s.setMem x).dies = s.dies := rfl
@[simp] theorem State.setMem_mem (s : State) (x : Memory) : (s.setMem x).mem = x := rfl
@[simp] theorem State.setMem_writers (s : State) (x : Memory) : (s.setMem x).writers = s.writers := rfl
@[simp] theorem State.setMem_dcc (s : State) (x : Memory) : (s.setMem x).dcc = s.dcc := rfl
@[simp] theorem State.setMem_queues (s : State) (x : Memory) : (s.setMem x).queues = s.queues := rfl
@[simp] theorem State.setMem_nodes (s : State) (x : Memory) : (s.setMem x).nodes = s.nodes := rfl
@[simp] theorem State.setMem_events (s : State) (x : Memory) : (s.setMem x).events = s.events := rfl
@[simp] theorem State.setMem_fns (s : State) (x : Memory) : (s.setMem x).fns = s.fns := rfl
@[simp] theorem State.setMem_kernels (s : State) (x : Memory) : (s.setMem x).kernels = s.kernels := rfl
@[simp] theorem State.setMem_objects (s : State) (x : Memory) : (s.setMem x).objects = s.objects := rfl
@[simp] theorem State.setMem_keys (s : State) (x : Memory) : (s.setMem x).keys = s.keys := rfl
@[simp] theorem State.setMem_stands (s : State) (x : Memory) : (s.setMem x).stands = s.stands := rfl
@[simp] theorem State.setMem_colls (s : State) (x : Memory) : (s.setMem x).colls = s.colls := rfl
@[simp] theorem State.setMem_specs (s : State) (x : Memory) : (s.setMem x).specs = s.specs := rfl
@[simp] theorem State.setMem_rmwQ (s : State) (x : Memory) : (s.setMem x).rmwQ = s.rmwQ := rfl
@[simp] theorem State.setMem_replyLog (s : State) (x : Memory) : (s.setMem x).replyLog = s.replyLog := rfl
@[simp] theorem State.setMem_released (s : State) (x : Memory) : (s.setMem x).released = s.released := rfl
@[simp] theorem State.setMem_live (s : State) (x : Memory) : (s.setMem x).live = s.live := rfl
@[simp] theorem State.setMem_tlb (s : State) (x : Memory) : (s.setMem x).tlb = s.tlb := rfl
@[simp] theorem State.setMem_pkg (s : State) (x : Memory) : (s.setMem x).pkg = s.pkg := rfl
@[simp] theorem State.setMem_dev (s : State) (x : Memory) : (s.setMem x).dev = s.dev := rfl
@[simp] theorem State.setMem_ports (s : State) (x : Memory) : (s.setMem x).ports = s.ports := rfl
@[simp] theorem State.setMem_tap (s : State) (x : Memory) : (s.setMem x).tap = s.tap := rfl
@[simp] theorem State.setMem_inputs (s : State) (x : Memory) : (s.setMem x).inputs = s.inputs := rfl
@[simp] theorem State.setMem_outputs (s : State) (x : Memory) : (s.setMem x).outputs = s.outputs := rfl
@[simp] theorem State.setMem_turn (s : State) (x : Memory) : (s.setMem x).turn = s.turn := rfl
@[simp] theorem State.setMem_epoch (s : State) (x : Memory) : (s.setMem x).epoch = s.epoch := rfl
@[simp] theorem State.setMem_poison (s : State) (x : Memory) : (s.setMem x).poison = s.poison := rfl
@[simp] theorem State.setMem_oldCode (s : State) (x : Memory) : (s.setMem x).oldCode = s.oldCode := rfl

/-! ### setPkg -/

@[simp] theorem State.setPkg_task (s : State) (x : Package) : (s.setPkg x).task = s.task := rfl
@[simp] theorem State.setPkg_parked (s : State) (x : Package) : (s.setPkg x).parked = s.parked := rfl
@[simp] theorem State.setPkg_hlp (s : State) (x : Package) : (s.setPkg x).hlp = s.hlp := rfl
@[simp] theorem State.setPkg_parkedH (s : State) (x : Package) : (s.setPkg x).parkedH = s.parkedH := rfl
@[simp] theorem State.setPkg_saved (s : State) (x : Package) : (s.setPkg x).saved = s.saved := rfl
@[simp] theorem State.setPkg_cores (s : State) (x : Package) : (s.setPkg x).cores = s.cores := rfl
@[simp] theorem State.setPkg_clusters (s : State) (x : Package) : (s.setPkg x).clusters = s.clusters := rfl
@[simp] theorem State.setPkg_dies (s : State) (x : Package) : (s.setPkg x).dies = s.dies := rfl
@[simp] theorem State.setPkg_mem (s : State) (x : Package) : (s.setPkg x).mem = s.mem := rfl
@[simp] theorem State.setPkg_writers (s : State) (x : Package) : (s.setPkg x).writers = s.writers := rfl
@[simp] theorem State.setPkg_dcc (s : State) (x : Package) : (s.setPkg x).dcc = s.dcc := rfl
@[simp] theorem State.setPkg_queues (s : State) (x : Package) : (s.setPkg x).queues = s.queues := rfl
@[simp] theorem State.setPkg_nodes (s : State) (x : Package) : (s.setPkg x).nodes = s.nodes := rfl
@[simp] theorem State.setPkg_events (s : State) (x : Package) : (s.setPkg x).events = s.events := rfl
@[simp] theorem State.setPkg_fns (s : State) (x : Package) : (s.setPkg x).fns = s.fns := rfl
@[simp] theorem State.setPkg_kernels (s : State) (x : Package) : (s.setPkg x).kernels = s.kernels := rfl
@[simp] theorem State.setPkg_objects (s : State) (x : Package) : (s.setPkg x).objects = s.objects := rfl
@[simp] theorem State.setPkg_keys (s : State) (x : Package) : (s.setPkg x).keys = s.keys := rfl
@[simp] theorem State.setPkg_stands (s : State) (x : Package) : (s.setPkg x).stands = s.stands := rfl
@[simp] theorem State.setPkg_colls (s : State) (x : Package) : (s.setPkg x).colls = s.colls := rfl
@[simp] theorem State.setPkg_specs (s : State) (x : Package) : (s.setPkg x).specs = s.specs := rfl
@[simp] theorem State.setPkg_rmwQ (s : State) (x : Package) : (s.setPkg x).rmwQ = s.rmwQ := rfl
@[simp] theorem State.setPkg_replyLog (s : State) (x : Package) : (s.setPkg x).replyLog = s.replyLog := rfl
@[simp] theorem State.setPkg_released (s : State) (x : Package) : (s.setPkg x).released = s.released := rfl
@[simp] theorem State.setPkg_live (s : State) (x : Package) : (s.setPkg x).live = s.live := rfl
@[simp] theorem State.setPkg_tlb (s : State) (x : Package) : (s.setPkg x).tlb = s.tlb := rfl
@[simp] theorem State.setPkg_pkg (s : State) (x : Package) : (s.setPkg x).pkg = x := rfl
@[simp] theorem State.setPkg_dev (s : State) (x : Package) : (s.setPkg x).dev = s.dev := rfl
@[simp] theorem State.setPkg_ports (s : State) (x : Package) : (s.setPkg x).ports = s.ports := rfl
@[simp] theorem State.setPkg_tap (s : State) (x : Package) : (s.setPkg x).tap = s.tap := rfl
@[simp] theorem State.setPkg_inputs (s : State) (x : Package) : (s.setPkg x).inputs = s.inputs := rfl
@[simp] theorem State.setPkg_outputs (s : State) (x : Package) : (s.setPkg x).outputs = s.outputs := rfl
@[simp] theorem State.setPkg_turn (s : State) (x : Package) : (s.setPkg x).turn = s.turn := rfl
@[simp] theorem State.setPkg_epoch (s : State) (x : Package) : (s.setPkg x).epoch = s.epoch := rfl
@[simp] theorem State.setPkg_poison (s : State) (x : Package) : (s.setPkg x).poison = s.poison := rfl
@[simp] theorem State.setPkg_oldCode (s : State) (x : Package) : (s.setPkg x).oldCode = s.oldCode := rfl

/-! ### setCore -/

@[simp] theorem State.setCore_task (s : State) (x : Core) : (s.setCore x).task = s.task := rfl
@[simp] theorem State.setCore_parked (s : State) (x : Core) : (s.setCore x).parked = s.parked := rfl
@[simp] theorem State.setCore_hlp (s : State) (x : Core) : (s.setCore x).hlp = s.hlp := rfl
@[simp] theorem State.setCore_parkedH (s : State) (x : Core) : (s.setCore x).parkedH = s.parkedH := rfl
@[simp] theorem State.setCore_saved (s : State) (x : Core) : (s.setCore x).saved = s.saved := rfl
@[simp] theorem State.setCore_clusters (s : State) (x : Core) : (s.setCore x).clusters = s.clusters := rfl
@[simp] theorem State.setCore_dies (s : State) (x : Core) : (s.setCore x).dies = s.dies := rfl
@[simp] theorem State.setCore_mem (s : State) (x : Core) : (s.setCore x).mem = s.mem := rfl
@[simp] theorem State.setCore_writers (s : State) (x : Core) : (s.setCore x).writers = s.writers := rfl
@[simp] theorem State.setCore_dcc (s : State) (x : Core) : (s.setCore x).dcc = s.dcc := rfl
@[simp] theorem State.setCore_queues (s : State) (x : Core) : (s.setCore x).queues = s.queues := rfl
@[simp] theorem State.setCore_nodes (s : State) (x : Core) : (s.setCore x).nodes = s.nodes := rfl
@[simp] theorem State.setCore_events (s : State) (x : Core) : (s.setCore x).events = s.events := rfl
@[simp] theorem State.setCore_fns (s : State) (x : Core) : (s.setCore x).fns = s.fns := rfl
@[simp] theorem State.setCore_kernels (s : State) (x : Core) : (s.setCore x).kernels = s.kernels := rfl
@[simp] theorem State.setCore_objects (s : State) (x : Core) : (s.setCore x).objects = s.objects := rfl
@[simp] theorem State.setCore_keys (s : State) (x : Core) : (s.setCore x).keys = s.keys := rfl
@[simp] theorem State.setCore_stands (s : State) (x : Core) : (s.setCore x).stands = s.stands := rfl
@[simp] theorem State.setCore_colls (s : State) (x : Core) : (s.setCore x).colls = s.colls := rfl
@[simp] theorem State.setCore_specs (s : State) (x : Core) : (s.setCore x).specs = s.specs := rfl
@[simp] theorem State.setCore_rmwQ (s : State) (x : Core) : (s.setCore x).rmwQ = s.rmwQ := rfl
@[simp] theorem State.setCore_replyLog (s : State) (x : Core) : (s.setCore x).replyLog = s.replyLog := rfl
@[simp] theorem State.setCore_released (s : State) (x : Core) : (s.setCore x).released = s.released := rfl
@[simp] theorem State.setCore_live (s : State) (x : Core) : (s.setCore x).live = s.live := rfl
@[simp] theorem State.setCore_tlb (s : State) (x : Core) : (s.setCore x).tlb = s.tlb := rfl
@[simp] theorem State.setCore_pkg (s : State) (x : Core) : (s.setCore x).pkg = s.pkg := rfl
@[simp] theorem State.setCore_dev (s : State) (x : Core) : (s.setCore x).dev = s.dev := rfl
@[simp] theorem State.setCore_ports (s : State) (x : Core) : (s.setCore x).ports = s.ports := rfl
@[simp] theorem State.setCore_tap (s : State) (x : Core) : (s.setCore x).tap = s.tap := rfl
@[simp] theorem State.setCore_inputs (s : State) (x : Core) : (s.setCore x).inputs = s.inputs := rfl
@[simp] theorem State.setCore_outputs (s : State) (x : Core) : (s.setCore x).outputs = s.outputs := rfl
@[simp] theorem State.setCore_turn (s : State) (x : Core) : (s.setCore x).turn = s.turn := rfl
@[simp] theorem State.setCore_epoch (s : State) (x : Core) : (s.setCore x).epoch = s.epoch := rfl
@[simp] theorem State.setCore_poison (s : State) (x : Core) : (s.setCore x).poison = s.poison := rfl
@[simp] theorem State.setCore_oldCode (s : State) (x : Core) : (s.setCore x).oldCode = s.oldCode := rfl

/-! ### setCluster -/

@[simp] theorem State.setCluster_task (s : State) (c : Nat) (x : Cluster) : (s.setCluster c x).task = s.task := rfl
@[simp] theorem State.setCluster_parked (s : State) (c : Nat) (x : Cluster) : (s.setCluster c x).parked = s.parked := rfl
@[simp] theorem State.setCluster_hlp (s : State) (c : Nat) (x : Cluster) : (s.setCluster c x).hlp = s.hlp := rfl
@[simp] theorem State.setCluster_parkedH (s : State) (c : Nat) (x : Cluster) : (s.setCluster c x).parkedH = s.parkedH := rfl
@[simp] theorem State.setCluster_saved (s : State) (c : Nat) (x : Cluster) : (s.setCluster c x).saved = s.saved := rfl
@[simp] theorem State.setCluster_cores (s : State) (c : Nat) (x : Cluster) : (s.setCluster c x).cores = s.cores := rfl
@[simp] theorem State.setCluster_dies (s : State) (c : Nat) (x : Cluster) : (s.setCluster c x).dies = s.dies := rfl
@[simp] theorem State.setCluster_mem (s : State) (c : Nat) (x : Cluster) : (s.setCluster c x).mem = s.mem := rfl
@[simp] theorem State.setCluster_writers (s : State) (c : Nat) (x : Cluster) : (s.setCluster c x).writers = s.writers := rfl
@[simp] theorem State.setCluster_dcc (s : State) (c : Nat) (x : Cluster) : (s.setCluster c x).dcc = s.dcc := rfl
@[simp] theorem State.setCluster_queues (s : State) (c : Nat) (x : Cluster) : (s.setCluster c x).queues = s.queues := rfl
@[simp] theorem State.setCluster_nodes (s : State) (c : Nat) (x : Cluster) : (s.setCluster c x).nodes = s.nodes := rfl
@[simp] theorem State.setCluster_events (s : State) (c : Nat) (x : Cluster) : (s.setCluster c x).events = s.events := rfl
@[simp] theorem State.setCluster_fns (s : State) (c : Nat) (x : Cluster) : (s.setCluster c x).fns = s.fns := rfl
@[simp] theorem State.setCluster_kernels (s : State) (c : Nat) (x : Cluster) : (s.setCluster c x).kernels = s.kernels := rfl
@[simp] theorem State.setCluster_objects (s : State) (c : Nat) (x : Cluster) : (s.setCluster c x).objects = s.objects := rfl
@[simp] theorem State.setCluster_keys (s : State) (c : Nat) (x : Cluster) : (s.setCluster c x).keys = s.keys := rfl
@[simp] theorem State.setCluster_stands (s : State) (c : Nat) (x : Cluster) : (s.setCluster c x).stands = s.stands := rfl
@[simp] theorem State.setCluster_colls (s : State) (c : Nat) (x : Cluster) : (s.setCluster c x).colls = s.colls := rfl
@[simp] theorem State.setCluster_specs (s : State) (c : Nat) (x : Cluster) : (s.setCluster c x).specs = s.specs := rfl
@[simp] theorem State.setCluster_rmwQ (s : State) (c : Nat) (x : Cluster) : (s.setCluster c x).rmwQ = s.rmwQ := rfl
@[simp] theorem State.setCluster_replyLog (s : State) (c : Nat) (x : Cluster) : (s.setCluster c x).replyLog = s.replyLog := rfl
@[simp] theorem State.setCluster_released (s : State) (c : Nat) (x : Cluster) : (s.setCluster c x).released = s.released := rfl
@[simp] theorem State.setCluster_live (s : State) (c : Nat) (x : Cluster) : (s.setCluster c x).live = s.live := rfl
@[simp] theorem State.setCluster_tlb (s : State) (c : Nat) (x : Cluster) : (s.setCluster c x).tlb = s.tlb := rfl
@[simp] theorem State.setCluster_pkg (s : State) (c : Nat) (x : Cluster) : (s.setCluster c x).pkg = s.pkg := rfl
@[simp] theorem State.setCluster_dev (s : State) (c : Nat) (x : Cluster) : (s.setCluster c x).dev = s.dev := rfl
@[simp] theorem State.setCluster_ports (s : State) (c : Nat) (x : Cluster) : (s.setCluster c x).ports = s.ports := rfl
@[simp] theorem State.setCluster_tap (s : State) (c : Nat) (x : Cluster) : (s.setCluster c x).tap = s.tap := rfl
@[simp] theorem State.setCluster_inputs (s : State) (c : Nat) (x : Cluster) : (s.setCluster c x).inputs = s.inputs := rfl
@[simp] theorem State.setCluster_outputs (s : State) (c : Nat) (x : Cluster) : (s.setCluster c x).outputs = s.outputs := rfl
@[simp] theorem State.setCluster_turn (s : State) (c : Nat) (x : Cluster) : (s.setCluster c x).turn = s.turn := rfl
@[simp] theorem State.setCluster_epoch (s : State) (c : Nat) (x : Cluster) : (s.setCluster c x).epoch = s.epoch := rfl
@[simp] theorem State.setCluster_poison (s : State) (c : Nat) (x : Cluster) : (s.setCluster c x).poison = s.poison := rfl
@[simp] theorem State.setCluster_oldCode (s : State) (c : Nat) (x : Cluster) : (s.setCluster c x).oldCode = s.oldCode := rfl

/-! ### setDie -/

@[simp] theorem State.setDie_task (s : State) (d : Nat) (x : Die) : (s.setDie d x).task = s.task := rfl
@[simp] theorem State.setDie_parked (s : State) (d : Nat) (x : Die) : (s.setDie d x).parked = s.parked := rfl
@[simp] theorem State.setDie_hlp (s : State) (d : Nat) (x : Die) : (s.setDie d x).hlp = s.hlp := rfl
@[simp] theorem State.setDie_parkedH (s : State) (d : Nat) (x : Die) : (s.setDie d x).parkedH = s.parkedH := rfl
@[simp] theorem State.setDie_saved (s : State) (d : Nat) (x : Die) : (s.setDie d x).saved = s.saved := rfl
@[simp] theorem State.setDie_cores (s : State) (d : Nat) (x : Die) : (s.setDie d x).cores = s.cores := rfl
@[simp] theorem State.setDie_clusters (s : State) (d : Nat) (x : Die) : (s.setDie d x).clusters = s.clusters := rfl
@[simp] theorem State.setDie_mem (s : State) (d : Nat) (x : Die) : (s.setDie d x).mem = s.mem := rfl
@[simp] theorem State.setDie_writers (s : State) (d : Nat) (x : Die) : (s.setDie d x).writers = s.writers := rfl
@[simp] theorem State.setDie_dcc (s : State) (d : Nat) (x : Die) : (s.setDie d x).dcc = s.dcc := rfl
@[simp] theorem State.setDie_queues (s : State) (d : Nat) (x : Die) : (s.setDie d x).queues = s.queues := rfl
@[simp] theorem State.setDie_nodes (s : State) (d : Nat) (x : Die) : (s.setDie d x).nodes = s.nodes := rfl
@[simp] theorem State.setDie_events (s : State) (d : Nat) (x : Die) : (s.setDie d x).events = s.events := rfl
@[simp] theorem State.setDie_fns (s : State) (d : Nat) (x : Die) : (s.setDie d x).fns = s.fns := rfl
@[simp] theorem State.setDie_kernels (s : State) (d : Nat) (x : Die) : (s.setDie d x).kernels = s.kernels := rfl
@[simp] theorem State.setDie_objects (s : State) (d : Nat) (x : Die) : (s.setDie d x).objects = s.objects := rfl
@[simp] theorem State.setDie_keys (s : State) (d : Nat) (x : Die) : (s.setDie d x).keys = s.keys := rfl
@[simp] theorem State.setDie_stands (s : State) (d : Nat) (x : Die) : (s.setDie d x).stands = s.stands := rfl
@[simp] theorem State.setDie_colls (s : State) (d : Nat) (x : Die) : (s.setDie d x).colls = s.colls := rfl
@[simp] theorem State.setDie_specs (s : State) (d : Nat) (x : Die) : (s.setDie d x).specs = s.specs := rfl
@[simp] theorem State.setDie_rmwQ (s : State) (d : Nat) (x : Die) : (s.setDie d x).rmwQ = s.rmwQ := rfl
@[simp] theorem State.setDie_replyLog (s : State) (d : Nat) (x : Die) : (s.setDie d x).replyLog = s.replyLog := rfl
@[simp] theorem State.setDie_released (s : State) (d : Nat) (x : Die) : (s.setDie d x).released = s.released := rfl
@[simp] theorem State.setDie_live (s : State) (d : Nat) (x : Die) : (s.setDie d x).live = s.live := rfl
@[simp] theorem State.setDie_tlb (s : State) (d : Nat) (x : Die) : (s.setDie d x).tlb = s.tlb := rfl
@[simp] theorem State.setDie_pkg (s : State) (d : Nat) (x : Die) : (s.setDie d x).pkg = s.pkg := rfl
@[simp] theorem State.setDie_dev (s : State) (d : Nat) (x : Die) : (s.setDie d x).dev = s.dev := rfl
@[simp] theorem State.setDie_ports (s : State) (d : Nat) (x : Die) : (s.setDie d x).ports = s.ports := rfl
@[simp] theorem State.setDie_tap (s : State) (d : Nat) (x : Die) : (s.setDie d x).tap = s.tap := rfl
@[simp] theorem State.setDie_inputs (s : State) (d : Nat) (x : Die) : (s.setDie d x).inputs = s.inputs := rfl
@[simp] theorem State.setDie_outputs (s : State) (d : Nat) (x : Die) : (s.setDie d x).outputs = s.outputs := rfl
@[simp] theorem State.setDie_turn (s : State) (d : Nat) (x : Die) : (s.setDie d x).turn = s.turn := rfl
@[simp] theorem State.setDie_epoch (s : State) (d : Nat) (x : Die) : (s.setDie d x).epoch = s.epoch := rfl
@[simp] theorem State.setDie_poison (s : State) (d : Nat) (x : Die) : (s.setDie d x).poison = s.poison := rfl
@[simp] theorem State.setDie_oldCode (s : State) (d : Nat) (x : Die) : (s.setDie d x).oldCode = s.oldCode := rfl

/-! ### setQueue -/

@[simp] theorem State.setQueue_task (s : State) (q : Nat) (x : Queue) : (s.setQueue q x).task = s.task := rfl
@[simp] theorem State.setQueue_parked (s : State) (q : Nat) (x : Queue) : (s.setQueue q x).parked = s.parked := rfl
@[simp] theorem State.setQueue_hlp (s : State) (q : Nat) (x : Queue) : (s.setQueue q x).hlp = s.hlp := rfl
@[simp] theorem State.setQueue_parkedH (s : State) (q : Nat) (x : Queue) : (s.setQueue q x).parkedH = s.parkedH := rfl
@[simp] theorem State.setQueue_saved (s : State) (q : Nat) (x : Queue) : (s.setQueue q x).saved = s.saved := rfl
@[simp] theorem State.setQueue_cores (s : State) (q : Nat) (x : Queue) : (s.setQueue q x).cores = s.cores := rfl
@[simp] theorem State.setQueue_clusters (s : State) (q : Nat) (x : Queue) : (s.setQueue q x).clusters = s.clusters := rfl
@[simp] theorem State.setQueue_dies (s : State) (q : Nat) (x : Queue) : (s.setQueue q x).dies = s.dies := rfl
@[simp] theorem State.setQueue_mem (s : State) (q : Nat) (x : Queue) : (s.setQueue q x).mem = s.mem := rfl
@[simp] theorem State.setQueue_writers (s : State) (q : Nat) (x : Queue) : (s.setQueue q x).writers = s.writers := rfl
@[simp] theorem State.setQueue_dcc (s : State) (q : Nat) (x : Queue) : (s.setQueue q x).dcc = s.dcc := rfl
@[simp] theorem State.setQueue_nodes (s : State) (q : Nat) (x : Queue) : (s.setQueue q x).nodes = s.nodes := rfl
@[simp] theorem State.setQueue_events (s : State) (q : Nat) (x : Queue) : (s.setQueue q x).events = s.events := rfl
@[simp] theorem State.setQueue_fns (s : State) (q : Nat) (x : Queue) : (s.setQueue q x).fns = s.fns := rfl
@[simp] theorem State.setQueue_kernels (s : State) (q : Nat) (x : Queue) : (s.setQueue q x).kernels = s.kernels := rfl
@[simp] theorem State.setQueue_objects (s : State) (q : Nat) (x : Queue) : (s.setQueue q x).objects = s.objects := rfl
@[simp] theorem State.setQueue_keys (s : State) (q : Nat) (x : Queue) : (s.setQueue q x).keys = s.keys := rfl
@[simp] theorem State.setQueue_stands (s : State) (q : Nat) (x : Queue) : (s.setQueue q x).stands = s.stands := rfl
@[simp] theorem State.setQueue_colls (s : State) (q : Nat) (x : Queue) : (s.setQueue q x).colls = s.colls := rfl
@[simp] theorem State.setQueue_specs (s : State) (q : Nat) (x : Queue) : (s.setQueue q x).specs = s.specs := rfl
@[simp] theorem State.setQueue_rmwQ (s : State) (q : Nat) (x : Queue) : (s.setQueue q x).rmwQ = s.rmwQ := rfl
@[simp] theorem State.setQueue_replyLog (s : State) (q : Nat) (x : Queue) : (s.setQueue q x).replyLog = s.replyLog := rfl
@[simp] theorem State.setQueue_released (s : State) (q : Nat) (x : Queue) : (s.setQueue q x).released = s.released := rfl
@[simp] theorem State.setQueue_live (s : State) (q : Nat) (x : Queue) : (s.setQueue q x).live = s.live := rfl
@[simp] theorem State.setQueue_tlb (s : State) (q : Nat) (x : Queue) : (s.setQueue q x).tlb = s.tlb := rfl
@[simp] theorem State.setQueue_pkg (s : State) (q : Nat) (x : Queue) : (s.setQueue q x).pkg = s.pkg := rfl
@[simp] theorem State.setQueue_dev (s : State) (q : Nat) (x : Queue) : (s.setQueue q x).dev = s.dev := rfl
@[simp] theorem State.setQueue_ports (s : State) (q : Nat) (x : Queue) : (s.setQueue q x).ports = s.ports := rfl
@[simp] theorem State.setQueue_tap (s : State) (q : Nat) (x : Queue) : (s.setQueue q x).tap = s.tap := rfl
@[simp] theorem State.setQueue_inputs (s : State) (q : Nat) (x : Queue) : (s.setQueue q x).inputs = s.inputs := rfl
@[simp] theorem State.setQueue_outputs (s : State) (q : Nat) (x : Queue) : (s.setQueue q x).outputs = s.outputs := rfl
@[simp] theorem State.setQueue_turn (s : State) (q : Nat) (x : Queue) : (s.setQueue q x).turn = s.turn := rfl
@[simp] theorem State.setQueue_epoch (s : State) (q : Nat) (x : Queue) : (s.setQueue q x).epoch = s.epoch := rfl
@[simp] theorem State.setQueue_poison (s : State) (q : Nat) (x : Queue) : (s.setQueue q x).poison = s.poison := rfl
@[simp] theorem State.setQueue_oldCode (s : State) (q : Nat) (x : Queue) : (s.setQueue q x).oldCode = s.oldCode := rfl

/-! ### setFn -/

@[simp] theorem State.setFn_task (s : State) (f : Nat) (x : FnRegs) : (s.setFn f x).task = s.task := rfl
@[simp] theorem State.setFn_parked (s : State) (f : Nat) (x : FnRegs) : (s.setFn f x).parked = s.parked := rfl
@[simp] theorem State.setFn_hlp (s : State) (f : Nat) (x : FnRegs) : (s.setFn f x).hlp = s.hlp := rfl
@[simp] theorem State.setFn_parkedH (s : State) (f : Nat) (x : FnRegs) : (s.setFn f x).parkedH = s.parkedH := rfl
@[simp] theorem State.setFn_saved (s : State) (f : Nat) (x : FnRegs) : (s.setFn f x).saved = s.saved := rfl
@[simp] theorem State.setFn_cores (s : State) (f : Nat) (x : FnRegs) : (s.setFn f x).cores = s.cores := rfl
@[simp] theorem State.setFn_clusters (s : State) (f : Nat) (x : FnRegs) : (s.setFn f x).clusters = s.clusters := rfl
@[simp] theorem State.setFn_dies (s : State) (f : Nat) (x : FnRegs) : (s.setFn f x).dies = s.dies := rfl
@[simp] theorem State.setFn_mem (s : State) (f : Nat) (x : FnRegs) : (s.setFn f x).mem = s.mem := rfl
@[simp] theorem State.setFn_writers (s : State) (f : Nat) (x : FnRegs) : (s.setFn f x).writers = s.writers := rfl
@[simp] theorem State.setFn_dcc (s : State) (f : Nat) (x : FnRegs) : (s.setFn f x).dcc = s.dcc := rfl
@[simp] theorem State.setFn_queues (s : State) (f : Nat) (x : FnRegs) : (s.setFn f x).queues = s.queues := rfl
@[simp] theorem State.setFn_nodes (s : State) (f : Nat) (x : FnRegs) : (s.setFn f x).nodes = s.nodes := rfl
@[simp] theorem State.setFn_events (s : State) (f : Nat) (x : FnRegs) : (s.setFn f x).events = s.events := rfl
@[simp] theorem State.setFn_kernels (s : State) (f : Nat) (x : FnRegs) : (s.setFn f x).kernels = s.kernels := rfl
@[simp] theorem State.setFn_objects (s : State) (f : Nat) (x : FnRegs) : (s.setFn f x).objects = s.objects := rfl
@[simp] theorem State.setFn_keys (s : State) (f : Nat) (x : FnRegs) : (s.setFn f x).keys = s.keys := rfl
@[simp] theorem State.setFn_stands (s : State) (f : Nat) (x : FnRegs) : (s.setFn f x).stands = s.stands := rfl
@[simp] theorem State.setFn_colls (s : State) (f : Nat) (x : FnRegs) : (s.setFn f x).colls = s.colls := rfl
@[simp] theorem State.setFn_specs (s : State) (f : Nat) (x : FnRegs) : (s.setFn f x).specs = s.specs := rfl
@[simp] theorem State.setFn_rmwQ (s : State) (f : Nat) (x : FnRegs) : (s.setFn f x).rmwQ = s.rmwQ := rfl
@[simp] theorem State.setFn_replyLog (s : State) (f : Nat) (x : FnRegs) : (s.setFn f x).replyLog = s.replyLog := rfl
@[simp] theorem State.setFn_released (s : State) (f : Nat) (x : FnRegs) : (s.setFn f x).released = s.released := rfl
@[simp] theorem State.setFn_live (s : State) (f : Nat) (x : FnRegs) : (s.setFn f x).live = s.live := rfl
@[simp] theorem State.setFn_tlb (s : State) (f : Nat) (x : FnRegs) : (s.setFn f x).tlb = s.tlb := rfl
@[simp] theorem State.setFn_pkg (s : State) (f : Nat) (x : FnRegs) : (s.setFn f x).pkg = s.pkg := rfl
@[simp] theorem State.setFn_dev (s : State) (f : Nat) (x : FnRegs) : (s.setFn f x).dev = s.dev := rfl
@[simp] theorem State.setFn_ports (s : State) (f : Nat) (x : FnRegs) : (s.setFn f x).ports = s.ports := rfl
@[simp] theorem State.setFn_tap (s : State) (f : Nat) (x : FnRegs) : (s.setFn f x).tap = s.tap := rfl
@[simp] theorem State.setFn_inputs (s : State) (f : Nat) (x : FnRegs) : (s.setFn f x).inputs = s.inputs := rfl
@[simp] theorem State.setFn_outputs (s : State) (f : Nat) (x : FnRegs) : (s.setFn f x).outputs = s.outputs := rfl
@[simp] theorem State.setFn_turn (s : State) (f : Nat) (x : FnRegs) : (s.setFn f x).turn = s.turn := rfl
@[simp] theorem State.setFn_epoch (s : State) (f : Nat) (x : FnRegs) : (s.setFn f x).epoch = s.epoch := rfl
@[simp] theorem State.setFn_poison (s : State) (f : Nat) (x : FnRegs) : (s.setFn f x).poison = s.poison := rfl
@[simp] theorem State.setFn_oldCode (s : State) (f : Nat) (x : FnRegs) : (s.setFn f x).oldCode = s.oldCode := rfl

/-! ### tick -/

@[simp] theorem State.tick_task (s : State)  : (s.tick).task = s.task := rfl
@[simp] theorem State.tick_parked (s : State)  : (s.tick).parked = s.parked := rfl
@[simp] theorem State.tick_hlp (s : State)  : (s.tick).hlp = s.hlp := rfl
@[simp] theorem State.tick_parkedH (s : State)  : (s.tick).parkedH = s.parkedH := rfl
@[simp] theorem State.tick_saved (s : State)  : (s.tick).saved = s.saved := rfl
@[simp] theorem State.tick_cores (s : State)  : (s.tick).cores = s.cores := rfl
@[simp] theorem State.tick_clusters (s : State)  : (s.tick).clusters = s.clusters := rfl
@[simp] theorem State.tick_dies (s : State)  : (s.tick).dies = s.dies := rfl
@[simp] theorem State.tick_mem (s : State)  : (s.tick).mem = s.mem := rfl
@[simp] theorem State.tick_writers (s : State)  : (s.tick).writers = s.writers := rfl
@[simp] theorem State.tick_dcc (s : State)  : (s.tick).dcc = s.dcc + 1 := rfl
@[simp] theorem State.tick_queues (s : State)  : (s.tick).queues = s.queues := rfl
@[simp] theorem State.tick_nodes (s : State)  : (s.tick).nodes = s.nodes := rfl
@[simp] theorem State.tick_events (s : State)  : (s.tick).events = s.events := rfl
@[simp] theorem State.tick_fns (s : State)  : (s.tick).fns = s.fns := rfl
@[simp] theorem State.tick_kernels (s : State)  : (s.tick).kernels = s.kernels := rfl
@[simp] theorem State.tick_objects (s : State)  : (s.tick).objects = s.objects := rfl
@[simp] theorem State.tick_keys (s : State)  : (s.tick).keys = s.keys := rfl
@[simp] theorem State.tick_stands (s : State)  : (s.tick).stands = s.stands := rfl
@[simp] theorem State.tick_colls (s : State)  : (s.tick).colls = s.colls := rfl
@[simp] theorem State.tick_specs (s : State)  : (s.tick).specs = s.specs := rfl
@[simp] theorem State.tick_rmwQ (s : State)  : (s.tick).rmwQ = s.rmwQ := rfl
@[simp] theorem State.tick_replyLog (s : State)  : (s.tick).replyLog = s.replyLog := rfl
@[simp] theorem State.tick_released (s : State)  : (s.tick).released = s.released := rfl
@[simp] theorem State.tick_live (s : State)  : (s.tick).live = s.live := rfl
@[simp] theorem State.tick_tlb (s : State)  : (s.tick).tlb = s.tlb := rfl
@[simp] theorem State.tick_pkg (s : State)  : (s.tick).pkg = s.pkg := rfl
@[simp] theorem State.tick_dev (s : State)  : (s.tick).dev = s.dev := rfl
@[simp] theorem State.tick_ports (s : State)  : (s.tick).ports = s.ports := rfl
@[simp] theorem State.tick_tap (s : State)  : (s.tick).tap = s.tap := rfl
@[simp] theorem State.tick_inputs (s : State)  : (s.tick).inputs = s.inputs := rfl
@[simp] theorem State.tick_outputs (s : State)  : (s.tick).outputs = s.outputs := rfl
@[simp] theorem State.tick_turn (s : State)  : (s.tick).turn = s.turn := rfl
@[simp] theorem State.tick_epoch (s : State)  : (s.tick).epoch = s.epoch + 1 := rfl
@[simp] theorem State.tick_poison (s : State)  : (s.tick).poison = s.poison := rfl
@[simp] theorem State.tick_oldCode (s : State)  : (s.tick).oldCode = s.oldCode := rfl

/-! ### emit -/

@[simp] theorem State.emit_task (s : State) (o : Output) : (s.emit o).task = s.task := rfl
@[simp] theorem State.emit_parked (s : State) (o : Output) : (s.emit o).parked = s.parked := rfl
@[simp] theorem State.emit_hlp (s : State) (o : Output) : (s.emit o).hlp = s.hlp := rfl
@[simp] theorem State.emit_parkedH (s : State) (o : Output) : (s.emit o).parkedH = s.parkedH := rfl
@[simp] theorem State.emit_saved (s : State) (o : Output) : (s.emit o).saved = s.saved := rfl
@[simp] theorem State.emit_cores (s : State) (o : Output) : (s.emit o).cores = s.cores := rfl
@[simp] theorem State.emit_clusters (s : State) (o : Output) : (s.emit o).clusters = s.clusters := rfl
@[simp] theorem State.emit_dies (s : State) (o : Output) : (s.emit o).dies = s.dies := rfl
@[simp] theorem State.emit_mem (s : State) (o : Output) : (s.emit o).mem = s.mem := rfl
@[simp] theorem State.emit_writers (s : State) (o : Output) : (s.emit o).writers = s.writers := rfl
@[simp] theorem State.emit_dcc (s : State) (o : Output) : (s.emit o).dcc = s.dcc := rfl
@[simp] theorem State.emit_queues (s : State) (o : Output) : (s.emit o).queues = s.queues := rfl
@[simp] theorem State.emit_nodes (s : State) (o : Output) : (s.emit o).nodes = s.nodes := rfl
@[simp] theorem State.emit_events (s : State) (o : Output) : (s.emit o).events = s.events := rfl
@[simp] theorem State.emit_fns (s : State) (o : Output) : (s.emit o).fns = s.fns := rfl
@[simp] theorem State.emit_kernels (s : State) (o : Output) : (s.emit o).kernels = s.kernels := rfl
@[simp] theorem State.emit_objects (s : State) (o : Output) : (s.emit o).objects = s.objects := rfl
@[simp] theorem State.emit_keys (s : State) (o : Output) : (s.emit o).keys = s.keys := rfl
@[simp] theorem State.emit_stands (s : State) (o : Output) : (s.emit o).stands = s.stands := rfl
@[simp] theorem State.emit_colls (s : State) (o : Output) : (s.emit o).colls = s.colls := rfl
@[simp] theorem State.emit_specs (s : State) (o : Output) : (s.emit o).specs = s.specs := rfl
@[simp] theorem State.emit_rmwQ (s : State) (o : Output) : (s.emit o).rmwQ = s.rmwQ := rfl
@[simp] theorem State.emit_replyLog (s : State) (o : Output) : (s.emit o).replyLog = s.replyLog := rfl
@[simp] theorem State.emit_released (s : State) (o : Output) : (s.emit o).released = s.released := rfl
@[simp] theorem State.emit_live (s : State) (o : Output) : (s.emit o).live = s.live := rfl
@[simp] theorem State.emit_tlb (s : State) (o : Output) : (s.emit o).tlb = s.tlb := rfl
@[simp] theorem State.emit_pkg (s : State) (o : Output) : (s.emit o).pkg = s.pkg := rfl
@[simp] theorem State.emit_dev (s : State) (o : Output) : (s.emit o).dev = s.dev := rfl
@[simp] theorem State.emit_ports (s : State) (o : Output) : (s.emit o).ports = s.ports := rfl
@[simp] theorem State.emit_tap (s : State) (o : Output) : (s.emit o).tap = s.tap := rfl
@[simp] theorem State.emit_inputs (s : State) (o : Output) : (s.emit o).inputs = s.inputs := rfl
@[simp] theorem State.emit_outputs (s : State) (o : Output) : (s.emit o).outputs = s.outputs ++ [o] := rfl
@[simp] theorem State.emit_turn (s : State) (o : Output) : (s.emit o).turn = s.turn := rfl
@[simp] theorem State.emit_epoch (s : State) (o : Output) : (s.emit o).epoch = s.epoch := rfl
@[simp] theorem State.emit_poison (s : State) (o : Output) : (s.emit o).poison = s.poison := rfl
@[simp] theorem State.emit_oldCode (s : State) (o : Output) : (s.emit o).oldCode = s.oldCode := rfl

/-! ### event -/

@[simp] theorem State.event_task (s : State) (q n : Nat) (k : EventKind) : (s.event q n k).task = s.task := rfl
@[simp] theorem State.event_parked (s : State) (q n : Nat) (k : EventKind) : (s.event q n k).parked = s.parked := rfl
@[simp] theorem State.event_hlp (s : State) (q n : Nat) (k : EventKind) : (s.event q n k).hlp = s.hlp := rfl
@[simp] theorem State.event_parkedH (s : State) (q n : Nat) (k : EventKind) : (s.event q n k).parkedH = s.parkedH := rfl
@[simp] theorem State.event_saved (s : State) (q n : Nat) (k : EventKind) : (s.event q n k).saved = s.saved := rfl
@[simp] theorem State.event_cores (s : State) (q n : Nat) (k : EventKind) : (s.event q n k).cores = s.cores := rfl
@[simp] theorem State.event_clusters (s : State) (q n : Nat) (k : EventKind) : (s.event q n k).clusters = s.clusters := rfl
@[simp] theorem State.event_dies (s : State) (q n : Nat) (k : EventKind) : (s.event q n k).dies = s.dies := rfl
@[simp] theorem State.event_mem (s : State) (q n : Nat) (k : EventKind) : (s.event q n k).mem = s.mem := rfl
@[simp] theorem State.event_writers (s : State) (q n : Nat) (k : EventKind) : (s.event q n k).writers = s.writers := rfl
@[simp] theorem State.event_dcc (s : State) (q n : Nat) (k : EventKind) : (s.event q n k).dcc = s.dcc := rfl
@[simp] theorem State.event_queues (s : State) (q n : Nat) (k : EventKind) : (s.event q n k).queues = s.queues := rfl
@[simp] theorem State.event_nodes (s : State) (q n : Nat) (k : EventKind) : (s.event q n k).nodes = s.nodes := rfl
@[simp] theorem State.event_events (s : State) (q n : Nat) (k : EventKind) : (s.event q n k).events = s.events ++ [⟨s.dcc + Config.decisionDelay, q, n, k⟩] := rfl
@[simp] theorem State.event_fns (s : State) (q n : Nat) (k : EventKind) : (s.event q n k).fns = s.fns := rfl
@[simp] theorem State.event_kernels (s : State) (q n : Nat) (k : EventKind) : (s.event q n k).kernels = s.kernels := rfl
@[simp] theorem State.event_objects (s : State) (q n : Nat) (k : EventKind) : (s.event q n k).objects = s.objects := rfl
@[simp] theorem State.event_keys (s : State) (q n : Nat) (k : EventKind) : (s.event q n k).keys = s.keys := rfl
@[simp] theorem State.event_stands (s : State) (q n : Nat) (k : EventKind) : (s.event q n k).stands = s.stands := rfl
@[simp] theorem State.event_colls (s : State) (q n : Nat) (k : EventKind) : (s.event q n k).colls = s.colls := rfl
@[simp] theorem State.event_specs (s : State) (q n : Nat) (k : EventKind) : (s.event q n k).specs = s.specs := rfl
@[simp] theorem State.event_rmwQ (s : State) (q n : Nat) (k : EventKind) : (s.event q n k).rmwQ = s.rmwQ := rfl
@[simp] theorem State.event_replyLog (s : State) (q n : Nat) (k : EventKind) : (s.event q n k).replyLog = s.replyLog := rfl
@[simp] theorem State.event_released (s : State) (q n : Nat) (k : EventKind) : (s.event q n k).released = s.released := rfl
@[simp] theorem State.event_live (s : State) (q n : Nat) (k : EventKind) : (s.event q n k).live = s.live := rfl
@[simp] theorem State.event_tlb (s : State) (q n : Nat) (k : EventKind) : (s.event q n k).tlb = s.tlb := rfl
@[simp] theorem State.event_pkg (s : State) (q n : Nat) (k : EventKind) : (s.event q n k).pkg = s.pkg := rfl
@[simp] theorem State.event_dev (s : State) (q n : Nat) (k : EventKind) : (s.event q n k).dev = s.dev := rfl
@[simp] theorem State.event_ports (s : State) (q n : Nat) (k : EventKind) : (s.event q n k).ports = s.ports := rfl
@[simp] theorem State.event_tap (s : State) (q n : Nat) (k : EventKind) : (s.event q n k).tap = s.tap := rfl
@[simp] theorem State.event_inputs (s : State) (q n : Nat) (k : EventKind) : (s.event q n k).inputs = s.inputs := rfl
@[simp] theorem State.event_outputs (s : State) (q n : Nat) (k : EventKind) : (s.event q n k).outputs = s.outputs := rfl
@[simp] theorem State.event_turn (s : State) (q n : Nat) (k : EventKind) : (s.event q n k).turn = s.turn := rfl
@[simp] theorem State.event_epoch (s : State) (q n : Nat) (k : EventKind) : (s.event q n k).epoch = s.epoch := rfl
@[simp] theorem State.event_poison (s : State) (q n : Nat) (k : EventKind) : (s.event q n k).poison = s.poison := rfl
@[simp] theorem State.event_oldCode (s : State) (q n : Nat) (k : EventKind) : (s.event q n k).oldCode = s.oldCode := rfl

end Sys2Proof.Machine
end

