-- ==== Sys2Proof/Laws/CanonicalState.lean ====
section
/-! SUPPORT. Memory keeps its canonical form, or is not touched, under the shared operations on the state, the registers, the bolts and the access path:
`X_mem` says that `X` leaves memory as it is, `X_canonical` that it keeps the form. -/

namespace Sys2Proof.Machine

/-! ### Folds -/

/-- A step that goes on goes on with canonical memory. -/
def Out.canonical : Out → Bool
  | .next t => t.mem.wf
  | _ => true

@[simp] theorem canonical_next (t : State) : Out.canonical (.next t) = t.mem.wf := rfl

@[simp] theorem canonical_fault (t) : Out.canonical (.fault t) = true := rfl

@[simp] theorem canonical_refused (t) : Out.canonical (.refused t) = true := rfl

@[simp] theorem foldl_mem {β : Type} (f : State → β → State) (l : List β) (s : State)
    (hf : ∀ s x, (f s x).mem = s.mem) : (l.foldl f s).mem = s.mem := by
  induction l generalizing s with
  | nil => rfl
  | cons x l ih => exact (ih _).trans (hf s x)

theorem foldl_canonical {β : Type} (f : State → β → State) (l : List β) (s : State) (h : s.mem.wf = true)
    (hf : ∀ s x, s.mem.wf = true → (f s x).mem.wf = true) : (l.foldl f s).mem.wf = true := by
  induction l generalizing s with
  | nil => exact h
  | cons x l ih => exact ih _ (hf s x h)

@[simp] theorem elim_mem {β : Type} (o : Option β) (a : State) (g : β → State) (m : Memory) (h : a.mem = m)
    (hg : ∀ x, (g x).mem = m) : (o.elim a g).mem = m := by cases o <;> simp [*]

@[simp] theorem elim_canonical {β : Type} (o : Option β) (a : State) (g : β → State) (h : a.mem.wf = true)
    (hg : ∀ x, (g x).mem.wf = true) : (o.elim a g).mem.wf = true := by cases o <;> simp [*]

@[simp] theorem getD_canonical (o : Option State) (a : State) (h : a.mem.wf = true)
    (hg : ∀ x, o = some x → x.mem.wf = true) : (o.getD a).mem.wf = true := by cases o <;> simp_all

@[simp] theorem ite_mem (c : Prop) [Decidable c] (a b : State) :
   (if c then a else b).mem = if c then a.mem else b.mem := by split <;> rfl

@[simp] theorem ite_canonical (c : Prop) [Decidable c] (a b : Memory) (h : a.wf = true) (h' : b.wf = true) :
   (if c then a else b).wf = true := by split <;> assumption

/-! ### Regs.lean -/

@[simp] theorem State.setCore_canonical (s : State) (c : Core) (h_s : s.mem.wf = true) :
    (State.setCore s c).mem.wf = true := by
  unfold State.setCore
  simp [*]

@[simp] theorem State.setCluster_canonical (s : State) (c : Nat) (x : Cluster) (h_s : s.mem.wf = true) :
    (State.setCluster s c x).mem.wf = true := by
  unfold State.setCluster
  simp [*]

@[simp] theorem State.setDie_canonical (s : State) (d : Nat) (x : Die) (h_s : s.mem.wf = true) :
    (State.setDie s d x).mem.wf = true := by
  unfold State.setDie
  simp [*]

@[simp] theorem State.setQueue_canonical (s : State) (q : Nat) (x : Queue) (h_s : s.mem.wf = true) :
    (State.setQueue s q x).mem.wf = true := by
  unfold State.setQueue
  simp [*]

@[simp] theorem State.setFn_canonical (s : State) (f : Nat) (x : FnRegs) (h_s : s.mem.wf = true) :
    (State.setFn s f x).mem.wf = true := by
  unfold State.setFn
  simp [*]

@[simp] theorem State.setTask_canonical (s : State) (t : Task) (h_s : s.mem.wf = true) :
    (State.setTask s t).mem.wf = true := by
  unfold State.setTask
  simp [*]

@[simp] theorem State.setRegs_canonical (s : State) (r : TaskRegs) (h_s : s.mem.wf = true) :
    (State.setRegs s r).mem.wf = true := by
  unfold State.setRegs
  simp [*]

@[simp] theorem State.setFlow_canonical (s : State) (f : TaskFlow) (h_s : s.mem.wf = true) :
    (State.setFlow s f).mem.wf = true := by
  unfold State.setFlow
  simp [*]

@[simp] theorem State.setSys_canonical (s : State) (y : TaskSys) (h_s : s.mem.wf = true) :
    (State.setSys s y).mem.wf = true := by
  unfold State.setSys
  simp [*]

@[simp] theorem State.setId_canonical (s : State) (i : TaskId) (h_s : s.mem.wf = true) :
    (State.setId s i).mem.wf = true := by
  unfold State.setId
  simp [*]

@[simp] theorem State.setBolt_canonical (s : State) (b : TaskBolt) (h_s : s.mem.wf = true) :
    (State.setBolt s b).mem.wf = true := by
  unfold State.setBolt
  simp [*]

@[simp] theorem State.setEng_canonical (s : State) (e : TaskEng) (h_s : s.mem.wf = true) :
    (State.setEng s e).mem.wf = true := by
  unfold State.setEng
  simp [*]

@[simp] theorem State.setStand_canonical (s : State) (z : TaskStand) (h_s : s.mem.wf = true) :
    (State.setStand s z).mem.wf = true := by
  unfold State.setStand
  simp [*]

@[simp] theorem State.setLease_canonical (s : State) (l : TaskLease) (h_s : s.mem.wf = true) :
    (State.setLease s l).mem.wf = true := by
  unfold State.setLease
  simp [*]

@[simp] theorem State.setPhase_canonical (s : State) (p : TaskPhase) (h_s : s.mem.wf = true) :
    (State.setPhase s p).mem.wf = true := by
  unfold State.setPhase
  simp [*]

@[simp] theorem State.setWork_mem (s : State) (w : BoltWork) :
    (State.setWork s w).mem = s.mem := by
  unfold State.setWork
  simp [*]

@[simp] theorem State.setPkg_canonical (s : State) (x : Package) (h_s : s.mem.wf = true) :
    (State.setPkg s x).mem.wf = true := by
  unfold State.setPkg
  simp [*]

@[simp] theorem State.setMem_canonical (s : State) (m : Memory) (h : m.wf = true) : (s.setMem m).mem.wf = true := h

@[simp] theorem State.onTask_mem (s : State) (r : TaskRef) (f : Task → Task) :
    (State.onTask s r f).mem = s.mem := by
  unfold State.onTask
  simp [*]

@[simp] theorem State.onTasks_mem (s : State) (f : Task → Task) :
    (State.onTasks s f).mem = s.mem := by
  unfold State.onTasks
  simp [*]

@[simp] theorem State.select_mem (s : State) (r : TaskRef) :
    (State.select s r).mem = s.mem := by
  unfold State.select
  repeat' split
  all_goals simp [*]

@[simp] theorem State.onHelper_mem (s : State) (l w : Nat) (f : Helper → Helper) :
    (State.onHelper s l w f).mem = s.mem := by
  unfold State.onHelper
  simp [*]

@[simp] theorem State.selectHelper_mem (s : State) (l w : Nat) :
    (State.selectHelper s l w).mem = s.mem := by
  unfold State.selectHelper
  simp [*]

@[simp] theorem State.flagCapped_mem (s : State) :
    (State.flagCapped s).mem = s.mem := by
  unfold State.flagCapped
  simp [*]

@[simp] theorem State.lowerCaps_mem (s : State) :
    (State.lowerCaps s).mem = s.mem := by
  unfold State.lowerCaps
  simp [*]

@[simp] theorem State.put_mem (s : State) (lat : Nat) (w : RegWrite) :
    (State.put s lat w).mem = s.mem := by
  unfold State.put
  simp [*]

@[simp] theorem State.event_canonical (s : State) (queue seq : Nat) (kind : EventKind) (h_s : s.mem.wf = true) :
    (State.event s queue seq kind).mem.wf = true := by
  unfold State.event
  simp [*]

@[simp] theorem State.post_mem (s : State) (fn kind w1 w2 w3 : Nat) :
    (State.post s fn kind w1 w2 w3).mem = s.mem := by
  unfold State.post
  simp [*]

@[simp] theorem State.emit_canonical (s : State) (o : Output) (h_s : s.mem.wf = true) :
    (State.emit s o).mem.wf = true := by
  unfold State.emit
  simp [*]

@[simp] theorem State.raiseMsix_mem (s : State) (fn vec : Nat) :
    (State.raiseMsix s fn vec).mem = s.mem := by
  unfold State.raiseMsix
  simp [*]

@[simp] theorem State.sendPending_mem (s : State) (fn vec : Nat) :
    (State.sendPending s fn vec).mem = s.mem := by
  unfold State.sendPending
  simp [*]

@[simp] theorem State.setFstat_mem (s : State) (fn bit : Nat) :
    (State.setFstat s fn bit).mem = s.mem := by
  unfold State.setFstat
  simp [*]

/-! ### Operands.lean -/

@[simp] theorem State.putLanes_mem (s : State) (f : Slot) (val : Nat → Nat) :
    (State.putLanes s f val).mem = s.mem := by
  unfold State.putLanes
  simp [*]

@[simp] theorem State.putG_mem (s : State) (f : Slot) (x : W64) :
    (State.putG s f x).mem = s.mem := by
  unfold State.putG
  simp [*]

@[simp] theorem State.putP_mem (s : State) (f : Slot) (x : Bool) :
    (State.putP s f x).mem = s.mem := by
  unfold State.putP
  simp [*]

/-! ### Access.lean -/

@[simp] theorem State.setPlot_canonical (s : State) (p state owner : Nat) (h_s : s.mem.wf = true) :
    (State.setPlot s p state owner).mem.wf = true := by
  unfold State.setPlot
  simp [*]

@[simp] theorem State.fillGranules_mem (s : State) (a1 : List (Nat × Nat)) : (State.fillGranules s a1).mem = s.mem := by
  induction a1 generalizing s with
  | nil => rfl
  | cons g gs ih => exact ih _

@[simp] theorem State.countGauges_mem (s : State) (ks : List Nat) :
    (State.countGauges s ks).mem = s.mem := by
  unfold State.countGauges
  simp [*]

@[simp] theorem State.touch_mem (s : State) (ks : List Nat) : (s.touch ks).mem = s.mem := by
  unfold State.touch
  exact foldl_mem _ _ _ fun _ _ => rfl

@[simp] theorem State.setWriter_mem (s : State) (id : Nat) (ks : List Nat) :
    (State.setWriter s id ks).mem = s.mem := by
  unfold State.setWriter
  simp [*]

@[simp] theorem State.forgetWriter_mem (s : State) (id : Nat) :
    (State.forgetWriter s id).mem = s.mem := by
  unfold State.forgetWriter
  simp [*]

@[simp] theorem State.noteReads_mem (s : State) (ks : List Nat) :
    (State.noteReads s ks).mem = s.mem := by
  unfold State.noteReads
  simp [*]

@[simp] theorem State.keepOldCode_mem (s : State) (cells : List Host.Cell) :
    (State.keepOldCode s cells).mem = s.mem := by
  unfold State.keepOldCode
  simp [*]

@[simp] theorem State.show_canonical (s : State) (cells : List Host.Cell) (h_s : s.mem.wf = true) :
    (State.show s cells).mem.wf = true := by
  unfold State.show
  simp [*]

@[simp] theorem State.showOf_canonical (s : State) (id : Nat) (cells : List Host.Cell) (h_s : s.mem.wf = true) :
    (State.showOf s id cells).mem.wf = true := by
  unfold State.showOf
  simp [*]

@[simp] theorem State.scramble_canonical (s : State) (k n : Nat) (h_s : s.mem.wf = true) :
    (State.scramble s k n).mem.wf = true := by
  unfold State.scramble
  simp [*]

@[simp] theorem State.chargeBudget_mem (s : State) (c n : Nat) :
    (State.chargeBudget s c n).mem = s.mem := by
  unfold State.chargeBudget
  simp [*]

@[simp] theorem State.bus_mem (s : State) (fn : Nat) (write : Bool) (ks : List Nat) :
    (State.bus s fn write ks).mem = s.mem := by
  unfold State.bus
  simp [*]

@[simp] theorem State.chargeKeys_mem (s : State) (c : Nat) (ks : List Nat) :
    (State.chargeKeys s c ks).mem = s.mem := by
  unfold State.chargeKeys
  simp [*]

/-! ### Ports.lean -/

@[simp] theorem State.setPort_mem (s : State) (k : Nat) (p : PortState) :
    (State.setPort s k p).mem = s.mem := by
  unfold State.setPort
  simp [*]

@[simp] theorem State.portSend_mem (s : State) (k pos type : Nat) (payload : List Byte) :
    (State.portSend s k pos type payload).mem = s.mem := by
  unfold State.portSend
  simp [*]

@[simp] theorem State.sendTo_mem (s : State) (pos type : Nat) (payload : List Byte) :
    (State.sendTo s pos type payload).mem = s.mem := by
  unfold State.sendTo
  repeat' split
  all_goals simp [*]

@[simp] theorem State.sendEach_mem (s : State) (l : List (Nat × Nat × List Byte)) :
    (State.sendEach s l).mem = s.mem := by
  unfold State.sendEach
  simp [*]

@[simp] theorem State.reroute_mem (s : State) (k : Nat) :
    (State.reroute s k).mem = s.mem := by
  unfold State.reroute
  simp [*]

@[simp] theorem State.retake_mem (s : State) (pos : Nat) :
    (State.retake s pos).mem = s.mem := by
  unfold State.retake
  simp [*]

@[simp] theorem State.sendMessage_mem (s : State) (pos : Nat) (b : Config.PortBody) :
    (State.sendMessage s pos b).mem = s.mem := by
  unfold State.sendMessage
  simp [*]

@[simp] theorem State.sendAll_mem (s : State) (b : Config.PortBody) :
    (State.sendAll s b).mem = s.mem := by
  unfold State.sendAll
  simp [*]

/-! ### Bolts.lean -/

@[simp] theorem State.hold_mem (s : State) (i : HoldItem) (bytes : Nat) :
    (State.hold s i bytes).mem = s.mem := by
  unfold State.hold
  simp [*]

@[simp] theorem State.onNode_mem (s : State) (q seq : Nat) (f : Node → Node) :
    (State.onNode s q seq f).mem = s.mem := by
  unfold State.onNode
  simp [*]

@[simp] theorem State.counted_mem (s : State) (q seq : Nat) (f : Node → Node) :
    (State.counted s q seq f).mem = s.mem := by
  unfold State.counted
  simp [*]

@[simp] theorem State.countTile_mem (s : State) (q seq l : Nat) :
    (State.countTile s q seq l).mem = s.mem := by
  unfold State.countTile
  simp [*]

@[simp] theorem State.deliverMail_mem (s : State) (l part which : Nat) (w : W32) :
    (State.deliverMail s l part which w).mem = s.mem := by
  unfold State.deliverMail
  simp [*]

@[simp] theorem State.transferPlot_canonical (s : State) (l plot nstate nowner : Nat) (h_s : s.mem.wf = true) :
    (State.transferPlot s l plot nstate nowner).mem.wf = true := by
  unfold State.transferPlot
  simp [*]

@[simp] theorem State.showOpen_canonical (s : State) (l fn : Nat) (cells : List Host.Cell) (h_s : s.mem.wf = true) :
    (State.showOpen s l fn cells).mem.wf = true := by
  unfold State.showOpen
  simp [*]

@[simp] theorem State.releaseItem_canonical (s : State) (r : Releaser) (a1 : HoldItem) (h_s : s.mem.wf = true) :
    (State.releaseItem s r a1).mem.wf = true := by
  unfold State.releaseItem
  repeat' split
  all_goals simp [*]

@[simp] theorem State.setReleased_mem (s : State) (r : Releaser) (n : Nat) :
    (State.setReleased s r n).mem = s.mem := by
  unfold State.setReleased
  simp [*]

@[simp] theorem State.bufferItem_mem (s : State) (r : Releaser) (i : HoldItem) :
    (State.bufferItem s r i).mem = s.mem := by
  unfold State.bufferItem
  simp [*]

@[simp] theorem State.dropItem_mem (s : State) (r : Releaser) (a1 : HoldItem) :
    (State.dropItem s r a1).mem = s.mem := by
  unfold State.dropItem
  repeat' split
  all_goals simp [*]

@[simp] theorem State.releaseAll_canonical (s : State) (r : Releaser) (out : State → HoldItem → State) (no : Nat)
    (a1 : List HoldItem) (h_s : s.mem.wf = true) (h_out : ∀ x i, x.mem.wf = true → (out x i).mem.wf = true) :
    (State.releaseAll s r out no a1).mem.wf = true := by
  induction a1 generalizing s no with
  | nil => exact h_s
  | cons i is ih =>
    unfold State.releaseAll
    refine ih _ _ ?_
    split
    · simpa using h_s
    · simpa using h_out s i h_s

@[simp] theorem State.resolveClaims_mem (s : State) (full : Bool) (a1 : List Nat) :
    (State.resolveClaims s full a1).mem = s.mem := by
  induction a1 generalizing s with
  | nil => rfl
  | cons k ks ih =>
    unfold State.resolveClaims
    dsimp only
    rw [ih]
    split <;> rfl

@[simp] theorem State.onHelpers_mem (s : State) (l : Nat) (f : Helper → Helper) :
    (State.onHelpers s l f).mem = s.mem := by
  unfold State.onHelpers
  simp [*]

@[simp] theorem State.releaseHold_canonical (s : State) (h_s : s.mem.wf = true) :
    (State.releaseHold s).mem.wf = true := by
  unfold State.releaseHold
  dsimp only
  repeat' split
  all_goals simp +contextual [*]

@[simp] theorem State.sealNow_canonical (s : State) (next : Nat) (h_s : s.mem.wf = true) :
    (State.sealNow s next).mem.wf = true := by
  unfold State.sealNow
  dsimp only
  repeat' split
  all_goals simp [*]

@[simp] theorem State.leaveArray_mem (s : State) (home : Nat) (r : Running) :
    (State.leaveArray s home r).mem = s.mem := by
  unfold State.leaveArray
  simp [*]

@[simp] theorem State.cancel_mem (s : State) (l : Nat) (who : Issuer → Bool) :
    (State.cancel s l who).mem = s.mem := by
  unfold State.cancel
  simp [*]

@[simp] theorem State.discardWork_mem (s : State) (w : BoltWork) :
    (State.discardWork s w).mem = s.mem := by
  unfold State.discardWork
  simp [*]

@[simp] theorem State.freeLog_mem (s : State) (r : Releaser) :
    (State.freeLog s r).mem = s.mem := by
  unfold State.freeLog
  simp [*]

@[simp] theorem State.failNode_mem (s : State) (q seq : Nat) (f : FaultInfo) :
    (State.failNode s q seq f).mem = s.mem := by
  unfold State.failNode
  simp [*]

@[simp] theorem State.rerateRuns_mem (s : State) (h : Nat) : (State.rerateRuns s h).mem = s.mem := by
  unfold State.rerateRuns
  dsimp only
  split
  · rfl
  · rw [State.setCore_mem]
    exact foldl_mem _ _ _ fun _ _ => rfl

@[simp] theorem State.rerate_mem (s : State) (l : Nat) :
    (State.rerate s l).mem = s.mem := by
  unfold State.rerate
  simp [*]

@[simp] theorem State.refreshLevel_mem (s : State) (l : Nat) :
    (State.refreshLevel s l).mem = s.mem := by
  unfold State.refreshLevel
  simp [*]

@[simp] theorem State.leaveCore_canonical (s : State) (r : Releaser) (granules : Nat) (h_s : s.mem.wf = true) :
    (State.leaveCore s r granules).mem.wf = true := by
  unfold State.leaveCore
  simp [*]

@[simp] theorem State.closeTask_canonical (s : State) (h_s : s.mem.wf = true) :
    (State.closeTask s).mem.wf = true := by
  unfold State.closeTask
  simp [*]

@[simp] theorem State.abandon_mem (s : State) :
    (State.abandon s).mem = s.mem := by
  unfold State.abandon
  simp [*]

@[simp] theorem State.returnSaved_mem (s : State) (x : SavedTask) :
    (State.returnSaved s x).mem = s.mem := by
  unfold State.returnSaved
  simp [*]

@[simp] theorem State.endFaulted_canonical (s : State) (cls cause det : Nat) (h_s : s.mem.wf = true) :
    (State.endFaulted s cls cause det).mem.wf = true := by
  unfold State.endFaulted
  simp [*]

/-! ### Ops.lean -/

@[simp] theorem State.enterHandler_mem (s : State) (r : TrapRec) :
    (State.enterHandler s r).mem = s.mem := by
  unfold State.enterHandler
  simp [*]

@[simp] theorem State.takeTrap_canonical (s : State) (r : TrapRec) (h_s : s.mem.wf = true) :
    (State.takeTrap s r).mem.wf = true := by
  unfold State.takeTrap
  repeat' split
  all_goals simp [*]

@[simp] theorem State.trap_canonical (s : State) (sclass : Nat) (synd : W64) (h_s : s.mem.wf = true) :
    (State.trap s sclass synd).mem.wf = true := by
  unfold State.trap
  simp [*]

@[simp] theorem State.trapInstr_canonical (s : State) (op cause detail info : Nat) (h_s : s.mem.wf = true) :
    (State.trapInstr s op cause detail info).mem.wf = true := by
  unfold State.trapInstr
  simp [*]

@[simp] theorem State.trapBundle_canonical (s : State) (cause info : Nat) (h_s : s.mem.wf = true) :
    (State.trapBundle s cause info).mem.wf = true := by
  unfold State.trapBundle
  simp [*]

@[simp] theorem State.trapMem_canonical (s : State) (e : MemFault) (acc : Nat) (h_s : s.mem.wf = true) :
    (State.trapMem s e acc).mem.wf = true := by
  unfold State.trapMem
  simp [*]

@[simp] theorem State.trapSync_canonical (s : State) (cause obj : Nat) (h_s : s.mem.wf = true) :
    (State.trapSync s cause obj).mem.wf = true := by
  unfold State.trapSync
  simp [*]

@[simp] theorem State.trapEngine_canonical (s : State) (op cause tile detail : Nat) (h_s : s.mem.wf = true) :
    (State.trapEngine s op cause tile detail).mem.wf = true := by
  unfold State.trapEngine
  simp [*]

@[simp] theorem State.trapDet_canonical (s : State) (op cause : Nat) (h_s : s.mem.wf = true) :
    (State.trapDet s op cause).mem.wf = true := by
  unfold State.trapDet
  simp [*]

@[simp] theorem State.trapHold_canonical (s : State) (op bytes : Nat) (h_s : s.mem.wf = true) :
    (State.trapHold s op bytes).mem.wf = true := by
  unfold State.trapHold
  simp [*]

@[simp] theorem State.holdOrTrap_canonical (s : State) (op bytes : Nat) (i : HoldItem) (h_s : s.mem.wf = true) :
    (State.holdOrTrap s op bytes i).mem.wf = true := by
  unfold State.holdOrTrap
  simp [*]

@[simp] theorem State.takeNotice_mem (s : State) :
    (State.takeNotice s).mem = s.mem := by
  unfold State.takeNotice
  repeat' split
  all_goals simp [*]

@[simp] theorem State.waitFor_mem (s : State) (k : WaitKind) :
    (State.waitFor s k).mem = s.mem := by
  unfold State.waitFor
  simp [*]

@[simp] theorem State.surface_canonical (s : State) (x : DeferredFault) (h_s : s.mem.wf = true) :
    (State.surface s x).mem.wf = true := by
  unfold State.surface
  simp [*]

@[simp] theorem State.afterQuiet_mem (s : State) :
    (State.afterQuiet s).mem = s.mem := by
  unfold State.afterQuiet
  simp [*]

@[simp] theorem State.sealThen_canonical (s : State) (next : Nat) (k : State → State) (h_s : s.mem.wf = true) (h_k : ∀ x0, x0.mem.wf = true → (k x0).mem.wf = true) :
    (State.sealThen s next k).mem.wf = true := by
  unfold State.sealThen
  repeat' split
  all_goals simp [*]

@[simp] theorem State.sealOwn_canonical (s : State) (k : State → State) (h_s : s.mem.wf = true) (h_k : ∀ x0, x0.mem.wf = true → (k x0).mem.wf = true) :
    (State.sealOwn s k).mem.wf = true := by
  unfold State.sealOwn
  repeat' (first | (simp [*]; done) | intro _ | dsimp only | split | apply guarded_canonical | apply State.withDesc_canonical | apply State.sealThen_canonical | apply State.fullEmptyLoad_canonical | apply State.onFirst_canonical | apply foldl_canonical )

@[simp] theorem guarded_canonical (i : Instr) (f : Slot) (s : State) (effect : State) (h_s : s.mem.wf = true) (h_effect : effect.mem.wf = true) :
    Out.canonical (guarded i f s effect) = true := by
  unfold guarded
  repeat' split
  all_goals simp [*]

@[simp] theorem State.leaveHandler_mem (s : State) :
    (State.leaveHandler s).mem = s.mem := by
  unfold State.leaveHandler
  simp [*]

@[simp] theorem State.returnFromTrap_canonical (s : State) (h_s : s.mem.wf = true) :
    (State.returnFromTrap s).mem.wf = true := by
  unfold State.returnFromTrap
  simp [*]

end Sys2Proof.Machine
end

