-- ==== Sys2Proof/Laws/CanonicalUnits.lean ====
section
/-! SUPPORT. Memory keeps its canonical form, or is not touched, under the lanes, the tiles, the skidder, movement and the stands:
`X_mem` says that `X` leaves memory as it is, `X_canonical` that it keeps the form. -/

namespace Sys2Proof.Machine

/-! ### Lanes.lean -/

@[simp] theorem execVred_canonical (f : Slot) (s : State) (h_s : s.mem.wf = true) :
    Out.canonical (execVred f s) = true := by
  unfold execVred
  simp [*]

@[simp] theorem execVscan_canonical (f : Slot) (s : State) (h_s : s.mem.wf = true) :
    Out.canonical (execVscan f s) = true := by
  unfold execVscan
  simp [*]

@[simp] theorem execVperm_canonical (f : Slot) (s : State) (h_s : s.mem.wf = true) :
    Out.canonical (execVperm f s) = true := by
  unfold execVperm
  simp [*]

@[simp] theorem execVbcast_canonical (f : Slot) (s : State) (h_s : s.mem.wf = true) :
    Out.canonical (execVbcast f s) = true := by
  unfold execVbcast
  simp [*]

@[simp] theorem execVbcastLane_canonical (f : Slot) (s : State) (h_s : s.mem.wf = true) :
    Out.canonical (execVbcastLane f s) = true := by
  unfold execVbcastLane
  simp [*]

@[simp] theorem execVext_canonical (f : Slot) (s : State) (h_s : s.mem.wf = true) :
    Out.canonical (execVext f s) = true := by
  unfold execVext
  simp [*]

@[simp] theorem execViota_canonical (f : Slot) (s : State) (h_s : s.mem.wf = true) :
    Out.canonical (execViota f s) = true := by
  unfold execViota
  simp [*]

@[simp] theorem execViotaCnt_canonical (f : Slot) (s : State) (h_s : s.mem.wf = true) :
    Out.canonical (execViotaCnt f s) = true := by
  unfold execViotaCnt
  simp [*]

@[simp] theorem execKlog_canonical (f : Slot) (s : State) (h_s : s.mem.wf = true) :
    Out.canonical (execKlog f s) = true := by
  unfold execKlog
  simp [*]

@[simp] theorem State.pushStream_canonical (s : State) (f : Slot) (h_s : s.mem.wf = true) :
    (State.pushStream s f).mem.wf = true := by
  unfold State.pushStream
  dsimp only
  repeat' split
  all_goals simp [*]

@[simp] theorem execSpush_canonical (f : Slot) (s : State) (h_s : s.mem.wf = true) :
    Out.canonical (execSpush f s) = true := by
  unfold execSpush
  simp [*]

@[simp] theorem State.reserve_mem (s : State) (i b : Nat) :
    (State.reserve s i b).mem = s.mem := by
  unfold State.reserve
  simp [*]

@[simp] theorem State.popStream_mem (s : State) (f : Slot) :
    (State.popStream s f).mem = s.mem := by
  unfold State.popStream
  simp [*]

@[simp] theorem execSpop_canonical (f : Slot) (s : State) (h_s : s.mem.wf = true) :
    Out.canonical (execSpop f s) = true := by
  unfold execSpop
  simp [*]

@[simp] theorem execScnt_canonical (f : Slot) (s : State) (h_s : s.mem.wf = true) :
    Out.canonical (execScnt f s) = true := by
  unfold execScnt
  simp [*]

/-! ### Matrix.lean -/

@[simp] theorem State.withDesc_canonical (s : State) (op tile : Nat) (k : Desc → List Desc → State) (h_s : s.mem.wf = true) (h_k : ∀ x0 x1, (k x0 x1).mem.wf = true) :
    (State.withDesc s op tile k).mem.wf = true := by
  unfold State.withDesc
  repeat' split
  all_goals simp [*]

@[simp] theorem State.countCommand_mem (s : State) :
    (State.countCommand s).mem = s.mem := by
  unfold State.countCommand
  simp [*]

@[simp] theorem State.enqueueTile_canonical (s : State) (fq : List Desc) (c : MCmd) (held : Nat) (marks : TaskEng → TaskEng) (h_s : s.mem.wf = true) :
    (State.enqueueTile s fq c held marks).mem.wf = true := by
  unfold State.enqueueTile
  simp [*]

@[simp] theorem execFpush_canonical (f : Slot) (s : State) (h_s : s.mem.wf = true) :
    Out.canonical (execFpush f s) = true := by
  unfold execFpush
  dsimp only
  repeat' split
  all_goals simp [*]

@[simp] theorem execPlane_canonical (f : Slot) (s : State) (h_s : s.mem.wf = true) :
    Out.canonical (execPlane f s) = true := by
  unfold execPlane
  repeat' (first | (simp [*]; done) | intro _ | dsimp only | split | apply guarded_canonical | apply State.withDesc_canonical | apply State.sealThen_canonical | apply State.fullEmptyLoad_canonical | apply State.onFirst_canonical | apply foldl_canonical )

@[simp] theorem State.multiply_canonical (s : State) (f : Slot) (op : Nat) (grouped : Bool) (h_s : s.mem.wf = true) :
    (State.multiply s f op grouped).mem.wf = true := by
  unfold State.multiply
  repeat' (first | (simp [*]; done) | intro _ | dsimp only | split | apply guarded_canonical | apply State.withDesc_canonical | apply State.sealThen_canonical | apply State.fullEmptyLoad_canonical | apply State.onFirst_canonical | apply foldl_canonical )

@[simp] theorem execMma_canonical (f : Slot) (s : State) (h_s : s.mem.wf = true) :
    Out.canonical (execMma f s) = true := by
  unfold execMma
  simp [*]

@[simp] theorem execMmag_canonical (f : Slot) (s : State) (h_s : s.mem.wf = true) :
    Out.canonical (execMmag f s) = true := by
  unfold execMmag
  simp [*]

@[simp] theorem execMclr_canonical (f : Slot) (s : State) (h_s : s.mem.wf = true) :
    Out.canonical (execMclr f s) = true := by
  unfold execMclr
  repeat' (first | (simp [*]; done) | intro _ | dsimp only | split | apply guarded_canonical | apply State.withDesc_canonical | apply State.sealThen_canonical | apply State.fullEmptyLoad_canonical | apply State.onFirst_canonical | apply foldl_canonical )

@[simp] theorem execMlda_canonical (f : Slot) (s : State) (h_s : s.mem.wf = true) :
    Out.canonical (execMlda f s) = true := by
  unfold execMlda
  repeat' (first | (simp [*]; done) | intro _ | dsimp only | split | apply guarded_canonical | apply State.withDesc_canonical | apply State.sealThen_canonical | apply State.fullEmptyLoad_canonical | apply State.onFirst_canonical | apply foldl_canonical )

@[simp] theorem execMrd_canonical (f : Slot) (s : State) (h_s : s.mem.wf = true) :
    Out.canonical (execMrd f s) = true := by
  unfold execMrd
  repeat' (first | (simp [*]; done) | intro _ | dsimp only | split | apply guarded_canonical | apply State.withDesc_canonical | apply State.sealThen_canonical | apply State.fullEmptyLoad_canonical | apply State.onFirst_canonical | apply foldl_canonical )

@[simp] theorem execMst_canonical (f : Slot) (s : State) (h_s : s.mem.wf = true) :
    Out.canonical (execMst f s) = true := by
  unfold execMst
  repeat' (first | (simp [*]; done) | intro _ | dsimp only | split | apply guarded_canonical | apply State.withDesc_canonical | apply State.sealThen_canonical | apply State.fullEmptyLoad_canonical | apply State.onFirst_canonical | apply foldl_canonical )

@[simp] theorem execMstat_canonical (f : Slot) (s : State) (h_s : s.mem.wf = true) :
    Out.canonical (execMstat f s) = true := by
  unfold execMstat
  simp [*]

@[simp] theorem execPhase_canonical (f : Slot) (s : State) (h_s : s.mem.wf = true) :
    Out.canonical (execPhase f s) = true := by
  unfold execPhase
  simp [*]

@[simp] theorem execNset_canonical (f : Slot) (s : State) (h_s : s.mem.wf = true) :
    Out.canonical (execNset f s) = true := by
  unfold execNset
  dsimp only
  repeat' split
  all_goals simp [*]

@[simp] theorem execNsetRst_canonical (f : Slot) (s : State) (h_s : s.mem.wf = true) :
    Out.canonical (execNsetRst f s) = true := by
  unfold execNsetRst
  simp [*]

@[simp] theorem execNsetStep_canonical (f : Slot) (s : State) (h_s : s.mem.wf = true) :
    Out.canonical (execNsetStep f s) = true := by
  unfold execNsetStep
  simp [*]

@[simp] theorem execNsetOff_canonical (f : Slot) (s : State) (h_s : s.mem.wf = true) :
    Out.canonical (execNsetOff f s) = true := by
  unfold execNsetOff
  simp [*]

/-! ### Skidder.lean -/

@[simp] theorem State.skRemove_mem (s : State) (l : Nat) (c : SkCmd) :
    (State.skRemove s l c).mem = s.mem := by
  unfold State.skRemove
  simp [*]

@[simp] theorem State.onIssuer_mem (s : State) (l : Nat) (who : Issuer) (f : BoltWork → BoltWork) :
    (State.onIssuer s l who f).mem = s.mem := by
  unfold State.onIssuer
  simp [*]

@[simp] theorem State.skElem_mem (s : State) (l : Nat) (c : SkCmd) (kind : Nat) :
    (State.skElem s l c kind).mem = s.mem := by
  unfold State.skElem
  simp [*]

@[simp] theorem State.skFail_mem (s : State) (l : Nat) (c : SkCmd) (f : SkFault) :
    (State.skFail s l c f).mem = s.mem := by
  unfold State.skFail
  simp [*]

@[simp] theorem State.skClaim_mem (s : State) (l : Nat) (c : SkCmd) (ks : List Nat) :
    (State.skClaim s l c ks).mem = s.mem := by
  unfold State.skClaim
  simp [*]

@[simp] theorem State.skWrite_canonical (s : State) (l : Nat) (c : SkCmd) (cells : List Host.Cell) (h_s : s.mem.wf = true) :
    (State.skWrite s l c cells).mem.wf = true := by
  unfold State.skWrite
  repeat' split
  all_goals simp [*]

@[simp] theorem State.skIdle_mem (s : State) (l : Nat) :
    (State.skIdle s l).mem = s.mem := by
  unfold State.skIdle
  simp [*]

@[simp] theorem State.restSkidders_mem (s : State) :
    (State.restSkidders s).mem = s.mem := by
  unfold State.restSkidders
  simp [*]

@[simp] theorem State.skReads_mem (s : State) (l : Nat) (c : SkCmd) (ks : List Nat) :
    (State.skReads s l c ks).mem = s.mem := by
  unfold State.skReads
  simp [*]

@[simp] theorem State.skEffect_canonical (s : State) (l : Nat) (c : SkCmd) (p : SkPlan) (h_s : s.mem.wf = true) :
    (State.skEffect s l c p).mem.wf = true := by
  unfold State.skEffect
  simp [*]

@[simp] theorem State.skMove_canonical (s : State) (l : Nat) (c : SkCmd) (h_s : s.mem.wf = true) :
    (State.skMove s l c).mem.wf = true := by
  unfold State.skMove
  dsimp only
  repeat' split
  all_goals simp [*]

/-! ### Movement.lean -/

@[simp] theorem State.skEnqueue_canonical (s : State) (c : SkCmd) (charge : Nat) (h_s : s.mem.wf = true) :
    (State.skEnqueue s c charge).mem.wf = true := by
  unfold State.skEnqueue
  simp [*]

@[simp] theorem State.trapSk_canonical (s : State) (op detail : Nat) (h_s : s.mem.wf = true) :
    (State.trapSk s op detail).mem.wf = true := by
  unfold State.trapSk
  simp [*]

@[simp] theorem State.moveBytes_canonical (s : State) (f : Slot) (h_s : s.mem.wf = true) :
    (State.moveBytes s f).mem.wf = true := by
  unfold State.moveBytes
  dsimp only
  repeat' split
  all_goals simp [*]

@[simp] theorem execSkmov_canonical (f : Slot) (s : State) (h_s : s.mem.wf = true) :
    Out.canonical (execSkmov f s) = true := by
  unfold execSkmov
  simp [*]

@[simp] theorem State.moveNest_canonical (s : State) (f : Slot) (h_s : s.mem.wf = true) :
    (State.moveNest s f).mem.wf = true := by
  unfold State.moveNest
  dsimp only
  repeat' split
  all_goals simp [*]

@[simp] theorem execSkmovNest_canonical (f : Slot) (s : State) (h_s : s.mem.wf = true) :
    Out.canonical (execSkmovNest f s) = true := by
  unfold execSkmovNest
  simp [*]

@[simp] theorem State.moveRows_canonical (s : State) (f : Slot) (op : Nat) (scatter : Bool) (h_s : s.mem.wf = true) :
    (State.moveRows s f op scatter).mem.wf = true := by
  unfold State.moveRows
  dsimp only
  repeat' split
  all_goals simp [*]

@[simp] theorem execSkgat_canonical (f : Slot) (s : State) (h_s : s.mem.wf = true) :
    Out.canonical (execSkgat f s) = true := by
  unfold execSkgat
  simp [*]

@[simp] theorem execSksct_canonical (f : Slot) (s : State) (h_s : s.mem.wf = true) :
    Out.canonical (execSksct f s) = true := by
  unfold execSksct
  simp [*]

@[simp] theorem execSkchn_canonical (f : Slot) (s : State) (h_s : s.mem.wf = true) :
    Out.canonical (execSkchn f s) = true := by
  unfold execSkchn
  simp [*]

@[simp] theorem execSkqset_canonical (f : Slot) (s : State) (h_s : s.mem.wf = true) :
    Out.canonical (execSkqset f s) = true := by
  unfold execSkqset
  simp [*]

@[simp] theorem State.moveTokens_canonical (s : State) (f : Slot) (h_s : s.mem.wf = true) :
    (State.moveTokens s f).mem.wf = true := by
  unfold State.moveTokens
  dsimp only
  repeat' split
  all_goals simp [*]

@[simp] theorem execTmov_canonical (f : Slot) (s : State) (h_s : s.mem.wf = true) :
    Out.canonical (execTmov f s) = true := by
  unfold execTmov
  simp [*]

@[simp] theorem State.fullOp_canonical (s : State) (f : Slot) (fop : Nat) (h_s : s.mem.wf = true) :
    (State.fullOp s f fop).mem.wf = true := by
  unfold State.fullOp
  dsimp only
  repeat' split
  all_goals simp [*]

@[simp] theorem execFeopSet_canonical (f : Slot) (s : State) (h_s : s.mem.wf = true) :
    Out.canonical (execFeopSet f s) = true := by
  unfold execFeopSet
  simp [*]

@[simp] theorem execFeopClr_canonical (f : Slot) (s : State) (h_s : s.mem.wf = true) :
    Out.canonical (execFeopClr f s) = true := by
  unfold execFeopClr
  simp [*]

@[simp] theorem execFeopWait_canonical (f : Slot) (s : State) (h_s : s.mem.wf = true) :
    Out.canonical (execFeopWait f s) = true := by
  unfold execFeopWait
  simp [*]

@[simp] theorem State.enqueueMove_canonical (s : State) (f : Slot) (h_s : s.mem.wf = true) :
    (State.enqueueMove s f).mem.wf = true := by
  unfold State.enqueueMove
  dsimp only
  repeat' split
  all_goals simp [*]

@[simp] theorem execEnqMove_canonical (f : Slot) (s : State) (h_s : s.mem.wf = true) :
    Out.canonical (execEnqMove f s) = true := by
  unfold execEnqMove
  simp [*]

@[simp] theorem State.enqueueMail_mem (s : State) (f : Slot) :
    (State.enqueueMail s f).mem = s.mem := by
  unfold State.enqueueMail
  simp [*]

@[simp] theorem execEnqMailbox_canonical (f : Slot) (s : State) (h_s : s.mem.wf = true) :
    Out.canonical (execEnqMailbox f s) = true := by
  unfold execEnqMailbox
  simp [*]

@[simp] theorem State.setElements_mem (s : State) (engine : Nat) (l : List Elem) :
    (State.setElements s engine l).mem = s.mem := by
  unfold State.setElements
  simp [*]

@[simp] theorem State.dequeue_canonical (s : State) (f : Slot) (h_s : s.mem.wf = true) :
    (State.dequeue s f).mem.wf = true := by
  unfold State.dequeue
  dsimp only
  repeat' split
  all_goals simp [*]

@[simp] theorem execDeq_canonical (f : Slot) (s : State) (h_s : s.mem.wf = true) :
    Out.canonical (execDeq f s) = true := by
  unfold execDeq
  simp [*]

/-! ### Packets.lean -/

@[simp] theorem State.onStand_mem (s : State) (q seq level group : Nat) (f : Stand → Stand) :
    (State.onStand s q seq level group f).mem = s.mem := by
  unfold State.onStand
  simp [*]

/-! ### Retire.lean -/

@[simp] theorem State.endPass_mem (s : State) (l : LoopState) :
    (State.endPass s l).mem = s.mem := by
  unfold State.endPass
  simp [*]

@[simp] theorem State.giveUp_mem (s : State) :
    (State.giveUp s).mem = s.mem := by
  unfold State.giveUp
  simp [*]

@[simp] theorem State.retire_canonical (s : State) (rep : Option RepState) (loop : Option LoopState) (hasOp : Bool) (h_s : s.mem.wf = true) :
    (State.retire s rep loop hasOp).mem.wf = true := by
  unfold State.retire
  repeat' split
  all_goals simp [*]

@[simp] theorem State.passWait_mem (s : State) :
    (State.passWait s).mem = s.mem := by
  unfold State.passWait
  simp [*]

@[simp] theorem State.completeWait_canonical (s : State) (h_s : s.mem.wf = true) :
    (State.completeWait s).mem.wf = true := by
  unfold State.completeWait
  simp [*]

/-! ### Stands.lean -/

@[simp] theorem execZenter_canonical (f : Slot) (s : State) (h_s : s.mem.wf = true) :
    Out.canonical (execZenter f s) = true := by
  unfold execZenter
  dsimp only
  repeat' split
  all_goals simp [*]

@[simp] theorem execZleave_canonical (f : Slot) (s : State) (h_s : s.mem.wf = true) :
    Out.canonical (execZleave f s) = true := by
  unfold execZleave
  repeat' split
  all_goals simp [*]

@[simp] theorem State.onMyStand_mem (s : State) (level : Nat) (f : Stand → Stand) :
    (State.onMyStand s level f).mem = s.mem := by
  unfold State.onMyStand
  simp [*]

@[simp] theorem State.setBst_mem (s : State) (b : Nat) :
    (State.setBst s b).mem = s.mem := by
  unfold State.setBst
  simp [*]

@[simp] theorem State.arrive_mem (s : State) :
    (State.arrive s).mem = s.mem := by
  unfold State.arrive
  dsimp only
  repeat' split
  all_goals simp [*]

@[simp] theorem State.trapLate_canonical (s : State) (obj : Nat) (h_s : s.mem.wf = true) :
    (State.trapLate s obj).mem.wf = true := by
  unfold State.trapLate
  simp [*]

@[simp] theorem execZsync_canonical (f : Slot) (s : State) (h_s : s.mem.wf = true) :
    Out.canonical (execZsync f s) = true := by
  unfold execZsync
  repeat' split
  all_goals simp [*]

@[simp] theorem State.passBarrier_canonical (s : State) (t : Task) (h_s : s.mem.wf = true) :
    (State.passBarrier s t).mem.wf = true := by
  unfold State.passBarrier
  simp [*]

@[simp] theorem State.completeBarrier_canonical (s : State) (z : Stand) (h_s : s.mem.wf = true) :
    (State.completeBarrier s z).mem.wf = true := by
  unfold State.completeBarrier
  repeat' (first | (simp [*]; done) | intro _ | dsimp only | split | apply guarded_canonical | apply State.withImage_canonical | apply State.withDesc_canonical | apply State.sealThen_canonical | apply State.sealOwn_canonical | apply State.fullEmptyLoad_canonical | apply State.onFirst_canonical | apply foldl_canonical )

@[simp] theorem execBarrierComplete_canonical (stand : Nat) (s : State) (h_s : s.mem.wf = true) :
    Out.canonical (execBarrierComplete stand s) = true := by
  unfold execBarrierComplete
  repeat' split
  all_goals simp [*]

@[simp] theorem State.finishCollective_canonical (s : State) (d : CollDest) (r : CollResult) (h_s : s.mem.wf = true) :
    (State.finishCollective s d r).mem.wf = true := by
  unfold State.finishCollective
  repeat' split
  all_goals simp [*]

@[simp] theorem State.contribute_mem (s : State) (c : Contribution) :
    (State.contribute s c).mem = s.mem := by
  unfold State.contribute
  simp [*]

@[simp] theorem State.collective_canonical (s : State) (level : TaskStand → Nat) (d : CollDest) (args : List Nat) (data : List VReg) (h_s : s.mem.wf = true) :
    (State.collective s level d args data).mem.wf = true := by
  unfold State.collective
  repeat' (first | (simp [*]; done) | intro _ | dsimp only | split | apply guarded_canonical | apply State.withImage_canonical | apply State.withDesc_canonical | apply State.sealThen_canonical | apply State.sealOwn_canonical | apply State.fullEmptyLoad_canonical | apply State.onFirst_canonical | apply foldl_canonical )

@[simp] theorem execZred_canonical (f : Slot) (s : State) (h_s : s.mem.wf = true) :
    Out.canonical (execZred f s) = true := by
  unfold execZred
  simp [*]

@[simp] theorem execBoom_canonical (f : Slot) (s : State) (h_s : s.mem.wf = true) :
    Out.canonical (execBoom f s) = true := by
  unfold execBoom
  simp [*]

@[simp] theorem State.enqueueReduction_mem (s : State) (f : Slot) (x : Stand) :
    (State.enqueueReduction s f x).mem = s.mem := by
  unfold State.enqueueReduction
  dsimp only
  repeat' split
  all_goals simp [*]

@[simp] theorem State.reduceBulk_canonical (s : State) (f : Slot) (h_s : s.mem.wf = true) :
    (State.reduceBulk s f).mem.wf = true := by
  unfold State.reduceBulk
  repeat' (first | (simp [*]; done) | intro _ | dsimp only | split | apply guarded_canonical | apply State.withImage_canonical | apply State.withDesc_canonical | apply State.sealThen_canonical | apply State.sealOwn_canonical | apply State.fullEmptyLoad_canonical | apply State.onFirst_canonical | apply foldl_canonical )

@[simp] theorem execEnqReduce_canonical (f : Slot) (s : State) (h_s : s.mem.wf = true) :
    Out.canonical (execEnqReduce f s) = true := by
  unfold execEnqReduce
  simp [*]

@[simp] theorem State.ownResult_mem (s : State) :
    (State.ownResult s).mem = s.mem := by
  unfold State.ownResult
  simp [*]

@[simp] theorem State.giveResult_canonical (s : State) (c : Contribution) (r : CollResult) (data : List VReg) (h_s : s.mem.wf = true) :
    (State.giveResult s c r data).mem.wf = true := by
  unfold State.giveResult
  dsimp only
  repeat' split
  all_goals simp [*]

@[simp] theorem State.completeCollective_canonical (s : State) (z : Stand) (h_s : s.mem.wf = true) :
    (State.completeCollective s z).mem.wf = true := by
  unfold State.completeCollective
  repeat' (first | (simp [*]; done) | intro _ | dsimp only | split | apply guarded_canonical | apply State.withImage_canonical | apply State.withDesc_canonical | apply State.sealThen_canonical | apply State.sealOwn_canonical | apply State.fullEmptyLoad_canonical | apply State.onFirst_canonical | apply foldl_canonical )

@[simp] theorem execCollectiveComplete_canonical (stand : Nat) (s : State) (h_s : s.mem.wf = true) :
    Out.canonical (execCollectiveComplete stand s) = true := by
  unfold execCollectiveComplete
  repeat' split
  all_goals simp [*]

@[simp] theorem State.abandonBarrier_canonical (s : State) (z : Stand) (m : Nat) (h_s : s.mem.wf = true) :
    (State.abandonBarrier s z m).mem.wf = true := by
  unfold State.abandonBarrier
  dsimp only
  repeat' split
  all_goals simp [*]

@[simp] theorem State.abandonCollective_canonical (s : State) (c : Contribution) (h_s : s.mem.wf = true) :
    (State.abandonCollective s c).mem.wf = true := by
  unfold State.abandonCollective
  repeat' split
  all_goals simp [*]

@[simp] theorem execStandWatchdog_canonical (s : State) (h_s : s.mem.wf = true) :
    Out.canonical (execStandWatchdog s) = true := by
  unfold execStandWatchdog
  repeat' split
  all_goals simp [*]

end Sys2Proof.Machine
end

