-- ==== Sys2Proof/Laws/CanonicalTasks.lean ====
section
/-! SUPPORT. Memory keeps its canonical form, or is not touched, under tasks, helpers, escalation and the core's memory instructions:
`X_mem` says that `X` leaves memory as it is, `X_canonical` that it keeps the form. -/

namespace Sys2Proof.Machine

/-! ### Begin.lean -/

@[simp] theorem State.writePads_canonical (s : State) (l : Nat) (k : Kernel) (h_s : s.mem.wf = true) :
    (s.writePads l k).mem.wf = true := by
  unfold State.writePads
  exact foldl_canonical _ _ _ h_s fun _ _ h => by simp [h]

@[simp] theorem State.writeHelper_canonical (s : State) (l w func : Nat) (image : Option (List Byte)) (h_s : s.mem.wf = true) :
    (State.writeHelper s l w func image).mem.wf = true := by
  unfold State.writeHelper
  repeat' split
  all_goals simp [*]

theorem State.makeResident_canonical {s t : State} {l func b : Nat} {k : Kernel}
    (h : s.makeResident l func k = some (t, b)) (h_s : s.mem.wf = true) : t.mem.wf = true := by
  obtain ⟨⟨base, rs⟩, -, h1⟩ := Option.map_eq_some_iff.1 h
  dsimp only at h1
  split at h1
  · cases h1; exact h_s
  · cases h1
    exact State.writeHelper_canonical _ _ _ _ _
      (State.writeHelper_canonical _ _ _ _ _ (State.writePads_canonical _ _ _ h_s))

@[simp] theorem State.unspecifyBound_mem (s : State) (l : Nat) (abind : BitVec 4) (nbind : BitVec 8) :
    (State.unspecifyBound s l abind nbind).mem = s.mem := by
  unfold State.unspecifyBound
  simp [*]

@[simp] theorem State.addTask_mem (s : State) (t : Task) :
    (State.addTask s t).mem = s.mem := by
  unfold State.addTask
  simp [*]

@[simp] theorem State.regain_mem (s : State) :
    (State.regain s).mem = s.mem := by
  unfold State.regain
  simp [*]

@[simp] theorem State.restartTask_mem (s : State) :
    (State.restartTask s).mem = s.mem := by
  unfold State.restartTask
  simp [*]

/-! ### Helper.lean -/

@[simp] theorem State.setHlp_mem (s : State) (h : Helper) :
    (State.setHlp s h).mem = s.mem := by
  unfold State.setHlp
  simp [*]

@[simp] theorem State.setHx_mem (s : State) (n : Nat) (v : W32) :
    (State.setHx s n v).mem = s.mem := by
  unfold State.setHx
  simp [*]

@[simp] theorem State.hGo_mem (s : State) (pc : W32) :
    (State.hGo s pc).mem = s.mem := by
  unfold State.hGo
  simp [*]

@[simp] theorem State.hNext_mem (s : State) (len : Nat) :
    (State.hNext s len).mem = s.mem := by
  unfold State.hNext
  simp [*]

@[simp] theorem State.hWait_mem (s : State) (k : HelperWait) :
    (State.hWait s k).mem = s.mem := by
  unfold State.hWait
  simp [*]

@[simp] theorem State.hTrap_mem (s : State) (cause : Nat) (tval : W32) :
    (State.hTrap s cause tval).mem = s.mem := by
  unfold State.hTrap
  simp [*]

@[simp] theorem State.hWaitPad_mem (s : State) :
    (State.hWaitPad s).mem = s.mem := by
  unfold State.hWaitPad
  simp [*]

@[simp] theorem State.hReads_mem (s : State) (k n : Nat) :
    (State.hReads s k n).mem = s.mem := by
  unfold State.hReads
  simp [*]

@[simp] theorem State.hHold_mem (s : State) (i : HoldItem) (n len : Nat) :
    (State.hHold s i n len).mem = s.mem := by
  unfold State.hHold
  simp [*]

@[simp] theorem State.hStore_canonical (s : State) (a : W32) (n : Nat) (v : W32) (len : Nat) (h_s : s.mem.wf = true) :
    (State.hStore s a n v len).mem.wf = true := by
  unfold State.hStore
  repeat' split
  all_goals simp [*]

@[simp] theorem execHskEnq_canonical (rd rs1 rs2 : BitVec 5) (s : State) (h_s : s.mem.wf = true) :
    Out.canonical (execHskEnq rd rs1 rs2 s) = true := by
  unfold execHskEnq
  dsimp only
  repeat' split
  all_goals simp [*]

@[simp] theorem execHskDeq_canonical (rd rs1 : BitVec 5) (s : State) (h_s : s.mem.wf = true) :
    Out.canonical (execHskDeq rd rs1 s) = true := by
  unfold execHskDeq
  repeat' split
  all_goals simp [*]

@[simp] theorem State.hClaim_mem (s : State) (gr : Nat) :
    (State.hClaim s gr).mem = s.mem := by
  unfold State.hClaim
  simp [*]

@[simp] theorem State.hFewLoad_mem (s : State) (a rd : Nat) (clear : Bool) :
    (State.hFewLoad s a rd clear).mem = s.mem := by
  unfold State.hFewLoad
  simp [*]

@[simp] theorem State.hFew_mem (s : State) (rd rs1 : BitVec 5) (clear : Bool) :
    (State.hFew s rd rs1 clear).mem = s.mem := by
  unfold State.hFew
  simp [*]

@[simp] theorem execHskFew_canonical (rd rs1 : BitVec 5) (s : State) (h_s : s.mem.wf = true) :
    Out.canonical (execHskFew rd rs1 s) = true := by
  unfold execHskFew
  simp [*]

@[simp] theorem execHskFewClr_canonical (rd rs1 : BitVec 5) (s : State) (h_s : s.mem.wf = true) :
    Out.canonical (execHskFewClr rd rs1 s) = true := by
  unfold execHskFewClr
  simp [*]

@[simp] theorem execHskFes_canonical (rs1 rs2 : BitVec 5) (s : State) (h_s : s.mem.wf = true) :
    Out.canonical (execHskFes rs1 rs2 s) = true := by
  unfold execHskFes
  simp [*]

@[simp] theorem execHskMbr_canonical (rd rs1 : BitVec 5) (s : State) (h_s : s.mem.wf = true) :
    Out.canonical (execHskMbr rd rs1 s) = true := by
  unfold execHskMbr
  dsimp only
  repeat' split
  all_goals simp [*]

@[simp] theorem execHskMbw_canonical (rs1 rs2 : BitVec 5) (s : State) (h_s : s.mem.wf = true) :
    Out.canonical (execHskMbw rs1 rs2 s) = true := by
  unfold execHskMbw
  simp [*]

@[simp] theorem execHskDcc_canonical (rd : BitVec 5) (s : State) (h_s : s.mem.wf = true) :
    Out.canonical (execHskDcc rd s) = true := by
  unfold execHskDcc
  simp [*]

@[simp] theorem execHskDccHi_canonical (rd : BitVec 5) (s : State) (h_s : s.mem.wf = true) :
    Out.canonical (execHskDccHi rd s) = true := by
  unfold execHskDccHi
  simp [*]

@[simp] theorem State.hSealNow_canonical (s : State) (h_s : s.mem.wf = true) : s.hSealNow.mem.wf = true := by
  unfold State.hSealNow
  simp only [hNext_mem, setHlp_mem, forgetWriter_mem, resolveClaims_mem]
  exact foldl_canonical _ _ _ h_s fun x i h => releaseItem_canonical _ _ _ h

@[simp] theorem State.hSealEnd_canonical (s : State) (h_s : s.mem.wf = true) :
    (State.hSealEnd s).mem.wf = true := by
  unfold State.hSealEnd
  repeat' split
  all_goals simp [*]

@[simp] theorem execHskSeal_canonical (s : State) (h_s : s.mem.wf = true) :
    Out.canonical (execHskSeal s) = true := by
  unfold execHskSeal
  simp [*]

theorem State.findHelper_mem {s t : State} {test : State → Bool} (h : s.findHelper test = some t) : t.mem = s.mem := by
  obtain ⟨x, -, rfl⟩ := List.mem_map.1 (List.mem_of_find?_eq_some h)
  simp

@[simp] theorem execHelperSealRelease_canonical (s : State) (h_s : s.mem.wf = true) :
    Out.canonical (execHelperSealRelease s) = true := by
  unfold execHelperSealRelease
  cases h : s.findHelper State.hSealWaits with
  | none => exact h_s
  | some t => exact State.hSealEnd_canonical _ (State.findHelper_mem h ▸ h_s)

@[simp] theorem execHelperWatchdog_canonical (s : State) (h_s : s.mem.wf = true) :
    Out.canonical (execHelperWatchdog s) = true := by
  unfold execHelperWatchdog
  split
  · exact h_s
  · rename_i t h; simpa [State.findHelper_mem h] using h_s

@[simp] theorem State.hReplay_mem (s : State) :
    (State.hReplay s).mem = s.mem := by
  unfold State.hReplay
  simp [*]

@[simp] theorem State.hFewServe_mem (s : State) :
    (State.hFewServe s).mem = s.mem := by
  unfold State.hFewServe
  repeat' split
  all_goals simp [*]

@[simp] theorem State.hRestart_mem (s : State) (run : HelperMode) :
    (State.hRestart s run).mem = s.mem := by
  unfold State.hRestart
  simp [*]

/-! ### Records.lean -/

@[simp] theorem State.writeRecord_canonical (s : State) (fn pa : Nat) (rec : BitVec 256) (h_s : s.mem.wf = true) :
    (State.writeRecord s fn pa rec).mem.wf = true := by
  unfold State.writeRecord
  simp [*]

@[simp] theorem State.finishNode_mem (s : State) (q seq status : Nat) :
    (State.finishNode s q seq status).mem = s.mem := by
  unfold State.finishNode
  simp [*]

@[simp] theorem State.drainRecords_canonical (s : State) (fn : Nat) (a1 : Nat) (h_s : s.mem.wf = true) :
    (State.drainRecords s fn a1).mem.wf = true := by
  induction a1 generalizing s with
  | zero => exact h_s
  | succ n ih =>
    unfold State.drainRecords
    dsimp only
    repeat' split
    all_goals first
      | exact h_s
      | exact ih _ (by simp [h_s])
      | simpa using h_s

@[simp] theorem State.putRecord_canonical (s : State) (fn : Nat) (rec : BitVec 256) (who : Option (Nat × Nat)) (h_s : s.mem.wf = true) :
    (State.putRecord s fn rec who).mem.wf = true := by
  unfold State.putRecord
  simp [*]

@[simp] theorem State.putEvent_canonical (s : State) (fn kind w1 w2 w3 : Nat) (h_s : s.mem.wf = true) :
    (State.putEvent s fn kind w1 w2 w3).mem.wf = true := by
  unfold State.putEvent
  simp [*]

@[simp] theorem State.recordCompletion_canonical (s : State) (q seq status : Nat) (h_s : s.mem.wf = true) :
    (State.recordCompletion s q seq status).mem.wf = true := by
  unfold State.recordCompletion
  repeat' split
  all_goals simp [*]

/-! ### Escalate.lean -/

@[simp] theorem State.markBad_canonical (s : State) (plot : Nat) (h_s : s.mem.wf = true) :
    (State.markBad s plot).mem.wf = true := by
  unfold State.markBad
  repeat' split
  all_goals simp [*]

@[simp] theorem State.agentError_canonical (s : State) (k : Nat) (h_s : s.mem.wf = true) :
    (State.agentError s k).mem.wf = true := by
  unfold State.agentError
  simp [*]

@[simp] theorem State.resetStands_mem (s : State) (z : Stand) :
    (State.resetStands s z).mem = s.mem := by
  unfold State.resetStands
  simp [*]

@[simp] theorem State.haltMember_mem (s : State) (r : TaskRef) :
    (State.haltMember s r).mem = s.mem := by
  unfold State.haltMember
  simp [*]

@[simp] theorem State.unstart_mem (s : State) (r : TaskRef) :
    (State.unstart s r).mem = s.mem := by
  unfold State.unstart
  simp [*]

@[simp] theorem State.decideRestart_canonical (s : State) (z : Stand) (ok : Bool) (h_s : s.mem.wf = true) :
    (State.decideRestart s z ok).mem.wf = true := by
  unfold State.decideRestart
  repeat' (first | (simp [*]; done) | intro _ | dsimp only | split | apply guarded_canonical | apply State.withImage_canonical | apply State.withDesc_canonical | apply State.sealThen_canonical | apply State.sealOwn_canonical | apply State.fullEmptyLoad_canonical | apply State.onFirst_canonical | apply foldl_canonical )

@[simp] theorem State.settleRestart_canonical (s : State) (q seq : Nat) (h_s : s.mem.wf = true) :
    (State.settleRestart s q seq).mem.wf = true := by
  unfold State.settleRestart
  repeat' split
  all_goals simp [*]

@[simp] theorem State.haltStand_canonical (s : State) (z : Stand) (h_s : s.mem.wf = true) :
    (State.haltStand s z).mem.wf = true := by
  unfold State.haltStand
  repeat' split
  all_goals simp [*]

@[simp] theorem State.hearRestart_canonical (s : State) (q seq pos : Nat) (ok : Bool) (h_s : s.mem.wf = true) :
    (State.hearRestart s q seq pos ok).mem.wf = true := by
  unfold State.hearRestart
  dsimp only
  repeat' split
  all_goals simp [*]

@[simp] theorem State.deliverBody_canonical (s : State) (b : Config.PortBody) (h_s : s.mem.wf = true) :
    (State.deliverBody s b).mem.wf = true := by
  unfold State.deliverBody
  repeat' split
  all_goals simp [*]

@[simp] theorem State.deliverEarly_canonical (s : State) (h_s : s.mem.wf = true) :
    (State.deliverEarly s).mem.wf = true := by
  unfold State.deliverEarly
  repeat' (first | (simp [*]; done) | intro _ | dsimp only | split | apply guarded_canonical | apply State.withImage_canonical | apply State.withDesc_canonical | apply State.sealThen_canonical | apply State.sealOwn_canonical | apply State.fullEmptyLoad_canonical | apply State.onFirst_canonical | apply foldl_canonical )

@[simp] theorem State.deliver_canonical (s : State) (b : Config.PortBody) (h_s : s.mem.wf = true) :
    (State.deliver s b).mem.wf = true := by
  unfold State.deliver
  repeat' split
  all_goals simp [*]

@[simp] theorem State.restartOrEnd_canonical (s : State) (ok : Bool) (t : Task) (h_s : s.mem.wf = true) :
    (State.restartOrEnd s ok t).mem.wf = true := by
  unfold State.restartOrEnd
  repeat' split
  all_goals simp [*]

@[simp] theorem State.restartTasks_canonical (s : State) (rs : List TaskRef) (h_s : s.mem.wf = true) :
    (State.restartTasks s rs).mem.wf = true := by
  unfold State.restartTasks
  first
  | rw [State.deliverEarly_mem]
  | refine State.deliverEarly_canonical _ ?_
  refine foldl_canonical _ _ _ h_s fun acc r h => ?_
  repeat' split
  all_goals simp [h]

@[simp] theorem State.restartHelpers_mem (s : State) (l : Nat) :
    (State.restartHelpers s l).mem = s.mem := by
  unfold State.restartHelpers
  simp [*]

@[simp] theorem State.recallFrom_mem (s : State) (h nb : Nat) :
    (State.recallFrom s h nb).mem = s.mem := by
  unfold State.recallFrom
  simp [*]

@[simp] theorem State.recall_mem (s : State) (nb : Nat) :
    (State.recall s nb).mem = s.mem := by
  unfold State.recall
  simp [*]

@[simp] theorem State.loseBytes_canonical (s : State) (l k n : Nat) (h_s : s.mem.wf = true) :
    (s.loseBytes l k n).mem.wf = true := by
  unfold State.loseBytes
  dsimp only
  exact State.scramble_canonical s k n h_s

@[simp] theorem State.losePad_canonical (s : State) (l : Nat) (h_s : s.mem.wf = true) :
    (s.losePad l).mem.wf = true := by
  unfold State.losePad
  exact State.loseBytes_canonical s l _ _ h_s

@[simp] theorem State.moveCore_canonical (s : State) (l : Nat) (h_s : s.mem.wf = true) :
    (s.moveCore l).mem.wf = true := by
  unfold State.moveCore
  dsimp only
  rw [State.restartHelpers_mem]
  refine foldl_canonical _ _ _ (State.losePad_canonical _ _ (by simpa using h_s)) fun acc r h => ?_
  cases s.kernelAt r.kernel with
  | none => exact h
  | some k => exact State.writePads_canonical _ _ _ h

@[simp] theorem State.moveCores_canonical (s : State) (ls : List Nat) (h_s : s.mem.wf = true) :
    (s.moveCores ls).mem.wf = true := foldl_canonical _ _ _ h_s fun x l h => State.moveCore_canonical x l h

@[simp] theorem State.stopTasks_canonical (s : State) (ls : List Nat) (h_s : s.mem.wf = true) :
    (s.stopTasks ls).mem.wf = true := by
  unfold State.stopTasks
  exact foldl_canonical _ _ _ h_s fun x t h => by simp [h]

@[simp] theorem State.spoilStreams_mem (s : State) (l : Nat) :
    (State.spoilStreams s l).mem = s.mem := by
  unfold State.spoilStreams
  simp [*]

@[simp] theorem State.flagShared_mem (s : State) :
    (State.flagShared s).mem = s.mem := by
  unfold State.flagShared
  simp [*]

@[simp] theorem State.failDie_mem (s : State) (d cause fcl : Nat) :
    (State.failDie s d cause fcl).mem = s.mem := by
  unfold State.failDie
  simp [*]

theorem State.rehost_mem {s t : State} {c k j : Nat} (h : s.rehost c k j = .ok t) : t.mem = s.mem := by
  unfold State.rehost at h
  dsimp only at h
  split at h
  · cases h; rfl
  · split at h
    · cases h
    · split at h
      · cases h
      · cases h; rfl

theorem State.rehostAll_mem {s t : State} {c k : Nat} {js : List Nat} (h : s.rehostAll c k js = .ok t) :
    t.mem = s.mem := by
  induction js generalizing s with
  | nil => cases h; rfl
  | cons j js ih =>
    unfold State.rehostAll at h
    split at h
    · cases h
    · exact (ih h).trans (State.rehost_mem ‹_›)

@[simp] theorem State.shedCore_canonical (s : State) (c k : Nat) (h_s : s.mem.wf = true) :
    (s.shedCore c k).mem.wf = true := by
  unfold State.shedCore
  dsimp only
  repeat' split
  · exact h_s
  · simp [h_s]
  · simp [h_s]
  · rename_i h
    refine State.restartTasks_canonical _ _ (State.moveCores_canonical _ _ ?_)
    rw [State.flagShared_mem, State.rehostAll_mem h]
    simp [h_s]

@[simp] theorem State.clearAdopted_canonical (s : State) (d : Nat) (h_s : s.mem.wf = true) :
    (State.clearAdopted s d).mem.wf = true := by
  unfold State.clearAdopted
  simp [*]

@[simp] theorem State.restartSaved_mem (s : State) (d : Nat) :
    (State.restartSaved s d).mem = s.mem := by
  unfold State.restartSaved
  simp [*]

@[simp] theorem State.shareAll_mem (s : State) (d : Nat) : (s.shareAll d).mem = s.mem := by
  unfold State.shareAll
  exact foldl_mem _ _ _ fun _ _ => rfl

@[simp] theorem State.setAdoption_mem (s : State) (cause fcl : Nat) :
    (State.setAdoption s cause fcl).mem = s.mem := by
  unfold State.setAdoption
  simp [*]

@[simp] theorem State.takeOver_canonical (s : State) (d cause fcl : Nat) (h_s : s.mem.wf = true) :
    (s.takeOver d cause fcl).mem.wf = true := by
  unfold State.takeOver
  refine State.moveCores_canonical _ _ ?_
  rw [State.flagShared_mem, State.shareAll_mem]
  refine State.clearAdopted_canonical _ _ ?_
  unfold State.setAdoption
  rw [State.setPkg_mem]
  exact State.stopTasks_canonical _ _ h_s

@[simp] theorem State.afterAdoption_canonical (s : State) (d cause fcl : Nat) (h_s : s.mem.wf = true) :
    (s.afterAdoption d cause fcl).mem.wf = true := by
  unfold State.afterAdoption
  exact State.putEvent_canonical _ _ _ _ _ _ (State.restartTasks_canonical _ _ h_s)

@[simp] theorem State.adopt_canonical (s : State) (d cause fcl : Nat) (h_s : s.mem.wf = true) :
    (s.adopt d cause fcl).mem.wf = true := by
  unfold State.adopt
  refine State.afterAdoption_canonical _ _ _ _ ?_
  first
  | (rw [State.restartSaved_mem]; exact State.takeOver_canonical _ _ _ _ h_s)
  | exact State.restartSaved_canonical _ _ (State.takeOver_canonical _ _ _ _ h_s)

@[simp] theorem State.deviceFault_canonical (s : State) (cause : Nat) (h_s : s.mem.wf = true) :
    (State.deviceFault s cause).mem.wf = true := by
  unfold State.deviceFault
  simp [*]

@[simp] theorem State.setLaneGroup_mem (s : State) (r : LinkRef) (x : LaneGroup) :
    (State.setLaneGroup s r x).mem = s.mem := by
  unfold State.setLaneGroup
  repeat' split
  all_goals simp [*]

@[simp] theorem State.leavePort_mem (s : State) (a1 : LinkRef) :
    (State.leavePort s a1).mem = s.mem := by
  unfold State.leavePort
  repeat' split
  all_goals simp [*]

@[simp] theorem State.spliceLane_mem (s : State) (r : LinkRef) :
    (State.spliceLane s r).mem = s.mem := by
  unfold State.spliceLane
  simp [*]

/-! ### Control.lean -/

@[simp] theorem State.transfer_mem (s : State) (t : Int) :
    (State.transfer s t).mem = s.mem := by
  unfold State.transfer
  simp [*]

@[simp] theorem execBr_canonical (f : Slot) (s : State) (h_s : s.mem.wf = true) :
    Out.canonical (execBr f s) = true := by
  unfold execBr
  simp [*]

@[simp] theorem execCall_canonical (f : Slot) (s : State) (h_s : s.mem.wf = true) :
    Out.canonical (execCall f s) = true := by
  unfold execCall
  simp [*]

@[simp] theorem execRet_canonical (f : Slot) (s : State) (h_s : s.mem.wf = true) :
    Out.canonical (execRet f s) = true := by
  unfold execRet
  simp [*]

@[simp] theorem State.trapMeasure_canonical (s : State) (o : Nat) (beyond : Bool) (h_s : s.mem.wf = true) :
    (State.trapMeasure s o beyond).mem.wf = true := by
  unfold State.trapMeasure
  simp [*]

@[simp] theorem State.skipBundles_canonical (s : State) (o n : Nat) (h_s : s.mem.wf = true) :
    (State.skipBundles s o n).mem.wf = true := by
  unfold State.skipBundles
  repeat' split
  all_goals simp [*]

@[simp] theorem execRep_canonical (f : Slot) (s : State) (h_s : s.mem.wf = true) :
    Out.canonical (execRep f s) = true := by
  unfold execRep
  dsimp only
  repeat' split
  all_goals simp [*]

@[simp] theorem execLoopb_canonical (f : Slot) (s : State) (h_s : s.mem.wf = true) :
    Out.canonical (execLoopb f s) = true := by
  unfold execLoopb
  dsimp only
  repeat' split
  all_goals simp [*]

@[simp] theorem State.finishTask_canonical (s : State) (h_s : s.mem.wf = true) :
    (State.finishTask s).mem.wf = true := by
  unfold State.finishTask
  repeat' split
  all_goals simp [*]

@[simp] theorem State.endTask_canonical (s : State) (h_s : s.mem.wf = true) :
    (State.endTask s).mem.wf = true := by
  unfold State.endTask
  repeat' (first | (simp [*]; done) | intro _ | dsimp only | split | apply guarded_canonical | apply State.withImage_canonical | apply State.withDesc_canonical | apply State.sealThen_canonical | apply State.sealOwn_canonical | apply State.fullEmptyLoad_canonical | apply State.onFirst_canonical | apply foldl_canonical )

@[simp] theorem execEndTask_canonical (f : Slot) (s : State) (h_s : s.mem.wf = true) :
    Out.canonical (execEndTask f s) = true := by
  unfold execEndTask
  repeat' split
  all_goals simp [*]

@[simp] theorem execTrap_canonical (f : Slot) (s : State) (h_s : s.mem.wf = true) :
    Out.canonical (execTrap f s) = true := by
  unfold execTrap
  simp [*]

@[simp] theorem execEret_canonical (f : Slot) (s : State) (h_s : s.mem.wf = true) :
    Out.canonical (execEret f s) = true := by
  unfold execEret
  repeat' split
  all_goals simp [*]

@[simp] theorem execNop_canonical (f : Slot) (s : State) (h_s : s.mem.wf = true) :
    Out.canonical (execNop f s) = true := by
  unfold execNop
  simp [*]

@[simp] theorem execSealBolt_canonical (f : Slot) (s : State) (h_s : s.mem.wf = true) :
    Out.canonical (execSealBolt f s) = true := by
  unfold execSealBolt
  simp [*]

@[simp] theorem execFence_canonical (f : Slot) (s : State) (h_s : s.mem.wf = true) :
    Out.canonical (execFence f s) = true := by
  unfold execFence
  simp [*]

@[simp] theorem execSrd_canonical (f : Slot) (s : State) (h_s : s.mem.wf = true) :
    Out.canonical (execSrd f s) = true := by
  unfold execSrd
  dsimp only
  repeat' split
  all_goals simp [*]

@[simp] theorem execSwr_canonical (f : Slot) (s : State) (h_s : s.mem.wf = true) :
    Out.canonical (execSwr f s) = true := by
  unfold execSwr
  dsimp only
  repeat' split
  all_goals simp [*]

@[simp] theorem execRand_canonical (f : Slot) (s : State) (h_s : s.mem.wf = true) :
    Out.canonical (execRand f s) = true := by
  unfold execRand
  simp [*]

@[simp] theorem execGrow_canonical (f : Slot) (s : State) (h_s : s.mem.wf = true) :
    Out.canonical (execGrow f s) = true := by
  unfold execGrow
  simp [*]

@[simp] theorem execShrink_canonical (f : Slot) (s : State) (h_s : s.mem.wf = true) :
    Out.canonical (execShrink f s) = true := by
  unfold execShrink
  repeat' (first | (simp [*]; done) | intro _ | dsimp only | split | apply guarded_canonical | apply State.withImage_canonical | apply State.withDesc_canonical | apply State.sealThen_canonical | apply State.sealOwn_canonical | apply State.fullEmptyLoad_canonical | apply State.onFirst_canonical | apply foldl_canonical )

/-! ### Schedule.lean -/

theorem State.startTile_canonical {s t : State} {l q seq : Nat} (h : s.startTile l q seq = some t)
    (h_s : s.mem.wf = true) : t.mem.wf = true := by
  unfold State.startTile at h
  split at h
  · cases h
  · split at h
    · dsimp only at h
      split at h
      · cases h
      · obtain ⟨⟨s1, base⟩, h1, rfl⟩ := Option.map_eq_some_iff.1 h
        have := State.makeResident_canonical h1 h_s
        simpa using this
    · cases h

theorem State.startTiles_canonical {s t : State} {q seq : Nat} {ls : List Nat} (h : s.startTiles q seq ls = some t)
    (h_s : s.mem.wf = true) : t.mem.wf = true := by
  induction ls generalizing s with
  | nil => cases h; exact h_s
  | cons l ls ih =>
    unfold State.startTiles at h
    split at h
    · cases h
    · exact ih h (State.startTile_canonical ‹_› h_s)

theorem State.tryStart_canonical {s t : State} {l : Nat} {n : Node} (h : s.tryStart l n = some t)
    (h_s : s.mem.wf = true) : t.mem.wf = true := by
  unfold State.tryStart at h
  split at h
  · exact State.startTile_canonical h h_s
  · split at h
    · cases h
    · exact State.startTiles_canonical h h_s

theorem State.startCandidate_canonical {s t : State} {l : Nat} {n : Node} (h : s.startCandidate l n = some t)
    (h_s : s.mem.wf = true) : t.mem.wf = true := by
  unfold State.startCandidate at h
  split at h
  · exact State.tryStart_canonical h h_s
  · cases h

theorem State.startOn_canonical {s t : State} {l : Nat} (h : s.startOn l = some t) (h_s : s.mem.wf = true) :
    t.mem.wf = true := by
  obtain ⟨_, n, _, _, h1, _⟩ := List.findSome?_eq_some_iff.1 h
  exact State.startCandidate_canonical h1 h_s

@[simp] theorem execTaskStart_canonical (l : Nat) (s : State) (h_s : s.mem.wf = true) :
    Out.canonical (execTaskStart l s) = true := by
  unfold execTaskStart
  cases h : s.startOn l with
  | none => exact h_s
  | some t => exact State.startOn_canonical h h_s

@[simp] theorem execCandidateAgingBlock_canonical (l : Nat) (s : State) (h_s : s.mem.wf = true) :
    Out.canonical (execCandidateAgingBlock l s) = true := by
  unfold execCandidateAgingBlock
  repeat' split
  all_goals simp [*]

@[simp] theorem execPreemptionRequest_canonical (l : Nat) (s : State) (h_s : s.mem.wf = true) :
    Out.canonical (execPreemptionRequest l s) = true := by
  unfold execPreemptionRequest
  repeat' split
  all_goals simp [*]

theorem State.findTask_mem {s t : State} {test : State → Bool} (h : s.findTask test = some t) : t.mem = s.mem := by
  obtain ⟨x, -, rfl⟩ := List.mem_map.1 (List.mem_of_find?_eq_some h)
  simp

@[simp] theorem State.saveContext_canonical (s : State) (resident : Nat) (h_s : s.mem.wf = true) :
    (s.saveContext resident).mem.wf = true := by
  unfold State.saveContext
  simp only [State.refreshLevel_mem, State.setCore_mem, State.setId_mem, State.setMem_mem]
  exact Memory.writeCells_wf h_s

theorem State.preemptNow_canonical (s : State) (h_s : s.mem.wf = true) : (s.preemptNow).mem.wf = true := by
  unfold State.preemptNow
  dsimp only
  refine State.saveContext_canonical _ _ ?_
  rw [State.setTask_mem]
  exact State.sealNow_canonical _ _ (by rw [State.giveUp_mem]; exact h_s)

@[simp] theorem execPreemption_canonical (s : State) (h_s : s.mem.wf = true) :
    Out.canonical (execPreemption s) = true := by
  unfold execPreemption
  cases h : s.findTask State.preemptReady with
  | none => exact h_s
  | some t =>
    simp only [Option.map_some, Option.getD_some, canonical_next]
    exact State.preemptNow_canonical t (by rw [State.findTask_mem h]; exact h_s)

theorem State.resumeTask_canonical {s t : State} {x : SavedTask} (h : s.resumeTask x = some t)
    (h_s : s.mem.wf = true) : t.mem.wf = true := by
  unfold State.resumeTask at h
  dsimp only at h
  split at h
  · split at h
    · cases h
    · obtain ⟨⟨s1, base⟩, h1, rfl⟩ := Option.map_eq_some_iff.1 h
      have := State.makeResident_canonical h1 h_s
      dsimp only
      rw [State.setBolt_mem, State.addTask_mem, foldl_mem, foldl_mem]
      · simpa using this
      · intros; rfl
      · intros; rfl
  · cases h

@[simp] theorem execTaskResume_canonical (i : Nat) (s : State) (h_s : s.mem.wf = true) :
    Out.canonical (execTaskResume i s) = true := by
  unfold execTaskResume
  cases h : s.saved[i]?.bind s.resumeTask with
  | none => exact h_s
  | some t =>
    obtain ⟨x, -, h⟩ := Option.bind_eq_some_iff.1 h
    exact State.resumeTask_canonical h h_s

/-! ### Memory.lean -/

@[simp] theorem State.reading_mem (s : State) (ks : List Nat) :
    (State.reading s ks).mem = s.mem := by
  unfold State.reading
  simp [*]

@[simp] theorem State.claimGranules_mem (s : State) (a1 : List (Nat × Nat)) : (State.claimGranules s a1).mem = s.mem := by
  induction a1 generalizing s with
  | nil => rfl
  | cons g gs ih =>
    unfold State.claimGranules
    dsimp only
    split
    · exact ih _
    · exact ih _

@[simp] theorem State.fullEmptyLoad_mem (s : State) (f : Slot) (ks : List Nat) (addrOf : Nat × Nat → BitVec 48) (k : State → State) (h_k : ∀ x0, (k x0).mem = x0.mem) :
    (State.fullEmptyLoad s f ks addrOf k).mem = s.mem := by
  unfold State.fullEmptyLoad
  repeat' split
  all_goals simp [*]

@[simp] theorem State.storeCells_canonical (s : State) (op : Nat) (cells : List Host.Cell) (h_s : s.mem.wf = true) :
    (State.storeCells s op cells).mem.wf = true := by
  unfold State.storeCells
  dsimp only
  repeat' split
  all_goals simp [*]

@[simp] theorem execLd_canonical (f : Slot) (s : State) (h_s : s.mem.wf = true) :
    Out.canonical (execLd f s) = true := by
  unfold execLd
  dsimp only
  repeat' split
  all_goals simp [*]

@[simp] theorem execSt_canonical (f : Slot) (s : State) (h_s : s.mem.wf = true) :
    Out.canonical (execSt f s) = true := by
  unfold execSt
  dsimp only
  repeat' split
  all_goals simp [*]

@[simp] theorem State.sendRmw_mem (s : State) (f : Slot) (k : Nat) (aop : Nat) :
    (State.sendRmw s f k aop).mem = s.mem := by
  unfold State.sendRmw
  simp [*]

@[simp] theorem State.readModifyWrite_canonical (s : State) (f : Slot) (aop : Nat) (h_s : s.mem.wf = true) :
    (State.readModifyWrite s f aop).mem.wf = true := by
  unfold State.readModifyWrite
  repeat' split
  all_goals simp [*]

@[simp] theorem execCas_canonical (f : Slot) (s : State) (h_s : s.mem.wf = true) :
    Out.canonical (execCas f s) = true := by
  unfold execCas
  simp [*]

@[simp] theorem execAmo_canonical (f : Slot) (s : State) (h_s : s.mem.wf = true) :
    Out.canonical (execAmo f s) = true := by
  unfold execAmo
  simp [*]

/-! ### VectorMemory.lean -/

@[simp] theorem execVld_canonical (f : Slot) (s : State) (h_s : s.mem.wf = true) :
    Out.canonical (execVld f s) = true := by
  unfold execVld
  dsimp only
  repeat' split
  all_goals simp [*]

@[simp] theorem execVst_canonical (f : Slot) (s : State) (h_s : s.mem.wf = true) :
    Out.canonical (execVst f s) = true := by
  unfold execVst
  repeat' split
  all_goals simp [*]

@[simp] theorem execVldb_canonical (f : Slot) (s : State) (h_s : s.mem.wf = true) :
    Out.canonical (execVldb f s) = true := by
  unfold execVldb
  dsimp only
  repeat' split
  all_goals simp [*]

@[simp] theorem execVldg_canonical (f : Slot) (s : State) (h_s : s.mem.wf = true) :
    Out.canonical (execVldg f s) = true := by
  unfold execVldg
  repeat' split
  all_goals simp [*]

@[simp] theorem execVsts_canonical (f : Slot) (s : State) (h_s : s.mem.wf = true) :
    Out.canonical (execVsts f s) = true := by
  unfold execVsts
  repeat' split
  all_goals simp [*]

/-! ### Tasks.lean -/

@[simp] theorem State.onFirst_canonical (s : State) (test : State → Bool) (f : State → State) (h_s : s.mem.wf = true)
    (h_f : ∀ x, x.mem.wf = true → (f x).mem.wf = true) : (s.onFirst test f).mem.wf = true := by
  unfold State.onFirst
  cases h : s.findTask test with
  | none => exact h_s
  | some t => exact h_f t (State.findTask_mem h ▸ h_s)

@[simp] theorem State.serve_mem (s : State) :
    (State.serve s).mem = s.mem := by
  unfold State.serve
  simp [*]

@[simp] theorem execTrapEntry_canonical (r : TrapRec) (s : State) (h_s : s.mem.wf = true) :
    Out.canonical (execTrapEntry r s) = true := by
  unfold execTrapEntry
  simp [*]

@[simp] theorem execAsyncNoticeTaken_canonical (s : State) (h_s : s.mem.wf = true) :
    Out.canonical (execAsyncNoticeTaken s) = true := by
  unfold execAsyncNoticeTaken
  simp [*]

@[simp] theorem execBrumationEntry_canonical (s : State) (h_s : s.mem.wf = true) :
    Out.canonical (execBrumationEntry s) = true := by
  unfold execBrumationEntry
  simp [*]

@[simp] theorem State.chargeBolt_mem (s : State) (id : Nat) (c : Charge) :
    (State.chargeBolt s id c).mem = s.mem := by
  unfold State.chargeBolt
  simp [*]

@[simp] theorem State.chargeAll_mem (s : State) (id : Nat) (c : Charge) :
    (State.chargeAll s id c).mem = s.mem := by
  unfold State.chargeAll
  simp [*]

@[simp] theorem State.returnPopped_mem (s : State) (w : BoltWork) :
    (State.returnPopped s w).mem = s.mem := by
  unfold State.returnPopped
  simp [*]

@[simp] theorem State.restoreNest_mem (s : State) (b : BoltSnap) :
    (State.restoreNest s b).mem = s.mem := by
  unfold State.restoreNest
  repeat' split
  all_goals simp [*]

@[simp] theorem State.reopen_mem (s : State) (a1 : Option OwnBolt) :
    (State.reopen s a1).mem = s.mem := by
  unfold State.reopen
  repeat' split
  all_goals simp [*]

@[simp] theorem State.replayNow_mem (s : State) :
    (State.replayNow s).mem = s.mem := by
  unfold State.replayNow
  simp [*]

@[simp] theorem State.trapHardware_canonical (s : State) (cause source addr : Nat) (h_s : s.mem.wf = true) :
    (State.trapHardware s cause source addr).mem.wf = true := by
  unfold State.trapHardware
  simp [*]

@[simp] theorem State.escalate_canonical (s : State) (c : Charge) (h_s : s.mem.wf = true) :
    (State.escalate s c).mem.wf = true := by
  unfold State.escalate
  repeat' split
  all_goals simp [*]

@[simp] theorem State.replayCharged_canonical (s : State) (h_s : s.mem.wf = true) :
    (State.replayCharged s).mem.wf = true := by
  unfold State.replayCharged
  repeat' split
  all_goals simp [*]

@[simp] theorem execBoltReplay_canonical (s : State) (h_s : s.mem.wf = true) :
    Out.canonical (execBoltReplay s) = true := by
  unfold execBoltReplay
  repeat' (first | (simp [*]; done) | intro _ | dsimp only | split | apply guarded_canonical | apply State.withImage_canonical | apply State.withDesc_canonical | apply State.sealThen_canonical | apply State.sealOwn_canonical | apply State.fullEmptyLoad_canonical | apply State.onFirst_canonical | apply foldl_canonical )

@[simp] theorem execHelperBoltReplay_canonical (s : State) (h_s : s.mem.wf = true) :
    Out.canonical (execHelperBoltReplay s) = true := by
  unfold execHelperBoltReplay
  split
  · exact h_s
  · rename_i t h
    have := State.findHelper_mem h
    split <;> simp [this, h_s]

@[simp] theorem State.endOwn_mem (s : State) :
    (State.endOwn s).mem = s.mem := by
  unfold State.endOwn
  dsimp only
  repeat' split
  all_goals simp [*]

@[simp] theorem State.completeSeal_canonical (s : State) (h_s : s.mem.wf = true) :
    (State.completeSeal s).mem.wf = true := by
  unfold State.completeSeal
  repeat' split
  all_goals simp [*]

@[simp] theorem execSealComplete_canonical (s : State) (h_s : s.mem.wf = true) :
    Out.canonical (execSealComplete s) = true := by
  unfold execSealComplete
  split
  · rename_i t h
    have := State.findTask_mem h
    simp [this, h_s]
  · exact State.onFirst_canonical _ _ _ h_s fun x h => State.completeSeal_canonical _ h

@[simp] theorem execSealWatchdog_canonical (s : State) (h_s : s.mem.wf = true) :
    Out.canonical (execSealWatchdog s) = true := by
  unfold execSealWatchdog
  repeat' (first | (simp [*]; done) | intro _ | dsimp only | split | apply guarded_canonical | apply State.withImage_canonical | apply State.withDesc_canonical | apply State.sealThen_canonical | apply State.sealOwn_canonical | apply State.fullEmptyLoad_canonical | apply State.onFirst_canonical | apply foldl_canonical )

/-- What a fold that keeps the present state or takes the next one answers is one of the states. -/

theorem foldl_best_mem {m : Memory} (f : Option State → State → Option State) (l : List State) (a : Option State)
    (hf : ∀ a y z, f a y = some z → z = y ∨ a = some z) (ha : ∀ x, a = some x → x.mem = m)
    (hl : ∀ x ∈ l, x.mem = m) : ∀ x, l.foldl f a = some x → x.mem = m := by
  induction l generalizing a with
  | nil => exact ha
  | cons y l ih =>
    refine ih (f a y) (fun z hz => ?_) fun z hz => hl z (List.mem_cons_of_mem _ hz)
    rcases hf a y z hz with rfl | h
    · exact hl z List.mem_cons_self
    · exact ha z h

theorem State.firstServed_mem {s t : State} {test : State → Bool} (h : s.firstServed test = some t) : t.mem = s.mem := by
  refine foldl_best_mem _ _ none ?_ (by simp) ?_ t h
  · intro a y z hz
    dsimp only at hz
    split at hz
    · exact .inl (by cases hz; rfl)
    · split at hz
      · exact .inl (by cases hz; rfl)
      · exact .inr (by cases hz; rfl)
  · intro x hx
    obtain ⟨y, -, rfl⟩ := List.mem_map.1 (List.mem_filter.1 hx).1
    simp

theorem State.firstHelper_mem {s t : State} (h : s.firstHelper = some t) : t.mem = s.mem := by
  refine foldl_best_mem _ _ none ?_ (by simp) ?_ t h
  · intro a y z hz
    dsimp only at hz
    split at hz
    · exact .inl (by cases hz; rfl)
    · split at hz
      · exact .inl (by cases hz; rfl)
      · exact .inr (by cases hz; rfl)
  · intro x hx
    obtain ⟨y, -, rfl⟩ := List.mem_map.1 (List.mem_filter.1 hx).1
    simp

@[simp] theorem execLoadWaitServed_canonical (s : State) (h_s : s.mem.wf = true) :
    Out.canonical (execLoadWaitServed s) = true := by
  unfold execLoadWaitServed
  have ht : ∀ t, s.firstServed State.loadServed = some t → t.mem.wf = true := fun t h => by
    rw [State.firstServed_mem h]; exact h_s
  have hh : ∀ t, s.firstHelper = some t → t.mem.wf = true := fun t h => by
    rw [State.firstHelper_mem h]; exact h_s
  rw [canonical_next]
  split
  · split
    · simp [hh _ ‹_›]
    · simp [ht _ ‹_›]
  · simp [ht _ ‹_›]
  · simp [hh _ ‹_›]
  · exact h_s

@[simp] theorem execFullEmptyWatchdog_canonical (s : State) (h_s : s.mem.wf = true) :
    Out.canonical (execFullEmptyWatchdog s) = true := by
  unfold execFullEmptyWatchdog
  repeat' (first | (simp [*]; done) | intro _ | dsimp only | split | apply guarded_canonical | apply State.withImage_canonical | apply State.withDesc_canonical | apply State.sealThen_canonical | apply State.sealOwn_canonical | apply State.fullEmptyLoad_canonical | apply State.onFirst_canonical | apply foldl_canonical )

@[simp] theorem execStreamWaitServed_canonical (s : State) (h_s : s.mem.wf = true) :
    Out.canonical (execStreamWaitServed s) = true := by
  unfold execStreamWaitServed
  simp [*]

@[simp] theorem execStreamWatchdog_canonical (s : State) (h_s : s.mem.wf = true) :
    Out.canonical (execStreamWatchdog s) = true := by
  unfold execStreamWatchdog
  repeat' (first | (simp [*]; done) | intro _ | dsimp only | split | apply guarded_canonical | apply State.withImage_canonical | apply State.withDesc_canonical | apply State.sealThen_canonical | apply State.sealOwn_canonical | apply State.fullEmptyLoad_canonical | apply State.onFirst_canonical | apply foldl_canonical )

@[simp] theorem execDeqWaitServed_canonical (s : State) (h_s : s.mem.wf = true) :
    Out.canonical (execDeqWaitServed s) = true := by
  unfold execDeqWaitServed
  simp [*]

@[simp] theorem execMailboxWatchdog_canonical (s : State) (h_s : s.mem.wf = true) :
    Out.canonical (execMailboxWatchdog s) = true := by
  unfold execMailboxWatchdog
  repeat' (first | (simp [*]; done) | intro _ | dsimp only | split | apply guarded_canonical | apply State.withImage_canonical | apply State.withDesc_canonical | apply State.sealThen_canonical | apply State.sealOwn_canonical | apply State.fullEmptyLoad_canonical | apply State.onFirst_canonical | apply foldl_canonical )

@[simp] theorem execTaskEndComplete_canonical (s : State) (h_s : s.mem.wf = true) :
    Out.canonical (execTaskEndComplete s) = true := by
  unfold execTaskEndComplete
  repeat' (first | (simp [*]; done) | intro _ | dsimp only | split | apply guarded_canonical | apply State.withImage_canonical | apply State.withDesc_canonical | apply State.sealThen_canonical | apply State.sealOwn_canonical | apply State.fullEmptyLoad_canonical | apply State.onFirst_canonical | apply foldl_canonical )

@[simp] theorem execTickBudgetExpiry_canonical (s : State) (h_s : s.mem.wf = true) :
    Out.canonical (execTickBudgetExpiry s) = true := by
  unfold execTickBudgetExpiry
  repeat' (first | (simp [*]; done) | intro _ | dsimp only | split | apply guarded_canonical | apply State.withImage_canonical | apply State.withDesc_canonical | apply State.sealThen_canonical | apply State.sealOwn_canonical | apply State.fullEmptyLoad_canonical | apply State.onFirst_canonical | apply foldl_canonical )

@[simp] theorem execEmptyBundle_canonical (sp : Bool) (s : State) (h_s : s.mem.wf = true) :
    Out.canonical (execEmptyBundle sp s) = true := by
  unfold execEmptyBundle
  simp [*]

end Sys2Proof.Machine
end

