-- ==== Sys2Proof/Laws/CanonicalEngines.lean ====
section
/-! SUPPORT. Memory keeps its canonical form, or is not touched, under the engines, the queues and the decision tick:
`X_mem` says that `X` leaves memory as it is, `X_canonical` that it keeps the form. -/

namespace Sys2Proof.Machine

/-! ### Engine.lean -/

@[simp] theorem State.dropCmd_mem (s : State) (l : Nat) (c : MCmd) :
    (State.dropCmd s l c).mem = s.mem := by
  unfold State.dropCmd
  simp [*]

@[simp] theorem State.engineFault_mem (s : State) (l : Nat) (c : MCmd) (cause detail : Nat) :
    (State.engineFault s l c cause detail).mem = s.mem := by
  unfold State.engineFault
  simp [*]

@[simp] theorem State.finishCmd_mem (s : State) (l : Nat) (c : MCmd) :
    (State.finishCmd s l c).mem = s.mem := by
  unfold State.finishCmd
  simp [*]

@[simp] theorem State.replaceCmd_mem (s : State) (l : Nat) (c c' : MCmd) :
    (State.replaceCmd s l c c').mem = s.mem := by
  unfold State.replaceCmd
  simp [*]

@[simp] theorem State.becomesOldest_mem (s : State) (l : Nat) (c : MCmd) :
    (State.becomesOldest s l c).mem = s.mem := by
  unfold State.becomesOldest
  dsimp only
  repeat' split
  all_goals simp [*]

@[simp] theorem State.readTable_mem (s : State) (l : Nat) (c : MCmd) :
    (State.readTable s l c).mem = s.mem := by
  unfold State.readTable
  repeat' split
  all_goals simp [*]

@[simp] theorem State.settleOldest_mem (s : State) (l : Nat) :
    (State.settleOldest s l).mem = s.mem := by
  unfold State.settleOldest
  simp [*]

@[simp] theorem State.startCmd_mem (s : State) (l : Nat) (u : EngUnit) (c : MCmd) :
    (State.startCmd s l u c).mem = s.mem := by
  unfold State.startCmd
  simp [*]

@[simp] theorem execTileCommandStart_canonical (l : Nat) (u : EngUnit) (s : State) (h_s : s.mem.wf = true) :
    Out.canonical (execTileCommandStart l u s) = true := by
  unfold execTileCommandStart
  dsimp only
  repeat' split
  all_goals simp [*]

@[simp] theorem execStampedCommandStart_canonical (l : Nat) (s : State) (h_s : s.mem.wf = true) :
    Out.canonical (execStampedCommandStart l s) = true := by
  unfold execStampedCommandStart
  dsimp only
  repeat' split
  all_goals simp [*]

@[simp] theorem execOperandWatchdog_canonical (l part : Nat) (s : State) (h_s : s.mem.wf = true) :
    Out.canonical (execOperandWatchdog l part s) = true := by
  unfold execOperandWatchdog
  repeat' split
  all_goals simp [*]

@[simp] theorem State.engineReads_mem (s : State) (l : Nat) (c : MCmd) :
    (State.engineReads s l c).mem = s.mem := by
  unfold State.engineReads
  simp [*]

@[simp] theorem State.engineWrite_canonical (s : State) (l : Nat) (c : MCmd) (bs : List Byte) (h_s : s.mem.wf = true) :
    (State.engineWrite s l c bs).mem.wf = true := by
  unfold State.engineWrite
  simp [*]

@[simp] theorem State.noteCap_mem (s : State) (l : Nat) (c : MCmd) :
    (State.noteCap s l c).mem = s.mem := by
  unfold State.noteCap
  simp [*]

@[simp] theorem State.finishPlane_canonical (s : State) (l : Nat) (c : MCmd) (h_s : s.mem.wf = true) :
    (State.finishPlane s l c).mem.wf = true := by
  unfold State.finishPlane
  repeat' split
  all_goals simp [*]

@[simp] theorem State.finishMultiply_mem (s : State) (l : Nat) (c : MCmd) (t : Tile → Tile) :
    (State.finishMultiply s l c t).mem = s.mem := by
  unfold State.finishMultiply
  simp [*]

@[simp] theorem State.finishLoad_mem (s : State) (l : Nat) (c : MCmd) :
    (State.finishLoad s l c).mem = s.mem := by
  unfold State.finishLoad
  repeat' split
  all_goals simp [*]

@[simp] theorem State.finishStore_canonical (s : State) (l : Nat) (c : MCmd) (h_s : s.mem.wf = true) :
    (State.finishStore s l c).mem.wf = true := by
  unfold State.finishStore
  simp [*]

@[simp] theorem State.finish_canonical (s : State) (l : Nat) (c : MCmd) (h_s : s.mem.wf = true) :
    (State.finish s l c).mem.wf = true := by
  unfold State.finish
  repeat' split
  all_goals simp [*]

@[simp] theorem execTileCommandComplete_canonical (l : Nat) (u : EngUnit) (s : State) (h_s : s.mem.wf = true) :
    Out.canonical (execTileCommandComplete l u s) = true := by
  unfold execTileCommandComplete
  repeat' split
  all_goals simp [*]

@[simp] theorem execCommandMigration_canonical (l part : Nat) (s : State) (h_s : s.mem.wf = true) :
    Out.canonical (execCommandMigration l part s) = true := by
  unfold execCommandMigration
  repeat' split
  all_goals simp [*]

@[simp] theorem execMigratedPartialAdd_canonical (l : Nat) (s : State) (h_s : s.mem.wf = true) :
    Out.canonical (execMigratedPartialAdd l s) = true := by
  unfold execMigratedPartialAdd
  repeat' split
  all_goals simp [*]

@[simp] theorem execUndeclaredBurst_canonical (l : Nat) (s : State) (h_s : s.mem.wf = true) :
    Out.canonical (execUndeclaredBurst l s) = true := by
  unfold execUndeclaredBurst
  simp [*]

@[simp] theorem State.onPhase_mem (s : State) (who : TaskRef) (test : TaskPhase → Bool) (f : TaskPhase → TaskPhase) :
    (State.onPhase s who test f).mem = s.mem := by
  unfold State.onPhase
  simp [*]

@[simp] theorem execRegulatorPreposition_canonical (who : TaskRef) (s : State) (h_s : s.mem.wf = true) :
    Out.canonical (execRegulatorPreposition who s) = true := by
  unfold execRegulatorPreposition
  simp [*]

@[simp] theorem execPhaseOnset_canonical (who : TaskRef) (s : State) (h_s : s.mem.wf = true) :
    Out.canonical (execPhaseOnset who s) = true := by
  unfold execPhaseOnset
  repeat' split
  all_goals simp [*]

@[simp] theorem execPhaseRampStep_canonical (who : TaskRef) (s : State) (h_s : s.mem.wf = true) :
    Out.canonical (execPhaseRampStep who s) = true := by
  unfold execPhaseRampStep
  simp [*]

@[simp] theorem execPhaseEnd_canonical (who : TaskRef) (s : State) (h_s : s.mem.wf = true) :
    Out.canonical (execPhaseEnd who s) = true := by
  unfold execPhaseEnd
  simp [*]

@[simp] theorem execRetentionEntry_canonical (l : Nat) (s : State) (h_s : s.mem.wf = true) :
    Out.canonical (execRetentionEntry l s) = true := by
  unfold execRetentionEntry
  simp [*]

@[simp] theorem execRetentionExit_canonical (l : Nat) (s : State) (h_s : s.mem.wf = true) :
    Out.canonical (execRetentionExit l s) = true := by
  unfold execRetentionExit
  simp [*]

/-! ### Chains.lean -/

@[simp] theorem execSkidderCommandComplete_canonical (l : Nat) (s : State) (h_s : s.mem.wf = true) :
    Out.canonical (execSkidderCommandComplete l s) = true := by
  unfold execSkidderCommandComplete
  repeat' split
  all_goals simp [*]

@[simp] theorem execSourceWatchdog_canonical (l : Nat) (s : State) (h_s : s.mem.wf = true) :
    Out.canonical (execSourceWatchdog l s) = true := by
  unfold execSourceWatchdog
  repeat' split
  all_goals simp [*]

@[simp] theorem State.setChain_mem (s : State) (d ch : Nat) (c : Chain) :
    (State.setChain s d ch c).mem = s.mem := by
  unfold State.setChain
  simp [*]

@[simp] theorem State.failDesc_canonical (s : State) (d ch : Nat) (outlen code : Nat) (h_s : s.mem.wf = true) :
    (State.failDesc s d ch outlen code).mem.wf = true := by
  unfold State.failDesc
  dsimp only
  repeat' split
  all_goals simp [*]

@[simp] theorem State.readChain_canonical (s : State) (d ch : Nat) (h_s : s.mem.wf = true) :
    (State.readChain s d ch).mem.wf = true := by
  unfold State.readChain
  dsimp only
  repeat' split
  all_goals simp [*]

@[simp] theorem State.endDesc_canonical (s : State) (d ch : Nat) (h_s : s.mem.wf = true) :
    (State.endDesc s d ch).mem.wf = true := by
  unfold State.endDesc
  dsimp only
  repeat' split
  all_goals simp [*]

@[simp] theorem State.walkChain_canonical (s : State) (d ch : Nat) (h_s : s.mem.wf = true) :
    (State.walkChain s d ch).mem.wf = true := by
  unfold State.walkChain
  repeat' split
  all_goals simp [*]

@[simp] theorem execChainDescriptorWalk_canonical (d ch : Nat) (s : State) (h_s : s.mem.wf = true) :
    Out.canonical (execChainDescriptorWalk d ch s) = true := by
  unfold execChainDescriptorWalk
  simp [*]

@[simp] theorem State.chainChunk_canonical (s : State) (l : Nat) (c : SkCmd) (h_s : s.mem.wf = true) :
    (State.chainChunk s l c).mem.wf = true := by
  unfold State.chainChunk
  dsimp only
  repeat' split
  all_goals simp [*]

@[simp] theorem execSkidderChunkMove_canonical (l : Nat) (s : State) (h_s : s.mem.wf = true) :
    Out.canonical (execSkidderChunkMove l s) = true := by
  unfold execSkidderChunkMove
  repeat' split
  all_goals simp [*]

@[simp] theorem State.chainError_canonical (s : State) (d ch : Nat) (src : ErrSource) (crc : Bool) (pa : Nat) (h_s : s.mem.wf = true) :
    (State.chainError s d ch src crc pa).mem.wf = true := by
  unfold State.chainError
  dsimp only
  repeat' split
  all_goals simp [*]

@[simp] theorem State.detect_canonical (s : State) (who : TaskRef) (src : ErrSource) (addr : BitVec 48) (pa : Nat) (h_s : s.mem.wf = true) :
    (State.detect s who src addr pa).mem.wf = true := by
  unfold State.detect
  repeat' split
  all_goals simp [*]

@[simp] theorem execErrorDetected_canonical (who : TaskRef) (src : ErrSource) (addr : BitVec 48) (pa : Nat) (s : State) (h_s : s.mem.wf = true) :
    Out.canonical (execErrorDetected who src addr pa s) = true := by
  unfold execErrorDetected
  simp [*]

/-! ### Gauges.lean -/

@[simp] theorem State.setGauge_mem (s : State) (r : GaugeRef) (x : BitVec 256) :
    (State.setGauge s r x).mem = s.mem := by
  unfold State.setGauge
  simp [*]

@[simp] theorem State.setLink_canonical (s : State) (plot : Nat) (link : Option Nat) (h_s : s.mem.wf = true) :
    (State.setLink s plot link).mem.wf = true := by
  unfold State.setLink
  simp [*]

@[simp] theorem State.onLinked_mem (s : State) (r : GaugeRef) (f : Stand → Stand) :
    (State.onLinked s r f).mem = s.mem := by
  unfold State.onLinked
  simp [*]

@[simp] theorem State.relink_mem (s : State) (r : GaugeRef) (x : BitVec 256) :
    (State.relink s r x).mem = s.mem := by
  unfold State.relink
  dsimp only
  repeat' split
  all_goals simp [*]

@[simp] theorem State.relinkPlot_canonical (s : State) (r : GaugeRef) (old x : BitVec 256) (h_s : s.mem.wf = true) :
    (State.relinkPlot s r old x).mem.wf = true := by
  unfold State.relinkPlot
  repeat' split
  all_goals simp [*]

@[simp] theorem State.placeGauge_canonical (s : State) (r : GaugeRef) (x : BitVec 256) (h_s : s.mem.wf = true) :
    (s.placeGauge r x).mem.wf = true := by
  unfold State.placeGauge
  rw [State.relink_mem, State.setGauge_mem]
  exact State.relinkPlot_canonical _ _ _ _ h_s

@[simp] theorem State.applyGauge_canonical (s : State) (gid : BitVec 16) (image : BitVec 256) (h_s : s.mem.wf = true) :
    (s.applyGauge gid image).mem.wf = true := by
  unfold State.applyGauge
  split
  · exact h_s
  · split
    · exact State.putEvent_canonical _ _ _ _ _ _ h_s
    · exact State.placeGauge_canonical _ _ _ h_s

@[simp] theorem State.gaugeAct_mem (s : State) (r : GaugeRef) (x : BitVec 256) :
    (State.gaugeAct s r x).mem = s.mem := by
  unfold State.gaugeAct
  repeat' split
  all_goals simp [*]

@[simp] theorem State.fireGauge_canonical (s : State) (r : GaugeRef) (h_s : s.mem.wf = true) :
    (State.fireGauge s r).mem.wf = true := by
  unfold State.fireGauge
  dsimp only
  repeat' split
  all_goals simp [*]

@[simp] theorem execPadGaugeFire_canonical (c i : Nat) (s : State) (h_s : s.mem.wf = true) :
    Out.canonical (execPadGaugeFire c i s) = true := by
  unfold execPadGaugeFire
  simp [*]

@[simp] theorem execControllerGaugeFire_canonical (d i : Nat) (s : State) (h_s : s.mem.wf = true) :
    Out.canonical (execControllerGaugeFire d i s) = true := by
  unfold execControllerGaugeFire
  simp [*]

@[simp] theorem execShedding_canonical (c k : Nat) (s : State) (h_s : s.mem.wf = true) :
    Out.canonical (execShedding c k s) = true := by
  unfold execShedding
  simp [*]

@[simp] theorem State.shiftCore_mem (s : State) (l n : Nat) :
    (State.shiftCore s l n).mem = s.mem := by
  unfold State.shiftCore
  simp [*]

@[simp] theorem State.haltCore_mem (s : State) (l : Nat) :
    (State.haltCore s l).mem = s.mem := by
  unfold State.haltCore
  simp [*]

@[simp] theorem execTimeShareSwitch_canonical (c k : Nat) (s : State) (h_s : s.mem.wf = true) :
    Out.canonical (execTimeShareSwitch c k s) = true := by
  unfold execTimeShareSwitch
  repeat' split
  all_goals simp [*]

/-! ### Accept.lean -/

@[simp] theorem State.dropBuffer_mem (s : State) (a1 : List (Nat × TaskRef × HoldItem)) :
    (State.dropBuffer s a1).mem = s.mem := by
  induction a1 generalizing s with
  | nil => rfl
  | cons x l ih => exact ih _

@[simp] theorem State.stopNode_canonical (s : State) (q seq : Nat) (h_s : s.mem.wf = true) :
    (State.stopNode s q seq).mem.wf = true := by
  unfold State.stopNode
  repeat' (first | (simp [*]; done) | intro _ | dsimp only | split | apply guarded_canonical | apply State.withImage_canonical | apply State.withDesc_canonical | apply State.sealThen_canonical | apply State.sealOwn_canonical | apply State.fullEmptyLoad_canonical | apply State.onFirst_canonical | apply foldl_canonical )

@[simp] theorem State.settleNode_canonical (s : State) (q seq status : Nat) (h_s : s.mem.wf = true) :
    (State.settleNode s q seq status).mem.wf = true := by
  unfold State.settleNode
  repeat' split
  all_goals simp [*]

@[simp] theorem State.squash_canonical (s : State) (q seq : Nat) (h_s : s.mem.wf = true) :
    (State.squash s q seq).mem.wf = true := by
  unfold State.squash
  repeat' split
  all_goals simp [*]

@[simp] theorem State.completeNode_canonical (s : State) (q seq status : Nat) (h_s : s.mem.wf = true) :
    (s.completeNode q seq status).mem.wf = true := by
  unfold State.completeNode
  dsimp only
  split
  · exact State.settleNode_canonical _ _ _ _ h_s
  · exact State.settleNode_canonical _ _ _ _ (foldl_canonical _ _ _ h_s fun x y h =>
      State.squash_canonical _ _ _ (State.squash_canonical _ _ _ h))

@[simp] theorem State.releaseBuffered_canonical (s : State) (n : Node) (a1 : List (Nat × TaskRef × HoldItem))
    (h_s : s.mem.wf = true) : (State.releaseBuffered s n a1).mem.wf = true := by
  induction a1 generalizing s with
  | nil => exact h_s
  | cons x l ih => exact ih _ (State.releaseItem_canonical _ _ _ h_s)

@[simp] theorem State.win_canonical (s : State) (q seq : Nat) (h_s : s.mem.wf = true) :
    (State.win s q seq).mem.wf = true := by
  unfold State.win
  repeat' split
  all_goals simp [*]

@[simp] theorem State.decideSpec_canonical (s : State) (q seq k : Nat) (second : Bool) (h_s : s.mem.wf = true) :
    (State.decideSpec s q seq k second).mem.wf = true := by
  unfold State.decideSpec
  repeat' split
  all_goals simp [*]

@[simp] theorem State.forgetNodes_mem (s : State) (q : Nat) :
    (State.forgetNodes s q).mem = s.mem := by
  unfold State.forgetNodes
  simp [*]

@[simp] theorem State.advance_mem (s : State) (q seq : Nat) (p : List Byte) :
    (State.advance s q seq p).mem = s.mem := by
  unfold State.advance
  simp [*]

@[simp] theorem State.acceptAs_canonical (s : State) (q seq : Nat) (p : List Byte) (spec : Option (Nat × Nat × Nat)) (status cause : Nat) (h_s : s.mem.wf = true) :
    (State.acceptAs s q seq p spec status cause).mem.wf = true := by
  unfold State.acceptAs
  simp [*]

@[simp] theorem State.countDrop_mem (s : State) (q : Nat) :
    (State.countDrop s q).mem = s.mem := by
  unfold State.countDrop
  simp [*]

@[simp] theorem State.acceptPacket_mem (s : State) (q seq : Nat) (p : List Byte) (spec : Option (Nat × Nat × Nat)) :
    (State.acceptPacket s q seq p spec).mem = s.mem := by
  unfold State.acceptPacket
  simp [*]

@[simp] theorem State.stopQueue_mem (s : State) (q : Nat) (p : List Byte) :
    (State.stopQueue s q p).mem = s.mem := by
  unfold State.stopQueue
  simp [*]

@[simp] theorem State.takeEntry_canonical (s : State) (q seq : Nat) (p : List Byte) (spec : Option (Nat × Nat × Nat)) (h_s : s.mem.wf = true) :
    (State.takeEntry s q seq p spec).1.mem.wf = true := by
  unfold State.takeEntry
  dsimp only
  repeat' split
  all_goals simp [*]

@[simp] theorem State.accept_canonical (s : State) (q seq : Nat) (bytes : Option (List Byte)) (a : Option Appended) (h_s : s.mem.wf = true) :
    (State.accept s q seq bytes a).1.mem.wf = true := by
  unfold State.accept
  repeat' split
  all_goals simp [*]

@[simp] theorem State.readRing_mem (s : State) (q : Nat) :
    (State.readRing s q).mem = s.mem := by
  unfold State.readRing
  simp [*]

@[simp] theorem State.acceptQueue_canonical (s : State) (q : Nat) (a1 : Nat) (h_s : s.mem.wf = true) :
    (State.acceptQueue s q a1).1.mem.wf = true := by
  induction a1 generalizing s with
  | zero => exact h_s
  | succ n ih =>
    unfold State.acceptQueue
    split
    · exact h_s
    · have := fun b a => State.accept_canonical (s.readRing q) q (s.queue q).qtail.toNat b a (by simp [h_s])
      dsimp only
      split
      · exact ih _ (this _ _)
      · exact this _ _

@[simp] theorem State.acceptAll_canonical (s : State) (h_s : s.mem.wf = true) : s.acceptAll.1.mem.wf = true := by
  unfold State.acceptAll
  suffices ∀ (l : List Nat) (acc : State × Bool), acc.1.mem.wf = true → (l.foldl _ acc).1.mem.wf = true from
    this _ _ h_s
  intro l
  induction l with
  | nil => exact fun _ h => h
  | cons q l ih => exact fun acc h => ih _ (State.acceptQueue_canonical _ _ _ h)

@[simp] theorem State.formStands_canonical (s : State) (n : Node) (h_s : s.mem.wf = true) :
    (State.formStands s n).mem.wf = true := by
  unfold State.formStands
  simp [*]

theorem State.advanceNode_canonical {s t : State} {n : Node} (h : s.advanceNode n = some t) (h_s : s.mem.wf = true) :
    t.mem.wf = true := by
  unfold State.advanceNode at h
  dsimp only at h
  repeat' split at h
  all_goals first
    | cases h
      done
    | cases h
      simp [h_s]

@[simp] theorem State.settleQueues_canonical (s : State) (a1 : Nat) (h_s : s.mem.wf = true) :
    (State.settleQueues s a1).mem.wf = true := by
  induction a1 generalizing s with
  | zero => exact h_s
  | succ n ih =>
    unfold State.settleQueues
    have h1 := State.acceptAll_canonical s h_s
    dsimp only
    split
    · exact ih _ h1
    · split
      · rename_i t h
        obtain ⟨_, m, _, _, h2, _⟩ := List.findSome?_eq_some_iff.1 h
        exact ih _ (State.advanceNode_canonical h2 h1)
      · exact h1

/-! ### Convert.lean -/

@[simp] theorem execVcvt_canonical (f : Slot) (s : State) (h_s : s.mem.wf = true) :
    Out.canonical (execVcvt f s) = true := by
  unfold execVcvt
  simp [*]

@[simp] theorem execVbsc_canonical (f : Slot) (s : State) (h_s : s.mem.wf = true) :
    Out.canonical (execVbsc f s) = true := by
  unfold execVbsc
  simp [*]

@[simp] theorem execVpack4_canonical (f : Slot) (s : State) (h_s : s.mem.wf = true) :
    Out.canonical (execVpack4 f s) = true := by
  unfold execVpack4
  dsimp only
  repeat' split
  all_goals simp [*]

/-! ### Decision.lean -/

@[simp] theorem State.launchRefused_canonical (s : State) (q func : Nat) (h_s : s.mem.wf = true) :
    (State.launchRefused s q func).mem.wf = true := by
  unfold State.launchRefused
  simp [*]

@[simp] theorem State.append_mem (s : State) (q : Nat) (p : List Byte) (det : Nat) (spec : Option (Nat × Nat × Nat)) (busy : Bool) :
    (State.append s q p det spec busy).mem = s.mem := by
  unfold State.append
  simp [*]

@[simp] theorem State.releaseLaunch_canonical (s : State) (q : Nat) (p : List Byte) (det func : Nat) (h_s : s.mem.wf = true) :
    (State.releaseLaunch s q p det func).mem.wf = true := by
  unfold State.releaseLaunch
  simp [*]

@[simp] theorem State.releaseSpec_canonical (s : State) (q k : Nat) (p0 p1 : List Byte) (iq iseq det func die : Nat) (h_s : s.mem.wf = true) :
    (State.releaseSpec s q k p0 p1 iq iseq det func die).mem.wf = true := by
  unfold State.releaseSpec
  repeat' split
  all_goals simp [*]

@[simp] theorem State.freezeFor_mem (s : State) (q seq : Nat) :
    (State.freezeFor s q seq).mem = s.mem := by
  unfold State.freezeFor
  repeat' split
  all_goals simp [*]

@[simp] theorem State.nodeDone_canonical (s : State) (q seq : Nat) (h_s : s.mem.wf = true) :
    (State.nodeDone s q seq).mem.wf = true := by
  unfold State.nodeDone
  repeat' split
  all_goals simp [*]

@[simp] theorem State.applyRing_canonical (s : State) (fn reg : Nat) (val : W64) (h_s : s.mem.wf = true) :
    (State.applyRing s fn reg val).mem.wf = true := by
  unfold State.applyRing
  simp [*]

@[simp] theorem State.onQueue_mem (s : State) (q : Nat) (f : Queue → Queue) :
    (State.onQueue s q f).mem = s.mem := by
  unfold State.onQueue
  simp [*]

@[simp] theorem State.applyEvent_canonical (s : State) (e : PkgEvent) (h_s : s.mem.wf = true) :
    (State.applyEvent s e).mem.wf = true := by
  unfold State.applyEvent
  repeat' split
  all_goals simp [*]

@[simp] theorem State.cancelFailed_mem (s : State) :
    (State.cancelFailed s).mem = s.mem := by
  unfold State.cancelFailed
  simp [*]

@[simp] theorem State.decideTick_canonical (s : State) (t : Nat) (h_s : s.mem.wf = true) :
    (s.decideTick t).mem.wf = true := by
  unfold State.decideTick
  dsimp only
  refine State.settleQueues_canonical _ _ ?_
  rw [State.cancelFailed_mem]
  exact foldl_canonical _ _ _ h_s fun x e h => State.applyEvent_canonical _ _ h

@[simp] theorem execDecisionTickApply_canonical (s : State) (h_s : s.mem.wf = true) :
    Out.canonical (execDecisionTickApply s) = true := by
  unfold execDecisionTickApply
  rw [canonical_next]
  split
  · exact h_s
  · exact State.decideTick_canonical _ _ h_s

@[simp] theorem execEventRingInterrupt_canonical (fn : Nat) (s : State) (h_s : s.mem.wf = true) :
    Out.canonical (execEventRingInterrupt fn s) = true := by
  unfold execEventRingInterrupt
  simp [*]

/-! ### Die.lean -/

@[simp] theorem State.logReply_mem (s : State) (r : Reply) :
    (State.logReply s r).mem = s.mem := by
  unfold State.logReply
  simp [*]

@[simp] theorem State.deliverReply_canonical (s : State) (r : Rmw) (old : W64) (ok : Bool) (h_s : s.mem.wf = true) :
    (State.deliverReply s r old ok).mem.wf = true := by
  unfold State.deliverReply
  simp [*]

@[simp] theorem State.serveRmw_canonical (s : State) (r : Rmw) (h_s : s.mem.wf = true) :
    (State.serveRmw s r).mem.wf = true := by
  unfold State.serveRmw
  dsimp only
  repeat' split
  all_goals simp [*]

@[simp] theorem execRmwService_canonical (line : Nat) (s : State) (h_s : s.mem.wf = true) :
    Out.canonical (execRmwService line s) = true := by
  unfold execRmwService
  repeat' split
  all_goals simp [*]

@[simp] theorem State.cacheLeaf_mem (s : State) (c fn va : Nat) (x : Leaf) :
    (State.cacheLeaf s c fn va x).mem = s.mem := by
  unfold State.cacheLeaf
  simp [*]

@[simp] theorem execTranslationWalk_canonical (c fn : Nat) (va : BitVec 48) (wr : Bool) (s : State) (h_s : s.mem.wf = true) :
    Out.canonical (execTranslationWalk c fn va wr s) = true := by
  unfold execTranslationWalk
  dsimp only
  repeat' split
  all_goals simp [*]

@[simp] theorem execTinvComplete_canonical (s : State) (h_s : s.mem.wf = true) :
    Out.canonical (execTinvComplete s) = true := by
  unfold execTinvComplete
  repeat' split
  all_goals simp [*]

@[simp] theorem execPxferRelease_canonical (plot : Nat) (s : State) (h_s : s.mem.wf = true) :
    Out.canonical (execPxferRelease plot s) = true := by
  unfold execPxferRelease
  rw [canonical_next]
  exact State.onFirst_canonical _ _ _ h_s fun x h => State.completeSeal_canonical _ h

@[simp] theorem State.setRun_canonical (s : State) (base state : Nat) (h_s : s.mem.wf = true) :
    (s.setRun base state).mem.wf = true := by
  unfold State.setRun
  generalize List.range 1024 = l
  exact foldl_canonical _ l _ h_s fun x i h => State.setPlot_canonical _ _ _ _ h

@[simp] theorem State.setAdplot_mem (s : State) (v : W64) :
    (State.setAdplot s v).mem = s.mem := by
  unfold State.setAdplot
  simp [*]

@[simp] theorem State.reject_mem (s : State) :
    (State.reject s).mem = s.mem := by
  unfold State.reject
  simp [*]

@[simp] theorem State.applyAdplot_canonical (s : State) (v : W64) (h_s : s.mem.wf = true) :
    (State.applyAdplot s v).mem.wf = true := by
  unfold State.applyAdplot
  repeat' split
  all_goals simp [*]

@[simp] theorem execPlsetComplete_canonical (s : State) (h_s : s.mem.wf = true) :
    Out.canonical (execPlsetComplete s) = true := by
  unfold execPlsetComplete
  repeat' split
  all_goals simp [*]

@[simp] theorem execMemoryScrub_canonical (line : Nat) (r : ScrubResult) (s : State) (h_s : s.mem.wf = true) :
    Out.canonical (execMemoryScrub line r s) = true := by
  unfold execMemoryScrub
  repeat' split
  all_goals simp [*]

@[simp] theorem execBudgetInterval_canonical (s : State) (h_s : s.mem.wf = true) :
    Out.canonical (execBudgetInterval s) = true := by
  unfold execBudgetInterval
  simp [*]

end Sys2Proof.Machine
end

