-- ==== Sys2Proof/Laws/CanonicalDevice.lean ====
section
/-! SUPPORT. Memory keeps its canonical form, or is not touched, under the package, the registers, the remaining instructions and issue:
`X_mem` says that `X` leaves memory as it is, `X_canonical` that it keeps the form. -/

namespace Sys2Proof.Machine

/-! ### Package.lean -/

@[simp] theorem State.chargeTraffic_canonical (s : State) (who : List TaskRef) (h_s : s.mem.wf = true) :
    (State.chargeTraffic s who).mem.wf = true := by
  unfold State.chargeTraffic
  repeat' (first | (simp [*]; done) | intro _ | dsimp only | split | apply guarded_canonical | apply State.withImage_canonical | apply State.withDesc_canonical | apply State.sealThen_canonical | apply State.sealOwn_canonical | apply State.fullEmptyLoad_canonical | apply State.onFirst_canonical | apply foldl_canonical )

@[simp] theorem execDieLinkFlitReceive_canonical (g lane : Nat) (crcOk : Bool) (s : State) (h_s : s.mem.wf = true) :
    Out.canonical (execDieLinkFlitReceive g lane crcOk s) = true := by
  unfold execDieLinkFlitReceive
  dsimp only
  repeat' split
  all_goals simp [*]

@[simp] theorem execLaneSplice_canonical (k : LinkRef) (s : State) (h_s : s.mem.wf = true) :
    Out.canonical (execLaneSplice k s) = true := by
  unfold execLaneSplice
  simp [*]

@[simp] theorem State.portResume_mem (s : State) (k : Nat) :
    (State.portResume s k).mem = s.mem := by
  unfold State.portResume
  simp [*]

@[simp] theorem execSpliceRetrainEnd_canonical (k : LinkRef) (s : State) (h_s : s.mem.wf = true) :
    Out.canonical (execSpliceRetrainEnd k s) = true := by
  unfold execSpliceRetrainEnd
  repeat' split
  all_goals simp [*]

@[simp] theorem execDieComputeFailure_canonical (d : Nat) (cause : BitVec 4) (s : State) (h_s : s.mem.wf = true) :
    Out.canonical (execDieComputeFailure d cause s) = true := by
  unfold execDieComputeFailure
  simp [*]

@[simp] theorem execShoreLoss_canonical (d : Nat) (s : State) (h_s : s.mem.wf = true) :
    Out.canonical (execShoreLoss d s) = true := by
  unfold execShoreLoss
  rw [canonical_next]
  split
  · exact h_s
  · exact State.event_canonical _ _ _ _ (foldl_canonical _ _ _ h_s fun x e h => State.markBad_canonical _ _ h)

@[simp] theorem State.setRail_mem (s : State) (r : Nat) (x : Rail) :
    (State.setRail s r x).mem = s.mem := by
  unfold State.setRail
  simp [*]

@[simp] theorem execRailCurrentSample_canonical (r : Nat) (amps : BitVec 10) (cap : BitVec 3) (s : State) (h_s : s.mem.wf = true) :
    Out.canonical (execRailCurrentSample r amps cap s) = true := by
  unfold execRailCurrentSample
  simp [*]

@[simp] theorem State.rerateAll_mem (s : State) :
    (State.rerateAll s).mem = s.mem := by
  unfold State.rerateAll
  simp [*]

@[simp] theorem execRailRampStep_canonical (r : Nat) (s : State) (h_s : s.mem.wf = true) :
    Out.canonical (execRailRampStep r s) = true := by
  unfold execRailRampStep
  simp [*]

@[simp] theorem State.revokeAll_mem (s : State) (last : Nat) :
    (State.revokeAll s last).mem = s.mem := by
  unfold State.revokeAll
  simp [*]

@[simp] theorem execMeltUpdate_canonical (reading : BitVec 16) (s : State) (h_s : s.mem.wf = true) :
    Out.canonical (execMeltUpdate reading s) = true := by
  unfold execMeltUpdate
  simp [*]

@[simp] theorem execLeaseExpiry_canonical (who : TaskRef) (s : State) (h_s : s.mem.wf = true) :
    Out.canonical (execLeaseExpiry who s) = true := by
  unfold execLeaseExpiry
  simp [*]

@[simp] theorem execLeaseEndNotice_canonical (who : TaskRef) (s : State) (h_s : s.mem.wf = true) :
    Out.canonical (execLeaseEndNotice who s) = true := by
  unfold execLeaseEndNotice
  simp [*]

@[simp] theorem execGrowthRingUpdate_canonical (r : GrowthReg) (metric rate : Int) (s : State) (h_s : s.mem.wf = true) :
    Out.canonical (execGrowthRingUpdate r metric rate s) = true := by
  unfold execGrowthRingUpdate
  simp [*]

@[simp] theorem State.startSave_mem (s : State) :
    (State.startSave s).mem = s.mem := by
  unfold State.startSave
  simp [*]

@[simp] theorem State.writeImage_canonical (s : State) (h_s : s.mem.wf = true) :
    (State.writeImage s).mem.wf = true := by
  unfold State.writeImage
  simp [*]

@[simp] theorem State.postCheckpoint_mem (s : State) (restore : Bool) (slot bytes plots : Nat) :
    (State.postCheckpoint s restore slot bytes plots).mem = s.mem := by
  unfold State.postCheckpoint
  simp [*]

@[simp] theorem State.endSave_canonical (s : State) (ok : Bool) (h_s : s.mem.wf = true) :
    (State.endSave s ok).mem.wf = true := by
  unfold State.endSave
  simp [*]

@[simp] theorem State.restoreImage_canonical (s : State) (h_s : s.mem.wf = true) :
    (State.restoreImage s).mem.wf = true := by
  unfold State.restoreImage
  repeat' (first | (simp [*]; done) | intro _ | dsimp only | split | apply guarded_canonical | apply State.withImage_canonical | apply State.withDesc_canonical | apply State.sealThen_canonical | apply State.sealOwn_canonical | apply State.fullEmptyLoad_canonical | apply State.onFirst_canonical | apply foldl_canonical )

@[simp] theorem State.endRestore_canonical (s : State) (ok : Bool) (h_s : s.mem.wf = true) :
    (State.endRestore s ok).mem.wf = true := by
  unfold State.endRestore
  simp [*]

@[simp] theorem State.powerDown_mem (s : State) :
    (State.powerDown s).mem = s.mem := by
  unfold State.powerDown
  simp [*]

@[simp] theorem execCheckpointEnd_canonical (ok : Bool) (s : State) (h_s : s.mem.wf = true) :
    Out.canonical (execCheckpointEnd ok s) = true := by
  unfold execCheckpointEnd
  repeat' split
  all_goals simp [*]

@[simp] theorem State.measureBank_mem (s : State) (ok : Bool) :
    (State.measureBank s ok).mem = s.mem := by
  unfold State.measureBank
  simp [*]

@[simp] theorem execBankMeasure_canonical (ok : Bool) (s : State) (h_s : s.mem.wf = true) :
    Out.canonical (execBankMeasure ok s) = true := by
  unfold execBankMeasure
  simp [*]

@[simp] theorem execInputPowerLoss_canonical (s : State) (h_s : s.mem.wf = true) :
    Out.canonical (execInputPowerLoss s) = true := by
  unfold execInputPowerLoss
  simp [*]

@[simp] theorem execBankRunsOut_canonical (s : State) (h_s : s.mem.wf = true) :
    Out.canonical (execBankRunsOut s) = true := by
  unfold execBankRunsOut
  simp [*]

@[simp] theorem execPowerOnReset_canonical (s : State) (h_s : s.mem.wf = true) :
    Out.canonical (execPowerOnReset s) = true := by
  unfold execPowerOnReset
  simp [*]

@[simp] theorem State.bootAction_canonical (s : State) (stage : Nat) (h_s : s.mem.wf = true) :
    (State.bootAction s stage).mem.wf = true := by
  unfold State.bootAction
  repeat' split
  all_goals simp [*]

@[simp] theorem execBootStage_canonical (ok : Bool) (s : State) (h_s : s.mem.wf = true) :
    Out.canonical (execBootStage ok s) = true := by
  unfold execBootStage
  repeat' split
  all_goals simp [*]

@[simp] theorem execDeviceReset_canonical (s : State) (h_s : s.mem.wf = true) :
    Out.canonical (execDeviceReset s) = true := by
  unfold execDeviceReset
  simp [*]

/-! ### Fabric.lean -/

@[simp] theorem State.takeMessages_canonical (s : State) (k vc : Nat) (a1 : Nat) (h_s : s.mem.wf = true) :
    (State.takeMessages s k vc a1).mem.wf = true := by
  induction a1 generalizing s with
  | zero => exact h_s
  | succ n ih =>
    unfold State.takeMessages
    split
    · exact h_s
    · refine ih _ ?_
      split <;> simp [h_s]

@[simp] theorem execPortFlitReceive_canonical (k : Nat) (flit : List Byte) (s : State) (h_s : s.mem.wf = true) :
    Out.canonical (execPortFlitReceive k flit s) = true := by
  unfold execPortFlitReceive
  dsimp only
  repeat' split
  all_goals simp [*]

@[simp] theorem execFlitResendTimeout_canonical (k : Nat) (s : State) (h_s : s.mem.wf = true) :
    Out.canonical (execFlitResendTimeout k s) = true := by
  unfold execFlitResendTimeout
  repeat' (first | (simp [*]; done) | intro _ | dsimp only | split | apply guarded_canonical | apply State.withImage_canonical | apply State.withDesc_canonical | apply State.sealThen_canonical | apply State.sealOwn_canonical | apply State.fullEmptyLoad_canonical | apply State.onFirst_canonical | apply foldl_canonical )

@[simp] theorem execHostBar2Read_canonical (fn : Nat) (o : BitVec 38) (n : Nat) (s : State) (h_s : s.mem.wf = true) :
    Out.canonical (execHostBar2Read fn o n s) = true := by
  unfold execHostBar2Read
  repeat' split
  all_goals simp [*]

@[simp] theorem execHostBar2Write_canonical (fn : Nat) (o : BitVec 38) (bytes : List Byte) (s : State) (h_s : s.mem.wf = true) :
    Out.canonical (execHostBar2Write fn o bytes s) = true := by
  unfold execHostBar2Write
  repeat' split
  all_goals simp [*]

@[simp] theorem execHostApertureCompletion_canonical (who : TaskRef) (pa : Nat) (r : HostReply) (s : State) (h_s : s.mem.wf = true) :
    Out.canonical (execHostApertureCompletion who pa r s) = true := by
  unfold execHostApertureCompletion
  repeat' split
  all_goals simp [*]

/-! ### Integer.lean -/

@[simp] theorem runInt_canonical (i : Instr) (f : Slot) (limit : Bool) (r : Int) (s : State) (h_s : s.mem.wf = true) :
    Out.canonical (runInt i f limit r s) = true := by
  unfold runInt
  simp [*]

@[simp] theorem execAdd_canonical (f : Slot) (s : State) (h_s : s.mem.wf = true) :
    Out.canonical (execAdd f s) = true := by
  unfold execAdd
  simp [*]

@[simp] theorem execSub_canonical (f : Slot) (s : State) (h_s : s.mem.wf = true) :
    Out.canonical (execSub f s) = true := by
  unfold execSub
  simp [*]

@[simp] theorem execMul_canonical (f : Slot) (s : State) (h_s : s.mem.wf = true) :
    Out.canonical (execMul f s) = true := by
  unfold execMul
  simp [*]

@[simp] theorem execMulh_canonical (f : Slot) (s : State) (h_s : s.mem.wf = true) :
    Out.canonical (execMulh f s) = true := by
  unfold execMulh
  simp [*]

@[simp] theorem execDiv_canonical (f : Slot) (s : State) (h_s : s.mem.wf = true) :
    Out.canonical (execDiv f s) = true := by
  unfold execDiv
  simp [*]

@[simp] theorem execRem_canonical (f : Slot) (s : State) (h_s : s.mem.wf = true) :
    Out.canonical (execRem f s) = true := by
  unfold execRem
  simp [*]

@[simp] theorem execAnd_canonical (f : Slot) (s : State) (h_s : s.mem.wf = true) :
    Out.canonical (execAnd f s) = true := by
  unfold execAnd
  simp [*]

@[simp] theorem execOr_canonical (f : Slot) (s : State) (h_s : s.mem.wf = true) :
    Out.canonical (execOr f s) = true := by
  unfold execOr
  simp [*]

@[simp] theorem execXor_canonical (f : Slot) (s : State) (h_s : s.mem.wf = true) :
    Out.canonical (execXor f s) = true := by
  unfold execXor
  simp [*]

@[simp] theorem execAndn_canonical (f : Slot) (s : State) (h_s : s.mem.wf = true) :
    Out.canonical (execAndn f s) = true := by
  unfold execAndn
  simp [*]

@[simp] theorem execShl_canonical (f : Slot) (s : State) (h_s : s.mem.wf = true) :
    Out.canonical (execShl f s) = true := by
  unfold execShl
  simp [*]

@[simp] theorem execShr_canonical (f : Slot) (s : State) (h_s : s.mem.wf = true) :
    Out.canonical (execShr f s) = true := by
  unfold execShr
  simp [*]

@[simp] theorem execSra_canonical (f : Slot) (s : State) (h_s : s.mem.wf = true) :
    Out.canonical (execSra f s) = true := by
  unfold execSra
  simp [*]

@[simp] theorem execRol_canonical (f : Slot) (s : State) (h_s : s.mem.wf = true) :
    Out.canonical (execRol f s) = true := by
  unfold execRol
  simp [*]

@[simp] theorem execMin_canonical (f : Slot) (s : State) (h_s : s.mem.wf = true) :
    Out.canonical (execMin f s) = true := by
  unfold execMin
  simp [*]

@[simp] theorem execMax_canonical (f : Slot) (s : State) (h_s : s.mem.wf = true) :
    Out.canonical (execMax f s) = true := by
  unfold execMax
  simp [*]

@[simp] theorem execClz_canonical (f : Slot) (s : State) (h_s : s.mem.wf = true) :
    Out.canonical (execClz f s) = true := by
  unfold execClz
  simp [*]

@[simp] theorem execPopc_canonical (f : Slot) (s : State) (h_s : s.mem.wf = true) :
    Out.canonical (execPopc f s) = true := by
  unfold execPopc
  simp [*]

@[simp] theorem execCmp_canonical (f : Slot) (s : State) (h_s : s.mem.wf = true) :
    Out.canonical (execCmp f s) = true := by
  unfold execCmp
  simp [*]

@[simp] theorem execSel_canonical (f : Slot) (s : State) (h_s : s.mem.wf = true) :
    Out.canonical (execSel f s) = true := by
  unfold execSel
  simp [*]

@[simp] theorem execLi_canonical (f : Slot) (s : State) (h_s : s.mem.wf = true) :
    Out.canonical (execLi f s) = true := by
  unfold execLi
  simp [*]

@[simp] theorem execLiHi_canonical (f : Slot) (s : State) (h_s : s.mem.wf = true) :
    Out.canonical (execLiHi f s) = true := by
  unfold execLiHi
  simp [*]

@[simp] theorem execBfx_canonical (f : Slot) (s : State) (h_s : s.mem.wf = true) :
    Out.canonical (execBfx f s) = true := by
  unfold execBfx
  simp [*]

@[simp] theorem execBfi_canonical (f : Slot) (s : State) (h_s : s.mem.wf = true) :
    Out.canonical (execBfi f s) = true := by
  unfold execBfi
  simp [*]

@[simp] theorem execPlog_canonical (f : Slot) (s : State) (h_s : s.mem.wf = true) :
    Out.canonical (execPlog f s) = true := by
  unfold execPlog
  simp [*]

/-! ### Launch.lean -/

@[simp] theorem State.withImage_canonical (s : State) (ptr : W64) (n : Nat) (k : State → List Byte → State) (h_s : s.mem.wf = true) (h_k : ∀ x0 x1, x0.mem.wf = true → (k x0 x1).mem.wf = true) :
    (State.withImage s ptr n k).mem.wf = true := by
  unfold State.withImage
  repeat' split
  all_goals simp [*]

@[simp] theorem execLaunch_canonical (f : Slot) (s : State) (h_s : s.mem.wf = true) :
    Out.canonical (execLaunch f s) = true := by
  unfold execLaunch
  repeat' (first | (simp [*]; done) | intro _ | dsimp only | split | apply guarded_canonical | apply State.withImage_canonical | apply State.withDesc_canonical | apply State.sealThen_canonical | apply State.sealOwn_canonical | apply State.fullEmptyLoad_canonical | apply State.onFirst_canonical | apply foldl_canonical )

@[simp] theorem execSpec_canonical (f : Slot) (s : State) (h_s : s.mem.wf = true) :
    Out.canonical (execSpec f s) = true := by
  unfold execSpec
  repeat' (first | (simp [*]; done) | intro _ | dsimp only | split | apply guarded_canonical | apply State.withImage_canonical | apply State.withDesc_canonical | apply State.sealThen_canonical | apply State.sealOwn_canonical | apply State.fullEmptyLoad_canonical | apply State.onFirst_canonical | apply foldl_canonical )

@[simp] theorem execDecide_canonical (f : Slot) (s : State) (h_s : s.mem.wf = true) :
    Out.canonical (execDecide f s) = true := by
  unfold execDecide
  simp [*]

@[simp] theorem execEvpost_canonical (f : Slot) (s : State) (h_s : s.mem.wf = true) :
    Out.canonical (execEvpost f s) = true := by
  unfold execEvpost
  simp [*]

@[simp] theorem execCord_canonical (f : Slot) (s : State) (h_s : s.mem.wf = true) :
    Out.canonical (execCord f s) = true := by
  unfold execCord
  repeat' (first | (simp [*]; done) | intro _ | dsimp only | split | apply guarded_canonical | apply State.withImage_canonical | apply State.withDesc_canonical | apply State.sealThen_canonical | apply State.sealOwn_canonical | apply State.fullEmptyLoad_canonical | apply State.onFirst_canonical | apply foldl_canonical )

@[simp] theorem execPxfer_canonical (f : Slot) (s : State) (h_s : s.mem.wf = true) :
    Out.canonical (execPxfer f s) = true := by
  unfold execPxfer
  dsimp only
  repeat' split
  all_goals simp [*]

@[simp] theorem execPquery_canonical (f : Slot) (s : State) (h_s : s.mem.wf = true) :
    Out.canonical (execPquery f s) = true := by
  unfold execPquery
  repeat' split
  all_goals simp [*]

@[simp] theorem State.serveLease_mem (s : State) (f : Slot) (lvl req : Nat) :
    (State.serveLease s f lvl req).mem = s.mem := by
  unfold State.serveLease
  simp [*]

@[simp] theorem execLease_canonical (f : Slot) (s : State) (h_s : s.mem.wf = true) :
    Out.canonical (execLease f s) = true := by
  unfold execLease
  dsimp only
  repeat' split
  all_goals simp [*]

@[simp] theorem execLrel_canonical (f : Slot) (s : State) (h_s : s.mem.wf = true) :
    Out.canonical (execLrel f s) = true := by
  unfold execLrel
  simp [*]

@[simp] theorem execOpreq_canonical (f : Slot) (s : State) (h_s : s.mem.wf = true) :
    Out.canonical (execOpreq f s) = true := by
  unfold execOpreq
  dsimp only
  repeat' split
  all_goals simp [*]

/-! ### Registers.lean -/

@[simp] theorem execBadRegisterAccess_canonical (fn : Nat) (s : State) (h_s : s.mem.wf = true) :
    Out.canonical (execBadRegisterAccess fn s) = true := by
  unfold execBadRegisterAccess
  simp [*]

@[simp] theorem State.doorbell_mem (s : State) (q : Nat) (v : W64) :
    (State.doorbell s q v).mem = s.mem := by
  unfold State.doorbell
  simp [*]

@[simp] theorem execQheadWrite_canonical (fn q : Nat) (v : BitVec 64) (s : State) (h_s : s.mem.wf = true) :
    Out.canonical (execQheadWrite fn q v s) = true := by
  unfold execQheadWrite
  simp [*]

@[simp] theorem State.writeQcfg_mem (s : State) (fn q : Nat) (v : W64) :
    (State.writeQcfg s fn q v).mem = s.mem := by
  unfold State.writeQcfg
  simp [*]

@[simp] theorem execQcfgEnSet_canonical (fn q : Nat) (v : BitVec 64) (s : State) (h_s : s.mem.wf = true) :
    Out.canonical (execQcfgEnSet fn q v s) = true := by
  unfold execQcfgEnSet
  simp [*]

@[simp] theorem execQstatThaw_canonical (fn q : Nat) (s : State) (h_s : s.mem.wf = true) :
    Out.canonical (execQstatThaw fn q s) = true := by
  unfold execQstatThaw
  simp [*]

@[simp] theorem State.writeQstat_mem (s : State) (q : Nat) (v : W64) :
    (State.writeQstat s q v).mem = s.mem := by
  unfold State.writeQstat
  simp [*]

@[simp] theorem State.writeQbase_mem (s : State) (q : Nat) (v : W64) :
    (State.writeQbase s q v).mem = s.mem := by
  unfold State.writeQbase
  simp [*]

@[simp] theorem execErrdWrite_canonical (fn : Nat) (v : BitVec 64) (s : State) (h_s : s.mem.wf = true) :
    Out.canonical (execErrdWrite fn v s) = true := by
  unfold execErrdWrite
  simp [*]

@[simp] theorem execErbaseWrite_canonical (fn : Nat) (v : BitVec 64) (s : State) (h_s : s.mem.wf = true) :
    Out.canonical (execErbaseWrite fn v s) = true := by
  unfold execErbaseWrite
  simp [*]

@[simp] theorem execErcfgWrite_canonical (fn : Nat) (v : BitVec 64) (s : State) (h_s : s.mem.wf = true) :
    Out.canonical (execErcfgWrite fn v s) = true := by
  unfold execErcfgWrite
  simp [*]

@[simp] theorem State.sendNotice_mem (s : State) (q slot tile : Nat) (synd : W64) :
    (State.sendNotice s q slot tile synd).1.mem = s.mem := by
  unfold State.sendNotice
  repeat' split
  all_goals simp [*]

@[simp] theorem State.noteFate_mem (fn : Nat) (r : State × NoticeFate) : (State.noteFate fn r).mem = r.1.mem := by
  obtain ⟨t, f⟩ := r
  cases f <;> simp [State.noteFate]

@[simp] theorem execNpayWrite_canonical (fn : Nat) (v : BitVec 64) (s : State) (h_s : s.mem.wf = true) :
    Out.canonical (execNpayWrite fn v s) = true := by
  unfold execNpayWrite
  simp [*]

@[simp] theorem execManagementNotice_canonical (q slot tile : Nat) (payload : BitVec 32) (s : State) (h_s : s.mem.wf = true) :
    Out.canonical (execManagementNotice q slot tile payload s) = true := by
  unfold execManagementNotice
  simp [*]

@[simp] theorem execPlsetWrite_canonical (v : BitVec 64) (s : State) (h_s : s.mem.wf = true) :
    Out.canonical (execPlsetWrite v s) = true := by
  unfold execPlsetWrite
  simp [*]

@[simp] theorem State.writeAdplot_mem (s : State) (v : W64) :
    (State.writeAdplot s v).mem = s.mem := by
  unfold State.writeAdplot
  simp [*]

@[simp] theorem execAdplotEnable_canonical (v : BitVec 64) (s : State) (h_s : s.mem.wf = true) :
    Out.canonical (execAdplotEnable v s) = true := by
  unfold execAdplotEnable
  simp [*]

@[simp] theorem execAdplotDisable_canonical (v : BitVec 64) (s : State) (h_s : s.mem.wf = true) :
    Out.canonical (execAdplotDisable v s) = true := by
  unfold execAdplotDisable
  simp [*]

@[simp] theorem State.startTinv_mem (s : State) (w : Nat) :
    (State.startTinv s w).mem = s.mem := by
  unfold State.startTinv
  simp [*]

@[simp] theorem execTinvPage_canonical (fn : BitVec 4) (vpn : BitVec 32) (s : State) (h_s : s.mem.wf = true) :
    Out.canonical (execTinvPage fn vpn s) = true := by
  unfold execTinvPage
  simp [*]

@[simp] theorem execTinvFunction_canonical (fn : BitVec 4) (s : State) (h_s : s.mem.wf = true) :
    Out.canonical (execTinvFunction fn s) = true := by
  unfold execTinvFunction
  simp [*]

@[simp] theorem execTinvAll_canonical (s : State) (h_s : s.mem.wf = true) :
    Out.canonical (execTinvAll s) = true := by
  unfold execTinvAll
  simp [*]

@[simp] theorem execGcmdWrite_canonical (v : BitVec 64) (s : State) (h_s : s.mem.wf = true) :
    Out.canonical (execGcmdWrite v s) = true := by
  unfold execGcmdWrite
  simp [*]

@[simp] theorem execHlprstWrite_canonical (v : BitVec 64) (s : State) (h_s : s.mem.wf = true) :
    Out.canonical (execHlprstWrite v s) = true := by
  unfold execHlprstWrite
  simp [*]

@[simp] theorem State.writeSpen_mem (s : State) (on : Bool) :
    (State.writeSpen s on).mem = s.mem := by
  unfold State.writeSpen
  simp [*]

@[simp] theorem execHstatSpenWrite_canonical (v : BitVec 64) (s : State) (h_s : s.mem.wf = true) :
    Out.canonical (execHstatSpenWrite v s) = true := by
  unfold execHstatSpenWrite
  simp [*]

@[simp] theorem State.writeCkctl_mem (s : State) (v : W64) :
    (State.writeCkctl s v).mem = s.mem := by
  unfold State.writeCkctl
  simp [*]

@[simp] theorem execCkctlSave_canonical (v : BitVec 64) (s : State) (h_s : s.mem.wf = true) :
    Out.canonical (execCkctlSave v s) = true := by
  unfold execCkctlSave
  simp [*]

@[simp] theorem execCkctlRestore_canonical (v : BitVec 64) (s : State) (h_s : s.mem.wf = true) :
    Out.canonical (execCkctlRestore v s) = true := by
  unfold execCkctlRestore
  simp [*]

@[simp] theorem State.writeLdctl_mem (s : State) (fn : Nat) (op go : Bool) :
    (State.writeLdctl s fn op go).mem = s.mem := by
  unfold State.writeLdctl
  simp [*]

@[simp] theorem execLdctlLoad_canonical (fn : Nat) (s : State) (h_s : s.mem.wf = true) :
    Out.canonical (execLdctlLoad fn s) = true := by
  unfold execLdctlLoad
  simp [*]

@[simp] theorem execLdctlUnload_canonical (fn : Nat) (s : State) (h_s : s.mem.wf = true) :
    Out.canonical (execLdctlUnload fn s) = true := by
  unfold execLdctlUnload
  simp [*]

@[simp] theorem execAtctlGo_canonical (fn : Nat) (s : State) (h_s : s.mem.wf = true) :
    Out.canonical (execAtctlGo fn s) = true := by
  unfold execAtctlGo
  simp [*]

@[simp] theorem State.writeMdpos_mem (s : State) (v : W64) :
    (State.writeMdpos s v).mem = s.mem := by
  unfold State.writeMdpos
  simp [*]

@[simp] theorem State.writeMdq_mem (s : State) (v : W64) :
    (State.writeMdq s v).mem = s.mem := by
  unfold State.writeMdq
  simp [*]

@[simp] theorem State.writeProute_mem (s : State) (p : Nat) (v : W64) :
    (State.writeProute s p v).mem = s.mem := by
  unfold State.writeProute
  simp [*]

@[simp] theorem State.clearFired_mem (s : State) (r : GaugeRef) (w : Nat) (v : W64) :
    (State.clearFired s r w v).mem = s.mem := by
  unfold State.clearFired
  simp [*]

@[simp] theorem State.writeMsix_mem (s : State) (fn n : Nat) (v : W64) :
    (State.writeMsix s fn n v).mem = s.mem := by
  unfold State.writeMsix
  simp [*]

@[simp] theorem State.controlMsix_mem (s : State) (fn : Nat) (on mask : Bool) :
    (State.controlMsix s fn on mask).mem = s.mem := by
  unfold State.controlMsix
  simp [*]

@[simp] theorem State.writeFunction_mem (s : State) (fn : Nat) (r : WinReg) (v : W64) :
    (State.writeFunction s fn r v).mem = s.mem := by
  unfold State.writeFunction
  repeat' split
  all_goals simp [*]

@[simp] theorem State.writeTroot_mem (s : State) (f : Nat) (v : W64) :
    (State.writeTroot s f v).mem = s.mem := by
  unfold State.writeTroot
  simp [*]

@[simp] theorem State.writeBlock_mem (s : State) (r : WinReg) (v : W64) :
    (State.writeBlock s r v).mem = s.mem := by
  unfold State.writeBlock
  repeat' split
  all_goals simp [*]

@[simp] theorem State.writeQueue_mem (s : State) (fn q : Nat) (r : WinReg) (v : W64) :
    (State.writeQueue s fn q r v).mem = s.mem := by
  unfold State.writeQueue
  repeat' split
  all_goals simp [*]

@[simp] theorem execRegisterWrite_canonical (fn : Nat) (r : WinReg) (v : BitVec 64) (s : State) (h_s : s.mem.wf = true) :
    Out.canonical (execRegisterWrite fn r v s) = true := by
  unfold execRegisterWrite
  repeat' split
  all_goals simp [*]

/-! ### Loading.lean -/

@[simp] theorem State.fetchFrom_mem (s : State) (fn va n : Nat) :
    (State.fetchFrom s fn va n).mem = s.mem := by
  unfold State.fetchFrom
  simp [*]

@[simp] theorem State.fetchObject_mem (s : State) (fn va : Nat) :
    (State.fetchObject s fn va).mem = s.mem := by
  unfold State.fetchObject
  repeat' split
  all_goals simp [*]

@[simp] theorem State.installKeys_mem (s : State) (ks : List (Nat × BitVec 256 × Bool)) :
    (State.installKeys s ks).mem = s.mem := by
  unfold State.installKeys
  simp [*]

theorem State.placeObject_canonical {s t : State} {fn area : Nat} {o : CodeObject} {x : Assembled} {h : Option W64}
    (e : s.placeObject fn area o x = .ok (t, h)) (h_s : s.mem.wf = true) : t.mem.wf = true := by
  unfold State.placeObject at e
  dsimp only at e
  split at e
  · cases e
  · split at e
    · cases e
    · cases e
      exact Memory.writeCells_wf h_s

theorem State.loadObject_canonical {s t : State} {fn src area : Nat} {h : Option W64}
    (e : s.loadObject fn src area = .ok (t, h)) (h_s : s.mem.wf = true) : t.mem.wf = true := by
  unfold State.loadObject at e
  repeat' split at e
  all_goals first
    | exact State.placeObject_canonical e h_s
    | (cases e; done)
    | (cases e; simp [h_s]; done)

@[simp] theorem State.dropObject_mem (s : State) (h : W64) :
    (State.dropObject s h).mem = s.mem := by
  unfold State.dropObject
  simp [*]

@[simp] theorem State.endLoad_mem (s : State) (fn : Nat) (e : Option LoadError) :
    (State.endLoad s fn e).mem = s.mem := by
  unfold State.endLoad
  simp [*]

@[simp] theorem State.unloadObject_mem (s : State) (fn : Nat) (h : W64) :
    (State.unloadObject s fn h).mem = s.mem := by
  unfold State.unloadObject
  simp [*]

@[simp] theorem execCodeLoadEnd_canonical (fn : Nat) (s : State) (h_s : s.mem.wf = true) :
    Out.canonical (execCodeLoadEnd fn s) = true := by
  unfold execCodeLoadEnd
  dsimp only
  rw [canonical_next]
  have h1 : (s.fetchObject fn ((s.fn fn).ldcap.getD 1 0).toNat).mem.wf = true := by simp [h_s]
  split
  · exact h_s
  · split
    · rw [State.unloadObject_mem]; exact h_s
    · split
      · rw [State.endLoad_mem]; exact h1
      · rename_i h; rw [State.endLoad_mem]; exact State.loadObject_canonical h h1
      · rename_i h; rw [State.endLoad_mem, State.setFn_mem]; exact State.loadObject_canonical h h1

@[simp] theorem execAttestationEnd_canonical (fn : Nat) (s : State) (h_s : s.mem.wf = true) :
    Out.canonical (execAttestationEnd fn s) = true := by
  unfold execAttestationEnd
  dsimp only
  repeat' split
  all_goals simp [*]

/-! ### Riscv.lean -/

@[simp] theorem State.rvCsr_mem (s : State) (w : W32) :
    (State.rvCsr s w).mem = s.mem := by
  unfold State.rvCsr
  dsimp only
  repeat' split
  all_goals simp [*]

@[simp] theorem State.rvSystem_mem (s : State) (w : W32) (len : Nat) :
    (State.rvSystem s w len).mem = s.mem := by
  unfold State.rvSystem
  simp [*]

@[simp] theorem State.rvExec_canonical (s : State) (w orig : W32) (len : Nat) (h_s : s.mem.wf = true) :
    (State.rvExec s w orig len).mem.wf = true := by
  unfold State.rvExec
  dsimp only
  repeat' split
  all_goals simp [*]

@[simp] theorem execHelperRiscvInstruction_canonical (w : BitVec 32) (s : State) (h_s : s.mem.wf = true) :
    Out.canonical (execHelperRiscvInstruction w s) = true := by
  unfold execHelperRiscvInstruction
  repeat' split
  all_goals simp [*]

/-! ### Special.lean -/

@[simp] theorem State.fastOr_canonical (s : State) (f : Slot) (op : Nat) (k : State) (h_s : s.mem.wf = true) (h_k : k.mem.wf = true) :
    (State.fastOr s f op k).mem.wf = true := by
  unfold State.fastOr
  simp [*]

@[simp] theorem execVrcp_canonical (f : Slot) (s : State) (h_s : s.mem.wf = true) :
    Out.canonical (execVrcp f s) = true := by
  unfold execVrcp
  simp [*]

@[simp] theorem execVrsq_canonical (f : Slot) (s : State) (h_s : s.mem.wf = true) :
    Out.canonical (execVrsq f s) = true := by
  unfold execVrsq
  simp [*]

@[simp] theorem State.special1_mem (s : State) (f : Slot) (exact : FVal → FVal) (fast : Nat → W32 → W32) :
    (State.special1 s f exact fast).mem = s.mem := by
  unfold State.special1
  simp [*]

@[simp] theorem execVsqrt_canonical (f : Slot) (s : State) (h_s : s.mem.wf = true) :
    Out.canonical (execVsqrt f s) = true := by
  unfold execVsqrt
  simp [*]

@[simp] theorem execVexp2_canonical (f : Slot) (s : State) (h_s : s.mem.wf = true) :
    Out.canonical (execVexp2 f s) = true := by
  unfold execVexp2
  simp [*]

@[simp] theorem execVlog2_canonical (f : Slot) (s : State) (h_s : s.mem.wf = true) :
    Out.canonical (execVlog2 f s) = true := by
  unfold execVlog2
  simp [*]

/-! ### Tap.lean -/

@[simp] theorem State.tapShow_mem (s : State) (code : BitVec 8) (dr : BitVec 65) :
    (State.tapShow s code dr).mem = s.mem := by
  unfold State.tapShow
  simp [*]

@[simp] theorem execTapBypass_canonical (s : State) (h_s : s.mem.wf = true) :
    Out.canonical (execTapBypass s) = true := by
  unfold execTapBypass
  simp [*]

@[simp] theorem execTapIdcode_canonical (s : State) (h_s : s.mem.wf = true) :
    Out.canonical (execTapIdcode s) = true := by
  unfold execTapIdcode
  simp [*]

@[simp] theorem execTapExtest_canonical (s : State) (h_s : s.mem.wf = true) :
    Out.canonical (execTapExtest s) = true := by
  unfold execTapExtest
  simp [*]

@[simp] theorem execTapSamplePreload_canonical (s : State) (h_s : s.mem.wf = true) :
    Out.canonical (execTapSamplePreload s) = true := by
  unfold execTapSamplePreload
  simp [*]

@[simp] theorem execBraddr_canonical (s : State) (h_s : s.mem.wf = true) :
    Out.canonical (execBraddr s) = true := by
  unfold execBraddr
  simp [*]

@[simp] theorem execBrdata_canonical (s : State) (h_s : s.mem.wf = true) :
    Out.canonical (execBrdata s) = true := by
  unfold execBrdata
  simp [*]

@[simp] theorem execBrstat_canonical (s : State) (h_s : s.mem.wf = true) :
    Out.canonical (execBrstat s) = true := by
  unfold execBrstat
  simp [*]

@[simp] theorem execThaw_canonical (s : State) (h_s : s.mem.wf = true) :
    Out.canonical (execThaw s) = true := by
  unfold execThaw
  simp [*]

/-! ### Vector.lean -/

@[simp] theorem State.arithmetic_mem (s : State) (f : Slot) (rnd : Nat) (rand : Nat → RandomBits) (r : Nat → FVal) :
    (State.arithmetic s f rnd rand r).mem = s.mem := by
  unfold State.arithmetic
  simp [*]

@[simp] theorem State.arith2_mem (s : State) (f : Slot) (op : Nat → FVal → FVal → FVal) :
    (State.arith2 s f op).mem = s.mem := by
  unfold State.arith2
  simp [*]

@[simp] theorem State.arith3_mem (s : State) (f : Slot) (minus : Bool) :
    (State.arith3 s f minus).mem = s.mem := by
  unfold State.arith3
  simp [*]

@[simp] theorem execVadd_canonical (f : Slot) (s : State) (h_s : s.mem.wf = true) :
    Out.canonical (execVadd f s) = true := by
  unfold execVadd
  simp [*]

@[simp] theorem execVsub_canonical (f : Slot) (s : State) (h_s : s.mem.wf = true) :
    Out.canonical (execVsub f s) = true := by
  unfold execVsub
  simp [*]

@[simp] theorem execVmul_canonical (f : Slot) (s : State) (h_s : s.mem.wf = true) :
    Out.canonical (execVmul f s) = true := by
  unfold execVmul
  simp [*]

@[simp] theorem execVfma_canonical (f : Slot) (s : State) (h_s : s.mem.wf = true) :
    Out.canonical (execVfma f s) = true := by
  unfold execVfma
  simp [*]

@[simp] theorem execVfms_canonical (f : Slot) (s : State) (h_s : s.mem.wf = true) :
    Out.canonical (execVfms f s) = true := by
  unfold execVfms
  simp [*]

@[simp] theorem execVmin_canonical (f : Slot) (s : State) (h_s : s.mem.wf = true) :
    Out.canonical (execVmin f s) = true := by
  unfold execVmin
  simp [*]

@[simp] theorem execVmax_canonical (f : Slot) (s : State) (h_s : s.mem.wf = true) :
    Out.canonical (execVmax f s) = true := by
  unfold execVmax
  simp [*]

@[simp] theorem execVabs_canonical (f : Slot) (s : State) (h_s : s.mem.wf = true) :
    Out.canonical (execVabs f s) = true := by
  unfold execVabs
  simp [*]

@[simp] theorem execVneg_canonical (f : Slot) (s : State) (h_s : s.mem.wf = true) :
    Out.canonical (execVneg f s) = true := by
  unfold execVneg
  simp [*]

@[simp] theorem execVcmp_canonical (f : Slot) (s : State) (h_s : s.mem.wf = true) :
    Out.canonical (execVcmp f s) = true := by
  unfold execVcmp
  simp [*]

@[simp] theorem execVsel_canonical (f : Slot) (s : State) (h_s : s.mem.wf = true) :
    Out.canonical (execVsel f s) = true := by
  unfold execVsel
  simp [*]

@[simp] theorem execVand_canonical (f : Slot) (s : State) (h_s : s.mem.wf = true) :
    Out.canonical (execVand f s) = true := by
  unfold execVand
  simp [*]

@[simp] theorem execVor_canonical (f : Slot) (s : State) (h_s : s.mem.wf = true) :
    Out.canonical (execVor f s) = true := by
  unfold execVor
  simp [*]

@[simp] theorem execVxor_canonical (f : Slot) (s : State) (h_s : s.mem.wf = true) :
    Out.canonical (execVxor f s) = true := by
  unfold execVxor
  simp [*]

@[simp] theorem execVshl_canonical (f : Slot) (s : State) (h_s : s.mem.wf = true) :
    Out.canonical (execVshl f s) = true := by
  unfold execVshl
  simp [*]

@[simp] theorem execVshr_canonical (f : Slot) (s : State) (h_s : s.mem.wf = true) :
    Out.canonical (execVshr f s) = true := by
  unfold execVshr
  simp [*]

@[simp] theorem execVsra_canonical (f : Slot) (s : State) (h_s : s.mem.wf = true) :
    Out.canonical (execVsra f s) = true := by
  unfold execVsra
  simp [*]

/-! ### Dispatch.lean -/

@[simp] theorem exec_canonical (i : Instr) (s : State) (h_s : s.mem.wf = true) :
    Out.canonical (exec i s) = true := by
  unfold exec
  repeat' split
  all_goals simp [*]

/-! ### Issue.lean -/

@[simp] theorem Out.andThen_canonical (o : Out) (k : State → Out) (ho : o.canonical = true)
    (hk : ∀ t, t.mem.wf = true → (k t).canonical = true) : (Out.andThen o k).canonical = true := by
  cases o with
  | next t => exact hk t ho
  | fault | refused => rfl

@[simp] theorem State.trapDefect_canonical (s : State) (a1 : BundleDefect) (h_s : s.mem.wf = true) :
    (State.trapDefect s a1).mem.wf = true := by
  unfold State.trapDefect
  repeat' split
  all_goals simp [*]

@[simp] theorem State.runSlot_canonical (s : State) (inB : Bool) (a1 : Option Instr) (h_s : s.mem.wf = true) :
    Out.canonical (State.runSlot s inB a1) = true := by
  unfold State.runSlot
  repeat' split
  all_goals simp [*]

@[simp] theorem State.sourcesOf_canonical (s s0 : State) (h_s : s.mem.wf = true) (h_s0 : s0.mem.wf = true) :
    (State.sourcesOf s s0).mem.wf = true := by
  unfold State.sourcesOf
  simp [*]

@[simp] theorem State.resultsOf_canonical (s s1 : State) (h_s : s.mem.wf = true) (h_s1 : s1.mem.wf = true) :
    (State.resultsOf s s1).mem.wf = true := by
  unfold State.resultsOf
  simp [*]

@[simp] theorem State.runPair_canonical (s0 : State) (a b : Option Instr) (finish : State → State)
    (h_s0 : s0.mem.wf = true) (h_f : ∀ x, x.mem.wf = true → (finish x).mem.wf = true) :
    Out.canonical (s0.runPair a b finish) = true := by
  unfold State.runPair
  split
  · refine Out.andThen_canonical _ _ (State.runSlot_canonical _ _ _ h_s0) fun s1 h1 => ?_
    split
    · exact h1
    · exact h1
    · refine Out.andThen_canonical _ _ (State.runSlot_canonical _ _ _ h1) fun s2 h2 => ?_
      split
      · exact h_f _ h2
      · exact h2
  · refine Out.andThen_canonical _ _ (State.runSlot_canonical _ _ _ h_s0) fun s1 h1 => ?_
    split
    · exact h1
    · exact h1
    · refine Out.andThen_canonical _ _ (State.runSlot_canonical _ _ _ (State.sourcesOf_canonical _ _ h1 h_s0)) fun s2 h2 => ?_
      split
      · rw [canonical_next]; split
        · exact h2
        · exact State.takeTrap_canonical _ _ h_s0
      · rw [canonical_next]; split
        · exact h2
        · rw [State.waitFor_mem]; exact h_s0
      · refine h_f _ ?_
        split
        · exact h2
        · exact State.resultsOf_canonical _ _ h2 h1

@[simp] theorem State.issueDecoded_canonical (s : State) (w : BundleWord) (b : Bundle) (h_s : s.mem.wf = true) :
    Out.canonical (s.issueDecoded w b) = true := by
  unfold State.issueDecoded
  dsimp only
  split
  · exact State.trapInstr_canonical _ _ _ _ _ h_s
  · split
    · exact State.trapInstr_canonical _ _ _ _ _ h_s
    · split
      · rename_i t h
        rw [canonical_next]
        rcases Option.or_eq_some_iff.1 h with h | ⟨-, h⟩ <;>
          (obtain ⟨x, -, rfl⟩ := Option.map_eq_some_iff.1 h; exact State.trap_canonical _ _ _ h_s)
      · split
        · exact Out.andThen_canonical _ _ (exec_canonical _ _ h_s) fun x h => State.retire_canonical _ _ _ _ h
        · exact State.runPair_canonical _ _ _ _ h_s fun x h => State.retire_canonical _ _ _ _ h

@[simp] theorem State.chargeFetch_mem (s : State) (o next : Nat) :
    (State.chargeFetch s o next).mem = s.mem := by
  unfold State.chargeFetch
  simp [*]

@[simp] theorem State.issueBundle_canonical (s : State) (h_s : s.mem.wf = true) :
    Out.canonical (State.issueBundle s) = true := by
  unfold State.issueBundle
  dsimp only
  repeat' split
  all_goals simp [*]

@[simp] theorem State.issueTask_canonical (s : State) (h_s : s.mem.wf = true) :
    Out.canonical (State.issueTask s) = true := by
  unfold State.issueTask
  repeat' split
  all_goals simp [*]

@[simp] theorem State.issueHelper_canonical (s : State) (h_s : s.mem.wf = true) :
    Out.canonical (State.issueHelper s) = true := by
  unfold State.issueHelper
  repeat' split
  all_goals simp [*]

@[simp] theorem State.rotate_mem (s : State) :
    (State.rotate s).mem = s.mem := by
  unfold State.rotate
  repeat' split
  all_goals simp [*]

@[simp] theorem State.tick_canonical (s : State) (h_s : s.mem.wf = true) :
    (State.tick s).mem.wf = true := by
  unfold State.tick
  simp [*]

/-! ### Window.lean -/

@[simp] theorem State.writeBar_mem (s : State) (fn k : Nat) (v : W32) :
    (State.writeBar s fn k v).mem = s.mem := by
  unfold State.writeBar
  simp [*]

@[simp] theorem State.readWindow_mem (s : State) (fn off n : Nat) :
    (State.readWindow s fn off n).mem = s.mem := by
  unfold State.readWindow
  simp [*]

end Sys2Proof.Machine
end

