-- ==== Sys2Proof/Laws/Registers.lean ====
section
/-! SUPPORT. What opening a window does (`put`, `putG`, `putP`, `putLanes`): the final value of one register changes, and
nothing else; a register whose windows have all closed reads its final value. -/

namespace Sys2Proof.Machine

/-! ### Closing windows -/

/-- A window opened last is applied last. -/
theorem TaskRegs.close_append (r : TaskRegs) (w : Window) :
    TaskRegs.close { r with wins := r.wins ++ [w] } = r.close.apply w.write := by
  simp only [TaskRegs.close, List.foldl_append, List.foldl_cons, List.foldl_nil]

/-- The final register files after `put`. -/
theorem State.put_close (s : State) (lat : Nat) (w : RegWrite) :
    (s.put lat w).task.regs.close = s.task.regs.close.apply w := by
  unfold State.put
  split
  · cases w <;> simp_all [RegWrite.discarded, TaskRegs.apply]
  · exact TaskRegs.close_append _ _

/-- `put` changes the windows alone. -/
@[simp] theorem State.put_setRegs (s : State) (lat : Nat) (w : RegWrite) : (s.put lat w).setRegs s.task.regs = s := by
  unfold State.put; split <;> rfl

@[simp] theorem State.mem_put (s : State) (lat : Nat) (w : RegWrite) : (s.put lat w).mem = s.mem := by
  unfold State.put; split <;> rfl

/-! ### Final values after `put` -/

theorem State.finalG_put (s : State) (lat k : Nat) (w : RegWrite) :
    (s.put lat w).finalG k = match w with
      | .g n x => if k = n ∧ n ≠ 0 then x else s.finalG k
      | _ => s.finalG k := by
  simp only [State.finalG, State.put_close]
  cases w with
  | g n x =>
    simp only [TaskRegs.apply]
    by_cases hn : n = 0
    · simp [hn]
    · rw [if_neg hn]
      simp only [TaskRegs.storedG, sget_sset]
      by_cases hk : k = n
      · simp [hk, hn]
      · simp [hk]
  | p n x | m n x y => simp only [TaskRegs.apply]; split <;> (try split) <;> rfl
  | v n x y => rfl

theorem State.finalM_put (s : State) (lat k : Nat) (w : RegWrite) :
    (s.put lat w).finalM k = match w with
      | .m n mask x => if k = n ∧ n ≠ 0 then (s.finalM k &&& ~~~mask) ||| (x &&& mask) else s.finalM k
      | _ => s.finalM k := by
  simp only [State.finalM, State.put_close]
  cases w with
  | m n mask x =>
    simp only [TaskRegs.apply]
    by_cases hn : n = 0
    · simp [hn]
    · rw [if_neg hn]
      simp only [TaskRegs.storedM, sget_sset]
      by_cases hk : k = n
      · simp [hk, hn]
      · simp [hk]
  | g n x | p n x => simp only [TaskRegs.apply]; split <;> (try split) <;> rfl
  | v n x y => rfl

theorem State.finalV_put (s : State) (lat k : Nat) (w : RegWrite) :
    (s.put lat w).finalV k = match w with
      | .v n mask x => if k = n then (s.finalV k &&& ~~~mask) ||| (x &&& mask) else s.finalV k
      | _ => s.finalV k := by
  simp only [State.finalV, State.put_close]
  cases w with
  | v n mask x =>
    simp only [TaskRegs.apply, TaskRegs.storedV, sget_sset]
    by_cases hk : k = n
    · simp [hk]
    · simp [hk]
  | g n x | p n x | m n x y => simp only [TaskRegs.apply]; split <;> rfl

theorem State.finalP_put (s : State) (lat k : Nat) (hk : k < 16) (w : RegWrite) :
    (s.put lat w).finalP k = match w with
      | .p n x => if k = n ∧ n ≠ 0 then x else s.finalP k
      | _ => s.finalP k := by
  simp only [State.finalP, State.put_close]
  cases w with
  | p n x =>
    simp only [TaskRegs.apply]
    by_cases hn : n = 0
    · simp [hn]
    · rw [if_neg hn]
      by_cases hkn : k = n
      · subst hkn; cases x <;> simp [hn, hk]
      · cases x <;> simp [hkn, hk]
  | g n x | m n x y => simp only [TaskRegs.apply]; split <;> (try split) <;> rfl
  | v n x y => rfl

/-! ### One register written -/

/-- One window on g[n]. -/
theorem put_g_writes (s : State) (lat n : Nat) (x : W64) : WritesG s (s.put lat (.g n x)) n x := by
  refine ⟨⟨State.put_setRegs .., fun a => by rw [State.mem_put], ?_⟩, ?_⟩
  · refine ⟨fun k h => ?_, fun k hk _ => ?_, fun k _ => ?_, fun k _ => ?_⟩
    · rw [State.finalG_put]; exact if_neg fun e => h ⟨rfl, e.1⟩
    · rw [State.finalP_put s lat k hk]
    · rw [State.finalM_put]
    · rw [State.finalV_put]
  · rw [State.finalG_put]; by_cases hn : n = 0 <;> simp [hn, State.finalG]

/-- One window on p[n]. -/
theorem put_p_writes (s : State) (lat n : Nat) (hn16 : n < 16) (x : Bool) : WritesP s (s.put lat (.p n x)) n x := by
  refine ⟨⟨State.put_setRegs .., fun a => by rw [State.mem_put], ?_⟩, ?_⟩
  · refine ⟨fun k _ => ?_, fun k hk h => ?_, fun k _ => ?_, fun k _ => ?_⟩
    · rw [State.finalG_put]
    · rw [State.finalP_put s lat k hk]; exact if_neg fun e => h ⟨rfl, e.1⟩
    · rw [State.finalM_put]
    · rw [State.finalV_put]
  · rw [State.finalP_put s lat n hn16]; by_cases hn : n = 0 <;> simp [hn, State.finalP]

/-- One window on m[n] changes that mask alone. -/
theorem put_m_only (s : State) (lat n : Nat) (mask x : Mask) : OnlyRegister s (s.put lat (.m n mask x)) .m n := by
  refine ⟨State.put_setRegs .., fun a => by rw [State.mem_put], fun k _ => ?_, fun k hk _ => ?_, fun k h => ?_, fun k _ => ?_⟩
  · rw [State.finalG_put]
  · rw [State.finalP_put s lat k hk]
  · rw [State.finalM_put]; exact if_neg fun e => h ⟨rfl, e.1⟩
  · rw [State.finalV_put]

/-- One window on v[n] changes that register alone. -/
theorem put_v_only (s : State) (lat n : Nat) (mask x : VReg) : OnlyRegister s (s.put lat (.v n mask x)) .v n := by
  refine ⟨State.put_setRegs .., fun a => by rw [State.mem_put], fun k _ => ?_, fun k hk _ => ?_, fun k _ => ?_, fun k h => ?_⟩
  · rw [State.finalG_put]
  · rw [State.finalP_put s lat k hk]
  · rw [State.finalM_put]
  · rw [State.finalV_put]; exact if_neg fun e => h ⟨rfl, e⟩

theorem putG_writes (s : State) (f : Slot) (x : W64) : WritesG s (s.putG f x) f.d.toNat x := put_g_writes ..

theorem putP_writes (s : State) (f : Slot) (hd : f.d.toNat < 16) (x : Bool) : WritesP s (s.putP f x) f.d.toNat x :=
  put_p_writes _ _ _ hd _

/-! ### Lanes (R16, R130, R131) -/

theorem packLanes_lt (w : Nat) (f : Nat → Nat) (n : Nat) : packLanes w f n < 2 ^ (w * n) := by
  induction n with
  | zero => simp [packLanes]
  | succ n ih =>
    rw [packLanes, Nat.mul_succ, Nat.pow_add]
    have : f n % 2 ^ w + 1 ≤ 2 ^ w := Nat.mod_lt _ (Nat.two_pow_pos w)
    calc packLanes w f n + f n % 2 ^ w * 2 ^ (w * n) < 2 ^ (w * n) + f n % 2 ^ w * 2 ^ (w * n) := by omega
      _ = (f n % 2 ^ w + 1) * 2 ^ (w * n) := by ring
      _ ≤ 2 ^ w * 2 ^ (w * n) := Nat.mul_le_mul_right _ this
      _ = _ := by ring

theorem packLanes_elem (w : Nat) (f : Nat → Nat) {n i : Nat} (hi : i < n) :
    packLanes w f n / 2 ^ (w * i) % 2 ^ w = f i % 2 ^ w := by
  induction n with
  | zero => omega
  | succ n ih =>
    rw [packLanes]
    by_cases h : i = n
    · subst h
      rw [Nat.add_mul_div_right _ _ (Nat.two_pow_pos _), Nat.div_eq_of_lt (packLanes_lt ..), Nat.zero_add, Nat.mod_mod]
    · have hin : i < n := by omega
      have e : w * n = w * i + (w * (n - i - 1) + w) := by
        obtain ⟨k, rfl⟩ : ∃ k, n = i + 1 + k := ⟨n - i - 1, by omega⟩
        rw [show i + 1 + k - i - 1 = k by omega]; ring
      rw [e, Nat.pow_add, ← Nat.mul_assoc, Nat.mul_right_comm, Nat.add_mul_div_right _ _ (Nat.two_pow_pos _), Nat.pow_add,
        ← Nat.mul_assoc, Nat.add_mul_mod_self_right]
      exact ih hin

theorem elemBits_extract (w : Nat) (x : VReg) (i : Nat) : elemBits w x i = (x.extractLsb' (w * i) w).toNat := by
  simp [elemBits, BitVec.extractLsb'_toNat, Nat.shiftRight_eq_div_pow]

/-- A lane of a register built lane by lane. -/
theorem elemBits_vregOf (w : Nat) (f : Nat → Nat) {i : Nat} (hw : w * (2048 / w) ≤ 2048) (hi : i < 2048 / w) :
    elemBits w (vregOf w f) i = f i % 2 ^ w := by
  have hlt := packLanes_lt w f (2048 / w)
  have : packLanes w f (2048 / w) < 2 ^ 2048 := lt_of_lt_of_le hlt (Nat.pow_le_pow_right (by omega) hw)
  rw [elemBits, vregOf, BitVec.toNat_ofNat, Nat.mod_eq_of_lt this, packLanes_elem w f hi]

theorem elemBits_merge (w : Nat) (a x m : VReg) (i : Nat) (b : Bool)
    (hm : elemBits w m i = if b then 2 ^ w - 1 else 0) :
    elemBits w ((a &&& ~~~m) ||| (x &&& m)) i = if b then elemBits w x i else elemBits w a i := by
  have e : ∀ j, j < w → m.getLsbD (w * i + j) = b := by
    intro j hj
    have := congrArg (fun n => n.testBit j) hm
    simp only [elemBits, Nat.testBit_mod_two_pow, hj, decide_true, Bool.true_and, Nat.testBit_div_two_pow] at this
    rw [BitVec.getLsbD, Nat.add_comm, this]
    cases b <;> simp [Nat.testBit_two_pow_sub_one, hj]
  simp only [elemBits_extract]
  cases b
  · simp only [Bool.false_eq_true, if_false]
    congr 1
    ext j hj
    have : a.getLsbD (w * i + j) = true → w * i + j < 2048 := BitVec.lt_of_getLsbD
    rw [BitVec.getElem_extractLsb', BitVec.getElem_extractLsb', BitVec.getLsbD_or, BitVec.getLsbD_and, BitVec.getLsbD_and,
      BitVec.getLsbD_not, e j hj]
    cases h : a.getLsbD (w * i + j)
    · simp
    · simp [this h]
  · simp only [if_true]
    congr 1
    ext j hj
    simp [BitVec.getElem_extractLsb', e j hj]

/-- Every typed width divides a register. -/
theorem width_fits (t : BitVec 5) : 0 < typeWidth t ∧ typeWidth t * (2048 / typeWidth t) ≤ 2048 := by
  revert t; decide

theorem elemBits_laneMask (t : BitVec 5) (on : Nat → Bool) {i : Nat} (hi : i < laneCount t) :
    elemBits (typeWidth t) (laneMask (typeWidth t) on) i = if on i then 2 ^ typeWidth t - 1 else 0 := by
  rw [laneMask, elemBits_vregOf _ _ (width_fits t).2 hi]
  have : 0 < 2 ^ typeWidth t := Nat.two_pow_pos _
  split
  · exact Nat.mod_eq_of_lt (by omega)
  · exact Nat.zero_mod _

/-- One window on the lanes of a vector register. -/
theorem put_lanes_writes (s : State) (f : Slot) (on : Nat → Bool) (val : Nat → Nat) :
    WritesLanes s (s.put f.lat.toNat (.v f.d.toNat (laneMask (typeWidth f.t) on) (vregOf (typeWidth f.t) val))) f on val := by
  refine ⟨put_v_only .., fun i hi => ?_⟩
  rw [State.finalV_put]
  simp only [if_true]
  rw [elemBits_merge _ _ _ _ _ _ (elemBits_laneMask f.t on hi), elemBits_vregOf _ _ (width_fits f.t).2 hi]

theorem putLanes_writes (s : State) (f : Slot) (val : Nat → Nat) :
    WritesLanes s (s.putLanes f val) f (gov (typeWidth f.t) (s.msel f)) val := put_lanes_writes ..

end Sys2Proof.Machine
end

