-- ==== Sys2Proof/Laws/Operations.lean ====
section
/-! SUPPORT. What the shared operations do, said once for each: an operation that goes, a trap that enters the handler, the
units that are read back after they are written, tasks and helpers that are changed where they stand, visible stores. -/

namespace Sys2Proof.Machine

/-! ### Operations of a slot -/

/-- An operation without a defect whose predicate holds has its effect. -/
theorem guarded_goes {i : Instr} {f : Slot} {s effect : State} (h : s.goes i f) : guarded i f s effect = .next effect := by
  simp [guarded, h.1, h.2]

/-- An operation with a defect traps with it. -/
theorem guarded_defect {i : Instr} {f : Slot} {s effect : State} {c o d n : Nat} (h : s.issueDefect i = some (c, o, d, n)) :
    guarded i f s effect = .next (s.trapInstr o c d n) := by simp [guarded, h]

/-- A suppressed operation has no effect. -/
theorem guarded_suppressed {i : Instr} {f : Slot} {s effect : State} (h : s.issueDefect i = none) (hp : s.executes f = false) :
    guarded i f s effect = .next s := by simp [guarded, h, hp]

/-! ### Registers -/

/-- A register file whose windows have all closed is as it is. -/
theorem TaskRegs.close_of_wins {r : TaskRegs} (h : r.wins = []) : r.close = r := by
  cases r; simp_all [TaskRegs.close]

/-- No window is left once all have closed. -/
@[simp] theorem TaskRegs.close_wins (r : TaskRegs) : r.close.wins = [] := by
  have key : ∀ (ws : List Window) (x : TaskRegs), x.wins = [] →
      (ws.foldl (fun acc (w : Window) => acc.apply w.write) x).wins = [] := by
    intro ws; induction ws with
    | nil => intro x h; exact h
    | cons w ws ih =>
      intro x h
      refine ih _ (?_ : (x.apply w.write).wins = [])
      cases w.write <;> simp only [TaskRegs.apply] <;> first | exact h | (split <;> exact h)
  exact key r.wins _ rfl

@[simp] theorem TaskRegs.close_close (r : TaskRegs) : r.close.close = r.close := TaskRegs.close_of_wins r.close_wins

/-- A state with the same registers keeps every register. -/
theorem keepsRegisters_of_regs {s t : State} (h : t.task.regs.close = s.task.regs.close) : KeepsRegisters s t := by
  simp [KeepsRegisters, State.finalG, State.finalP, State.finalM, State.finalV, h]

/-! ### Traps -/

/-- Where no error is charged and the handler does not run, a trap enters it. -/
theorem takeTrap_of_mayTrap {s : State} (h : s.mayTrap) (r : TrapRec) : s.takeTrap r = s.enterHandler r := by
  simp [State.takeTrap, h.1, h.2]

@[simp] theorem enterHandler_mem (s : State) (r : TrapRec) : (s.enterHandler r).mem = s.mem := rfl
@[simp] theorem enterHandler_cores (s : State) (r : TrapRec) : (s.enterHandler r).cores = s.cores := rfl
@[simp] theorem enterHandler_id (s : State) (r : TrapRec) : (s.enterHandler r).task.id = s.task.id := rfl
@[simp] theorem enterHandler_eng (s : State) (r : TrapRec) : (s.enterHandler r).task.eng = s.task.eng := rfl
@[simp] theorem enterHandler_stand (s : State) (r : TrapRec) : (s.enterHandler r).task.stand = s.task.stand := rfl
@[simp] theorem enterHandler_lease (s : State) (r : TrapRec) : (s.enterHandler r).task.lease = s.task.lease := rfl
@[simp] theorem enterHandler_phase (s : State) (r : TrapRec) : (s.enterHandler r).task.phase = s.task.phase := rfl
@[simp] theorem enterHandler_regs (s : State) (r : TrapRec) : (s.enterHandler r).task.regs = s.task.regs.close := rfl

/-- Entering the handler changes the selected task alone. -/
theorem enterHandler_keepsOutside (s : State) (r : TrapRec) : KeepsOutside s (s.enterHandler r) := rfl

/-- A trap that may be taken is taken (R166). -/
theorem trapped_of_mayTrap {s : State} (h : s.mayTrap) (sclass : Nat) (synd : W64) :
    Trapped s (s.trap sclass synd) (BitVec.ofNat 8 sclass) synd := by
  simp only [State.trap, takeTrap_of_mayTrap h]
  exact ⟨rfl, rfl, rfl, rfl, rfl, keepsRegisters_of_regs (by simp), fun _ => rfl, rfl⟩

/-! ### Units read back after they are written -/

@[simp] theorem core_setCore (s : State) (c : Core) (l : Nat) :
    (s.setCore c).core l = if l = c.lcore then { c with lcore := l } else s.core l := by
  simp only [State.core, State.setCore, sget_sset]; split <;> rfl

@[simp] theorem queue_setQueue (s : State) (q k : Nat) (x : Queue) : (s.setQueue q x).queue k = if k = q then x else s.queue k := by
  simp [State.queue, State.setQueue]

@[simp] theorem fn_setFn (s : State) (f k : Nat) (x : FnRegs) : (s.setFn f x).fn k = if k = f then x else s.fn k := by
  simp [State.fn, State.setFn]

@[simp] theorem cluster_setCluster (s : State) (c k : Nat) (x : Cluster) :
    (s.setCluster c x).cluster k = if k = c then x else s.cluster k := by simp [State.cluster, State.setCluster]

@[simp] theorem die_setDie (s : State) (d k : Nat) (x : Die) : (s.setDie d x).die k = if k = d then x else s.die k := by
  simp [State.die, State.setDie]

@[simp] theorem isFull_setFull (c : Core) (g k : Nat) (b : Bool) : (c.setFull g b).isFull k = if k = g then b else c.isFull k := by
  simp [Core.isFull, Core.setFull]

@[simp] theorem claim_setClaim (c : Core) (g k n : Nat) : (c.setClaim g n).claim k = if k = g then n else c.claim k := by
  simp [Core.claim, Core.setClaim]

@[simp] theorem claim_setFull (c : Core) (g k : Nat) (b : Bool) : (c.setFull g b).claim k = c.claim k := rfl
@[simp] theorem isFull_setClaim (c : Core) (g k n : Nat) : (c.setClaim g n).isFull k = c.isFull k := rfl

/-! ### Tasks -/

/-- A change of a task that keeps its identity leaves the others where they are. -/
theorem taskAt_onTask (s : State) (r q : TaskRef) (f : Task → Task) (hf : ∀ t, (f t).id = t.id) :
    (s.onTask r f).taskAt q = (s.taskAt q).map fun t => if t.is r then f t else t := by
  have his : ∀ t q, (f t).is q = t.is q := fun t q => by simp [Task.is, hf]
  have hmap : ∀ l : List Task, (l.map fun t => if t.is r then f t else t).find? (·.is q) =
      (l.find? (·.is q)).map fun t => if t.is r then f t else t := by
    intro l; induction l with
    | nil => rfl
    | cons t l ih =>
      have h : (if t.is r then f t else t).is q = t.is q := by split <;> simp [his]
      simp only [List.map_cons, List.find?_cons, h]
      cases t.is q <;> simp [ih]
  have hne : ∀ t : Task, s.task.is r = false → s.task.is q = true → t = s.task → (if t.is r then f t else t) = t := by
    rintro t h - rfl; simp [h]
  unfold State.onTask State.taskAt State.tasks
  by_cases h : s.task.is r
  · simp only [h, if_true, List.find?_cons, his]
    by_cases hq : s.task.is q
    · simp [hq, h]
    · simp only [hq]
      cases hx : s.parked.find? (·.is q) with
      | none => rfl
      | some t =>
        have ht : t.is q = true := by simpa using List.find?_some hx
        have : t.is r = false := by
          cases hr : t.is r
          · rfl
          · simp only [Task.is, Bool.and_eq_true, beq_iff_eq] at ht hr h
            exact absurd (by simp only [Task.is, Bool.and_eq_true, beq_iff_eq]; exact
              ⟨⟨h.1.1, by rw [h.1.2, ← hr.1.2, ht.1.2]⟩, by rw [h.2, ← hr.2, ht.2]⟩) hq
        simp [this]
  · simp only [h, if_false, List.find?_cons, Bool.false_eq_true]
    by_cases hq : s.task.is q
    · simp [hq, h]
    · simp only [hq]; exact hmap _

/-- The wait of the selected task is over, and nothing else changes but the turn. -/
theorem serve_eq (s : State) : s.serve = { s with
    task := { s.task with flow := { s.task.flow with wait := s.task.flow.wait.map fun w => { w with ready := true } } }
    turn := .task } := rfl

/-! ### Visible stores -/

/-- A visible store writes its bytes. -/
@[simp] theorem show_mem (s : State) (cells : List Host.Cell) : (s.show cells).mem = s.mem.writeCells cells := by
  simp [State.show]

/-! ### Helpers -/

@[simp] theorem hx_setHx (s : State) (n k : Nat) (v : W32) :
    (s.setHx n v).hx k = if k = n ∧ k ≠ 0 then v else s.hx k := by
  unfold State.hx State.setHx
  by_cases hn : n = 0
  · subst hn; by_cases hk : k = 0 <;> simp [hk]
  · by_cases hk : k = 0
    · simp [hk]
    · simp [hn, hk, State.setHlp]

@[simp] theorem hx_hGo (s : State) (pc : W32) (k : Nat) : (s.hGo pc).hx k = s.hx k := rfl
@[simp] theorem hx_hNext (s : State) (n k : Nat) : (s.hNext n).hx k = s.hx k := rfl
@[simp] theorem hx_hWait (s : State) (w : HelperWait) (k : Nat) : (s.hWait w).hx k = s.hx k := rfl
@[simp] theorem hNext_mem (s : State) (n : Nat) : (s.hNext n).mem = s.mem := rfl
@[simp] theorem hNext_pc (s : State) (n : Nat) : (s.hNext n).hlp.pc = s.hlp.pc + BitVec.ofNat 32 n := rfl
@[simp] theorem hNext_cores (s : State) (n : Nat) : (s.hNext n).cores = s.cores := rfl
@[simp] theorem hWait_mem (s : State) (w : HelperWait) : (s.hWait w).mem = s.mem := rfl
@[simp] theorem setHx_mem (s : State) (n : Nat) (v : W32) : (s.setHx n v).mem = s.mem := by
  unfold State.setHx; split <;> rfl
@[simp] theorem setHx_cores (s : State) (n : Nat) (v : W32) : (s.setHx n v).cores = s.cores := by
  unfold State.setHx; split <;> rfl

/-- A helper's exception writes its registers and goes on at mtvec (R266). -/
theorem hTrap_hlp (s : State) (cause : Nat) (tval : W32) : (s.hTrap cause tval).hlp.mepc = s.hlp.pc ∧
    (s.hTrap cause tval).hlp.mcause = BitVec.ofNat 32 cause ∧ (s.hTrap cause tval).hlp.mtval = tval ∧
    (s.hTrap cause tval).hlp.pc = s.hlp.mtvec &&& 0xFFFFFFFC ∧ (s.hTrap cause tval).hlp.inTrap = true ∧
    (s.hTrap cause tval).hlp.wait = none ∧ (s.hTrap cause tval).mem = s.mem ∧ ∀ n, (s.hTrap cause tval).hx n = s.hx n := by
  simp only [State.hTrap]; split <;> exact ⟨rfl, rfl, rfl, rfl, rfl, rfl, rfl, fun _ => rfl⟩

end Sys2Proof.Machine
end

