-- ==== Sys2Proof/Laws/PerInstr.lean ====
section
/-! SUPPORT. Per-instruction laws of the family Slots: the opcode map and the encoding tables of Decode.lean agree. -/

namespace Sys2Proof.Laws.Slots

/-- The opcode and the fields that a well-formed operation encodes with are read back as that operation (R81). -/
def Statement (i : Instr) : Prop :=
  i.wf = true → ∀ (f : Slot) (o : OpForm), opForm i = some (f, o) → operationOf o.op f = some i

/-- A well-formed instruction has no slot defect. -/
theorem defect_none {i : Instr} (h : i.wf = true) : slotDefect i (poolFormOf i) = none := by
  simpa using (Bool.and_eq_true_iff.1 h).1

/-- A check that found nothing. -/
theorem passed {α : Type} {c : Bool} {d : α} {rest : Option α} (h : (if (!c) = true then some d else rest) = none) :
    c = true ∧ rest = none := by
  cases c
  · cases h
  · exact ⟨rfl, h⟩

/-- The QUAL and IMM checks of an operation without a defect hold. -/
theorem checks {i : Instr} {f : Slot} {o : OpForm} {p : BitVec 2} (hf : opForm i = some (f, o))
    (h : slotDefect i p = none) : o.qual = true ∧ o.imm = true := by
  unfold slotDefect at h
  rw [hf] at h
  have h := (passed (passed (passed (passed (passed (passed h).2).2).2).2).2).2
  have h := passed (passed (passed (passed (passed (passed h).2).2).2).2).2
  exact ⟨h.1, (passed h.2).1⟩

/-- A QUAL bit outside the permitted ones is zero. -/
theorem qual_bit {f : Slot} {m : Nat} (h : f.qualIn m = true) (n : Nat) (hm : m.testBit n = false) :
    f.qual.getLsbD n = false := by
  have e : f.qual.toNat &&& m = f.qual.toNat := by simpa [Slot.qualIn] using h
  rw [BitVec.getLsbD, ← e, Nat.testBit_and, hm, Bool.and_false]

/-- The QUAL and IMM checks of a well-formed operation hold. -/
theorem wf_checks {i : Instr} {f : Slot} {o : OpForm} (hf : opForm i = some (f, o)) (h : i.wf = true) :
    o.qual = true ∧ o.imm = true := checks hf (defect_none h)

/-- A skidder command without QUAL[5:4] has FOP 0. -/
theorem fop_zero {f : Slot} (hq : f.qualIn 0x60003 = true) : f.q 5 4 = 0 := by
  have h4 := qual_bit hq 4 rfl
  have h5 := qual_bit hq 5 rfl
  have e : f.q 5 4 = (f.qual.extractLsb' 4 2).toNat := by simp [Slot.q]
  have z : f.qual.extractLsb' 4 2 = 0 := by
    ext j hj
    rw [BitVec.getElem_extractLsb']
    obtain rfl | rfl : j = 0 ∨ j = 1 := by omega
    · simpa using h4
    · simpa using h5
  rw [e, z]; rfl

theorem add (f : Slot) : Statement (.add f) := by
  intro _ f o e
  cases e
  exact (rfl : operationOf 0x000 f = _)

theorem sub (f : Slot) : Statement (.sub f) := by
  intro _ f o e
  cases e
  exact (rfl : operationOf 0x001 f = _)

theorem mul (f : Slot) : Statement (.mul f) := by
  intro _ f o e
  cases e
  exact (rfl : operationOf 0x002 f = _)

theorem mulh (f : Slot) : Statement (.mulh f) := by
  intro _ f o e
  cases e
  exact (rfl : operationOf 0x003 f = _)

theorem div (f : Slot) : Statement (.div f) := by
  intro _ f o e
  cases e
  exact (rfl : operationOf 0x004 f = _)

theorem rem (f : Slot) : Statement (.rem f) := by
  intro _ f o e
  cases e
  exact (rfl : operationOf 0x005 f = _)

theorem and (f : Slot) : Statement (.and f) := by
  intro _ f o e
  cases e
  exact (rfl : operationOf 0x008 f = _)

theorem or (f : Slot) : Statement (.or f) := by
  intro _ f o e
  cases e
  exact (rfl : operationOf 0x009 f = _)

theorem xor (f : Slot) : Statement (.xor f) := by
  intro _ f o e
  cases e
  exact (rfl : operationOf 0x00A f = _)

theorem andn (f : Slot) : Statement (.andn f) := by
  intro _ f o e
  cases e
  exact (rfl : operationOf 0x00B f = _)

theorem shl (f : Slot) : Statement (.shl f) := by
  intro _ f o e
  cases e
  exact (rfl : operationOf 0x010 f = _)

theorem shr (f : Slot) : Statement (.shr f) := by
  intro _ f o e
  cases e
  exact (rfl : operationOf 0x011 f = _)

theorem sra (f : Slot) : Statement (.sra f) := by
  intro _ f o e
  cases e
  exact (rfl : operationOf 0x012 f = _)

theorem rol (f : Slot) : Statement (.rol f) := by
  intro _ f o e
  cases e
  exact (rfl : operationOf 0x013 f = _)

theorem min (f : Slot) : Statement (.min f) := by
  intro _ f o e
  cases e
  exact (rfl : operationOf 0x018 f = _)

theorem max (f : Slot) : Statement (.max f) := by
  intro _ f o e
  cases e
  exact (rfl : operationOf 0x019 f = _)

theorem cmp (f : Slot) : Statement (.cmp f) := by
  intro _ f o e
  cases e
  exact (rfl : operationOf 0x01A f = _)

theorem sel (f : Slot) : Statement (.sel f) := by
  intro _ f o e
  cases e
  exact (rfl : operationOf 0x01B f = _)

theorem li (f : Slot) : Statement (.li f) := by
  intro h f o e
  have hc := wf_checks e h
  cases e
  have hb : f.qual.getLsbD 1 = false := by rw [beq_iff_eq.1 hc.1]; rfl
  show operationOf 0x020 f = _
  show some (pickLi f) = _
  simp only [pickLi, hb]; rfl

theorem liHi (f : Slot) : Statement (.liHi f) := by
  intro h f o e
  have hc := wf_checks e h
  cases e
  have hb : f.qual.getLsbD 1 = true := by rw [beq_iff_eq.1 hc.1]; rfl
  show operationOf 0x020 f = _
  show some (pickLi f) = _
  simp only [pickLi, hb]; rfl

theorem clz (f : Slot) : Statement (.clz f) := by
  intro _ f o e
  cases e
  exact (rfl : operationOf 0x021 f = _)

theorem popc (f : Slot) : Statement (.popc f) := by
  intro _ f o e
  cases e
  exact (rfl : operationOf 0x022 f = _)

theorem bfx (f : Slot) : Statement (.bfx f) := by
  intro _ f o e
  cases e
  exact (rfl : operationOf 0x023 f = _)

theorem bfi (f : Slot) : Statement (.bfi f) := by
  intro _ f o e
  cases e
  exact (rfl : operationOf 0x024 f = _)

theorem plog (f : Slot) : Statement (.plog f) := by
  intro _ f o e
  cases e
  exact (rfl : operationOf 0x028 f = _)

theorem br (f : Slot) : Statement (.br f) := by
  intro _ f o e
  cases e
  exact (rfl : operationOf 0x080 f = _)

theorem call (f : Slot) : Statement (.call f) := by
  intro _ f o e
  cases e
  exact (rfl : operationOf 0x081 f = _)

theorem ret (f : Slot) : Statement (.ret f) := by
  intro _ f o e
  cases e
  exact (rfl : operationOf 0x082 f = _)

theorem rep (f : Slot) : Statement (.rep f) := by
  intro _ f o e
  cases e
  exact (rfl : operationOf 0x088 f = _)

theorem loopb (f : Slot) : Statement (.loopb f) := by
  intro _ f o e
  cases e
  exact (rfl : operationOf 0x089 f = _)

theorem endTask (f : Slot) : Statement (.endTask f) := by
  intro _ f o e
  cases e
  exact (rfl : operationOf 0x08A f = _)

theorem trap (f : Slot) : Statement (.trap f) := by
  intro _ f o e
  cases e
  exact (rfl : operationOf 0x090 f = _)

theorem eret (f : Slot) : Statement (.eret f) := by
  intro _ f o e
  cases e
  exact (rfl : operationOf 0x091 f = _)

theorem srd (f : Slot) : Statement (.srd f) := by
  intro _ f o e
  cases e
  exact (rfl : operationOf 0x098 f = _)

theorem swr (f : Slot) : Statement (.swr f) := by
  intro _ f o e
  cases e
  exact (rfl : operationOf 0x099 f = _)

theorem fence (f : Slot) : Statement (.fence f) := by
  intro _ f o e
  cases e
  exact (rfl : operationOf 0x09A f = _)

theorem nop (f : Slot) : Statement (.nop f) := by
  intro _ f o e
  cases e
  exact (rfl : operationOf 0x09B f = _)

theorem rand (f : Slot) : Statement (.rand f) := by
  intro _ f o e
  cases e
  exact (rfl : operationOf 0x0A0 f = _)

theorem grow (f : Slot) : Statement (.grow f) := by
  intro _ f o e
  cases e
  exact (rfl : operationOf 0x0A8 f = _)

theorem shrink (f : Slot) : Statement (.shrink f) := by
  intro _ f o e
  cases e
  exact (rfl : operationOf 0x0A9 f = _)

theorem sealBolt (f : Slot) : Statement (.sealBolt f) := by
  intro _ f o e
  cases e
  exact (rfl : operationOf 0x0B0 f = _)

theorem ld (f : Slot) : Statement (.ld f) := by
  intro _ f o e
  cases e
  exact (rfl : operationOf 0x100 f = _)

theorem st (f : Slot) : Statement (.st f) := by
  intro _ f o e
  cases e
  exact (rfl : operationOf 0x101 f = _)

theorem cas (f : Slot) : Statement (.cas f) := by
  intro _ f o e
  cases e
  exact (rfl : operationOf 0x108 f = _)

theorem amo (f : Slot) : Statement (.amo f) := by
  intro _ f o e
  cases e
  exact (rfl : operationOf 0x109 f = _)

theorem vld (f : Slot) : Statement (.vld f) := by
  intro _ f o e
  cases e
  exact (rfl : operationOf 0x110 f = _)

theorem vst (f : Slot) : Statement (.vst f) := by
  intro _ f o e
  cases e
  exact (rfl : operationOf 0x111 f = _)

theorem vldg (f : Slot) : Statement (.vldg f) := by
  intro _ f o e
  cases e
  exact (rfl : operationOf 0x112 f = _)

theorem vsts (f : Slot) : Statement (.vsts f) := by
  intro _ f o e
  cases e
  exact (rfl : operationOf 0x113 f = _)

theorem vldb (f : Slot) : Statement (.vldb f) := by
  intro _ f o e
  cases e
  exact (rfl : operationOf 0x114 f = _)

theorem vadd (f : Slot) : Statement (.vadd f) := by
  intro _ f o e
  cases e
  exact (rfl : operationOf 0x180 f = _)

theorem vsub (f : Slot) : Statement (.vsub f) := by
  intro _ f o e
  cases e
  exact (rfl : operationOf 0x181 f = _)

theorem vmul (f : Slot) : Statement (.vmul f) := by
  intro _ f o e
  cases e
  exact (rfl : operationOf 0x182 f = _)

theorem vfma (f : Slot) : Statement (.vfma f) := by
  intro _ f o e
  cases e
  exact (rfl : operationOf 0x183 f = _)

theorem vfms (f : Slot) : Statement (.vfms f) := by
  intro _ f o e
  cases e
  exact (rfl : operationOf 0x184 f = _)

theorem vmin (f : Slot) : Statement (.vmin f) := by
  intro _ f o e
  cases e
  exact (rfl : operationOf 0x188 f = _)

theorem vmax (f : Slot) : Statement (.vmax f) := by
  intro _ f o e
  cases e
  exact (rfl : operationOf 0x189 f = _)

theorem vabs (f : Slot) : Statement (.vabs f) := by
  intro _ f o e
  cases e
  exact (rfl : operationOf 0x18A f = _)

theorem vneg (f : Slot) : Statement (.vneg f) := by
  intro _ f o e
  cases e
  exact (rfl : operationOf 0x18B f = _)

theorem vcmp (f : Slot) : Statement (.vcmp f) := by
  intro _ f o e
  cases e
  exact (rfl : operationOf 0x190 f = _)

theorem vsel (f : Slot) : Statement (.vsel f) := by
  intro _ f o e
  cases e
  exact (rfl : operationOf 0x191 f = _)

theorem vand (f : Slot) : Statement (.vand f) := by
  intro _ f o e
  cases e
  exact (rfl : operationOf 0x198 f = _)

theorem vor (f : Slot) : Statement (.vor f) := by
  intro _ f o e
  cases e
  exact (rfl : operationOf 0x199 f = _)

theorem vxor (f : Slot) : Statement (.vxor f) := by
  intro _ f o e
  cases e
  exact (rfl : operationOf 0x19A f = _)

theorem vshl (f : Slot) : Statement (.vshl f) := by
  intro _ f o e
  cases e
  exact (rfl : operationOf 0x1A0 f = _)

theorem vshr (f : Slot) : Statement (.vshr f) := by
  intro _ f o e
  cases e
  exact (rfl : operationOf 0x1A1 f = _)

theorem vsra (f : Slot) : Statement (.vsra f) := by
  intro _ f o e
  cases e
  exact (rfl : operationOf 0x1A2 f = _)

theorem vcvt (f : Slot) : Statement (.vcvt f) := by
  intro _ f o e
  cases e
  exact (rfl : operationOf 0x200 f = _)

theorem vpack4 (f : Slot) : Statement (.vpack4 f) := by
  intro _ f o e
  cases e
  exact (rfl : operationOf 0x201 f = _)

theorem vbsc (f : Slot) : Statement (.vbsc f) := by
  intro _ f o e
  cases e
  exact (rfl : operationOf 0x202 f = _)

theorem vrcp (f : Slot) : Statement (.vrcp f) := by
  intro _ f o e
  cases e
  exact (rfl : operationOf 0x208 f = _)

theorem vrsq (f : Slot) : Statement (.vrsq f) := by
  intro _ f o e
  cases e
  exact (rfl : operationOf 0x209 f = _)

theorem vsqrt (f : Slot) : Statement (.vsqrt f) := by
  intro _ f o e
  cases e
  exact (rfl : operationOf 0x20A f = _)

theorem vexp2 (f : Slot) : Statement (.vexp2 f) := by
  intro _ f o e
  cases e
  exact (rfl : operationOf 0x20B f = _)

theorem vlog2 (f : Slot) : Statement (.vlog2 f) := by
  intro _ f o e
  cases e
  exact (rfl : operationOf 0x20C f = _)

theorem vred (f : Slot) : Statement (.vred f) := by
  intro _ f o e
  cases e
  exact (rfl : operationOf 0x210 f = _)

theorem vscan (f : Slot) : Statement (.vscan f) := by
  intro _ f o e
  cases e
  exact (rfl : operationOf 0x211 f = _)

theorem vperm (f : Slot) : Statement (.vperm f) := by
  intro _ f o e
  cases e
  exact (rfl : operationOf 0x218 f = _)

theorem vbcast (f : Slot) : Statement (.vbcast f) := by
  intro h f o e
  have hc := wf_checks e h
  cases e
  have hb : f.qual.getLsbD 0 = false := by rw [beq_iff_eq.1 hc.1]; rfl
  show operationOf 0x219 f = _
  show some (pickVbcast f) = _
  simp only [pickVbcast, hb]; rfl

theorem vbcastLane (f : Slot) : Statement (.vbcastLane f) := by
  intro h f o e
  have hc := wf_checks e h
  cases e
  have hb : f.qual.getLsbD 0 = true := by rw [beq_iff_eq.1 hc.1]; rfl
  show operationOf 0x219 f = _
  show some (pickVbcast f) = _
  simp only [pickVbcast, hb]; rfl

theorem vext (f : Slot) : Statement (.vext f) := by
  intro _ f o e
  cases e
  exact (rfl : operationOf 0x21A f = _)

theorem viota (f : Slot) : Statement (.viota f) := by
  intro h f o e
  have hc := wf_checks e h
  cases e
  have hb : f.qual.getLsbD 0 = false := by rw [beq_iff_eq.1 hc.1]; rfl
  show operationOf 0x21B f = _
  show some (pickViota f) = _
  simp only [pickViota, hb]; rfl

theorem viotaCnt (f : Slot) : Statement (.viotaCnt f) := by
  intro h f o e
  have hc := wf_checks e h
  cases e
  have hb : f.qual.getLsbD 0 = true := by rw [beq_iff_eq.1 hc.1]; rfl
  show operationOf 0x21B f = _
  show some (pickViota f) = _
  simp only [pickViota, hb]; rfl

theorem klog (f : Slot) : Statement (.klog f) := by
  intro _ f o e
  cases e
  exact (rfl : operationOf 0x21C f = _)

theorem spush (f : Slot) : Statement (.spush f) := by
  intro _ f o e
  cases e
  exact (rfl : operationOf 0x220 f = _)

theorem spop (f : Slot) : Statement (.spop f) := by
  intro _ f o e
  cases e
  exact (rfl : operationOf 0x221 f = _)

theorem scnt (f : Slot) : Statement (.scnt f) := by
  intro _ f o e
  cases e
  exact (rfl : operationOf 0x222 f = _)

theorem fpush (f : Slot) : Statement (.fpush f) := by
  intro _ f o e
  cases e
  exact (rfl : operationOf 0x280 f = _)

theorem plane (f : Slot) : Statement (.plane f) := by
  intro _ f o e
  cases e
  exact (rfl : operationOf 0x281 f = _)

theorem mma (f : Slot) : Statement (.mma f) := by
  intro _ f o e
  cases e
  exact (rfl : operationOf 0x288 f = _)

theorem mmag (f : Slot) : Statement (.mmag f) := by
  intro _ f o e
  cases e
  exact (rfl : operationOf 0x289 f = _)

theorem mclr (f : Slot) : Statement (.mclr f) := by
  intro _ f o e
  cases e
  exact (rfl : operationOf 0x28A f = _)

theorem mlda (f : Slot) : Statement (.mlda f) := by
  intro _ f o e
  cases e
  exact (rfl : operationOf 0x28B f = _)

theorem mrd (f : Slot) : Statement (.mrd f) := by
  intro _ f o e
  cases e
  exact (rfl : operationOf 0x290 f = _)

theorem mst (f : Slot) : Statement (.mst f) := by
  intro _ f o e
  cases e
  exact (rfl : operationOf 0x291 f = _)

theorem mstat (f : Slot) : Statement (.mstat f) := by
  intro _ f o e
  cases e
  exact (rfl : operationOf 0x292 f = _)

theorem phase (f : Slot) : Statement (.phase f) := by
  intro _ f o e
  cases e
  exact (rfl : operationOf 0x298 f = _)

theorem nset (f : Slot) : Statement (.nset f) := by
  intro h f o e
  have hc := wf_checks e h
  cases e
  have hb : f.q 1 0 = 0 := by rw [Slot.q, beq_iff_eq.1 hc.1]; rfl
  show operationOf 0x2A0 f = _
  show some (pickNset f) = _
  simp only [pickNset, hb]; rfl

theorem nsetRst (f : Slot) : Statement (.nsetRst f) := by
  intro h f o e
  have hc := wf_checks e h
  cases e
  have hb : f.q 1 0 = 1 := by rw [Slot.q, beq_iff_eq.1 hc.1]; rfl
  show operationOf 0x2A0 f = _
  show some (pickNset f) = _
  simp only [pickNset, hb]; rfl

theorem nsetStep (f : Slot) : Statement (.nsetStep f) := by
  intro h f o e
  have hc := wf_checks e h
  cases e
  have hb : f.q 1 0 = 2 := by rw [Slot.q, beq_iff_eq.1 hc.1]; rfl
  show operationOf 0x2A0 f = _
  show some (pickNset f) = _
  simp only [pickNset, hb]; rfl

theorem nsetOff (f : Slot) : Statement (.nsetOff f) := by
  intro h f o e
  have hc := wf_checks e h
  cases e
  have hb : f.q 1 0 = 3 := by rw [Slot.q, beq_iff_eq.1 hc.1]; rfl
  show operationOf 0x2A0 f = _
  show some (pickNset f) = _
  simp only [pickNset, hb]; rfl

theorem enqMove (f : Slot) : Statement (.enqMove f) := by
  intro h f o e
  have hc := wf_checks e h
  cases e
  have hb : f.imm.toNat = 1 := by rw [beq_iff_eq.1 hc.2]; rfl
  show operationOf 0x300 f = _
  show some (pickEnq f) = _
  simp only [pickEnq, hb]; rfl

theorem enqReduce (f : Slot) : Statement (.enqReduce f) := by
  intro h f o e
  have hc := wf_checks e h
  cases e
  have hb : f.imm.toNat = 3 := by rw [beq_iff_eq.1 hc.2]; rfl
  show operationOf 0x300 f = _
  show some (pickEnq f) = _
  simp only [pickEnq, hb]; rfl

theorem enqMailbox (f : Slot) : Statement (.enqMailbox f) := by
  intro h f o e
  have hc := wf_checks e h
  cases e
  have hb : f.imm = 4 ∨ f.imm = 5 := by simpa [formSys] using hc.2
  show operationOf 0x300 f = _
  show some (pickEnq f) = _
  obtain hb | hb := hb <;> (simp only [pickEnq, hb]; rfl)

theorem deq (f : Slot) : Statement (.deq f) := by
  intro _ f o e
  cases e
  exact (rfl : operationOf 0x301 f = _)

theorem skmov (f : Slot) : Statement (.skmov f) := by
  intro h f o e
  have hc := wf_checks e h
  cases e
  have hb : f.qual.getLsbD 2 = false := qual_bit hc.1 2 rfl
  show operationOf 0x308 f = _
  show some (pickSkmov f) = _
  simp only [pickSkmov, hb]; rfl

theorem skmovNest (f : Slot) : Statement (.skmovNest f) := by
  intro h f o e
  have hc := wf_checks e h
  cases e
  have hb : f.qual.getLsbD 2 = true := (Bool.and_eq_true_iff.1 hc.1).2
  show operationOf 0x308 f = _
  show some (pickSkmov f) = _
  simp only [pickSkmov, hb]; rfl

theorem skgat (f : Slot) : Statement (.skgat f) := by
  intro _ f o e
  cases e
  exact (rfl : operationOf 0x309 f = _)

theorem sksct (f : Slot) : Statement (.sksct f) := by
  intro _ f o e
  cases e
  exact (rfl : operationOf 0x30A f = _)

theorem skchn (f : Slot) : Statement (.skchn f) := by
  intro _ f o e
  cases e
  exact (rfl : operationOf 0x30B f = _)

theorem skqset (f : Slot) : Statement (.skqset f) := by
  intro _ f o e
  cases e
  exact (rfl : operationOf 0x30C f = _)

theorem tmov (f : Slot) : Statement (.tmov f) := by
  intro _ f o e
  cases e
  exact (rfl : operationOf 0x30D f = _)

theorem feopSet (f : Slot) : Statement (.feopSet f) := by
  intro h f o e
  have hc := wf_checks e h
  cases e
  have hb : f.q 5 4 = 0 := fop_zero hc.1
  show operationOf 0x310 f = _
  show some (pickFeop f) = _
  simp only [pickFeop, hb]; rfl

theorem feopClr (f : Slot) : Statement (.feopClr f) := by
  intro h f o e
  have hc := wf_checks e h
  cases e
  have hb : f.q 5 4 = 1 := beq_iff_eq.1 (Bool.and_eq_true_iff.1 hc.1).2
  show operationOf 0x310 f = _
  show some (pickFeop f) = _
  simp only [pickFeop, hb]; rfl

theorem feopWait (f : Slot) : Statement (.feopWait f) := by
  intro h f o e
  have hc := wf_checks e h
  cases e
  have hb : f.q 5 4 = 2 := beq_iff_eq.1 (Bool.and_eq_true_iff.1 hc.1).2
  show operationOf 0x310 f = _
  show some (pickFeop f) = _
  simp only [pickFeop, hb]; rfl

theorem zenter (f : Slot) : Statement (.zenter f) := by
  intro _ f o e
  cases e
  exact (rfl : operationOf 0x318 f = _)

theorem zsync (f : Slot) : Statement (.zsync f) := by
  intro _ f o e
  cases e
  exact (rfl : operationOf 0x319 f = _)

theorem zred (f : Slot) : Statement (.zred f) := by
  intro _ f o e
  cases e
  exact (rfl : operationOf 0x31A f = _)

theorem zleave (f : Slot) : Statement (.zleave f) := by
  intro _ f o e
  cases e
  exact (rfl : operationOf 0x31B f = _)

theorem boom (f : Slot) : Statement (.boom f) := by
  intro _ f o e
  cases e
  exact (rfl : operationOf 0x31C f = _)

theorem launch (f : Slot) : Statement (.launch f) := by
  intro _ f o e
  cases e
  exact (rfl : operationOf 0x320 f = _)

theorem spec (f : Slot) : Statement (.spec f) := by
  intro _ f o e
  cases e
  exact (rfl : operationOf 0x321 f = _)

theorem decide (f : Slot) : Statement (.decide f) := by
  intro _ f o e
  cases e
  exact (rfl : operationOf 0x322 f = _)

theorem evpost (f : Slot) : Statement (.evpost f) := by
  intro _ f o e
  cases e
  exact (rfl : operationOf 0x323 f = _)

theorem cord (f : Slot) : Statement (.cord f) := by
  intro _ f o e
  cases e
  exact (rfl : operationOf 0x324 f = _)

theorem pxfer (f : Slot) : Statement (.pxfer f) := by
  intro _ f o e
  cases e
  exact (rfl : operationOf 0x328 f = _)

theorem pquery (f : Slot) : Statement (.pquery f) := by
  intro _ f o e
  cases e
  exact (rfl : operationOf 0x329 f = _)

theorem lease (f : Slot) : Statement (.lease f) := by
  intro _ f o e
  cases e
  exact (rfl : operationOf 0x330 f = _)

theorem lrel (f : Slot) : Statement (.lrel f) := by
  intro _ f o e
  cases e
  exact (rfl : operationOf 0x331 f = _)

theorem opreq (f : Slot) : Statement (.opreq f) := by
  intro _ f o e
  cases e
  exact (rfl : operationOf 0x332 f = _)

theorem hskEnq (rd rs1 rs2 : BitVec 5) : Statement (.hskEnq rd rs1 rs2) := fun _ _ _ e => by cases e

theorem hskDeq (rd rs1 : BitVec 5) : Statement (.hskDeq rd rs1) := fun _ _ _ e => by cases e

theorem hskFew (rd rs1 : BitVec 5) : Statement (.hskFew rd rs1) := fun _ _ _ e => by cases e

theorem hskFewClr (rd rs1 : BitVec 5) : Statement (.hskFewClr rd rs1) := fun _ _ _ e => by cases e

theorem hskFes (rs1 rs2 : BitVec 5) : Statement (.hskFes rs1 rs2) := fun _ _ _ e => by cases e

theorem hskMbr (rd rs1 : BitVec 5) : Statement (.hskMbr rd rs1) := fun _ _ _ e => by cases e

theorem hskMbw (rs1 rs2 : BitVec 5) : Statement (.hskMbw rs1 rs2) := fun _ _ _ e => by cases e

theorem hskDcc (rd : BitVec 5) : Statement (.hskDcc rd) := fun _ _ _ e => by cases e

theorem hskDccHi (rd : BitVec 5) : Statement (.hskDccHi rd) := fun _ _ _ e => by cases e

theorem brumationEntry : Statement (.brumationEntry) := fun _ _ _ e => by cases e

theorem trapEntry (r : TrapRec) : Statement (.trapEntry r) := fun _ _ _ e => by cases e

theorem asyncNoticeTaken : Statement (.asyncNoticeTaken) := fun _ _ _ e => by cases e

theorem errorDetected (who : TaskRef) (src : ErrSource) (addr : BitVec 48) (pa : Nat) : Statement (.errorDetected who src addr pa) := fun _ _ _ e => by cases e

theorem boltReplay : Statement (.boltReplay) := fun _ _ _ e => by cases e

theorem sealComplete : Statement (.sealComplete) := fun _ _ _ e => by cases e

theorem sealWatchdog : Statement (.sealWatchdog) := fun _ _ _ e => by cases e

theorem loadWaitServed : Statement (.loadWaitServed) := fun _ _ _ e => by cases e

theorem fullEmptyWatchdog : Statement (.fullEmptyWatchdog) := fun _ _ _ e => by cases e

theorem streamWaitServed : Statement (.streamWaitServed) := fun _ _ _ e => by cases e

theorem streamWatchdog : Statement (.streamWatchdog) := fun _ _ _ e => by cases e

theorem deqWaitServed : Statement (.deqWaitServed) := fun _ _ _ e => by cases e

theorem mailboxWatchdog : Statement (.mailboxWatchdog) := fun _ _ _ e => by cases e

theorem preemptionRequest (l : Nat) : Statement (.preemptionRequest l) := fun _ _ _ e => by cases e

theorem preemption : Statement (.preemption) := fun _ _ _ e => by cases e

theorem taskResume (i : Nat) : Statement (.taskResume i) := fun _ _ _ e => by cases e

theorem taskStart (l : Nat) : Statement (.taskStart l) := fun _ _ _ e => by cases e

theorem taskEndComplete : Statement (.taskEndComplete) := fun _ _ _ e => by cases e

theorem tickBudgetExpiry : Statement (.tickBudgetExpiry) := fun _ _ _ e => by cases e

theorem tileCommandStart (l : Nat) (u : EngUnit) : Statement (.tileCommandStart l u) := fun _ _ _ e => by cases e

theorem stampedCommandStart (l : Nat) : Statement (.stampedCommandStart l) := fun _ _ _ e => by cases e

theorem tileCommandComplete (l : Nat) (u : EngUnit) : Statement (.tileCommandComplete l u) := fun _ _ _ e => by cases e

theorem operandWatchdog (l part : Nat) : Statement (.operandWatchdog l part) := fun _ _ _ e => by cases e

theorem commandMigration (l part : Nat) : Statement (.commandMigration l part) := fun _ _ _ e => by cases e

theorem migratedPartialAdd (l : Nat) : Statement (.migratedPartialAdd l) := fun _ _ _ e => by cases e

theorem undeclaredBurst (l : Nat) : Statement (.undeclaredBurst l) := fun _ _ _ e => by cases e

theorem regulatorPreposition (who : TaskRef) : Statement (.regulatorPreposition who) := fun _ _ _ e => by cases e

theorem phaseOnset (who : TaskRef) : Statement (.phaseOnset who) := fun _ _ _ e => by cases e

theorem phaseRampStep (who : TaskRef) : Statement (.phaseRampStep who) := fun _ _ _ e => by cases e

theorem phaseEnd (who : TaskRef) : Statement (.phaseEnd who) := fun _ _ _ e => by cases e

theorem retentionEntry (l : Nat) : Statement (.retentionEntry l) := fun _ _ _ e => by cases e

theorem retentionExit (l : Nat) : Statement (.retentionExit l) := fun _ _ _ e => by cases e

theorem skidderChunkMove (l : Nat) : Statement (.skidderChunkMove l) := fun _ _ _ e => by cases e

theorem skidderCommandComplete (l : Nat) : Statement (.skidderCommandComplete l) := fun _ _ _ e => by cases e

theorem sourceWatchdog (l : Nat) : Statement (.sourceWatchdog l) := fun _ _ _ e => by cases e

theorem chainDescriptorWalk (d ch : Nat) : Statement (.chainDescriptorWalk d ch) := fun _ _ _ e => by cases e

theorem barrierComplete (stand : Nat) : Statement (.barrierComplete stand) := fun _ _ _ e => by cases e

theorem standWatchdog : Statement (.standWatchdog) := fun _ _ _ e => by cases e

theorem collectiveComplete (stand : Nat) : Statement (.collectiveComplete stand) := fun _ _ _ e => by cases e

theorem padGaugeFire (c i : Nat) : Statement (.padGaugeFire c i) := fun _ _ _ e => by cases e

theorem controllerGaugeFire (d i : Nat) : Statement (.controllerGaugeFire d i) := fun _ _ _ e => by cases e

theorem shedding (c k : Nat) : Statement (.shedding c k) := fun _ _ _ e => by cases e

theorem timeShareSwitch (c k : Nat) : Statement (.timeShareSwitch c k) := fun _ _ _ e => by cases e

theorem decisionTickApply : Statement (.decisionTickApply) := fun _ _ _ e => by cases e

theorem eventRingInterrupt (fn : Nat) : Statement (.eventRingInterrupt fn) := fun _ _ _ e => by cases e

theorem candidateAgingBlock (l : Nat) : Statement (.candidateAgingBlock l) := fun _ _ _ e => by cases e

theorem rmwService (line : Nat) : Statement (.rmwService line) := fun _ _ _ e => by cases e

theorem translationWalk (c fn : Nat) (va : BitVec 48) (wr : Bool) : Statement (.translationWalk c fn va wr) := fun _ _ _ e => by cases e

theorem pxferRelease (plot : Nat) : Statement (.pxferRelease plot) := fun _ _ _ e => by cases e

theorem plsetComplete : Statement (.plsetComplete) := fun _ _ _ e => by cases e

theorem tinvComplete : Statement (.tinvComplete) := fun _ _ _ e => by cases e

theorem memoryScrub (line : Nat) (r : ScrubResult) : Statement (.memoryScrub line r) := fun _ _ _ e => by cases e

theorem budgetInterval : Statement (.budgetInterval) := fun _ _ _ e => by cases e

theorem dieLinkFlitReceive (g lane : Nat) (crcOk : Bool) : Statement (.dieLinkFlitReceive g lane crcOk) := fun _ _ _ e => by cases e

theorem laneSplice (k : LinkRef) : Statement (.laneSplice k) := fun _ _ _ e => by cases e

theorem spliceRetrainEnd (k : LinkRef) : Statement (.spliceRetrainEnd k) := fun _ _ _ e => by cases e

theorem dieComputeFailure (d : Nat) (cause : BitVec 4) : Statement (.dieComputeFailure d cause) := fun _ _ _ e => by cases e

theorem shoreLoss (d : Nat) : Statement (.shoreLoss d) := fun _ _ _ e => by cases e

theorem railCurrentSample (r : Nat) (amps : BitVec 10) (cap : BitVec 3) : Statement (.railCurrentSample r amps cap) := fun _ _ _ e => by cases e

theorem railRampStep (r : Nat) : Statement (.railRampStep r) := fun _ _ _ e => by cases e

theorem meltUpdate (reading : BitVec 16) : Statement (.meltUpdate reading) := fun _ _ _ e => by cases e

theorem leaseExpiry (who : TaskRef) : Statement (.leaseExpiry who) := fun _ _ _ e => by cases e

theorem leaseEndNotice (who : TaskRef) : Statement (.leaseEndNotice who) := fun _ _ _ e => by cases e

theorem growthRingUpdate (r : GrowthReg) (metric rate : Int) : Statement (.growthRingUpdate r metric rate) := fun _ _ _ e => by cases e

theorem bankMeasure (ok : Bool) : Statement (.bankMeasure ok) := fun _ _ _ e => by cases e

theorem inputPowerLoss : Statement (.inputPowerLoss) := fun _ _ _ e => by cases e

theorem checkpointEnd (ok : Bool) : Statement (.checkpointEnd ok) := fun _ _ _ e => by cases e

theorem powerOnReset : Statement (.powerOnReset) := fun _ _ _ e => by cases e

theorem bootStage (ok : Bool) : Statement (.bootStage ok) := fun _ _ _ e => by cases e

theorem deviceReset : Statement (.deviceReset) := fun _ _ _ e => by cases e

theorem portFlitReceive (k : Nat) (flit : List Byte) : Statement (.portFlitReceive k flit) := fun _ _ _ e => by cases e

theorem flitResendTimeout (k : Nat) : Statement (.flitResendTimeout k) := fun _ _ _ e => by cases e

theorem hostBar2Read (fn : Nat) (o : BitVec 38) (n : Nat) : Statement (.hostBar2Read fn o n) := fun _ _ _ e => by cases e

theorem hostBar2Write (fn : Nat) (o : BitVec 38) (bytes : List Byte) : Statement (.hostBar2Write fn o bytes) := fun _ _ _ e => by cases e

theorem hostApertureCompletion (who : TaskRef) (pa : Nat) (r : HostReply) : Statement (.hostApertureCompletion who pa r) := fun _ _ _ e => by cases e

theorem badRegisterAccess (fn : Nat) : Statement (.badRegisterAccess fn) := fun _ _ _ e => by cases e

theorem qheadWrite (fn q : Nat) (v : BitVec 64) : Statement (.qheadWrite fn q v) := fun _ _ _ e => by cases e

theorem qcfgEnSet (fn q : Nat) (v : BitVec 64) : Statement (.qcfgEnSet fn q v) := fun _ _ _ e => by cases e

theorem qstatThaw (fn q : Nat) : Statement (.qstatThaw fn q) := fun _ _ _ e => by cases e

theorem errdWrite (fn : Nat) (v : BitVec 64) : Statement (.errdWrite fn v) := fun _ _ _ e => by cases e

theorem erbaseWrite (fn : Nat) (v : BitVec 64) : Statement (.erbaseWrite fn v) := fun _ _ _ e => by cases e

theorem ercfgWrite (fn : Nat) (v : BitVec 64) : Statement (.ercfgWrite fn v) := fun _ _ _ e => by cases e

theorem npayWrite (fn : Nat) (v : BitVec 64) : Statement (.npayWrite fn v) := fun _ _ _ e => by cases e

theorem plsetWrite (v : BitVec 64) : Statement (.plsetWrite v) := fun _ _ _ e => by cases e

theorem adplotEnable (v : BitVec 64) : Statement (.adplotEnable v) := fun _ _ _ e => by cases e

theorem adplotDisable (v : BitVec 64) : Statement (.adplotDisable v) := fun _ _ _ e => by cases e

theorem tinvPage (fn : BitVec 4) (vpn : BitVec 32) : Statement (.tinvPage fn vpn) := fun _ _ _ e => by cases e

theorem tinvFunction (fn : BitVec 4) : Statement (.tinvFunction fn) := fun _ _ _ e => by cases e

theorem tinvAll : Statement (.tinvAll) := fun _ _ _ e => by cases e

theorem gcmdWrite (v : BitVec 64) : Statement (.gcmdWrite v) := fun _ _ _ e => by cases e

theorem hlprstWrite (v : BitVec 64) : Statement (.hlprstWrite v) := fun _ _ _ e => by cases e

theorem ldctlLoad (fn : Nat) : Statement (.ldctlLoad fn) := fun _ _ _ e => by cases e

theorem ldctlUnload (fn : Nat) : Statement (.ldctlUnload fn) := fun _ _ _ e => by cases e

theorem codeLoadEnd (fn : Nat) : Statement (.codeLoadEnd fn) := fun _ _ _ e => by cases e

theorem atctlGo (fn : Nat) : Statement (.atctlGo fn) := fun _ _ _ e => by cases e

theorem attestationEnd (fn : Nat) : Statement (.attestationEnd fn) := fun _ _ _ e => by cases e

theorem ckctlSave (v : BitVec 64) : Statement (.ckctlSave v) := fun _ _ _ e => by cases e

theorem ckctlRestore (v : BitVec 64) : Statement (.ckctlRestore v) := fun _ _ _ e => by cases e

theorem hstatSpenWrite (v : BitVec 64) : Statement (.hstatSpenWrite v) := fun _ _ _ e => by cases e

theorem registerWrite (fn : Nat) (r : WinReg) (v : BitVec 64) : Statement (.registerWrite fn r v) := fun _ _ _ e => by cases e

theorem emptyBundle (sp : Bool) : Statement (.emptyBundle sp) := fun _ _ _ e => by cases e

theorem helperRiscvInstruction (w : BitVec 32) : Statement (.helperRiscvInstruction w) := fun _ _ _ e => by cases e

theorem managementNotice (q slot tile : Nat) (payload : BitVec 32) : Statement (.managementNotice q slot tile payload) := fun _ _ _ e => by cases e

theorem bankRunsOut : Statement (.bankRunsOut) := fun _ _ _ e => by cases e

theorem hskSeal : Statement (.hskSeal) := fun _ _ _ e => by cases e

theorem helperSealRelease : Statement (.helperSealRelease) := fun _ _ _ e => by cases e

theorem helperWatchdog : Statement (.helperWatchdog) := fun _ _ _ e => by cases e

theorem helperBoltReplay : Statement (.helperBoltReplay) := fun _ _ _ e => by cases e

theorem tapBypass : Statement (.tapBypass) := fun _ _ _ e => by cases e

theorem tapIdcode : Statement (.tapIdcode) := fun _ _ _ e => by cases e

theorem tapExtest : Statement (.tapExtest) := fun _ _ _ e => by cases e

theorem tapSamplePreload : Statement (.tapSamplePreload) := fun _ _ _ e => by cases e

theorem braddr : Statement (.braddr) := fun _ _ _ e => by cases e

theorem brdata : Statement (.brdata) := fun _ _ _ e => by cases e

theorem brstat : Statement (.brstat) := fun _ _ _ e => by cases e

theorem thaw : Statement (.thaw) := fun _ _ _ e => by cases e

end Sys2Proof.Laws.Slots
end

