-- ==== Sys2Proof/Tests/Slice0.lean ====
section
/-! SUPPORT. Tests of the model: ill-formed instructions that each check refuses, words written out from the encodings of
spec/, and worked examples of spec/, each with the rule its result comes from. -/

namespace Sys2Proof.Tests

set_option Elab.async false

open Sys2Proof.Machine

/-! ### States of a test -/

/-- A task on partition 0 of core 0 with every register, tile and nest slot in reach. -/
def testTask : Task :=
  { Task.reset with
    id := { TaskId.reset with live := true, vgran := 32, nbind := 255, abind := 15, clim := 65536, dsize := 8192 } }

/-- The device with that task, after a change of the task. -/
def onTest (change : Task → Task) : State := { State.reset with task := change testTask }

/-- The task with general registers. -/
def withG (g : List (Nat × W64)) : State := onTest fun t => { t with regs := { t.regs with g } }

/-- The task with vector registers, each a pattern of `w`-bit lanes. -/
def withV (w : Nat) (v : List (Nat × List (Nat × Nat))) : State := onTest fun t =>
  { t with regs := { t.regs with v := v.map fun x =>
      (x.1, BitVec.ofNat 2048 ((x.2.map fun y => y.2 * 2 ^ (w * y.1)).foldl (· + ·) 0)) } }

/-- The state after an instruction; reset where it answers none. -/
def after (i : Instr) (s : State) : State := match exec i s with | .next t => t | _ => State.reset

/-- A slot with type, destination and two sources. -/
def slot3 (t : BitVec 5) (d a b : BitVec 9) : Slot := { Slot.zero with t, d, a, b }

/-- An outcome is a next state of which a condition holds. -/
def answers (o : Host.Outcome State Fault Refusal) (c : State → Bool) : Bool := match o with | .next t => c t | _ => false

/-- A computation answers something of which a condition holds. -/
def gives {ε α : Type} (x : Except ε α) (c : α → Bool) : Bool := match x with | .ok a => c a | .error _ => false

/-- A computation answers an error. -/
def errs {ε α : Type} (x : Except ε α) : Bool := match x with | .ok _ => false | .error _ => true

/-- The operation has no issue-time defect, is not suppressed and is well formed. -/
def goesAt (s : State) (i : Instr) (f : Slot) : Bool := (s.issueDefect i).isNone && s.executes f && i.wf

/-- A seal can complete at once. -/
def sealableAt (s : State) : Bool := s.sealFault.isNone && s.sealReady

/-- A trap would enter the handler. -/
def mayTrapAt (s : State) : Bool := s.task.bolt.charged.isNone && !s.task.bolt.handler

/-- A slot with immediate operand. -/
def slotI (t : BitVec 5) (d a : BitVec 9) (imm : BitVec 32) : Slot := { Slot.zero with t, d, a, qual := 1, imm }

/-! ### Ill-formed instructions, one for each check (R74 to R77, R83; R390) -/

theorem test_refuses_type : slotDefect (.add (slot3 0 5 1 2)) 0 = some (.reservedType 0) := by decide
theorem test_refuses_source_type :
    slotDefect (.vcvt { Slot.zero with t := 9, qual := 31 }) 0 = some (.reservedType 31) := by decide
theorem test_refuses_lat : slotDefect (.nop { Slot.zero with lat := 1 }) 0 = some (.malformedField .lat) := by decide
theorem test_refuses_rnd : slotDefect (.add { slot3 1 5 1 2 with rnd := 1 }) 0 = some (.malformedField .rnd) := by decide
theorem test_refuses_sat : slotDefect (.and { slot3 1 5 1 2 with sat := 1 }) 0 = some (.malformedField .sat) := by decide
theorem test_refuses_d : slotDefect (.add (slot3 1 64 1 2)) 0 = some (.malformedField .d) := by decide
theorem test_refuses_a : slotDefect (.add (slot3 1 5 64 2)) 0 = some (.malformedField .a) := by decide
theorem test_refuses_b : slotDefect (.clz (slot3 1 5 1 2)) 0 = some (.malformedField .b) := by decide
theorem test_refuses_c : slotDefect (.add { slot3 1 5 1 2 with c := 3 }) 0 = some (.malformedField .c) := by decide
theorem test_refuses_psel : slotDefect (.add { slot3 1 5 1 2 with psel := 1 }) 1 = some (.malformedField .psel) := by decide
theorem test_refuses_msel : slotDefect (.add { slot3 1 5 1 2 with msel := 1 }) 0 = some (.malformedField .msel) := by decide
theorem test_refuses_qual : slotDefect (.add { slot3 1 5 1 2 with qual := 2 }) 0 = some (.malformedField .qual) := by decide
theorem test_refuses_imm : slotDefect (.add { slot3 1 5 1 2 with imm := 1 }) 0 = some (.malformedField .imm) := by decide

theorem test_not_wf : ([.add (slot3 0 5 1 2), .taskStart 192, .preemptionRequest 192, .operandWatchdog 0 16,
    .chainDescriptorWalk 0 16, .padGaugeFire 16 0, .controllerGaugeFire 0 256, .shedding 0 13, .timeShareSwitch 16 0,
    .translationWalk 0 16 0 0, .pxferRelease 262144, .dieLinkFlitReceive 16 0 true, .laneSplice (.port 8), .shoreLoss 2,
    .railRampStep 4, .portFlitReceive 0 [], .flitResendTimeout 8, .qheadWrite 0 64 0, .ldctlLoad 16,
    .registerWrite 0 (.qbase 64) 0, .registerWrite 16 .schage 0, .growthRingUpdate (.link 24) 0 0,
    .managementNotice 0 16384 0 0, .phaseEnd ⟨0, 16⟩] : List Instr).all (fun i => !i.wf) = true := by decide
theorem test_wf : ([.add (slot3 1 5 1 2), .taskStart 191, .operandWatchdog 0 15, .chainDescriptorWalk 1 15, .padGaugeFire 15 31,
    .controllerGaugeFire 1 255, .shedding 15 12, .laneSplice (.port 7), .qheadWrite 0 63 0, .registerWrite 0 .schage 0,
    .growthRingUpdate (.mem 63) 0 0, .phaseEnd ⟨191, 15⟩] : List Instr).all (·.wf) = true := by decide

/-! ### Words of every operation -/

/-- One word of each operation of class 0b000 (R81, R96 to R104), laid out by R73 and R76. -/
theorem decodes_scalar : ([
    (0x00000005008080010000000000000000, .add { Slot.zero with lat := 0, pnum := 0, d := 5, a := 1, b := 2, t := 1 }),
    (0x00440205010080020000000000000000, .sub { Slot.zero with lat := 1, pnum := 1, d := 5, a := 2, b := 2, t := 2 }),
    (0x00880405018080030000000000000000, .mul { Slot.zero with lat := 2, pnum := 2, d := 5, a := 3, b := 2, t := 3 }),
    (0x00CC0605020080040000000000000000, .mulh { Slot.zero with lat := 3, pnum := 3, d := 5, a := 4, b := 2, t := 4 }),
    (0x01100805028080050000000000000000, .div { Slot.zero with lat := 4, pnum := 4, d := 5, a := 5, b := 2, t := 5 }),
    (0x01540A05030080060000000000000000, .rem { Slot.zero with lat := 5, pnum := 5, d := 5, a := 6, b := 2, t := 6 }),
    (0x02180C05038080070000000000000000, .and { Slot.zero with lat := 6, pnum := 6, d := 5, a := 7, b := 2, t := 7 }),
    (0x025C0E05040080080000000000000000, .or { Slot.zero with lat := 7, pnum := 7, d := 5, a := 8, b := 2, t := 8 }),
    (0x02A01005048080010000000000000000, .xor { Slot.zero with lat := 8, pnum := 8, d := 5, a := 9, b := 2, t := 1 }),
    (0x02E41205050080020000000000000000, .andn { Slot.zero with lat := 9, pnum := 9, d := 5, a := 10, b := 2, t := 2 }),
    (0x04281405058080030000000000000000, .shl { Slot.zero with lat := 10, pnum := 10, d := 5, a := 11, b := 2, t := 3 }),
    (0x046C1605060080040000000000000000, .shr { Slot.zero with lat := 11, pnum := 11, d := 5, a := 12, b := 2, t := 4 }),
    (0x04B01805068080050000000000000000, .sra { Slot.zero with lat := 12, pnum := 12, d := 5, a := 13, b := 2, t := 5 }),
    (0x04F41A05070080060000000000000000, .rol { Slot.zero with lat := 13, pnum := 13, d := 5, a := 14, b := 2, t := 6 }),
    (0x06381C05078080070000000000000000, .min { Slot.zero with lat := 14, pnum := 14, d := 5, a := 15, b := 2, t := 7 }),
    (0x067C1E05080080080000000000000000, .max { Slot.zero with lat := 15, pnum := 15, d := 5, a := 16, b := 2, t := 8 }),
    (0x06800003008000040000000BFFFFFFFF, .cmp { Slot.zero with d := 3, a := 1, t := 4, qual := 11, imm := 0xffffffff }),
    (0x06C00005008080600000000000000000, .sel { Slot.zero with d := 5, a := 1, b := 2, c := 3 }),
    (0x08040005000000000000000012345678, .li { Slot.zero with lat := 1, d := 5, imm := 0x12345678 }),
    (0x08000005028000000000000289ABCDEF, .liHi { Slot.zero with d := 5, a := 5, qual := 2, imm := 0x89abcdef }),
    (0x08400005008000070000000000000000, .clz { Slot.zero with d := 5, a := 1, t := 7 }),
    (0x08800005008000080000000000000000, .popc { Slot.zero with d := 5, a := 1, t := 8 }),
    (0x08C00005008000040000000000000704, .bfx { Slot.zero with d := 5, a := 1, t := 4, imm := 0x704 }),
    (0x09000005008080000000000000000704, .bfi { Slot.zero with d := 5, a := 1, b := 2, imm := 0x704 }),
    (0x0A000003008080000000000000000008, .plog { Slot.zero with d := 3, a := 1, b := 2, imm := 8 })
    ] : List (Nat × Instr)).all (fun (w, i) => decodeTableWord 128 w == some i) = true := by decide +kernel

/-- One word of each operation of class 0b001 (R81, R105 to R118, R127), laid out by R73 and R76. -/
theorem decodes_control : ([
    (0x200024000000000000000001FFFFFFF6, .br { Slot.zero with pn := 1, pnum := 2, qual := 1, imm := 0xfffffff6 }),
    (0x20400005038000000000000000000000, .call { Slot.zero with d := 5, a := 7 }),
    (0x20800000028000000000000000000000, .ret { Slot.zero with a := 5 }),
    (0x22000000000000000000000300000004, .rep { Slot.zero with qual := 3, imm := 4 }),
    (0x22400000018000000000000000000001, .loopb { Slot.zero with a := 3, imm := 1 }),
    (0x22800000000000000000000000000000, .endTask Slot.zero),
    (0x2400000000000000000000000000ABCD, .trap { Slot.zero with imm := 0xabcd }),
    (0x24400000000000000000000000000000, .eret Slot.zero),
    (0x26040005000000000000000000000030, .srd { Slot.zero with lat := 1, d := 5, imm := 0x30 }),
    (0x26400000028000000000000000000010, .swr { Slot.zero with a := 5, imm := 16 }),
    (0x26800000000000000000005600000000, .fence { Slot.zero with qual := 0x56 }),
    (0x26C00000000000000000000000000000, .nop Slot.zero),
    (0x28000005008000000000000000000000, .rand { Slot.zero with d := 5, a := 1 }),
    (0x2A000003000000000000000000000002, .grow { Slot.zero with d := 3, imm := 2 }),
    (0x2A400000000000000000000000000002, .shrink { Slot.zero with imm := 2 }),
    (0x2C000000000000000000000000000000, .sealBolt Slot.zero)
    ] : List (Nat × Instr)).all (fun (w, i) => decodeTableWord 128 w == some i) = true := by decide +kernel

/-- One word of each operation of class 0b010 (R81, R119, R157), laid out by R73 and R76. -/
theorem decodes_memory : ([
    (0x40100005008000070000003200000010, .ld { Slot.zero with lat := 4, d := 5, a := 1, t := 7, qual := 0x32, imm := 16 }),
    (0x40400000008080030000000000000008, .st { Slot.zero with a := 1, b := 2, t := 3, imm := 8 }),
    (0x42000003008080880000002600000000, .cas { Slot.zero with d := 3, a := 1, b := 2, c := 4, t := 8, qual := 0x26 }),
    (0x42400005008080070000022600000000, .amo { Slot.zero with d := 5, a := 1, b := 2, t := 7, qual := 0x226 }),
    (0x44000008008000090000000000000100, .vld { Slot.zero with d := 8, a := 1, t := 9, imm := 0x100 }),
    (0x44400000008200090000000000000000, .vst { Slot.zero with a := 1, b := 8, t := 9 }),
    (0x44800008008240070C00000000000000, .vldg { Slot.zero with d := 8, a := 1, b := 9, t := 7, msel := 3 }),
    (0x44C00000008241070000000000000000, .vsts { Slot.zero with a := 1, b := 9, c := 8, t := 7 }),
    (0x45000008008000070000000000000000, .vldb { Slot.zero with d := 8, a := 1, t := 7 })
    ] : List (Nat × Instr)).all (fun (w, i) => decodeTableWord 128 w == some i) = true := by decide +kernel

/-- One word of each operation of class 0b011 (R81, R132 to R138), laid out by R73 and R76. -/
theorem decodes_vector : ([
    (0x600C400A058300090C00000000000000, .vadd { Slot.zero with lat := 3, sat := 1, d := 10, a := 11, b := 12, t := 9, msel := 3 }),
    (0x6043000A058301A90000000000000000, .vsub { Slot.zero with rnd := 6, d := 10, a := 11, b := 12, c := 13, t := 9 }),
    (0x6083800A058301AA0000000000000000, .vmul { Slot.zero with rnd := 7, d := 10, a := 11, b := 12, c := 13, t := 10 }),
    (0x60C0000A058301A90000000000000000, .vfma { Slot.zero with d := 10, a := 11, b := 12, c := 13, t := 9 }),
    (0x6100000A058301AB0000000000000000, .vfms { Slot.zero with d := 10, a := 11, b := 12, c := 13, t := 11 }),
    (0x6200000A058300010000000000000000, .vmin { Slot.zero with d := 10, a := 11, b := 12, t := 1 }),
    (0x6240000A058300020000000000000000, .vmax { Slot.zero with d := 10, a := 11, b := 12, t := 2 }),
    (0x6280000A058000030000000000000000, .vabs { Slot.zero with d := 10, a := 11, t := 3 }),
    (0x62C0000A058000090000000000000000, .vneg { Slot.zero with d := 10, a := 11, t := 9 }),
    (0x64000004058300090000000C00000000, .vcmp { Slot.zero with d := 4, a := 11, b := 12, t := 9, qual := 12 }),
    (0x6440000A058300670000000000000000, .vsel { Slot.zero with d := 10, a := 11, b := 12, c := 3, t := 7 }),
    (0x6600000A058300070000000000000000, .vand { Slot.zero with d := 10, a := 11, b := 12, t := 7 }),
    (0x6640000A058300070000000000000000, .vor { Slot.zero with d := 10, a := 11, b := 12, t := 7 }),
    (0x6680000A058300070000000000000000, .vxor { Slot.zero with d := 10, a := 11, b := 12, t := 7 }),
    (0x6800400A058000030000000100000005, .vshl { Slot.zero with sat := 1, d := 10, a := 11, t := 3, qual := 1, imm := 5 }),
    (0x6840000A058300070000000000000000, .vshr { Slot.zero with d := 10, a := 11, b := 12, t := 7 }),
    (0x6880000A058300030000000000000000, .vsra { Slot.zero with d := 10, a := 11, b := 12, t := 3 })
    ] : List (Nat × Instr)).all (fun (w, i) => decodeTableWord 128 w == some i) = true := by decide +kernel

/-- One word of each operation of class 0b100 (R81, R139 to R156), laid out by R73 and R76. -/
theorem decodes_lanes : ([
    (0x8000000A0580000B0000002900000000, .vcvt { Slot.zero with d := 10, a := 11, t := 11, qual := 0x29 }),
    (0x8040000A0583000E0000002900000004, .vpack4 { Slot.zero with d := 10, a := 11, b := 12, t := 14, qual := 0x29, imm := 4 }),
    (0x8080000A0580000F0000000900000004, .vbsc { Slot.zero with d := 10, a := 11, t := 15, qual := 9, imm := 4 }),
    (0x8200000A058000090000000000000000, .vrcp { Slot.zero with d := 10, a := 11, t := 9 }),
    (0x8240000A058000090000000000000000, .vrsq { Slot.zero with d := 10, a := 11, t := 9 }),
    (0x8280000A058000090000000100000000, .vsqrt { Slot.zero with d := 10, a := 11, t := 9, qual := 1 }),
    (0x82C0000A058000090000000000000000, .vexp2 { Slot.zero with d := 10, a := 11, t := 9 }),
    (0x8300000A058000090000000000000000, .vlog2 { Slot.zero with d := 10, a := 11, t := 9 }),
    (0x8400000A058000490000000000000000, .vred { Slot.zero with d := 10, a := 11, c := 2, t := 9 }),
    (0x8440000A058000430000001400000000, .vscan { Slot.zero with d := 10, a := 11, c := 2, t := 3, qual := 20 }),
    (0x8600000A058300070000000000000000, .vperm { Slot.zero with d := 10, a := 11, b := 12, t := 7 }),
    (0x8640000A028000070000000000000000, .vbcast { Slot.zero with d := 10, a := 5, t := 7 }),
    (0x8640000A05800007000000010000003F, .vbcastLane { Slot.zero with d := 10, a := 11, t := 7, qual := 1, imm := 0x3f }),
    (0x8680000505800007000000000000003F, .vext { Slot.zero with d := 5, a := 11, t := 7, imm := 0x3f }),
    (0x86C0000A000000030000000000000007, .viota { Slot.zero with d := 10, t := 3, imm := 7 }),
    (0x86C0000A000000430000000100000000, .viotaCnt { Slot.zero with d := 10, c := 2, t := 3, qual := 1 }),
    (0x87000005010000090000000000000000, .klog { Slot.zero with d := 5, a := 2, t := 9 }),
    (0x88000000058000070000000000000006, .spush { Slot.zero with a := 11, t := 7, imm := 6 }),
    (0x8840000A000000070000000000000006, .spop { Slot.zero with d := 10, t := 7, imm := 6 }),
    (0x88800005000000070000000000000006, .scnt { Slot.zero with d := 5, t := 7, imm := 6 })
    ] : List (Nat × Instr)).all (fun (w, i) => decodeTableWord 128 w == some i) = true := by decide +kernel

/-- One word of each operation of class 0b101 (R81, R202 to R228, R256), laid out by R73 and R76. -/
theorem decodes_matrix : ([
    (0xA00000000301C0000000000000000000, .fpush { Slot.zero with a := 6, b := 7 }),
    (0xA0400000020140C00002010100101000, .plane { Slot.zero with a := 4, b := 5, c := 6, qual := 0x20101, imm := 0x101000 }),
    (0xA2000001020140000002008100000000, .mma { Slot.zero with d := 1, a := 4, b := 5, qual := 0x20081 }),
    (0xA2400002020140600000040000000000, .mmag { Slot.zero with d := 2, a := 4, b := 5, c := 3, qual := 0x400 }),
    (0xA2800003000000000004000000000000, .mclr { Slot.zero with d := 3, qual := 0x40000 }),
    (0xA2C00001020000100000000000000000, .mlda { Slot.zero with d := 1, a := 4, t := 16 }),
    (0xA4080008008000090000000000000040, .mrd { Slot.zero with lat := 2, d := 8, a := 1, t := 9, imm := 0x40 }),
    (0xA4400000008100100000000000007F00, .mst { Slot.zero with a := 1, b := 4, t := 16, imm := 0x7f00 }),
    (0xA4800005000000000000000300000000, .mstat { Slot.zero with d := 5, qual := 3 }),
    (0xA6000000028000000000000000000000, .phase { Slot.zero with a := 5 }),
    (0xA8000000028000600000000000000000, .nset { Slot.zero with a := 5, c := 3 }),
    (0xA8000000000000600000000100000000, .nsetRst { Slot.zero with c := 3, qual := 1 }),
    (0xA8000000000000600000000200000000, .nsetStep { Slot.zero with c := 3, qual := 2 }),
    (0xA8000005000000600000000300000002, .nsetOff { Slot.zero with d := 5, c := 3, qual := 3, imm := 2 })
    ] : List (Nat × Instr)).all (fun (w, i) => decodeTableWord 128 w == some i) = true := by decide +kernel

/-- One word of each operation of class 0b110 (R81, R235 to R248, R279 to R286, R316 to R320, R332, R373, R376), laid out by R73 and R76. -/
theorem decodes_system : ([
    (0xC0000000048000000002000200000001, .enqMove { Slot.zero with a := 9, qual := 0x20002, imm := 1 }),
    (0xC0000000048000000000000000000003, .enqReduce { Slot.zero with a := 9, imm := 3 }),
    (0xC0000000048000000000000000000005, .enqMailbox { Slot.zero with a := 9, imm := 5 }),
    (0xC0400005000000000000000000000004, .deq { Slot.zero with d := 5, imm := 4 }),
    (0xC2000000018080800000000100000000, .skmov { Slot.zero with a := 3, b := 2, c := 4, qual := 1 }),
    (0xC2000000018080E00000000400000080, .skmovNest { Slot.zero with a := 3, b := 2, c := 7, qual := 4, imm := 0x80 }),
    (0xC2400000018080E0000200F00000007F, .skgat { Slot.zero with a := 3, b := 2, c := 7, qual := 0x200f0, imm := 0x7f }),
    (0xC2800000018080E0000200F00000007F, .sksct { Slot.zero with a := 3, b := 2, c := 7, qual := 0x200f0, imm := 0x7f }),
    (0xC2C0000001800000000000020000000F, .skchn { Slot.zero with a := 3, qual := 2, imm := 15 }),
    (0xC3000000018000000000000000000000, .skqset { Slot.zero with a := 3 }),
    (0xC3400000018080800004000000000000, .tmov { Slot.zero with a := 3, b := 2, c := 4, qual := 0x40000 }),
    (0xC4000000018080000000000000000000, .feopSet { Slot.zero with a := 3, b := 2 }),
    (0xC4000000018080000000001000000000, .feopClr { Slot.zero with a := 3, b := 2, qual := 16 }),
    (0xC4000000018080000000002000000000, .feopWait { Slot.zero with a := 3, b := 2, qual := 0x20 }),
    (0xC6000000000000000000000000000004, .zenter { Slot.zero with imm := 4 }),
    (0xC6400000000000000000000000000000, .zsync Slot.zero),
    (0xC6840004020000090000000000000000, .zred { Slot.zero with lat := 1, d := 4, a := 4, t := 9 }),
    (0xC6C00000000000000000000000000000, .zleave Slot.zero),
    (0xC7000007000000090000000000000001, .boom { Slot.zero with d := 7, t := 9, imm := 1 }),
    (0xC800000001800000000000000000003F, .launch { Slot.zero with a := 3, imm := 0x3f }),
    (0xC8400000018100000000000000000305, .spec { Slot.zero with a := 3, b := 4, imm := 0x305 }),
    (0xC8800000018000000000000000000300, .decide { Slot.zero with a := 3, imm := 0x300 }),
    (0xC8C0000001800000000000000000BEEF, .evpost { Slot.zero with a := 3, imm := 0xbeef }),
    (0xC9000000018000000000000000008101, .cord { Slot.zero with a := 3, imm := 0x8101 }),
    (0xCA000000018100000000000000000000, .pxfer { Slot.zero with a := 3, b := 4 }),
    (0xCA400005018000000000000000000000, .pquery { Slot.zero with d := 5, a := 3 }),
    (0xCC080005020000000000000000000003, .lease { Slot.zero with lat := 2, d := 5, a := 4, imm := 3 }),
    (0xCC400000000000000000000000000000, .lrel Slot.zero),
    (0xCC800000018000000000000000000003, .opreq { Slot.zero with a := 3, imm := 3 })
    ] : List (Nat × Instr)).all (fun (w, i) => decodeTableWord 128 w == some i) = true := by decide +kernel
/-- R263: one word of each Xhsk operation; the first and the last are the examples of the rule. -/
theorem decodes_xhsk : ([
    (0x00C5850B, .hskEnq 10 11 12), (0x0005950B, .hskDeq 10 11), (0x0005A50B, .hskFew 10 11), (0x0205A50B, .hskFewClr 10 11),
    (0x00C5B00B, .hskFes 11 12), (0x0005C50B, .hskMbr 10 11), (0x00C5D00B, .hskMbw 11 12), (0x0000650B, .hskDcc 10),
    (0x0200650B, .hskDccHi 10), (0x0400600B, .hskSeal), (0x00B50533, .helperRiscvInstruction 0x00B50533),
    (0x0000700B, .helperRiscvInstruction 0x0000700B)] : List (Nat × Instr)).all
    (fun (w, i) => decodeTableWord 32 w == some i) = true := by decide +kernel

/-- R380: the codes of the test port. -/
theorem decodes_test_port : ([(0xFF, .tapBypass), (0x02, .tapIdcode), (0x00, .tapExtest), (0x01, .tapSamplePreload), (0x40, .braddr),
    (0x41, .brdata), (0x42, .brstat), (0x43, .thaw), (0x7E, .tapBypass)] : List (Nat × Instr)).all
    (fun (w, i) => decodeTableWord 8 w == some i) = true := by decide

/-- R70, R79: a bundle without an operation, its SP bit set. -/
theorem decodes_empty_bundle : decodeTableWord 384 (2 ^ 383) = some (.emptyBundle true) := by decide +kernel

/-- R80, R83: a reserved opcode, an opcode in the wrong slot, a header bit out of place. -/
theorem test_refused_words : decodeTableWord 128 (0x380 * 2 ^ 118) = none ∧
    decodeSlot true 0 (BitVec.ofNat 128 (0x080 * 2 ^ 118)) ≠ .ok (.br Slot.zero) ∧
    decodeBundle (BitVec.ofNat 384 (2 ^ 368)) = .error .malformedHeader := by decide +kernel

/-! ### Scalar operations: the results that R98, R99 and R116 write out -/

/-- Patterns, operation, operands and result. -/
theorem test_integer_results : ([
    (.add { slot3 1 3 1 2 with sat := 0 }, 127, 1, 0xFFFFFFFFFFFFFF80), (.add { slot3 1 3 1 2 with sat := 1 }, 127, 1, 0x7F),
    (.sub { slot3 6 3 1 2 with sat := 0 }, 3, 5, 0xFFFE), (.sub { slot3 6 3 1 2 with sat := 1 }, 3, 5, 0),
    (.div (slot3 3 3 1 2), 0xFFFFFFF9, 2, 0xFFFFFFFFFFFFFFFD), (.rem (slot3 3 3 1 2), 0xFFFFFFF9, 2, 0xFFFFFFFFFFFFFFFF),
    (.div (slot3 3 3 1 2), 0x80000000, 0xFFFFFFFF, 0xFFFFFFFF80000000), (.div (slot3 7 3 1 2), 5, 0, 0xFFFFFFFF),
    (.mulh (slot3 8 3 1 2), 0x8000000000000000, 4, 2), (.mulh (slot3 4 3 1 2), 0x8000000000000000, 4, 0xFFFFFFFFFFFFFFFE),
    (.shl { slot3 1 3 1 2 with sat := 1 }, 0x40, 1, 0x7F), (.sra (slot3 5 3 1 2), 0x80, 1, 0xC0),
    (.mul { slot3 1 3 1 2 with sat := 1 }, 0x40, 0x40, 0x7F), (.and (slot3 8 3 1 2), 0xFF0F, 0x0FF0, 0x0F00),
    (.or (slot3 8 3 1 2), 0xF000, 0x000F, 0xF00F), (.xor (slot3 8 3 1 2), 0xFF, 0x0F, 0xF0), (.andn (slot3 8 3 1 2), 0xFF, 0x0F, 0xF0),
    (.shr (slot3 5 3 1 2), 0x80, 1, 0x40), (.rol (slot3 5 3 1 2), 0x81, 1, 0x03), (.min (slot3 1 3 1 2), 0x80, 1, 0xFFFFFFFFFFFFFF80),
    (.max (slot3 5 3 1 2), 0x80, 1, 0x80)] : List (Instr × W64 × W64 × W64)).all
    (fun (i, a, b, r) => (after i (withG [(1, a), (2, b)])).finalG 3 == r) = true := by decide +kernel

theorem test_clz : (after (.clz { Slot.zero with t := 7, d := 3, a := 1 }) (withG [(1, 0x100)])).finalG 3 = 0x17 := by decide +kernel
theorem test_popc : (after (.popc { Slot.zero with t := 5, d := 3, a := 1 }) (withG [(1, 0x1F3)])).finalG 3 = 6 := by decide +kernel
theorem test_bfx : (after (.bfx { Slot.zero with t := 4, d := 3, a := 1, imm := 0x704 }) (withG [(1, 0xAB0)])).finalG 3 =
    0xFFFFFFFFFFFFFFAB := by decide +kernel
theorem test_bfi : (after (.bfi { Slot.zero with d := 3, a := 1, b := 2, imm := 0x710 })
    (withG [(1, 0xFFFFFFFF), (2, 0x12)])).finalG 3 = 0xFF12FFFF := by decide +kernel
theorem test_li : (after (.li { Slot.zero with d := 3, imm := 0x80000000 }) (withG [])).finalG 3 = 0xFFFFFFFF80000000 := by
  decide +kernel
theorem test_liHi : (after (.liHi { Slot.zero with d := 3, a := 1, qual := 2, imm := 7 }) (withG [(1, 9)])).finalG 3 =
    0x700000009 := by decide +kernel
theorem test_cmp : (after (.cmp { slot3 1 3 1 2 with qual := 4 }) (withG [(1, 0x80), (2, 1)])).finalP 3 = true ∧
    (after (.cmp { slot3 5 3 1 2 with qual := 4 }) (withG [(1, 0x80), (2, 1)])).finalP 3 = false := by decide +kernel
theorem test_sel : (after (.sel (slot3 0 3 1 2)) (withG [(1, 6), (2, 7)])).finalG 3 = 6 := by decide +kernel
theorem test_plog : (after (.plog { Slot.zero with d := 3, imm := 8 }) (withG [])).finalP 3 = true := by decide +kernel

/-- R116: SEED 0x1_0000_0002, CTRBASE 0 and index 1 give 0x9E37_79BD_8EF1_B1E0 after round 0; rounds 1 to 3 go on from it. -/
theorem test_rand_round :
    (1 * 0x9E3779B97F4A7C15 ^^^ ((1 * 0x9E3779B97F4A7C15) >>> 29)) + 2 = (0x9E3779BD8EF1B1E0 : W64) ∧
    (after (.rand { Slot.zero with d := 3, qual := 1, imm := 1 }) (onTest fun t =>
      { t with id := { t.id with seed := 0x100000002 } })).finalG 3 =
    randRound (randRound (randRound 0x9E3779BD8EF1B1E0 1) 2) 1 := by decide +kernel

/-! ### Vectors -/

/-- R138: v4 = 2.0, v5 = 3.0, m1 = bits 0 to 3: `vfma.f32 v6:m1, v4, v5, v5` writes 9.0 to lane 0 alone. -/
theorem test_vfma : (after (.vfma { Slot.zero with t := 9, d := 6, a := 4, b := 5, c := 5, msel := 1 }) (onTest fun t =>
    { t with regs := { t.regs with m := [(1, 15)], v := [(4, 0x4000000040000000), (5, 0x4040000040400000)] } })).finalV 6 =
    0x41100000 := by decide +kernel
/-- R142: the block scale 0.75 is 0x0E8. -/
theorem test_vbsc : (after (.vbsc { Slot.zero with t := 15, d := 9, a := 4, qual := 9 })
    (withV 32 [(4, [(3, 0xC0100000), (5, 0x40900000)])])).finalV 9 = 0xE8 := by decide +kernel
/-- R142: −2.25 / 0.75 is code 0xD, 4.5 / 0.75 is code 0x7. -/
theorem test_vpack4 : (after (.vpack4 { Slot.zero with t := 14, d := 10, a := 4, b := 9, qual := 9 })
    (withV 32 [(4, [(3, 0xC0100000), (5, 0x40900000)]), (9, [(0, 0xE8)])])).finalV 10 = 0x70D000 := by decide +kernel
/-- R146: 2^24 in lane 0 and 1.0 in lanes 1 and 33. -/
theorem test_vred : (after (.vred { Slot.zero with t := 9, d := 5, a := 4 })
    (withV 32 [(4, [(0, 0x4B800000), (1, 0x3F800000), (33, 0x3F800000)])])).finalV 5 = 0x4B800001 := by decide +kernel
/-- R151: lanes 2, 7 and 40 of f32. -/
theorem test_klog : (after (.klog { Slot.zero with t := 9, d := 9, a := 3 }) (onTest fun t =>
    { t with regs := { t.regs with m := [(3, 15 * 2 ^ 8 + 15 * 2 ^ 28 + 15 * 2 ^ 160)] } })).finalG 9 = 0x0000002800020003 := by
  decide +kernel

/-! ### Engines -/

/-- R223: planed integers 3 and 12, factor records 0x7F58 and 0x7F70, low word of the descriptor. -/
theorem test_factor_records : factorRecord false (-6) 24 = 0x7F58 ∧ factorRecord false (-5) 16 = 0x7F70 := by decide +kernel
/-- R384: 100 zeros, 07 four times, 0A 0B 00. -/
theorem test_plane_run : compressRuns [] 200 (List.replicate 100 0 ++ List.replicate 4 7 ++ [10, 11, 0]) =
    [0xFF, 0x23, 0x00, 0xC2, 0x07, 0x02, 0x0A, 0x0B, 0x00] := by decide +kernel
/-- R257: `.nest 2, 4, 64, 0, 0, 3, 1024, 256, 0` after six steps. -/
theorem test_nest_offsets :
    let n : NestSlot := ⟨2, false, [4, 3, 0, 0, 0, 0], List.replicate 6 0, [64, 0, 0, 1024, 256] ++ List.replicate 13 0⟩
    let m := n.step.step.step.step.step.step
    m.idx = [2, 1, 0, 0, 0, 0] ∧ m.offset 0 = 1152 ∧ m.offset 1 = 256 := by decide +kernel
/-- R284: five members contribute 2^24, 1, 1, 1 and 1. -/
theorem test_zred : (reduceAll [0, 9, 0, 0] ([0x4B800000, 0x3F800000, 0x3F800000, 0x3F800000, 0x3F800000].map fun x =>
    ⟨0, 0, 1, 0, 0, 0, 0, none, true, 0, [0, 9, 0, 0], [x], 0, false, 0, 0, 0, 0, 0, 0⟩)).map (·.extractLsb' 0 32) = [0x4B800002] := by
  decide +kernel
/-- R379: MELT 0x1000 and no other lease give Avail = 167,356,529,473 at level 3, so that 10,000,000,000 is granted. -/
theorem test_lease_grant : ({ State.reset with pkg := { Package.reset with melt := 0x1000 } } : State).leaseGrant 3 10000000000 =
    10000000000 ∧
    ({ State.reset with pkg := { Package.reset with melt := 0x1000 } } : State).leaseGrant 3 (2 ^ 39) = 167356529473 ∧
    ({ State.reset with
        pkg := { Package.reset with melt := 0x1000 }
        parked := [{ testTask with id := { testTask.id with part := 1 }, lease := { TaskLease.reset with lvl := 3, granted := 10000000000 } }] } : State).leaseGrant 3
      (2 ^ 39) = 157354787877 := by decide +kernel
/-- R418: the example of FIPS 180-4 for SHA-512, the message "abc". -/
theorem test_sha512 : natOfBig (sha512 [0x61, 0x62, 0x63]) =
    0xDDAF35A193617ABACC417349AE20413112E6FA4E89A97EA20A9EEEE64B55D39A2192992A274FC1A836BA3C23A3FEEBBD454D4423643CE80E2A9AC94FA54CA49F := by
  decide +kernel
/-- R418: the first test of RFC 8032 for Ed25519, the empty message. -/
theorem test_ed25519 : edVerify 0x1A5107F7681A02AF2523A6DAF372E10E3A0764C9D3FE4BD5B70AB18201985AD7 []
    (bytesOfNat 32 0x5501492265E073D874D9E5B81E7F87848A826E80CCE2869072AC60C3004356E5
      ++ bytesOfNat 32 0x0B107A8E4341516524BE5B59F0F55BD26BB4F91C70391EC6AC3BA3901582B85F) = true := by decide +kernel

end Sys2Proof.Tests
end

