-- ==== Sys2Proof/Tests/Witnesses.lean ====
section
/-! SUPPORT. For the statements of Certificates/Slice0/Obligations.lean that have hypotheses: states and operands that meet them,
clause by clause, at the ends of the ranges where they have any. -/

namespace Sys2Proof.Tests

set_option Elab.async false
set_option maxRecDepth 20000

open Sys2Proof.Machine

/-! ### Encodings and steps -/

theorem witness_EncodedWordsDecode : (Instr.add (slot3 8 63 63 63)).wf = true ∧ (encode (.add (slot3 8 63 63 63))).isSome = true ∧
    (Instr.hskSeal).wf = true ∧ (encode .hskSeal).isSome = true ∧ (Instr.thaw).wf = true ∧ (encode .thaw).isSome = true ∧
    (Instr.emptyBundle true).wf = true ∧ (encode (.emptyBundle true)).isSome = true := by decide +kernel

theorem witness_WordsAndBundlesDecode :
    gives (decodeSlot false 0 0x00000005008080040000000000000000) (fun i => i == .add (slot3 4 5 1 2)) = true ∧
    gives (decodeSlot true 0 0x00000005008080040000000000000000) (fun _ => true) = true ∧
    decodeXhsk 0x0400600B = some .hskSeal ∧
    (slotOp (BitVec.ofNat 128 (0x3FF * 2 ^ 118))).extractLsb' 7 3 = (7 : BitVec 3) ∧
    (BitVec.ofNat 384 (2 ^ 378)).extractLsb' 368 11 ≠ (0 : BitVec 11) ∧
    (BitVec.ofNat 384 (3 * 2 ^ 379)).extractLsb' 379 2 = (3 : BitVec 2) ∧
    gives (decodeBundle (bundleWord true 1 7 (some 0x00000005008080040000000000000000) none)) (fun b => b.a.isSome && b.b.isNone)
      = true := by decide +kernel

/-- The device with a slot operation placed where the next step fetches it. -/
def placed (w : Nat) : State := State.reset.withFetchWord 128 w

/-- Every condition of `State.idle`. -/
def isIdle (s : State) : Bool :=
  (s.firstInput s.inputs).isNone && s.pkg.powered && s.tap.pending.isNone && !s.tap.stopped && !s.booting
    && decide (3 ≤ s.dev.bootstage) && s.due.isNone

/-- Every condition of `State.idle` and `State.mayIssue`. -/
def issues (s : State) : Bool :=
  isIdle s && s.turn == .task && s.task.id.live
    && s.runs s.task.id.lcore && !(s.task.flow.preempt && s.task.flow.safe) && s.task.bolt.charged.isNone
    && decide (s.task.flow.holdOff ≤ s.dcc) && !s.waitsFor (· == .allotment) && !(s.task.flow.wait.any (·.blocks))

/-- A state of which a bundle is fetched and decoded, and of which a condition holds. -/
def fetches (s : State) (c : BundleWord → Bundle → State → Bool) : Bool :=
  gives (s.atPc.fetchBundle s.atPc.task.flow.pc) fun x => gives (decodeBundle x.1) fun b => c x.1 b (s.atBundle b x.2)

/-- A task whose dictionary holds a bundle. -/
def holding (w : BundleWord) : State :=
  let s := placed 0x26C00000000000000000000000000000
  s.setCore { s.myCore with dict := s.myCore.dict.map fun x => (x.1, w) }

def addWord : SlotWord := 0x00000005008080040000000000000000
def vaddWord : SlotWord := 0x600C400A058300090C00000000000000

theorem witness_StepRunsTheBundle :
    (issues (placed 0x26C00000000000000000000000000000) = true ∧
      fetches (placed 0x26C00000000000000000000000000000) (fun w b t => b.a == some (.nop Slot.zero) && b.b == none
        && (t.repDefect (.nop Slot.zero)).isNone &&
        answers (exec (steppedInstr none (w.extractLsb' 240 128) (.nop Slot.zero)) t) (·.task.flow.fate == .retired)) = true) ∧
    (issues ((placed 0).setFlow { (placed 0).task.flow with pc := 2 ^ 32 }) = true ∧
      errs ((((placed 0).setFlow { (placed 0).task.flow with pc := 2 ^ 32 }).atPc).fetchBundle (2 ^ 32)) = true) ∧
    (issues (holding (BitVec.ofNat 384 (2 ^ 368))) = true ∧
      gives ((holding (BitVec.ofNat 384 (2 ^ 368))).atPc.fetchBundle (placed 0).task.flow.pc) (fun x => errs (decodeBundle x.1)) = true) ∧
    (issues (holding (bundleWord false 0 0 none (some vaddWord))) = true ∧
      fetches (holding (bundleWord false 0 0 none (some vaddWord))) (fun _ b _ => b.a.isNone && b.b.isSome) = true) ∧
    (issues (holding (bundleWord false 0 0 (some addWord) (some vaddWord))) = true ∧
      fetches (holding (bundleWord false 0 0 (some addWord) (some vaddWord))) (fun _ b _ => b.a.isSome && b.b.isSome) = true) ∧
    (issues (holding (bundleWord true 0 0 none none)) = true ∧
      fetches (holding (bundleWord true 0 0 none none)) (fun _ b _ => b.a.isNone && b.b.isNone) = true) := by decide +kernel


def helperPlaced : State := State.reset.withFetchWord 32 0x00B50533

/-- The device after its boot with an input on the tape. -/
def tape (x : Input) : State := { State.reset with inputs := [x], dev := { DevRegs.reset with bootstage := 6 } }

/-- The next input is taken. -/
def takes (s : State) : Bool := match s.firstInput s.inputs with | some (_, rest) => rest.isEmpty | none => false

theorem witness_StepRunsOtherWork :
    (takes (tape (.event .deviceReset)) = true ∧ hostFunction .deviceReset = none ∧
      answers (exec .deviceReset { tape (.event .deviceReset) with inputs := [] }) (fun _ => true) = true) ∧
    (takes (tape (.event (.ldctlLoad 3))) = true ∧ hostFunction (.ldctlLoad 3) = some 3 ∧ DevRegs.reset.vfs < 3) ∧
    (takes (tape (.write 0 8 8 1)) = true ∧ answers (exec (State.writeStep (tape (.write 0 8 8 1)) 0 8 8 1) (tape (.write 0 8 8 1)))
      (fun _ => true) = true) ∧
    takes (tape (.read 0 8 8)) = true ∧
    ((State.reset.withFetchWord 8 0x42).inputs = [] ∧ (State.reset.withFetchWord 8 0x42).tap.pending = some 0x42) ∧
    (State.reset.firstInput State.reset.inputs = none ∧ State.reset.booting = true ∧
      answers (exec (.bootStage true) State.reset) (fun _ => true) = true) ∧
    (({ State.reset with dev := { DevRegs.reset with booterr := 2 } } : State).booting = false ∧ DevRegs.reset.bootstage < 3) ∧
    (({ tape (.config 0) with inputs := [], tap := { Tap.reset with pin := false } } : State).due = some .brumationEntry ∧
      answers (exec .brumationEntry { tape (.config 0) with inputs := [] }) (fun _ => true) = true) ∧
    (isIdle helperPlaced = true ∧ helperPlaced.turn = .helper ∧ helperPlaced.hlp.mode = .running ∧
      helperPlaced.runs helperPlaced.hlp.lcore = true ∧ helperPlaced.hlp.charged.isNone = true ∧
      helperPlaced.hFetchFault.isNone = true ∧
      answers (exec (decodeHelper helperPlaced.helperWord) helperPlaced) (fun _ => true) = true) ∧
    (({ State.reset with tap := { Tap.reset with stopped := true } } : State).inputs = [] ∧ Tap.reset.pending = none) ∧
    ({ State.reset with pkg := { Package.reset with powered := false } } : State).inputs = [] := by decide +kernel

theorem witness_StepsKeepMemoryCanonical : State.reset.mem.wf = true ∧ answers (step State.reset) (fun _ => true) = true ∧
    (placed 0x26C00000000000000000000000000000).mem.wf = true := by decide +kernel

/-- Results at the ends of the type codes: s8 and n64. -/
theorem witness_IntegerArithmetic :
    ([.add (slot3 1 5 1 2), .sub (slot3 8 5 1 2), .mul (slot3 1 5 1 2), .mulh (slot3 8 5 1 2), .min (slot3 1 5 1 2),
      .max (slot3 8 0 1 2), .div (slot3 1 5 1 2), .rem (slot3 1 5 1 2)] : List Instr).all (fun i =>
      ((withG [(1, 5)]).issueDefect i).isNone) = true ∧ (withG []).executes (slot3 1 5 1 2) = true := by decide +kernel

theorem witness_BitwiseAndSelection :
    ([.and (slot3 1 5 1 2), .or (slot3 8 5 1 2), .xor (slot3 1 5 1 2), .andn (slot3 8 5 1 2), .shl (slot3 1 5 1 2), .shr (slot3 8 5 1 2),
      .sra (slot3 1 5 1 2), .rol (slot3 8 0 1 2), .clz { Slot.zero with t := 8, d := 5, a := 1 }, .popc { Slot.zero with t := 1, d := 5, a := 1 },
      .cmp { slot3 1 15 1 2 with qual := 10 }, .sel (slot3 0 5 1 2), .li { Slot.zero with d := 5, imm := 0xFFFFFFFF },
      .li { Slot.zero with d := 5, psel := 3 },
      .liHi { Slot.zero with d := 5, a := 5, qual := 2, imm := 9 }, .bfx { Slot.zero with t := 4, d := 5, a := 1, imm := 0x3F00 },
      .bfx { Slot.zero with t := 8, d := 5, a := 1, imm := 0x3F }, .bfi { Slot.zero with d := 5, a := 1, b := 2, imm := 0x3F00 },
      .plog { Slot.zero with d := 15, a := 15, b := 1, imm := 15 }] : List Instr).all (fun i =>
      ((withG [(1, 5)]).issueDefect i).isNone && i.wf) = true ∧
    (slotI 8 5 1 0xFFFFFFFF).im = true ∧ (slotI 8 5 1 0xFFFFFFFF).psel = 0 ∧
    ({ slotI 8 5 1 0 with psel := 2 } : Slot).im = true ∧ (slot3 1 5 1 2).im = false := by decide +kernel

/-- Windows on g5 and v3: one closed at clock 4, one open. -/
def windowRegs : TaskRegs := { TaskRegs.reset with wins := [⟨0, 4, .g 5 9⟩, ⟨2, 15, .v 3 15 7⟩] }

theorem witness_LatencyWindows :
    (∀ x ∈ windowRegs.wins, x.write.target ≠ (0, 4)) ∧ (∀ x ∈ windowRegs.wins, x.write.target ≠ (1, 15)) ∧
    (∀ x ∈ windowRegs.wins, x.write.target ≠ (2, 0)) ∧ (∀ x ∈ windowRegs.wins, x.write.target ≠ (3, 511)) := by decide +kernel

theorem witness_ControlTransfers :
    goesAt (withG []) (.br { Slot.zero with qual := 1, imm := 0x7FFFFFFF }) { Slot.zero with qual := 1, imm := 0x7FFFFFFF } = true ∧
    goesAt (withG [(7, 0xFFFFFFFF)]) (.call { Slot.zero with d := 5, a := 7 }) { Slot.zero with d := 5, a := 7 } = true ∧
    goesAt (withG []) (.ret { Slot.zero with a := 5 }) { Slot.zero with a := 5 } = true ∧
    goesAt (withG []) (.nop Slot.zero) Slot.zero = true ∧
    goesAt (withG []) (.fence { Slot.zero with qual := 0x56 }) { Slot.zero with qual := 0x56 } = true := by decide +kernel

/-- A placed task at a REP or LOOPB; the halfword after it names entry 0 again. -/
def atRep : State :=
  let s := placed 0
  s.setId { s.task.id with clim := 4, nbind := 255 }

theorem witness_RepeatsAndLoops :
    goesAt atRep (.rep (slotI 0 0 0 0xFFFFFFFF)) (slotI 0 0 0 0xFFFFFFFF) = true ∧ (slotI 0 0 0 0xFFFFFFFF).imm.toNat ≠ 0 ∧
    (goesAt atRep (.rep (slotI 0 0 0 0)) (slotI 0 0 0 0) = true ∧ atRep.task.flow.nextPc < atRep.task.id.clim ∧
      (atRep.half atRep.task.flow.nextPc).isSome = true) ∧
    (goesAt atRep (.loopb { Slot.zero with a := 7, imm := 15 }) { Slot.zero with a := 7, imm := 15 } = true ∧
      (atRep.myCore.nest 7).points = 1 ∧ gives (atRep.bodyOffsets atRep.task.flow.nextPc 2) (fun _ => true) = true) ∧
    ((atRep.setCore (atRep.myCore.setNest 7 ⟨1, false, List.replicate 6 0, List.replicate 6 0, List.replicate 18 0⟩)).myCore.nest 7).points
      = 0 ∧
    (((atRep.setCore (atRep.myCore.setNest 7 ⟨1, false, [2, 0, 0, 0, 0, 0], List.replicate 6 0, List.replicate 18 0⟩)).myCore.nest 7).points
      = 2 ∧ atRep.task.flow.owns.isNone = true) := by decide +kernel

theorem witness_EndOfStages :
    ([(0, 0, 0), (0, 1, 0), (1, 2, 0), (1, 2, 1), (2, 0, 0)] : List (Nat × Nat × Nat)).all (fun (stage, trip, iter) =>
      let s := onTest fun t => { t with id := { t.id with trip }, flow := { t.flow with stage, iter := BitVec.ofNat 32 iter } }
      goesAt s (.endTask Slot.zero) Slot.zero &&
        (stage != 2 || sealableAt s && (s.afterQuiet.sealNow s.task.flow.off).commandsDone &&
          ((s.afterQuiet.sealNow s.task.flow.off).task.eng.oldestFault [0, 1, 2, 3]).isNone)) = true := by decide +kernel

/-- The task in its handler. -/
def inHandler : State := onTest fun t => { t with bolt := { t.bolt with
  handler := true, shadow := some (5, 1, 16), holdb := 16, outer := some BoltWork.reset } }

/-- The task at determinism level 2. -/
def detTwo : State := onTest fun t => { t with id := { t.id with detlvl := 2 } }

theorem witness_TrapsEnterHandler :
    mayTrapAt (withG []) = true ∧ (inHandler.task.bolt.charged.isNone = true ∧ inHandler.task.bolt.handler = true) ∧
    goesAt (withG []) (.trap { Slot.zero with imm := 0xFFFF }) { Slot.zero with imm := 0xFFFF } = true ∧
    goesAt (withG []) (.eret Slot.zero) Slot.zero = true ∧
    ((withG []).issueDefect (.vadd { Slot.zero with t := 9, d := 511 })).isSome = false ∧
    ((onTest fun t => { t with id := { t.id with vgran := 0 } }).issueDefect (.vadd { Slot.zero with t := 9 })).isSome = true ∧
    ([0x030, 0x031, 0x032, 0x033, 0x034, 0x000, 0x015, 0x064, 0xFFF] : List Nat).all (fun n =>
      goesAt detTwo (.srd { Slot.zero with d := 5, imm := BitVec.ofNat 32 n }) Slot.zero) = true ∧
    ([0x000, 0x001, 0x002, 0x003, 0x020, 0x021, 0x023, 0x024, 0x030, 0x050, 0x060, 0x061, 0x015, 0x064, 0xFFF] : List Nat).all
      (fun n => goesAt (withG []) (.swr { Slot.zero with a := 5, imm := BitVec.ofNat 32 n }) Slot.zero) = true := by decide +kernel

/-- The handler with a shadow of a repeat whose REP stands at EPC. -/
def repShadow : State :=
  let s := inHandler
  (s.setSys { s.task.sys with epc := 3 }).setFlow { s.task.flow with repSh := some ⟨3, 4, 10, 0, 0, 0, 0, 2⟩ }

theorem witness_ReturnFromTrap :
    goesAt inHandler (.eret Slot.zero) Slot.zero = true ∧ inHandler.handlerHolds = false ∧ repShadow.handlerHolds = false ∧
    inHandler.task.bolt.shadow = some (5, 1, 16) ∧ inHandler.task.bolt.outer = some BoltWork.reset ∧
    goesAt repShadow (.eret Slot.zero) Slot.zero = true ∧
    repShadow.task.flow.repSh = some ⟨3, 4, 10, 0, 0, 0, 0, 2⟩ ∧ repShadow.task.sys.epc.toNat = 3 ∧
    inHandler.task.flow.repSh = none ∧
    mayTrapAt (withG []) = true ∧ (withG []).task.bolt.outCharged.isNone = true ∧ (withG []).task.flow.loop = none ∧
    (withG []).task.flow.rep = none ∧ (∀ x, (withG []).task.flow.rep = some x → x.off = 0) := by
  refine ⟨?_, ?_, ?_, ?_, ?_, ?_, ?_, ?_, ?_, ?_, ?_, ?_, ?_, fun x h => ?_⟩
  all_goals first | decide +kernel | cases h

theorem witness_SpecialRegisters :
    ([0x003, 0x010, 0x011, 0x012, 0x013, 0x014, 0x020, 0x021, 0x022, 0x023, 0x024, 0x030, 0x031, 0x050, 0x051, 0x052, 0x060, 0x061] :
      List Nat).all (fun n => goesAt (withG []) (.srd { Slot.zero with d := 5, imm := BitVec.ofNat 32 n }) Slot.zero) = true ∧
    (withG []).task.id.detlvl = 0 ∧
    ([0x010, 0x011, 0x012, 0x013, 0x014, 0x022] : List Nat).all (fun n =>
      goesAt (withG [(5, 7)]) (.swr { Slot.zero with a := 5, imm := BitVec.ofNat 32 n }) Slot.zero) = true ∧
    goesAt (withG []) (.rand (slotI 0 5 0 0xFFFFFFFF)) (slotI 0 5 0 0xFFFFFFFF) = true := by decide +kernel

/-- The task with 2 granules of the 160 of its core, and a held store. -/
def twoGranules : State := onTest fun t => { t with id := { t.id with vgran := 2 } }

/-- A bolt that holds a store of one byte and a claim of granule 3 of the own pad. -/
def holdsStore : State := onTest fun t => { t with bolt := { t.bolt with
  holdb := 1, work := { t.bolt.work with hold := [.store [(2 ^ 21 + 5, 7)]], claims := [keyCorePad 0 48] } } }

/-- The task that has given up a granule; a window on one of its registers is open. -/
def gaveUp : State := onTest fun t => { t with
  id := { t.id with vgran := 2 }, flow := { t.flow with freed := 1 }, regs := { t.regs with wins := [⟨0, 9, .v 32 15 7⟩] } }

theorem witness_AllotmentsAndSeals :
    (sealableAt twoGranules = true ∧ goesAt twoGranules (.grow { Slot.zero with d := 15, imm := 30 }) Slot.zero = true ∧
      goesAt twoGranules (.grow { Slot.zero with d := 15, imm := 31 }) Slot.zero = true ∧
      goesAt twoGranules (.shrink { Slot.zero with imm := 2 }) Slot.zero = true ∧ (2 : Nat) ≤ twoGranules.task.id.vgran ∧
      goesAt twoGranules (.shrink { Slot.zero with imm := 3 }) Slot.zero = true ∧ twoGranules.task.id.vgran < 3 ∧
      mayTrapAt twoGranules = true) ∧
    (gaveUp.task.flow.freed ≠ 0 ∧ gaveUp.task.regs.wins = [⟨0, 9, .v 32 15 7⟩] ∧ 16 * gaveUp.task.id.vgran ≤ 32) ∧
    (sealableAt holdsStore = true ∧ goesAt holdsStore (.sealBolt Slot.zero) Slot.zero = true ∧
      holdsStore.task.bolt.work.hold = [.store [(2 ^ 21 + 5, 7)]] ∧ holdsStore.buffered = false ∧
      holdsStore.releasedCount holdsStore.task.releaser ≤ holdsStore.task.bolt.relNo ∧
      corePadOf (keyCorePad 0 48) = some (0, 48)) ∧
    (holdsStore.setFlow { holdsStore.task.flow with quietAt := 32 }).sealFault.isNone = true ∧
    (holdsStore.setFlow { holdsStore.task.flow with quietAt := 32 }).sealReady = false ∧
    goesAt (holdsStore.setFlow { holdsStore.task.flow with quietAt := 32 }) (.sealBolt Slot.zero) Slot.zero = true := by
  decide +kernel

theorem witness_PointerWindows :
    (0 + 256 ≤ 2 ^ 21 ∧ 2 ^ 21 - 1 < 2 ^ 21 ∧ 2 ^ 21 < 2 ^ 21 - 1 + 2 ∧ 11 < 12 ∧ 11 ≠ (withG []).task.id.lcore % 12 ∧
      (withG []).exchange = false ∧ (0 < 0xFFFF ∧ 0xFFFF < 2 ^ 16)) ∧
    mayTrapAt (withG [(1, 0xF40000000000)]) = true ∧
    ([.ld { slot3 7 5 1 0 with qual := 0 }, .st { Slot.zero with t := 7, a := 1, b := 2 }, .cas { slot3 7 5 1 2 with qual := 0x26 },
      .amo { slot3 8 5 1 2 with qual := 0x26 }, .vld { Slot.zero with t := 9, d := 8, a := 1 }, .vst { Slot.zero with t := 9, a := 1, b := 8 },
      .vldb { Slot.zero with t := 7, d := 8, a := 1 }] : List Instr).all (fun i => ((withG [(1, 0xF40000000000)]).issueDefect i).isNone
        && i.wf) = true ∧
    errs ((withG [(1, 0xF40000000000)]).resolve {} 0xF40000000000 4 4) = true ∧
    errs ((withG [(1, 0xF40000000000)]).resolve { rmw := true } 0xF40000000000 4 4) = true ∧
    errs ((withG [(1, 0xF40000000000)]).resolve { write := true } 0xF40000000000 256 16) = true := by decide +kernel

/-- A stand member whose members exchange. -/
theorem witness_PointerWindows_exchange :
    (({ (withG []) with
        task := { testTask with stand := { TaskStand.reset with level := 1, act := 1 } }
        stands := [⟨0, 0, 1, 0, 0, 12, 0, 12, true, 0, 0, [], [], [], none, false⟩] } : State)).exchange = true := by decide +kernel

/-- A task whose core pad is at rest. -/
def asleepPad : State :=
  let s := withG [(1, 0xF00000000000 + 2 ^ 21 - 8)]
  s.setCore { s.myCore with rest := .entering 0 }

theorem witness_ScalarMemory :
    let ld : Slot := { Slot.zero with t := 8, d := 5, a := 1 }
    let st : Slot := { Slot.zero with t := 8, a := 1, b := 2 }
    let pad := withG [(1, 0xF00000000000 + 2 ^ 21 - 8), (2, 0x1122334455667788)]
    let far := withG [(1, 0xF20000000000), (2, 7)]
    goesAt pad (.ld ld) ld = true ∧ gives (pad.resolve {} (0xF00000000000 + 2 ^ 21 - 8) 8 8) (fun _ => true) = true ∧
    (gives (pad.resolve {} (0xF00000000000 + 2 ^ 21 - 8) 8 8) fun ks => (pad.asleep ks).isNone) = true ∧
    pad.myCore.awake pad.dcc = true ∧
    (gives (asleepPad.resolve {} (0xF00000000000 + 2 ^ 21 - 8) 8 8) fun ks => asleepPad.asleep ks == some 0) = true ∧
    goesAt asleepPad (.ld ld) ld = true ∧ pad.task.bolt.work.hold = [] ∧ pad.task.bolt.outer = none ∧ pad.myNode.isNone = true ∧
    goesAt pad (.ld { ld with qual := 0x80 }) ld = true ∧ pad.myCore.isFull ((2 ^ 21 - 8) / 16) = false ∧
    goesAt pad (.st st) st = true ∧ pad.task.bolt.holdb ≤ 65536 ∧
    pad.writeStalls (claimMark 0 0) (0, (2 ^ 21 - 8) / 16) = false ∧
    goesAt far (.st st) st = true ∧
    gives (far.resolve { write := true } 0xF20000000000 8 8) (fun ks => ks.all fun k => !far.ownPad k) = true ∧
    (goesAt (far.setBolt { far.task.bolt with holdb := 65529 }) (.st st) st = true ∧
      mayTrapAt (far.setBolt { far.task.bolt with holdb := 65529 }) = true) := by decide +kernel

/-- A task whose virtual address 0 is a common plot. -/
def owner : State :=
  let s := { placed 0 with mem := (placed 0).mem.write 8 2 }
  s.setRegs { s.task.regs with g := [(1, 0x100), (2, 7)] }

/-- A request at the controller of a line of that plot. -/
def requested : State :=
  { owner with rmwQ := [⟨(2 ^ 21 + 256) / 64, owner.task.ref, 0, 2 ^ 21 + 256, 8, true, 8, 7, 9, 5, 0⟩] }

theorem witness_ReadModifyWrites :
    (sealableAt owner = true ∧ goesAt owner (.cas { slot3 8 3 1 2 with qual := 0x26 }) Slot.zero = true ∧
      goesAt owner (.amo { slot3 8 5 1 2 with qual := 0x26 }) Slot.zero = true ∧
      (owner.afterQuiet.sealNow 0).buffered = false ∧ (owner.afterQuiet.sealNow 0).rmwQ = [] ∧
      (owner.setFlow { owner.task.flow with redo := true }).task.flow.redo = true ∧
      goesAt (owner.setFlow { owner.task.flow with redo := true }) (.amo { slot3 8 5 1 2 with qual := 0x26 }) Slot.zero = true ∧
      gives (owner.resolve { rmw := true } 0x100 8 8) (fun _ => true) = true ∧
      gives (owner.resolve { rmw := true } 0xFFF8 8 8) (fun _ => true) = true) ∧
    ((requested.rmwQ.find? fun r => r.line = (2 ^ 21 + 256) / 64).isSome = true ∧
      (requested.taskAt requested.task.ref).isSome = true ∧ (requested.logged requested.task 0).isNone = true ∧
      requested.task.bolt.work.hold = []) := by decide +kernel


/-- Every instruction of a list has no issue-time defect on a state and is well formed. -/
def allGo (s : State) (is : List Instr) : Bool := is.all fun i => (s.issueDefect i).isNone && i.wf

theorem witness_VectorMemory :
    let ld : Slot := { Slot.zero with t := 9, d := 8, a := 1, b := 9, c := 8 }
    let pad := withG [(1, 0xF00000000000 + 2 ^ 21 - 256)]
    let far := withG [(1, 0xF20000000000)]
    ld.wf = false ∧ ld.clr = false ∧
    allGo pad [.vld { ld with b := 0, c := 0 }, .vldb { ld with b := 0, c := 0 }, .vldg { ld with c := 0 }, .vst { ld with d := 0, c := 0 },
      .vsts { ld with d := 0 }] = true ∧
    gives (pad.resolve {} (0xF00000000000 + 2 ^ 21 - 256) 256 16) (fun _ => true) = true ∧
    gives (pad.resolve {} (0xF00000000000 + 2 ^ 21 - 4) 4 4) (fun _ => true) = true ∧
    gives (pad.laneKeys { ld with c := 0 } false false) (fun _ => true) = true ∧
    gives (pad.laneKeys { ld with d := 0 } false true) (fun xs => xs.all fun (_, ks) => ks.all pad.ownPad) = true ∧
    (gives (pad.resolve {} (0xF00000000000 + 2 ^ 21 - 256) 256 16) fun ks => (pad.asleep ks).isNone) = true ∧
    (gives (pad.laneKeys { ld with d := 0 } false true) fun xs => (pad.asleep (xs.flatMap (·.2))).isNone) = true ∧
    pad.task.bolt.holdb ≤ 65536 ∧ pad.writeStalls (claimMark 0 0) (0, (2 ^ 21 - 16) / 16) = false ∧
    gives (far.resolve { write := true } 0xF20000000000 256 16) (fun ks => !ks.isEmpty && ks.all fun k => !far.ownPad k) = true ∧
    far.task.bolt.holdb + 256 ≤ 65536 := by decide +kernel

theorem witness_VectorIntegers :
    isVI (1 : BitVec 5) = true ∧ isVI (7 : BitVec 5) = true ∧
    allGo (withG []) [.vadd (slot3 1 10 11 12), .vsub (slot3 7 10 11 12), .vmul (slot3 1 10 11 12),
      .vfma { slot3 3 10 11 12 with c := 13 }, .vfms { slot3 3 10 11 12 with c := 13 }, .vabs { Slot.zero with t := 3, d := 10, a := 11 },
      .vneg { Slot.zero with t := 7, d := 10, a := 11 }, .vshl (slot3 1 10 11 12), .vmin (slot3 1 10 11 12), .vmax (slot3 7 10 11 12),
      .vshr (slot3 1 10 11 12), .vsra { Slot.zero with t := 3, d := 511, a := 511, qual := 1, imm := 0xFFFFFFFF, msel := 15 }] = true ∧
    (withG []).executes Slot.zero = true := by decide +kernel

theorem witness_VectorFloats :
    isVF (9 : BitVec 5) = true ∧ isVF (11 : BitVec 5) = true ∧
    allGo (withG []) [.vadd { slot3 9 10 11 12 with rnd := 6, c := 13 }, .vsub (slot3 11 10 11 12), .vmul { slot3 10 10 11 12 with rnd := 7, c := 13 },
      .vfma { slot3 9 10 11 12 with c := 13, rnd := 7 }, .vfms { slot3 9 10 11 12 with c := 13 }, .vneg { Slot.zero with t := 9, d := 10, a := 11 },
      .vabs { Slot.zero with t := 11, d := 10, a := 11 }, .vmin (slot3 9 10 11 12), .vmax (slot3 11 10 11 12)] = true ∧
    (valueOf 9 0x7FC00000).isNan = true ∧ (valueOf 9 0x3F800000).isNan = false := by decide +kernel

theorem witness_MasksOfLanes :
    allGo (withG []) [.vcmp { slot3 9 15 11 12 with qual := 12 }, .vcmp { slot3 1 1 11 12 with qual := 10 }, .klog { Slot.zero with t := 9, d := 9, a := 15 }]
      = true ∧ ({ slot3 9 15 11 12 with qual := 12 } : Slot).d.toNat ≠ 0 ∧ (withG []).executes Slot.zero = true := by decide +kernel

theorem witness_FormatsAndRounding :
    (0 : Nat) < 1 ∧ 8 % 4 = 0 ∧ 7 % 4 ≠ 0 ∧ ((9 : BitVec 5).toNat ≤ 15 ∧ (15 : BitVec 5).toNat ≤ 15) ∧
    (valueOf 9 0x7F800000).isNan = false ∧ (valueOf 15 0x1FE).isNan = false ∧ intFmt 1 = some (8, true) ∧ (intFmt 8).isSome = true := by
  decide +kernel

/-- v12 with the reserved bit of scale word 0 set. -/
def badScale : State := withV 64 [(12, [(0, 2 ^ 63)])]

theorem witness_VectorConversions :
    allGo (withG []) [.vcvt { Slot.zero with t := 11, d := 10, a := 11, qual := 0x29 }, .vcvt { Slot.zero with t := 9, d := 10, a := 11, qual := 0x2B },
      .vbsc { Slot.zero with t := 15, d := 10, a := 11, qual := 9, imm := 220 }, .vpack4 { slot3 14 10 11 12 with qual := 0xE9, imm := 220 }]
      = true ∧ (withG []).executes Slot.zero = true ∧
    (∀ j, j < 4 → ((withG []).v 12).getLsbD (64 * ((220 + j) / 7) + 63) = false) ∧
    (badScale.v 12).getLsbD 63 = true ∧ mayTrapAt badScale = true := by decide +kernel

theorem witness_SpecialFunctions :
    allGo (withG []) [.vrcp { Slot.zero with t := 9, d := 10, a := 11 }, .vrsq { Slot.zero with t := 11, d := 10, a := 11 },
      .vsqrt { Slot.zero with t := 9, d := 10, a := 11, qual := 1 }, .vexp2 { Slot.zero with t := 10, d := 10, a := 11 },
      .vlog2 { Slot.zero with t := 9, d := 10, a := 11, rnd := 6, c := 12 }] = true ∧ (withG []).task.id.detlvl ≠ 3 ∧
    (onTest fun t => { t with id := { t.id with detlvl := 3 } }).task.id.detlvl = 3 ∧
    mayTrapAt (onTest fun t => { t with id := { t.id with detlvl := 3 } }) = true ∧
    (0 < 1 ∧ (FVal.fin false 1 0).cmp (valueOf 9 (maxOf 9)) ≤ 0) := by decide +kernel

theorem witness_ReductionsAndLaneMoves :
    isVI (3 : BitVec 5) = true ∧ (slot3 3 10 11 0).q 3 1 = 0 ∧ isVF (9 : BitVec 5) = true ∧
    ({ slot3 3 10 11 0 with qual := 10 } : Slot).q 3 1 = 5 ∧
    allGo (withG []) [.vred { slot3 3 10 11 0 with c := 2 }, .vscan { slot3 3 10 11 0 with c := 2, qual := 0x10 }, .vred (slot3 9 10 11 0),
      .vscan { slot3 3 10 11 0 with qual := 0x1A }, .vperm (slot3 7 10 11 12), .vbcast (slot3 7 10 5 0), .vbcastLane { slot3 7 10 11 0 with qual := 1, imm := 63 },
      .vext { slot3 7 5 11 0 with imm := 63 }, .viota { slot3 3 10 0 0 with imm := 0xFFFFFFFF }, .viotaCnt { slot3 3 10 0 0 with c := 2, qual := 1 },
      .vand (slot3 7 10 11 12), .vor (slot3 7 10 11 12), .vxor (slot3 7 10 11 12), .vsel { slot3 7 10 11 12 with c := 15 }] = true := by
  decide +kernel

/-- Stream 1 holds 8 bytes. -/
def withStream : State := (withG []).setCore { (withG []).myCore with
  streams := (withG []).myCore.streams.set 1 { Stream.reset with bytes := (List.range 8).map fun k => (k, 1), next := 8 } }

theorem witness_ConditionalStreams :
    allGo withStream [.spush { Slot.zero with t := 7, a := 11, imm := 7 }, .spop { Slot.zero with t := 7, d := 10, imm := 1 },
      .scnt { Slot.zero with t := 7, d := 5, imm := 1 }] = true ∧
    (64 * 4 ≠ 0 ∧ 64 * 4 ≤ withStream.streamFree 7 ∧ withStream.task.bolt.holdb + 256 ≤ 65536) ∧
    (withStream.myCore.stream 1).bytes.length < 256 ∧ 1 * 4 ≤ (withStream.myCore.stream 1).bytes.length := by decide +kernel

/-- The descriptor of R223's product with one more use, and the empty queue. -/
def queued (uses : Nat) (g : List (Nat × W64)) : State := onTest fun t =>
  { t with regs := { t.regs with g }, eng := { t.eng with fq := [0x3F8000003F800000FE245A391C000000 + BitVec.ofNat 128 uses] } }

def fpushSlot : Slot := { Slot.zero with a := 6, b := 7 }

theorem witness_TileCommandsEnter_queue :
    goesAt (withG [(6, 0xFE245A391C000000), (7, 0x3F8000003F800000)]) (.fpush fpushSlot) fpushSlot = true ∧
    (((0x3F8000003F800000FE245A391C000000 : Desc).extractLsb' 25 5).toNat = 14 ∧
      ((0x3F8000003F800000FE245A391C000000 : Desc).extractLsb' 55 9).toInt = -4) ∧
    8 ≤ (List.replicate 8 (0 : Desc)).length ∧ (withG []).task.eng.fq.length < 8 ∧ mayTrapAt (withG []) = true ∧
    ((0 : Desc).extractLsb' 25 5).toNat ∉ [1, 2, 5, 6, 9, 10, 11, 12, 13, 14, 17, 18] ∧
    (withG []).task.eng.fq = [] ∧
    allGo (withG []) [.plane { Slot.zero with a := 4, b := 5, c := 6 }, .mma { Slot.zero with d := 1, a := 4, b := 5 },
      .mmag { Slot.zero with d := 1, a := 4, b := 5 }, .mclr { Slot.zero with d := 3 }, .mlda { Slot.zero with d := 1, a := 4, t := 16 },
      .mrd { Slot.zero with d := 8, a := 1, t := 9 }, .mst { Slot.zero with a := 1, b := 4, t := 16 }] = true := by decide +kernel

def padPtr (off : Nat) : W64 := BitVec.ofNat 64 (0xF00000000000 + off)

theorem witness_TileCommandsEnter :
    let s := queued 1 [(4, padPtr 0), (5, padPtr 0x40000), (6, padPtr 0x80000)]
    let m := s.setEng { s.task.eng with marks := 15, tileL := [-4, -4, -4, -4] }
    let n := s.setEng { s.task.eng with marks := 15 }
    let u := queued 0 [(4, 0xF40000000000), (5, 0xF40000000000)]
    (takeUse s.task.eng.fq).isSome = true ∧
    (s.padRange false (padPtr 0) (128 * 10496) 256).isSome = true ∧ (s.padRange false (padPtr 0x40000) 8 16).isSome = true ∧
    (s.padRange false (padPtr 0x40000) 10496 256).isSome = true ∧ (s.padRange true (padPtr 0) 262144 16).isSome = true ∧
    (s.padRange true (padPtr 0) 65536 16).isSome = true ∧ (s.padRange true (padPtr 0x40000) (2048 * 128) 16).isSome = true ∧
    (s.padRange true (padPtr 0) (127 * 4096 + 64 * 128 * 4 / 8) 1).isSome = true ∧ (s.padRange true (padPtr 0x80000) (8 * 9363) 8).isSome = true ∧
    (m.task.eng.marks.getLsbD 1 = true ∧ m.task.eng.tileL.getD 1 0 = -4) ∧ s.task.bolt.holdb + 262144 ≤ 65536 + 262144 ∧
    s.task.bolt.holdb + 2048 * 32 ≤ 65536 ∧
    allGo m [.mma { Slot.zero with d := 1, a := 4, b := 5, qual := 0x80 }, .mmag { Slot.zero with d := 1, a := 4, b := 5 },
      .plane { Slot.zero with a := 4, b := 5, c := 6, qual := 1, imm := 64 }] = true ∧
    ((takeUse u.task.eng.fq).isSome = true ∧ mayTrapAt u = true ∧ (u.padRange true 0xF40000000000 262144 16).isNone = true ∧
      (u.padRange true 0xF40000000000 2048 16).isNone = true ∧ (u.padRange false 0xF40000000000 10496 256).isNone = true) ∧
    (s.task.eng.marks.getLsbD 1 = false ∧ n.task.eng.marks.getLsbD 1 = true ∧ (-4 : Int) ≠ n.task.eng.tileL.getD 1 0) := by
  decide +kernel

/-- A tile command of the partition is queued on tile 1. -/
def busyTile : State :=
  let s := queued 1 [(4, padPtr 0)]
  after (.mclr { Slot.zero with d := 1 }) (s.setEng { s.task.eng with fq := s.task.eng.fq ++ s.task.eng.fq })

theorem witness_TileReadout :
    (takeUse (queued 1 []).task.eng.fq).isSome = true ∧
    allGo (queued 1 []) [.mrd { Slot.zero with d := 8, a := 1, t := 9, imm := 0x3FC0 }, .mrd { Slot.zero with d := 8, a := 1 },
      .mstat { Slot.zero with d := 5, qual := 3 }] = true ∧
    ((queued 1 []).readoutReady 0 0 1 = true ∧ (queued 1 []).readoutFirst 0 0 = false) ∧ busyTile.readoutReady 0 0 1 = false ∧
    (0x3FC0 % (2048 / 32) = 0) ∧ (takeUse busyTile.task.eng.fq).isSome = true ∧ busyTile.pending ≠ 0 ∧
    busyTile.pending < 256 ∧ busyTile.task.eng.fifo0.length < 256 ∧
    valueOf 9 0x3F800000 = .fin false (2 ^ 23) (-23) ∧ (valueOf 9 0x7FC00000) = .nan := by decide +kernel


theorem witness_AccumulatorsAndPlanes :
    [((1 : BitVec 2), (5 : Int)), (0, -5)].Perm [(0, -5), (1, 5)] ∧ (AElem.add ⟨0, 0⟩ 0 5).2 = false ∧
    (-(2 ^ 95) ≤ (2 ^ 95 - 1 : Int) ∧ (2 ^ 95 - 1 : Int) < 2 ^ 95) ∧ (2 ≤ 2 ∧ (floatFmt 9).isSome = true ∧ 9 ≠ 14) := by
  refine ⟨List.Perm.swap _ _ _, ?_⟩
  decide +kernel

/-- A block of zeros with its classes. -/
def zeroBlock : PlanedBlock := ⟨List.replicate 16 0, List.replicate 16 ⟨false, false, false⟩, 0, false⟩
def zeroLines : List (List PlanedBlock) := List.replicate 128 (List.replicate 4 zeroBlock)

set_option maxRecDepth 200000 in
theorem witness_AccumulatorsAndPlanes_record :
    zeroLines.length = 128 ∧ (∀ l ∈ zeroLines, l.length = 4 ∧ ∀ b ∈ l, b.qs.length = 16 ∧ b.cls.length = 16 ∧ b.fac < 2 ^ 16 ∧
      ∀ q ∈ b.qs, -(2 ^ (1 - 1)) ≤ q ∧ q < 2 ^ (1 - 1)) ∧
    Memory.readBytes [] (keyCorePad 0 0) ((1 + 4) * 1024 + 256) = recordBytes 1 zeroLines := by decide +kernel

/-- A task with a declaration that pends, or is active, at a tick. -/
def declared (dcc : Nat) (p : TaskPhase) : State := { (onTest fun t => { t with phase := p }) with dcc }

theorem witness_PhaseDeclarations :
    goesAt (withG [(5, 0x8FFFFFFFFFF)]) (.phase { Slot.zero with a := 5 }) Slot.zero = true ∧
    ((declared 0 ⟨8, 1, 0, 0, false, false, true, 8, false, 0⟩).taskAt ⟨0, 0⟩).isSome = true ∧
    (let p : TaskPhase := ⟨8, 1, 0, 0, true, false, true, 8, false, 0⟩
     p.pend = true ∧ p.asked = false ∧ p.t0 + 64 * p.onset ≤ 0 + 4400 ∧ p.t0 + 64 * p.onset ≤ 0) ∧
    (let p : TaskPhase := ⟨8, 1, 0, 0, true, true, false, 2, false, 0⟩
     p.act = true ∧ p.ramp = true ∧ p.level < 8 ∧ p.t0 + 64 * p.onset + 256 * (p.level - 1) ≤ 256 ∧
     p.t0 + 64 * p.onset + 1024 * p.len ≤ 1024) := by decide +kernel

/-- The slot of R257's example at its last point. -/
def lastPoint : NestSlot := ⟨2, false, [4, 3, 0, 0, 0, 0], [3, 2, 0, 0, 0, 0], [64, 0, 0, 1024, 256] ++ List.replicate 13 0⟩

/-- The image of that slot at the end of the own pad. -/
def nestState : State :=
  let s := withG [(5, 0xF00000000000 + 2 ^ 21 - 128)]
  { s with mem := s.mem.writeCells (cellsAt (keyCorePad 0 (2 ^ 21 - 128)) lastPoint.image) }

theorem witness_NestSlots :
    (lastPoint.nd ≤ 6 ∧ lastPoint.bound.length = 6 ∧ lastPoint.idx.length = 6 ∧ lastPoint.stride.length = 18 ∧
      ∀ d, d < 2 → lastPoint.idx.getD d 0 < lastPoint.bound.getD d 0) ∧
    allGo nestState [.nsetRst { Slot.zero with c := 7, qual := 1 }, .nsetStep { Slot.zero with c := 7, qual := 2 },
      .nsetOff { Slot.zero with d := 5, c := 7, qual := 3, imm := 2 }, .nset { Slot.zero with a := 5, c := 7 }] = true ∧
    gives (nestState.place (nestState.g 5) 128) (fun p => p == .corePad 0 (2 ^ 21 - 128) false) = true ∧
    (nestState.g 5).toNat % 16 = 0 ∧
    (∀ d, d < 6 → lastPoint.bound.getD d 0 < 2 ^ 24 ∧
      if d < lastPoint.nd then lastPoint.idx.getD d 0 < lastPoint.bound.getD d 0 ∨ lastPoint.idx.getD d 0 = 0
      else lastPoint.bound.getD d 0 = 0 ∧ lastPoint.idx.getD d 0 = 0) ∧
    (∀ i, i < 18 → -(2 ^ 31) ≤ lastPoint.stride.getD i 0 ∧ lastPoint.stride.getD i 0 < 2 ^ 31 ∧
      (lastPoint.nd ≤ i / 3 → lastPoint.stride.getD i 0 = 0)) ∧
    ((List.range 128).map fun i => nestState.loadByte (keyCorePad 0 (2 ^ 21 - 128) + i)) = lastPoint.image ∧
    7 < nestState.myCore.nests.length := by decide +kernel

/-- A tile command that has become the oldest at tick 0, on tile 1 and the records at two places of the own pad. -/
def tileCmd (op : Nat) : MCmd where
  who := ⟨0, 0, 0, 0, 0⟩
  op := op
  desc := 0x3F8000003F800000FE245A391C000000
  tile := 1
  a := keyCorePad 0 0
  b := keyCorePad 0 0x40000
  c := 0
  k := 1
  acc := false
  smode := 0
  stamp := 0
  side := false
  tr := false
  pitch := 64
  row := 127
  rows := 1
  ty := 9
  rnd := 0
  res := true
  con := true
  pages := []
  groups := none
  oldest := some 0
  tau := none
  passed := false
  away := none

/-- Types f32 of two planes on both sides, without the checksum comparison. -/
def smallDesc : BitVec 128 := 0x3f8000003f800000fe2400a452000000

/-- The 400 granules of one record of two planes at the start of the own pad. -/
def fullOperands : Sparse Bool := (List.range 400).map fun k => (k, true)

/-- A product of that record with itself. -/
def smallCmd : MCmd := { tileCmd 0x288 with desc := smallDesc, b := keyCorePad 0 0 }

/-- The same from the cluster pad. -/
def remoteCmd : MCmd := { smallCmd with a := keyClusterPad 0 0, b := keyClusterPad 0 0 }

/-- Core 0 with queued and with running commands, at a tick. -/
def engine (dcc : Nat) (mq : List MCmd) (run : List Running) : State :=
  let s := (withG []).setCore { (withG []).myCore with full := fullOperands, mq, run }
  { s with dcc }

/-- A command that runs and has no work left. -/
def ended (c : MCmd) : Running := ⟨c, 0, 0, 8, 0⟩

def stamped (passed : Bool) : MCmd := { tileCmd 0x288 with smode := 1, stamp := 5, tau := some 5, passed }

/-- Every rail at OP7. -/
def fullClock : State :=
  { engine 0 [] [] with pkg := { Package.reset with rails := Package.reset.rails.map fun r => { r with opc := 7 } } }

theorem witness_TileCommandsRun_starts :
    (let s := engine 0 [tileCmd 0x28A] []
     s.unsettled 0 = false ∧ (s.nextCmd 0 .tilePort).isSome = true) ∧
    (fullClock.matrixClock = 44 ∧ fullClock.arrayRate 0 = 352) ∧
    (let s := (engine 5 [stamped false] []).setCore { (engine 5 [stamped false] []).myCore with full := [] }
     s.unsettled 0 = false ∧ (s.nextStamped 0).isSome = true ∧ s.resident 0 = true ∧
     (s.core 0).rangesFull (claimMark 0 0) (stamped false).reads = false) ∧
    (let s := engine 5 [stamped true] []
     s.unsettled 0 = false ∧ (s.nextStamped 0).isSome = true ∧ (stamped true).passed = true) ∧
    ((engine 0 [tileCmd 0x288] []).taskAt ⟨0, 0⟩).isSome = true ∧
    (((engine (2 ^ 24) [tileCmd 0x288] []).setCore { (engine 0 [tileCmd 0x288] []).myCore with full := [] }).lateOperands 0 0).isSome
      = true := by decide +kernel

/-- Five accumulating commands of partitions 0 to 4 with operands that need no full bit. -/
def waiting : State := engine 256 ((List.range 5).map fun k => { remoteCmd with
  who := ⟨(k + 1) % 5, 0, 0, 0, k⟩, acc := true, desc := smallDesc ||| BitVec.twoPow 128 45, oldest := some 0 }) []

def guestRun : Running := ended { smallCmd with acc := true, away := some 11 }

theorem witness_TileCommandsRun_migration :
    (waiting.migrant 0 0).isSome = true ∧
    ((engine 0 [] [guestRun]).returning 0).map (·.2) = some (11, true) ∧ guestRun.cmd.checked (engine 0 [] [guestRun]).mem = true ∧
    ((((engine 0 [] [guestRun]).setCore { (Core.reset 11) with mq := [tileCmd 0x28A] }).returning 0).map (·.2)) = some (11, false) := by
  decide +kernel

theorem witness_TileCommandsRun_upkeep :
    (engine 64 [] [ended (tileCmd 0x288)]).windowDue 0 = true ∧ (engine 2200000 [] []).retentionDue 0 = true ∧
    ((engine 0 [tileCmd 0x288] []).setCore { (engine 0 [tileCmd 0x288] []).myCore with rest := .entering 0 }).wakeDue 0 = true := by
  decide +kernel

/-- Core 0 with running commands and no full granule. -/
def emptyPad (run : List Running) : State := (engine 0 [] []).setCore { (engine 0 [] []).myCore with full := [], run }

theorem witness_TileCommandsRun_completion :
    ([(0x28A, EngUnit.tilePort), (0x28B, .tilePort), (0x291, .tilePort), (0x281, .planing), (0x288, .array), (0x289, .array)] :
      List (Nat × EngUnit)).all (fun (op, u) => ((emptyPad [ended (tileCmd op)]).endingCmd 0 u).isSome) = true ∧
    (tileCmd 0x28A).tile < ((engine 0 [] []).core 0).tiles.length ∧
    gives ((engine 0 [] []).loadedTile (tileCmd 0x28B)) (fun _ => true) = true ∧
    gives ((engine 0 [] []).planeOut 0 { smallCmd with op := 0x281 }) (fun _ => true) = true ∧
    (corePadOf (tileCmd 0x291).b).isSome = true ∧ (corePadOf (keyClusterPad 0 0)).isNone = true ∧
    smallCmd.checked [] = true ∧ arrayOp 0x288 = true := by decide +kernel


/-! ### Movement -/

/-- g1 names the end of the own pad, g2 its start, g3 the cluster pad, g4 64 bytes, g5 too many, g6 no window. -/
def mover : State := withG [(1, padPtr (2 ^ 21 - 64)), (2, padPtr 0), (3, 0xF20000000000), (4, 64), (5, 2 ^ 32), (6, 0xF40000000000)]

def skmovSlot : Slot := { Slot.zero with a := 1, b := 2, c := 4, qual := 1 }

/-- The skidder of core 0 with a move of 64 bytes, changed and queued at tick 0, at a tick. -/
def moving (dcc : Nat) (change : SkCmd → SkCmd) : State :=
  let s := after (.skmov skmovSlot) mover
  { s.setCore { s.myCore with sq := s.myCore.sq.map change } with dcc }

theorem witness_SkidderCommands :
    allGo mover [.skmov skmovSlot, .skmov { skmovSlot with a := 3, c := 5 }, .skmov { skmovSlot with a := 6 }, .skmov { skmovSlot with b := 6 },
      .skmovNest { Slot.zero with a := 1, b := 2, c := 7, qual := 4, imm := 0x80 },
      .skgat { Slot.zero with a := 2, b := 2, c := 7, qual := 0x200F0, imm := 127 },
      .sksct { Slot.zero with a := 2, b := 2, c := 7, qual := 0x200F0, imm := 127 }, .skgat { Slot.zero with a := 2, b := 6, c := 7 },
      .tmov { Slot.zero with a := 1, b := 2, c := 4, qual := 0x40000 }, .feopSet { Slot.zero with a := 1, b := 4 },
      .feopClr { Slot.zero with a := 1, b := 4, qual := 16 }, .feopWait { Slot.zero with a := 1, b := 4, qual := 0x20 },
      .enqMove { Slot.zero with a := 2, qual := 0x20002, imm := 1 }] = true ∧
    (mover.executes Slot.zero = true ∧ mayTrapAt mover = true ∧ mover.task.bolt.holdb = 0) ∧
    (gives (mover.place (mover.g 1) 64) (fun p => p == .corePad 0 (2 ^ 21 - 64) false) = true ∧
      gives (mover.place (mover.g 3) 64) (fun p => p == .clusterPad 0 0) = true ∧ errs (mover.place (mover.g 6) 64) = true) ∧
    ((2 : Nat) ^ 32 ≤ (mover.g 5).toNat ∧ (mover.g 4).toNat < 2 ^ 32 ∧ (mover.g 4).toNat % 16 = 0 ∧ (mover.g 4).toNat ≤ 2 ^ 21 ∧
      (mover.g 2).toNat % 16 = 0) ∧
    (mover.padRange true (mover.g 2) 64 64).isSome = true ∧
    (mover.asleep ((List.range 64).map fun i => mover.padKey (keyCorePad 0 0 + i))).isNone = true ∧
    (asleepPad.asleep ((List.range 64).map fun i => asleepPad.padKey (keyCorePad 0 0 + i))) = some 0 := by decide +kernel

theorem witness_SkidderCommands_steps :
    (let s := moving 0 id
     ((s.skNext 0).map fun x => (x.2.1.kind, decide (x.2.1.who.part < 18), x.2.1.con, x.2.2)) = some (.mov, true, false, 64) ∧
     (s.skKeys ⟨0, 0, false⟩ false (mover.g 2) 64).2.isNone = true ∧ (s.skKeys ⟨0, 0, false⟩ true (mover.g 1) 64).2.isNone = true ∧
     (s.skKeys ⟨0, 0, false⟩ true (mover.g 1) 64).1 = (List.range 64).map (keyCorePad 0 (2 ^ 21 - 64) + ·)) ∧
    (((moving 0 fun c => { c with done := true, res := true }).core 0).sq.find? (·.done)).isSome = true ∧
    ((moving (2 ^ 24) fun c => { c with kind := .tmov }).lateSource 0).isSome = true := by decide +kernel

/-- Channel 15 of die 0 in a state at a descriptor of 64 bytes in the own pad of core 0, whose first words are given. -/
def chainAt (ctrl : Nat) (cur : W64) (src : Nat) (cmd : Option SkCmd) : State :=
  let s := withG []
  let words := bytesOfNat 8 0 ++ bytesOfNat 8 ctrl ++ bytesOfNat 8 src ++ bytesOfNat 8 0xF00000001000 ++ bytesOfNat 8 64
  State.setChain { s with mem := s.mem.writeCells (cellsAt (keyCorePad 0 0) words) } 0 15
    { Chain.reset with state := 1, cur, cmd }

/-- The transfer of such a descriptor. -/
def chainCmd (done : Bool) : SkCmd :=
  ⟨⟨33, 0, 0, 0, 0⟩, 0x300, 1, 0, .desc none 0 0 0 0, 0xF00000002000, 0xF00000001000, 64, if done then 64 else 0, 0, 0, false, false, false,
    0, done, false, 0⟩

theorem witness_ChainsWalk :
    (15 < ((chainAt 1 0 0 none).die 0).chains.length) ∧
    ((chainAt 1 32 0xF00000002000 none).chainReady 0 15 = true ∧
      (chainAt 1 32 0xF00000002000 none).chainDesc ((chainAt 1 32 0xF00000002000 none).chain 0 15) = none) ∧
    ([(0, 0xF00000002000), (1, 0xF00000002000), (5, 0xF00000002000), (1, 0xF40000000000)] : List (Nat × Nat)).all (fun (ctrl, src) =>
      let s := chainAt ctrl 0xF00000000000 src none
      let m := moveDesc (s.mem.readBytes (keyCorePad 0 0) 64)
      s.chainReady 0 15 && s.chainDesc (s.chain 0 15) == some (keyCorePad 0 0) && m.ctrl % 2 == ctrl % 2
        && m.defect.isSome == (ctrl == 5) && s.chainRangeOk 0 m.src m.len == (src == 0xF00000002000) && s.chainRangeOk 0 m.dst m.room)
      = true ∧
    (let s := chainAt 1 0xF00000000000 0xF00000002000 (some (chainCmd true))
     s.chainReady 0 15 = true ∧ s.chainStatus (s.chain 0 15) = some (keyCorePad 0 0)) ∧
    (let s := chainAt 1 0xF00000000000 0xF00000002000 (some (chainCmd false))
     ((s.skNext 0).map fun x => (x.2.1 == chainCmd false, x.2.2)) = some (true, 64) ∧
     (s.skKeys ⟨0, 0, false⟩ false 0xF00000002000 64).2.isNone = true ∧ (s.skKeys ⟨0, 0, false⟩ true 0xF00000001000 64).2.isNone = true) := by
  decide +kernel

/-- A member of a stand at level 2, whose active level is given, with room for 15 more bytes in its hold or for all. -/
def holder (level act holdb : Nat) (g : List (Nat × W64)) : State := onTest fun t =>
  { t with regs := { t.regs with g }, stand := { t.stand with level, act }, bolt := { t.bolt with holdb } }

/-- Its virtual address 0 lies in plot 1, which core 0 owns, or in a common one. -/
def plotHolder (state : Byte) (w : W64) : State :=
  let s := { holder 0 0 0 [(1, 0), (2, w)] with tlb := [⟨0, 0, 0, 65536, 2 ^ 21, true⟩] }
  { s with mem := s.mem.write 8 state }

theorem witness_HeldEffects :
    allGo (holder 2 1 0 [(1, padPtr 0)]) [.skchn { Slot.zero with a := 1, qual := 2, imm := 15 }, .skqset { Slot.zero with a := 1 },
      .launch { Slot.zero with a := 1, imm := 63 }, .spec { Slot.zero with a := 1, b := 1, imm := 0x305 }, .decide { Slot.zero with a := 1, imm := 0xF00 },
      .evpost { Slot.zero with a := 1, imm := 0xBEEF }, .cord { Slot.zero with a := 1, imm := 0x8101 }, .opreq { Slot.zero with a := 1, imm := 3 },
      .zenter { Slot.zero with imm := 1 }, .zleave Slot.zero, .pxfer { Slot.zero with a := 1, b := 2 }] = true ∧
    (holder 2 1 0 []).executes Slot.zero = true ∧ mayTrapAt (holder 2 1 0 []) = true ∧ (65536 : Nat) < (holder 2 1 65521 []).task.bolt.holdb + 16 ∧
    (gives ((holder 2 1 0 []).padImage (padPtr 0) 128) (fun ks => ((holder 2 1 0 []).asleep ks).isNone) = true ∧
      gives ((holder 2 1 0 []).padImage (padPtr (2 ^ 21 - 32)) 32) (fun ks => ((holder 2 1 0 []).asleep ks).isNone) = true ∧
      gives (asleepPad.padImage (padPtr 0) 128) (fun ks => asleepPad.asleep ks == some 0) = true ∧ asleepPad.executes Slot.zero = true) ∧
    ((holder 2 1 0 [(1, 7)]).g 1).toNat < 8 ∧ 8 ≤ ((holder 2 1 0 [(1, 8)]).g 1).toNat ∧
    ((holder 2 2 0 []).task.stand.level ≠ 0 ∧ 1 < (pendingStand (holder 2 2 0 []).task.stand []).act ∧
      (pendingStand (holder 2 1 0 []).task.stand []).act ≤ 1 ∧ (pendingStand (holder 2 1 0 []).task.stand []).act ≠ 2 ∧
      (pendingStand (holder 2 2 0 []).task.stand []).act = (holder 2 2 0 []).task.stand.level ∧ (holder 0 0 0 []).task.stand.level = 0) ∧
    ([(0x0BF : W64), 0x8BF] : List W64).all (fun w => gives ((plotHolder 1 w).plotAddress 0) fun pa => pa == 2 ^ 21) = true ∧
    (BitVec.ofNat 64 ((plotHolder 1 0).plotEntry 1)).extractLsb' 0 3 = (1 : BitVec 3) ∧
    (BitVec.ofNat 64 ((plotHolder 2 0).plotEntry 1)).extractLsb' 0 3 = (2 : BitVec 3) := by decide +kernel

theorem witness_HeldEffects_released :
    corePadOf (keyCorePad 0 48) = some (0, 48) ∧ 7 < ((withG []).core 0).streams.length ∧
    15 < ((withG []).die 0).chains.length ∧ ((withG []).chain 0 15).state ≠ 1 ∧ ((chainAt 1 0 0 none).chain 0 15).state = 1 ∧
    ((plotHolder 1 0).plotState 1 = 1 ∧ (plotHolder 1 0).plotOwner 1 = 0) ∧ (plotHolder 2 0).plotState 1 ≠ 1 ∧
    3 < (withG []).pkg.rails.length ∧
    (let s := holder 2 1 0 []
     (s.taskAt ⟨0, 0⟩).isSome = true ∧ s.task.releaser.of s.task = true ∧ 1 ≤ s.task.stand.act ∧ s.task.stand.act ≤ 4) := by decide +kernel

/-- Engine 1 of the task with a fault, or with an element. -/
def delivered (faults : List DeferredFault) (e : List Elem) : State := onTest fun t => { t with eng := { t.eng with faults, fifo1 := e } }

/-- The loader of core 0 with words from partition 0. -/
def inbound (n : Nat) : State := { withG [] with parkedH := [{ Helper.reset 0 0 with inbox := List.replicate n (0, 5, false, 0) }], hlp := Helper.reset 1 0 }

theorem witness_ElementsAndMailboxes :
    allGo (withG [(1, 7)]) [.deq { Slot.zero with d := 5, imm := 1 }, .deq { Slot.zero with d := 5, imm := 5 }, .enqMailbox { Slot.zero with a := 1, imm := 5 }]
      = true ∧ (withG []).executes Slot.zero = true ∧
    (let x : DeferredFault := ⟨1, 0, 4, 3, 7⟩
     (delivered [⟨1, 0, 9, 3, 8⟩, x] []).task.eng.oldestFault [1] = some x ∧ mayTrapAt (delivered [x] []) = true) ∧
    ((delivered [] [⟨3, 0⟩]).task.eng.oldestFault [1] = none ∧ (delivered [] [⟨3, 0⟩]).elements 1 = [⟨3, 0⟩]) ∧
    ((delivered [] []).elements 1 = [] ∧ (delivered [] []).elements 5 = [] ∧ (delivered [] []).outstanding 1 = false ∧
      (moving 0 id).outstanding 1 = true) ∧
    (((inbound 7).helperAt 0 0).inbox.filter fun x => x.1 = 0).length < 8 ∧
      8 ≤ (((inbound 8).helperAt 0 0).inbox.filter fun x => x.1 = 0).length := by
  decide +kernel

/-! ### Stands -/

/-- A stand with tile 0 on core 0 as its first member. -/
def standOf (level size : Nat) : Stand := ⟨0, 0, level, 0, 0, 1, 0, size, false, 127, 0, [], [], [], none, false⟩

/-- The task as a member of the stand at its level, with its stand state. -/
def standing (size : Nat) (change : TaskStand → TaskStand) : State :=
  let z := change ⟨1, 1, 0, 0, 0, none, none⟩
  { (onTest fun t => { t with stand := z }) with stands := [standOf z.level size] }

/-- The same with its arrival at tick 0, at a tick. -/
def arrivedAt (dcc size : Nat) (flow : TaskFlow → TaskFlow) : State :=
  let s := standing size fun z => { z with bst := 1 }
  { s.setFlow (flow s.task.flow) with stands := [{ standOf 1 size with arrived := [(0, 0, 0)] }], dcc }

def atBarrier (f : TaskFlow) : TaskFlow := { f with wait := some ⟨.barrier, 0, false, 0⟩ }

theorem witness_Barriers :
    ([standing 1 fun z => { z with level := 0 }, standing 1 fun z => { z with late := some (2 ^ 24 + 1) }, standing 1 fun z => { z with bst := 2 },
      standing 1 fun z => { z with bst := 1 }, standing 2 id, standing 2 fun z => { z with level := 3, act := 3 }] : List State).all (fun s =>
        goesAt s (.zsync Slot.zero) Slot.zero && mayTrapAt s && sealableAt s) = true ∧
    (((standing 2 id).afterQuiet.sealNow 0).myStand 1).isSome = true ∧
    (((standing 2 fun z => { z with level := 3, act := 3 }).afterQuiet.sealNow 0).myStand 3).isSome = true ∧
    ((((arrivedAt 0 1 id).stands.drop 0).find? (arrivedAt 0 1 id).barrierReady).isSome = true ∧
      (((standing 1 id).stands.drop 0).find? (standing 1 id).barrierReady).isNone = true) ∧
    ((standing 1 id).taskAt (standing 1 id).task.ref).isSome = true ∧
    ([(arrivedAt (2 ^ 26) 2 id, false), (arrivedAt (2 ^ 26) 2 atBarrier, true)] : List (State × Bool)).all (fun (s, waits) =>
      (s.lateArrival.map (·.2)) == some 0 && (s.member (standOf 1 2) 0).isSome && (s.taskAt s.task.ref).isSome && mayTrapAt s
        && (s.task.flow.wait.any fun w => w.kind == .barrier) == waits) = true ∧
    (arrivedAt (2 ^ 26 - 1) 2 id).lateArrival = none := by decide +kernel

/-- A descriptor of a bulk reduction in the own pad, of 256 bytes: T in WORD 18. -/
def redState (w18 : Nat) (len : Nat) : State :=
  let s := standing 1 id
  let words := bytesOfNat 8 (0xF00000000000 + 4096) ++ bytesOfNat 8 (0xF00000000000 + 8192) ++ bytesOfNat 8 len ++ bytesOfNat 8 w18
  { s.setTask { s.task with regs := { s.task.regs with g := [(1, padPtr 0)] } } with
    mem := s.mem.writeCells (cellsAt (keyCorePad 0 0) words) }

/-- A contribution of a member of the stand. -/
def given (member tile kind : Nat) (args : List Nat) (dest : Nat) : Contribution :=
  ⟨0, 0, 1, 0, 0, member, tile, some ⟨0, 0⟩, true, kind, args, [0], 0, false, dest, 0, 0, 0, 0, 0⟩

/-- The stand's collectives with contributions and ended members. -/
def collecting (size : Nat) (ended : List Nat) (colls : List Contribution) : State :=
  { standing size id with colls, stands := [{ standOf 1 size with n := size, ended }] }

def result0 : CollResult := ⟨0, 0, 7, none⟩

/-- Stream 0 of core 0 with one record, and nearly all of its storage reserved. -/
def crowded : State :=
  let s := collecting 1 [] [given 0 0 1 [1, 0] 5]
  s.setCore { s.myCore with streams := { Stream.reset with bytes := [(0, 9)], next := 1, reserved := 65536 } :: s.myCore.streams.drop 1 }

def zredSlot : Slot := { Slot.zero with d := 511, a := 511, t := 3 }
def boomSlot : Slot := { Slot.zero with d := 63, t := 1, imm := 7 }
def enqSlot : Slot := { Slot.zero with a := 1, imm := 3 }
def collectives (s : State) : Bool := goesAt s (.zred zredSlot) zredSlot && goesAt s (.boom boomSlot) boomSlot
  && goesAt s (.enqReduce enqSlot) enqSlot

theorem witness_Collectives :
    (let s := standing 1 id
     collectives s = true ∧ s.task.stand.level ≠ 0 ∧ s.buffered = false ∧ s.task.stand.result = none ∧ s.task.stand.bst ≠ 1 ∧ sealableAt s = true ∧
     ((s.afterQuiet.sealNow s.task.flow.off).myStand 1).isSome = true ∧ s.colls = [] ∧ s.myCore.awake s.dcc = true) ∧
    (collectives (standing 1 fun z => { z with bst := 1 }) = true) ∧
    (let s := (standing 1 id).setFlow { (standing 1 id).task.flow with redo := true }
     collectives s = true ∧ (s.myStand 1).isSome = true) ∧
    (let s := standing 1 fun z => { z with result := some result0 }
     collectives s = true ∧ s.task.stand.result = some result0 ∧ result0.num = s.task.stand.collNo ∧ result0.err = none) ∧
    (let s := { standing 1 id with colls := [given 0 0 2 [] 0] }
     goesAt s (.enqReduce enqSlot) enqSlot = true ∧ s.colls.any (fun c => c.who == some s.task.ref && c.num == 0 && c.kind == 2) = true) ∧
    (goesAt (standing 1 id) (.enqReduce enqSlot) enqSlot = true ∧
      (let s := (standing 1 id).setCore { (standing 1 id).myCore with rest := .entering 9 }
       goesAt s (.enqReduce enqSlot) enqSlot = true ∧ s.myCore.awake s.dcc = false)) ∧
    ([(3, 256, false), (3, 100, true), (31, 256, true)] : List (Nat × Nat × Bool)).all (fun (w18, len, bad) =>
      let u := (redState w18 len).afterQuiet.sealNow (redState w18 len).task.flow.off
      goesAt (redState w18 len) (.enqReduce enqSlot) enqSlot && sealableAt (redState w18 len) && (u.myStand 1).isSome
        && match u.padRange false (u.g 1) 32 32 with
          | some key =>
            let d := redDesc (u.mem.readBytes key 32)
            (u.redDefect d).isSome == bad && (bad || ((u.padRange false d.src d.len 256).isSome && (u.padRange false d.dst d.len 256).isSome))
          | none => false) = true := by decide +kernel

theorem witness_Collectives_complete :
    (let s := collecting 2 [1] [given 0 0 0 [0, 3, 0, 0] 511]
     ((s.stands.drop 0).find? s.collectiveReady).isSome = true ∧
     (s.stands.map fun z => (s.contributions z).map (·.member)) = [[0]]) ∧
    (let s := collecting 2 [] [given 0 0 0 [0, 3, 0, 0] 0, given 1 1 0 [1, 3, 0, 0] 0]
     ((s.stands.drop 0).find? s.collectiveReady).isSome = true ∧ (s.stands.map fun z => (s.contributions z).map (·.member)) = [[0, 1]] ∧
     (s.stands.map fun z => disagreeing (s.contributions z)) = [some 1]) ∧
    (let s := collecting 1 [] [given 0 0 0 [0, 3, 0, 0] 0]
     ((s.stands.drop 0).find? s.collectiveReady).isSome = true ∧ (s.stands.map fun z => disagreeing (s.contributions z)) = [none]) ∧
    (((crowded.stands.drop 0).find? crowded.collectiveReady).isSome = true ∧ errs (crowded.rebalance [0] 0 1 256) = true) ∧
    (((standing 1 id).stands.drop 0).find? (standing 1 id).collectiveReady).isNone = true ∧
    (let s := (standing 1 id).setFlow { (standing 1 id).task.flow with wait := some ⟨.collective, 0, false, 0⟩ }
     (s.taskAt ⟨0, 0⟩).isSome = true ∧ (given 0 0 0 [] 511).dest < 16 * s.task.id.vgran ∧ (given 0 0 1 [] 63).kind < 2) ∧
    2 ≤ [1, 2, 3].length ∧ [1, 2, 3].length % 2 = 1 := by decide +kernel

/-! ### Leases and helpers -/

/-- A task with a lease, in a device at a tick. -/
def leased (dcc : Nat) (g : W64) (l : TaskLease) : State :=
  { (onTest fun t => { t with lease := l, regs := { t.regs with g := [(1, g)] } }) with dcc }

theorem witness_PlotsAndLeases :
    goesAt (plotHolder 1 0) (.pquery { Slot.zero with d := 63, a := 1 }) Slot.zero = true ∧ mayTrapAt (plotHolder 1 0) = true ∧
    gives ((plotHolder 1 0).plotAddress 0) (fun _ => true) = true ∧ errs ((plotHolder 1 0).plotAddress (padPtr 0)) = true ∧
    ([(0, none), (2 ^ 40, none), (2 ^ 40 - 1, none), (1, none), (1, some (0, 5))] : List (W64 × Option (Nat × Nat))).all (fun (g, grant) =>
      goesAt (leased 0 g ⟨3, 7, 0, 0, 0, grant, none⟩) (.lease { Slot.zero with d := 63, a := 1, imm := 3 }) Slot.zero
        && mayTrapAt (leased 0 g ⟨3, 7, 0, 0, 0, grant, none⟩) && sealableAt (leased 0 g ⟨3, 7, 0, 0, 0, grant, none⟩)) = true ∧
    goesAt (leased 0 0 ⟨0, 0, 0, 0, 0, none, none⟩) (.lrel Slot.zero) Slot.zero = true ∧
    goesAt (leased 0 0 ⟨1, 7, 0, 0, 0, none, none⟩) (.lrel Slot.zero) Slot.zero = true ∧
    ((leased 7 0 ⟨1, 7, 0, 0, 0, none, none⟩).taskAt ⟨0, 0⟩).isSome = true ∧ (7 : Nat) ≤ 7 - 0 ∧ (6 : Nat) - 0 < 7 ∧
    ((leased 0 0 ⟨0, 0, 1, 0, 0, none, some (1, 1, 0, 7)⟩).taskAt ⟨0, 0⟩).isSome = true ∧
    State.reset.dcc / 2200000 = State.reset.pkg.melted ∧ (leased 2200000 0 ⟨0, 0, 0, 0, 0, none, none⟩).dcc / 2200000 ≠ Package.reset.melted := by
  decide +kernel

/-- After reset every rail's point is within every limit, which may be any (log 24). -/
theorem witness_PlotsAndLeases_within (k : Nat) (r : Rail) (h : State.reset.pkg.rails[k]? = some r) :
    r.opc.toNat ≤ (Config.limitPoint State.reset.sprint k).toNat := by
  obtain rfl : r = Rail.reset := by
    have := List.mem_of_getElem? h
    simpa [State.reset, Package.reset] using this
  exact Nat.zero_le _

/-- The loader of core 0 with x1 and x2, its core changed. -/
def aided (x1 x2 : W32) (change : Helper → Helper) (core : Core → Core) : State :=
  let s := { State.reset with hlp := change { Helper.reset 0 0 with mode := .running, x := [(1, x1), (2, x2)] } }
  s.setCore (core (s.core 0))

def resting (c : Core) : Core := { c with rest := .entering 0 }
/-- Its last granule is full, or claimed by partition 0. -/
def lastFull (claims : Sparse Nat) (c : Core) : Core := { c with full := [(131071, true)], claims }

/-- The helper at a descriptor of 64 bytes from a source to the cluster pad. -/
def describing (holdb : Nat) (src : Nat) (core : Core → Core) : State :=
  let s := aided 0x1FFFC0 0x303 (fun h => { h with holdb }) core
  let words := bytesOfNat 8 0 ++ bytesOfNat 8 0 ++ bytesOfNat 8 src ++ bytesOfNat 8 0xF20000000000 ++ bytesOfNat 8 64
  { s with mem := s.mem.writeCells (cellsAt (keyCorePad 0 0x1FFFC0) words) }

/-- Sixteen moves of the loader. -/
def crowdedQueue (c : Core) : Core := { c with sq := List.replicate 16 { chainCmd false with who := ⟨16, 0, 0, 0, 0⟩ } }

theorem witness_HelperInstructions_moves :
    ([(describing 65472 0xF00000000000 id, true, true), (describing 65473 0xF00000000000 id, true, false),
      (describing 0 0xF00000000000 crowdedQueue, true, true), (describing 0 0xF40000000000 id, false, true)] : List (State × Bool × Bool)).all
      (fun (s, ok, fits) => match s.hKey (s.hx 1) 64 with
        | some k =>
          let d := moveDesc (s.mem.readBytes k 64)
          (s.hx 1).toNat % 64 == 0 && !s.hAsleep k && (s.hRangeOk d.src d.len && s.hRangeOk d.dst d.room) == ok
            && decide (s.hlp.holdb + (if s.hOwnRange d.dst d.room then 0 else d.room) ≤ 65536) == fits
        | none => false) = true ∧
    ((describing 0 0xF00000000000 crowdedQueue).core 0).sq.length = 16 ∧
    ((aided 0x1FFFC0 0 id resting).hKey 0x1FFFC0 64).any (aided 0x1FFFC0 0 id resting).hAsleep = true ∧
    (aided 0x200000 0 id id).hKey 0x200000 64 = none ∧ (0x1FFFC4 : W32).toNat % 64 ≠ 0 := by decide +kernel

theorem witness_HelperInstructions_pads :
    let key := keyCorePad 0 0x1FFFFC
    let claimed := aided 0x1FFFFC 1 id (lastFull [(131071, 1)])
    ((0x1FFFFE : W32).toNat % 4 ≠ 0 ∧ (0x200000 : W32).toNat % 4 = 0 ∧ 0x200000 < (0x200000 : W32).toNat + 4 ∧
      (0x1FFFFC : W32).toNat + 4 ≤ 0x200000) ∧
    (aided 0x1FFFFC 0 id resting).hAsleep key = true ∧ (aided 0x1FFFFC 0 id id).hAsleep key = false ∧
    ((aided 0x1FFFFC 0 id id).core 0).fullFor 131071 (aided 0x1FFFFC 0 id id).hMark = false ∧
    ((aided 0x1FFFFC 0 id (lastFull [])).core 0).fullFor 131071 (aided 0x1FFFFC 0 id id).hMark = true ∧
    claimed.writeStalls claimed.hMark (0, 131071) = true ∧ claimed.hMark ≠ 1 ∧
    (aided 0x1FFFFF 1 id id).writeStalls claimed.hMark (0, 131071) = false := by decide +kernel

/-- Words from partition 15, sealed or not. -/
def letters (sealed_ : List Bool) : State := aided 15 7 (fun h => { h with inbox := sealed_.map fun b => (15, 7, b, 0) }) id

/-- Words for partition 15 that are in its mailbox, and the bytes held. -/
def posting (n holdb : Nat) : State :=
  aided 15 7 (fun h => { h with holdb, work := { h.work with hold := List.replicate n (.mail 15 7) } }) id

theorem witness_HelperInstructions_mail :
    ((aided 0 0 id id).hlp.elems = [] ∧ (aided 0 0 (fun h => { h with elems := [⟨5, 0⟩] }) id).hlp.elems = [⟨5, 0⟩]) ∧
    ((letters [false, true]).hlp.inbox = [(15, 7, false, 0)] ++ (15, 7, true, 0) :: [] ∧
      ∀ w ∈ (letters [false]).hlp.inbox, ¬(w.1 = 15 ∧ w.2.2.1 = true)) ∧
    8 ≤ (((posting 8 0).core 0).box 15 0).length + heldMail 15 (posting 8 0).hlp.work.hold ∧
    ((((posting 7 65521).core 0).box 15 0).length + heldMail 15 (posting 7 65521).hlp.work.hold < 8 ∧
      (65536 : Nat) < (posting 7 65521).hlp.holdb + 16) ∧ (posting 7 65520).hlp.holdb + 16 ≤ 65536 ∧
    (let s := aided 0 0 (fun h => { h with quietAt := 1 }) id
     s.hFault = none ∧ ¬(s.hlp.quietAt ≤ s.dcc)) := by decide +kernel

/-- The helper in a seal. -/
def sealing (change : Helper → Helper) : State :=
  aided 0 0 (fun h => change { h with wait := some (.seal, 0), work := { h.work with claims := [keyCorePad 0 0], hold := [.mail 15 7] } }) id

theorem witness_HelperInstructions_steps :
    ((aided 0 0 id id).hFault = none ∧ (aided 0 0 id id).hlp.quietAt ≤ (aided 0 0 id id).dcc ∧ (aided 0 0 id id).hQuiet = true) ∧
    (aided 0 0 (fun h => { h with faults := [(0, 9)] }) id).hFault = some (0, 9) ∧
    (((sealing id).findHelper State.hSealWaits).map fun t => (t.hFault, decide (t.hlp.quietAt ≤ t.dcc))) = some (none, true) ∧
    (((sealing fun h => { h with faults := [(0, 9)] }).findHelper State.hSealWaits).map (·.hFault)) = some (some (0, 9)) ∧
    ([false, true] : List Bool).all (fun inTrap =>
      ({ (aided 0 0 (fun h => { h with inTrap, wait := some (.mbr 15, 0) }) id) with dcc := 2 ^ 24 }.findHelper State.hLate).isSome) = true ∧
    ([2, 3] : List Nat).all (fun retry =>
      ((sealing fun h => { h with retry, charged := some .core }).findHelper fun t => t.hlp.charged.isSome).isSome) = true ∧
    State.reset.findHelper State.hSealWaits = none ∧ State.reset.findHelper State.hLate = none ∧
    State.reset.findHelper (fun t => t.hlp.charged.isSome) = none ∧ corePadOf (keyCorePad 0 0) = some (0, 0) := by decide +kernel

/-- Opcode and function of a word. -/
def rvOp (w : BitVec 32) : Nat × Nat := ((w.extractLsb' 0 7).toNat, (w.extractLsb' 12 3).toNat)

theorem witness_HelperRiscv :
    (rvExpand 0 = none ∧ (rvExpand 0x0505).isSome = true ∧ (0x0505 : BitVec 32).extractLsb' 0 2 ≠ (3 : BitVec 2)) ∧
    ([(0x000000B7, 0x37, 0), (0x00000097, 0x17, 0), (0x000000EF, 0x6F, 0), (0x000080E7, 0x67, 0), (0x00000063, 0x63, 0), (0x00001063, 0x63, 1),
      (0x00004063, 0x63, 4), (0x00005063, 0x63, 5), (0x00006063, 0x63, 6), (0x00007063, 0x63, 7), (0x00008093, 0x13, 0), (0x00209093, 0x13, 1),
      (0x0000A093, 0x13, 2), (0x0000B093, 0x13, 3), (0x0000C093, 0x13, 4), (0x4020D093, 0x13, 5), (0x0000E093, 0x13, 6), (0x0000F093, 0x13, 7),
      (0x402080B3, 0x33, 0), (0x022080B3, 0x33, 0), (0x022090B3, 0x33, 1), (0x0220A0B3, 0x33, 2), (0x0220B0B3, 0x33, 3), (0x0220C0B3, 0x33, 4),
      (0x0220D0B3, 0x33, 5), (0x0220E0B3, 0x33, 6), (0x0220F0B3, 0x33, 7), (0x0000000F, 0x0F, 0), (0x34009073, 0x73, 1), (0x3400F073, 0x73, 7),
      (0x0000007F, 0x7F, 0)] : List (BitVec 32 × Nat × Nat)).all (fun (w, r) => rvOp w == r && w.extractLsb' 0 2 == (3 : BitVec 2)) = true ∧
    (([(0x00008083, 1), (0x00009083, 2), (0x0000A083, 4), (0x0000C083, 1), (0x0000D083, 2)] : List (BitVec 32 × Nat)).all (fun (w, n) =>
      (rvOp w).1 == 0x03 && ((aided (0x200000 - BitVec.ofNat 32 n) 0 id id).hKey (0x200000 - BitVec.ofNat 32 n) n).isSome
        && ((aided 0x200000 0 id id).hKey 0x200000 n).isNone) = true) ∧
    (rvOp 0x0020A023 = (0x23, 2) ∧ rvOp 0x00208023 = (0x23, 0) ∧ (0x1FFFFE : W32).toNat % 4 ≠ 0) ∧
    ((aided 0x1FFFFC 0 id resting).hAsleep (keyCorePad 0 0x1FFFFC) = true ∧ (aided 0x1FFFFC 0 id id).hAsleep (keyCorePad 0 0x1FFFFC) = false ∧
      (let s := aided 0x1FFFFC 0 id (lastFull [(131071, 1)])
       s.writeStalls s.hMark (0, 131071) = true) ∧
      (aided 0x1FFFFC 0 id id).writeStalls (aided 0x1FFFFC 0 id id).hMark (0, 131071) = false) ∧
    (((aided 0x11FFFFFC 0 id id).hKey 0x11FFFFFC 4).any (fun k => (corePadOf k).isNone) = true ∧
      (posting 0 65532).hlp.holdb + 4 ≤ 65536 ∧ (65536 : Nat) < (posting 0 65533).hlp.holdb + 4) ∧
    ((Helper.reset 0 0).csr 0x999 = none ∧ (Helper.reset 0 0).csr 0xF11 = some 0 ∧ ((Helper.reset 0 0).csr 0x340).isSome = true) := by
  decide +kernel

/-! ### Events of tile tasks and scheduling -/

/-- The task in a wait that began at tick 0, at a tick. -/
def inWait (dcc : Nat) (k : WaitKind) : State :=
  let s := withG []
  { s.setFlow { s.task.flow with wait := some ⟨k, 0, false, 0⟩ } with dcc }

/-- The same with a fault of its bolt. -/
def faulty (s : State) : State := s.setEng { s.task.eng with faults := [⟨1, 0, 4, 3, 7⟩] }

/-- The loader waits with hsk.few on the last granule of its pad, which is full. -/
def fewWaits : State := aided 0 0 (fun h => { h with wait := some (.few 0x1FFFFC 31 true, 5) }) (lastFull [])

/-- A task waits for the same granule since tick 0. -/
def loadWaits : State :=
  { inWait 9 (.fullEmpty [0xF000001FFFFC]) with hlp := fewWaits.hlp, cores := fewWaits.cores }

/-- An operation that was a bolt of its own has sealed. -/
def ownOver : State := onTest fun t => { t with bolt := { t.bolt with own := some ⟨.lease, 0, some 0, .reset, 1⟩ } }

theorem witness_WaitsEnd :
    ([(State.streamServed, inWait 0 (.stream 7 true 0)), (State.streamServed, inWait 0 (.stream 7 false 65536)),
      (State.deqServed, inWait 0 (.deq 3)), (State.sealDue, inWait 0 (.seal 0)), (State.sealDue, faulty (inWait 0 (.seal 0))),
      (State.ownDone, ownOver), (State.sealLate, inWait (2 ^ 26) (.seal 0)), (State.sealLate, faulty (inWait (2 ^ 26) (.seal 0))),
      (State.loadLate, inWait (2 ^ 24) (.fullEmpty [0xF00000000000])), (State.streamLate, inWait (2 ^ 24) (.stream 7 true 1)),
      (State.mailboxLate, inWait (2 ^ 24) (.mailbox 5))] : List ((State → Bool) × State)).all (fun (test, s) => (s.findTask test).isSome) = true ∧
    ((inWait 0 (.seal 0)).sealFault.isNone = true ∧ (inWait 0 (.seal 0)).findTask State.ownDone = none ∧
      (faulty (inWait 0 (.seal 0))).sealFault.isSome = true ∧ (faulty (inWait 0 (.seal 0))).boltFault.isSome = true) ∧
    (inWait (2 ^ 24) (.fullEmpty [0xF00000000000])).fullAt 0xF00000000000 = false ∧ (inWait 0 (.seal 0)).task.bolt.handler = false ∧
    ((fewWaits.firstHelper).isSome = true ∧ fewWaits.firstServed State.loadServed = none) ∧
    ((loadWaits.firstServed State.loadServed).isSome = true ∧ loadWaits.firstHelper.any (fun v =>
      decide (loadWaits.task.flow.wait.elim 0 (·.since) ≤ v.hlp.wait.elim 0 (·.2))) = true) ∧
    ([State.streamServed, State.deqServed, State.ownDone, State.sealDue, State.sealLate, State.loadLate, State.streamLate, State.mailboxLate,
      State.noticeReady, State.endDue, State.overBudget, State.preemptReady, fun t => t.task.bolt.charged.isSome] : List (State → Bool)).all
      (fun test => (State.reset.findTask test).isNone) = true ∧
    State.reset.firstServed State.loadServed = none ∧ State.reset.firstHelper = none := by decide +kernel

/-- The task with a notice of the lowest class and one of another. -/
def noticed : State := (withG []).setFlow { (withG []).task.flow with notices := [⟨9, 5⟩, ⟨7, 6⟩] }

/-- The task out of its budget of one unit. -/
def spent : State := { (onTest fun t => { t with id := { t.id with budget := 1 } }) with dcc := 4096 }

theorem witness_TasksAreInterrupted :
    ((withG []).task.id.live = true ∧ mayTrapAt (withG []) = true ∧ inHandler.task.bolt.handler = true ∧ State.reset.task.id.live = false) ∧
    (noticed.findTask State.noticeReady).isSome = true ∧ (spent.findTask State.overBudget).isSome = true ∧
    (((inWait 0 .taskEnd).findTask State.endDue).isSome = true ∧ sealableAt (inWait 0 .taskEnd) = true ∧
      ((inWait 0 .taskEnd).afterQuiet.sealNow 0).commandsDone = true ∧
      ((inWait 0 .taskEnd).afterQuiet.sealNow 0).task.eng.oldestFault [0, 1, 2, 3] = none) := by decide +kernel

/-- The task with an error charged to its bolt, after some replays. -/
def chargedTask (src : ErrSource) (pa retry : Nat) (own : Option OwnBolt) : State := onTest fun t =>
  { t with bolt := { t.bolt with charged := some ⟨src, 5, pa⟩, retry, own, work := { t.bolt.work with claims := [keyCorePad 0 0] } } }

/-- A task in its handler, the interrupted bolt having number 4. -/
def outerBolt : State := onTest fun t => { t with bolt := { t.bolt with handler := true, outer := some { BoltWork.reset with num := 4 } } }

/-- A chain that moves 64 bytes, after some repetitions. -/
def repeating (tries : Nat) (dst : W64) : State :=
  let s := chainAt 1 0xF00000000000 0xF00000002000 (some { chainCmd false with dst })
  s.setChain 0 15 { s.chain 0 15 with tries }

theorem witness_ErrorsReplayBolts :
    (let x := (withG []).task
     ((withG []).taskAt ⟨0, 0⟩).isSome = true ∧ x.entering 0 = false ∧ x.bolt.work.num < 2 ^ 32 ∧ x.bolt.charged = none) ∧
    (outerBolt.taskAt ⟨0, 0⟩ = some outerBolt.task ∧ outerBolt.task.bolt.outer = some { BoltWork.reset with num := 4 } ∧
      outerBolt.task.entering 0 = false ∧ (4 : Nat) ≠ outerBolt.task.bolt.work.num ∧ outerBolt.task.bolt.outCharged = none) ∧
    ([(repeating 2 0xF00000001000, true), (repeating 3 0xF00000001000, false), (repeating 0 0xF00000002000, false)] : List (State × Bool)).all
      (fun (s, again) => (s.chain 0 15).state == 1 && decide (15 < (s.die 0).chains.length) && (s.chain 0 15).pend.isNone
        && (s.chain 0 15).cmd.any fun x => (decide ((s.chain 0 15).tries < 3) && !s.chainOverlaps (s.chain 0 15) x) == again) = true ∧
    ([chargedTask .core 0 2 none, chargedTask .core 0 2 (some ⟨.rmw, 3, none, .reset, 4⟩), chargedTask .core 0 3 none,
      chargedTask .memory (2 ^ 38) 3 none] : List State).all (fun s =>
        (s.findTask fun t => t.task.bolt.charged.isSome).isSome && !s.task.bolt.handler) = true ∧
    corePadOf (keyCorePad 0 0) = some (0, 0) := by decide +kernel

/-- A packet of kernel 5 with 192 tiles, one to a core. -/
def packet192 (prio stand : Nat) : List Byte :=
  [5, 0, 0, 2 ^ 60 + 191, prio * 2 ^ 20 + stand * 2 ^ 25, 0, 0, 0, 0, 0, 7, 0, 0, 0, 0, 0].flatMap (bytesOfNat 8)

/-- Its node, ready since tick 0. -/
def readyNode (queue prio stand : Nat) : Node where
  queue; seq := 0; slot := 0; func := 0; packet := packet192 prio stand; state := .ready 0; entry := true; detlvl := 0; preds := []
  trigger := false; started := []; left := []; clusters := []; dies := []; device := 192; fault := none; failed := false
  frozen := false; degr := 0; ubrst := 0; repl := 0; spec := none; buffer := []

def kernel5 : Kernel where
  handle := 5; pe := 0; ke := 1; ee := 2; tvec := 3; clim := 4; dict := [BitVec.ofNat 384 0]; stream := 0; gran := 32; abind := 15
  nbind := 255; pads := []; loader := none; storer := none; starts := none

/-- A device with that kernel and nodes at a tick. -/
def launching (dcc : Nat) (nodes : List Node) : State := { State.reset with kernels := [kernel5], nodes, dcc }

/-- The task of queue 0, whose node has started on core 0, beside a candidate of a class. -/
def pressed (prio : Nat) : State :=
  { withG [] with
    kernels := [kernel5], dcc := 2 ^ 20,
    nodes := [{ readyNode 0 3 0 with started := setCounter [] 0 1 }, readyNode 1 prio 0] }

theorem witness_TasksStart :
    ([0, 1] : List Nat).all (fun stand =>
      let s := launching 0 [readyNode 63 0 stand]
      (s.startOn 0).isSome && (s.startCandidate 0 (readyNode 63 0 stand)).isSome && s.hasTurn (readyNode 63 0 stand) 0) = true ∧
    packetStand (packet192 0 1) = 1 ∧ packetStand (packet192 3 0) = 0 ∧
    ((launching 0 [readyNode 63 0 0]).startTile 0 63 0).isSome = true ∧ State.reset.startOn 0 = none ∧
    (((launching (2 ^ 22 + 1) [readyNode 63 0 0]).agedOn 0).isSome = true ∧ ((launching (2 ^ 22) [readyNode 63 0 0]).agedOn 0).isNone = true) ∧
    (((pressed 0).preemptOn 0).any (fun r => ((pressed 0).taskAt r).isSome) = true ∧ (pressed 3).preemptOn 0 = none) := by decide +kernel

/-- The task asked to leave, at a pre-emption point. -/
def leavingTask : State := (withG []).setFlow { (withG []).task.flow with preempt := true, safe := true }

def savedOne : SavedTask := ⟨0, { testTask with id := { testTask.id with live := false, kernel := 5 } }, [], []⟩

/-- Logical cores 0 and 1 share physical core 0 of cluster 0. -/
def sharing : State := State.reset.setCluster 0 { Cluster.reset 0 with map := 0xBA9876543200, tsh := 3 }

theorem witness_TasksLeaveAndReturn :
    (leavingTask.findTask State.preemptReady).isSome = true ∧
    (let s := { launching 0 [] with saved := [savedOne] }
     s.saved[0]? = some savedOne ∧ (s.resumeTask savedOne).isSome = true) ∧
    ((State.reset.saved[0]?).bind State.reset.resumeTask).isNone = true ∧
    (sharing.switchDue 0 0 = some (0, 1) ∧ (State.reset.switchDue 0 0).isNone = true ∧ 0 < (sharing.cluster 0).resident.length) := by
  decide +kernel

/-- The task at the start of its restart, with granules in the pool. -/
def regaining (free : Nat) : State :=
  let s := onTest fun t => { t with id := { t.id with vstart := 32, vgran := 0 } }
  s.setCore { s.myCore with freeGran := free }

theorem witness_CoresAreShed :
    State.reset.hostedBy 0 12 = [] ∧ State.reset.pkg.state ≠ 1 ∧ State.reset.hostedBy 0 0 = [12 * 0 + 0] ∧
    State.reset.hostedBy 15 11 = [12 * 15 + 11] ∧ (State.reset.cluster 15).shed < 4 ∧ (State.reset.cluster 15).spare < 15 ∧
    (regaining 32).task.id.vstart ≤ (regaining 32).myCore.freeGran ∧ (regaining 31).myCore.freeGran < (regaining 31).task.id.vstart := by
  decide +kernel

/-! ### The die -/

/-- A device at tick 512 with an event of that tick. -/
def withEvent (k : EventKind) : State := { State.reset with dcc := 512, events := [⟨512, 0, 0, k⟩] }

/-- A device-fed queue 63 that is enabled. -/
def fedQueue : State := State.reset.setQueue 63 { Queue.reset with qcfg := 0x18000000, on := true }

/-- Function 15 with records in its event ring since tick 0, an interrupt configuration and its MSI-X state. -/
def ringing (cfg : W64) (on masked : Bool) : State :=
  { State.reset.setFn 15 { FnRegs.reset with since := 3, first := some 0, ring := (0, cfg, 0), msixOn := on, msixMask := masked, msix := [0, 0, 0, 0] } with
    dcc := 7 }

theorem witness_DecisionTicks :
    State.reset.decisionTick = none ∧ (withEvent (.trigger 63)).decisionTick = some 512 ∧
      { withEvent (.trigger 63) with dcc := 511 }.decisionTick = none ∧
    (fedQueue.appendable 63 = true ∧ (packet192 3 0).length = 128 ∧ packetDet (packet192 3 0) ≤ 3) ∧
    (((launching 0 [readyNode 63 0 0]).nodeAt 63 0).any fun n => !n.frozen) = true ∧ (State.reset.specs.find? fun y => y.of 0 0 && y.k == 0) = none ∧
    ([((3 * 2 ^ 16 + 32 : W64), true), (4 * 2 ^ 16 + 32, false), (0, false), (4 * 2 ^ 16 + 32 + 7 * 2 ^ 32, true)] : List (W64 × Bool)).all (fun (cfg, due) =>
      let r := (ringing cfg true false).fn 15
      (r.ring.2.1.getLsbD 5 && r.since != 0 && (decide (Nat.max 1 (r.ring.2.1.extractLsb' 16 16).toNat ≤ r.since)
        || (r.ring.2.1.extractLsb' 32 32 != 0 && r.first.any fun k => decide (k + (r.ring.2.1.extractLsb' 32 32).toNat ≤ 7)))) == due) = true := by
  decide +kernel

/-- Function 0 with one leaf of 1 GiB at virtual address 0, in plots 512 and on, the first of them common. -/
def mapped (flags : Nat) : State :=
  { State.reset with
    fns := [(0, { FnRegs.reset with troot := 0x200001 })],
    mem := [(4096, 2), (0x200000, 1), (0x200001, 0x10), (0x200002, 0x20), (0x201000, BitVec.ofNat 8 flags), (0x201003, 0x40)] }

/-- An invalidation of page 0 of function 0, with a translation in its scope and requests under way. -/
def invalidating (rmwQ : List Rmw) : State :=
  { withG [] with tlb := [⟨0, 0, 0, 65536, 2 ^ 21, true⟩], dev := { DevRegs.reset with tinv := some 0 }, rmwQ }

/-- The task in a seal that transfers plot 1, which its core owns. -/
def transferring : State :=
  let s := { inWait 0 (.seal 0) with mem := State.reset.mem.write 8 1 }
  s.setBolt { s.task.bolt with work := { s.task.bolt.work with hold := [.pxfer 1 2 0] } }

/-- Changes of plot 1 and of ADPLOT in progress. -/
def plotChange : State := { State.reset with dev := { DevRegs.reset with plreq := some 0x100000001 } }
def runChange : State := { State.reset with dev := { DevRegs.reset with adreq := some 0x80000000 } }

theorem witness_ControllerSteps :
    (({ State.reset with tlb := [⟨0, 0, 0, 65536, 2 ^ 21, true⟩] } : State).tlb.any fun x => x.cluster == 0 && x.fn == 0
      && decide (x.va ≤ 65535 ∧ 65535 < x.va + x.size))
      = true ∧
    errs (State.reset.walk 0 0 false) = true ∧ errs ((mapped 3).walk 0 0 true) = true ∧
    gives ((mapped 7).walk 0 (2 ^ 30 - 1) true) (fun x => x.size == 2 ^ 30 && x.pa == 2 ^ 30) = true ∧ (mapped 7).tlb = [] ∧
    (State.reset.dev.tinv = none ∧ (invalidating []).tinvReady 0 = true ∧
      (invalidating [⟨2 ^ 15, ⟨0, 0⟩, 0, 2 ^ 21, 8, true, 8, 0, 0, 5, 0⟩]).tinvReady 0 = false) ∧
    ((transferring.findTask fun t => t.transfers 1 && t.sealDue).isSome = true ∧ transferring.sealFault.isNone = true ∧
      transferring.buffered = false ∧
      transferring.releasedCount transferring.task.releaser ≤ transferring.task.bolt.relNo ∧ transferring.plotState 1 = 1 ∧
      transferring.plotOwner 1 = transferring.task.id.lcore) ∧
    (State.reset.findTask fun t => t.transfers 1 && t.sealDue).isNone = true ∧
    (State.reset.plotDrained = false ∧ State.reset.runDrained = false ∧ plotChange.drainedByAll 1 = true ∧ runChange.plotDrained = false) ∧
    ((List.range 1024).all fun i => runChange.drainedByAll (runChange.adRun 0x80000000 + i)) = true ∧ (2 ^ 30 - 1 : Nat) < 2 ^ 30 := by decide +kernel

/-- A gauge that has counted its five bytes, its action and re-arming given. -/
def ripeGauge (action rearm : Nat) : BitVec 256 := BitVec.ofNat 256 (action + 8 * rearm + 64 + 63 * 2 ^ 128 + 5 * 2 ^ 168 + 5 * 2 ^ 208)

theorem witness_GaugesFire :
    ([(⟨false, 15, 31⟩, 1, 0), (⟨true, 1, 255⟩, 2, 1), (⟨true, 0, 0⟩, 3, 0)] : List (GaugeRef × Nat × Nat)).all (fun (r, action, rearm) =>
      let s := { State.reset.setGauge r (ripeGauge action rearm) with stands := [{ standOf 1 1 with gauge := some r.gid }] }
      let x := s.gauge r
      x.getLsbD 6 && decide ((x.extractLsb' 168 40).toNat ≤ (x.extractLsb' 208 40).toNat) && (x.extractLsb' 0 3).toNat == action
        && s.stands.any fun z => z.gauge == some r.gid) = true ∧
    (State.reset.gauge ⟨true, 0, 0⟩).getLsbD 6 = false := by decide +kernel

/-! ### The package and the host -/

/-- A lane group. -/
def lanes (spare state same : Nat) (fails : List (Nat × Nat)) : LaneGroup := ⟨0, 0, spare, state, fails, same, 0⟩

/-- The device after its boot with its lane groups and ports, the last one given. -/
def linked (x : LaneGroup) : State :=
  { State.reset with
    pkg := { Package.reset with groups := List.replicate 15 (lanes 0 2 0 []) ++ [x] }
    ports := List.replicate 7 PortState.reset ++ [{ PortState.reset with lanes := x }]
    dev := { DevRegs.reset with bootstage := 6 } }

/-- The device with rail 3 at a tick. -/
def railed (dcc : Nat) (x : Rail) : State :=
  { State.reset with dcc, pkg := { Package.reset with rails := Package.reset.rails.set 3 x } }

theorem witness_LinksRailsAndFailures :
    ([(lanes 0 2 0 [], false), (lanes 1 0 7 [], false), (lanes 2 0 0 (List.replicate 16 (3, 0)), true), (lanes 0 0 0 (List.replicate 16 (3, 0)), true),
      (lanes 0 0 0 (List.replicate 15 (3, 0) ++ [(4, 0)]), false)] : List (LaneGroup × Bool)).all (fun (x, due) =>
      (linked x).laneGroup (.group 15) == x && (linked x).laneGroup (.port 7) == x && decide (15 < (linked x).pkg.groups.length ∧
        7 < (linked x).ports.length)
        && (x.state == 0 && x.fails.any fun f => decide (16 ≤ (x.fails.filter fun h => h.1 = f.1 ∧
        (linked x).dcc < h.2 + 2 ^ 24).length)) == due) = true ∧
    (State.reset.dev.bootstage < 3 ∧ (linked (lanes 0 0 0 [])).linkLost = false ∧ (lanes 0 1 0 []).retrained ≤ 0) ∧
    (State.reset.dieFailed 1 = false ∧ ({ State.reset with pkg := { Package.reset with failed := 2 } } : State).dieFailed 1 = true ∧
      ({ Package.reset with adplot := 0x80000000 } : Package).adplot.getLsbD 31 = true) ∧
    (State.reset.pkg.shore.getLsbD 1 = false ∧ ({ Package.reset with shore := 2 } : Package).shore.getLsbD 1 = true) ∧
    (3 < State.reset.pkg.rails.length ∧ State.reset.dcc / 1100 = (State.reset.rail 3).sampled ∧
      (railed 1100 Rail.reset).dcc / 1100 ≠ Rail.reset.sampled) ∧
    ([(0, ⟨0, true, 7, 7, 0, 1, 0, 0⟩), (1100, ⟨0, false, 7, 7, 6, 0, 0, 0⟩), (1100, ⟨0, false, 6, 7, 7, 0, 0, 0⟩), (1100, ⟨0, false, 7, 5, 5, 0, 0, 0⟩)] :
      List (Nat × Rail)).all (fun (dcc, x) => (railed dcc x).rail 3 == x && (x.ramp || decide (dcc / 1100 ≠ x.checked))) = true ∧
    (State.reset.dcc / 2 ^ 35 = (State.reset.growth .heat).slot ∧ (2 ^ 35 : Nat) / 2 ^ 35 ≠ (State.reset.growth .nand).slot) ∧
    ((0 : Int) < 1 ∧ (0 : Int) < growthLimit .heat ∧ (growthLimit .heat - 0) * 1 / 1 < 2 ^ 24 ∧ (-1 : Int) ≤ 0) := by decide +kernel

/-- The package with its checkpoint engine in a state. -/
def checkpointing (ckstate : Nat) (dying bank : Bool) : State :=
  { State.reset with
    mem := State.reset.mem.write 8 1, dev := { DevRegs.reset with bootstage := 6 }
    pkg := { Package.reset with ckstate, dying, bank, saved := [(0, 1)] } }

theorem witness_CheckpointsAndResets :
    ([0, 1, 2] : List Nat).all (fun k => (checkpointing k true true).pkg.ckstate == k && (checkpointing k true true).mem.wf) = true ∧
    ((checkpointing 1 false false).pkg.ckslot < 4 ∧ (checkpointing 1 false false).plotState 1 = 1 ∧ (checkpointing 2 false false).pkg.shore = 0 ∧
      (0, 1) ∈ (checkpointing 2 false false).pkg.saved ∧ (checkpointing 2 false false).pkg.newest = 0) ∧
    (({ checkpointing 2 false false with mem := State.reset.mem.write 16 4 } : State).plotState 2 = 4 ∧
      (0, 2) ∉ (checkpointing 2 false false).pkg.saved) ∧
    ((withG []).taskAt ⟨0, 0⟩).any (·.id.live) = true ∧ State.reset.pkg.plck = true ∧
    (State.reset.dev.booterr = 0 ∧ State.reset.dev.bootstage < 6 ∧ 6 ≤ (checkpointing 0 false false).dev.bootstage) := by decide +kernel

/-- A flit of one payload byte with a sequence number. -/
def someFlit (seq : Nat) : List Byte := PortState.reset.flit seq 1 [5]

/-- The task with a notice of class 9, or without. -/
def told (n : List Notice) : State := (withG []).setFlow { (withG []).task.flow with notices := n }

theorem witness_HostAndPorts :
    (7 < State.reset.ports.length ∧ (State.reset.port 7).lanes.state = 0 ∧ flitFields [] = none) ∧
    ((flitFields (someFlit 0)).any fun f => f.seq == 0 && f.vc == 0 && f.type == 1) = true ∧
    ((flitFields (someFlit 65535)).any fun f => f.seq == 65535) = true ∧
    (let p := { PortState.reset with sent := [(3, 0, 1, [5]), (4, 0, 1, [6])] }
     p.sent = [(3, 0, 1, [(5 : Byte)])] ++ (4, 0, 1, [(6 : Byte)]) :: [] ∧
       (∀ y ∈ [((3 : Nat), (0 : Nat), (1 : Nat), [(5 : Byte)])], y.1 ≠ 4) ∧ p.since + 4096 ≤ 4096) ∧
    ((mapped 7).hostAddresses 0 (2 ^ 21 - 1) 1 true).isSome = true ∧ ((mapped 7).hostAddresses 0 (2 ^ 21 - 1) 2 false).isNone = true ∧
    ((mapped 3).hostAddresses 0 0 8 false).isSome = true ∧ ((mapped 3).hostAddresses 0 0 8 true).isNone = true ∧
    (2 ^ 39 - 8 + [(0 : Byte), 1, 2, 3, 4, 5, 6, 7].length ≤ 2 ^ 39) ∧
    (((told []).tasks.find? (·.named 0 0 0)).any fun x => !x.noticed && ((told []).taskAt x.ref).isSome) = true ∧
    (((told [⟨9, 5⟩]).tasks.find? (·.named 0 0 0)).any (·.noticed)) = true ∧
    ((State.reset.tasks.all fun x => !x.named 0 0 0) && (State.reset.saved.all fun x => !x.task.named 0 0 0)) = true ∧
    ((State.reset.queue 0).func = 0 ∧ (State.reset.queue 63).func ≠ 15) := by decide +kernel

theorem witness_QueueAndRingRegisters :
    (let s := State.reset.setQueue 63 { Queue.reset with qcfg := BitVec.ofNat 64 (15 * 2 ^ 23 + 4 * 2 ^ 19) }
     (s.queue 63).func = 15 ∧ (s.queue 63).lsize = 4 ∧ s.standQueue 63 = false ∧ ((16 : BitVec 32) - (s.queue 63).qtail).toNat ≤ 2 ^ 4 ∧
     2 ^ 4 < ((17 : BitVec 32) - (s.queue 63).qtail).toNat ∧ (s.queue 63).qcfg.getLsbD 27 = false ∧ (s.queue 63).qcfg.getLsbD 28 = false) ∧
    (fedQueue.queue 63).qcfg.getLsbD 28 = true ∧ (fedQueue.queue 63).qcfg.getLsbD 27 = true ∧ (State.reset.queue 0).func ≠ 1 ∧
    (let s := { State.reset with dev := { DevRegs.reset with mdq := 1, mdpos := 1 } }
     s.standQueue 0 = true ∧ s.position.1 ≠ 0) ∧
    ((State.reset.helperAt 191 1).mode ≠ .running ∧ ((aided 0 0 id id).helperAt 0 0).mode = .running) := by decide +kernel

/-- ADPLOT is enabled, and a logical core is time-shared or not. -/
def setAside (tsh : BitVec 12) : State :=
  { State.reset.setCluster 15 { Cluster.reset 15 with tsh } with pkg := { Package.reset with adplot := 0x80000000 } }

theorem witness_DeviceRegisters :
    ((State.reset.plotState 1 ≠ 5 ∧ State.reset.dev.plreq.isSome = false ∧ State.reset.dev.adreq.isSome = false) ∧
      plotChange.dev.plreq.isSome = true ∧ runChange.dev.adreq.isSome = true) ∧
    ((130048 : Nat) % 2 = 0 ∧ 130048 + 1023 ≤ 131071 ∧ State.reset.pkg.adplot.getLsbD 31 = false ∧
      ((List.range 1024).all fun i => State.reset.plotState (130048 + i) == 0) = true) ∧
    ((setAside 0).pkg.adplot.getLsbD 31 = true ∧ (setAside 0).pkg.state = 0 ∧ ((List.range 192).all fun l => !(setAside 0).timeShared l) = true ∧
      (setAside 0x800).timeShared 191 = true) ∧
    (((withG []).taskAt ⟨0, 0⟩).any (·.id.live)) = true ∧ (leased 0 0 ⟨1, 7, 0, 0, 0, none, none⟩).task.lease.lvl ≠ 0 ∧
    ((State.reset.tasks.all fun x => !x.id.live) && State.reset.queues.isEmpty) = true ∧
    (({ State.reset with pkg := { Package.reset with valid := 1 } } : State).pkg.valid.getLsbD 0 = true ∧ State.reset.pkg.ckstate = 0 ∧
      (checkpointing 1 false false).pkg.ckstate ≠ 0) := by decide +kernel

/-- Below 64 KiB every address goes through the same entries of the tables. -/
theorem walkFrom_low (m : Memory) (poison : List Nat) (va : Nat) (w : Bool) (h : va < 65536) :
    ∀ fuel lv t, walkFrom m poison va w lv t fuel = walkFrom m poison 0 w lv t fuel := by
  have hi : ∀ lv, walkIndex va lv = walkIndex 0 lv := by
    intro lv
    unfold walkIndex
    split <;> simp only [bitsOf] <;> omega
  intro fuel
  induction fuel with
  | zero => intro lv t; rfl
  | succ n ih => intro lv t; simp only [walkFrom, hi, ih]

theorem mapM_range {f : Nat → Option Nat} {g : Nat → Nat} : ∀ l : List Nat, (∀ i ∈ l, f i = some (g i)) → l.mapM f = some (l.map g) := by
  intro l
  induction l with
  | nil => intro _; rfl
  | cons a l ih =>
    intro h
    simp [List.mapM_cons, h a (by simp), ih fun i hi => h i (by simp [hi])]

/-- The first bytes of a function's memory where one leaf holds them all. -/
theorem low_keys (s : State) (w : Bool) (n : Nat) (hn : n ≤ 65536) (x : Leaf) (hw : s.walk 0 0 w = .ok x) (hs : 65536 ≤ x.size)
    (hp : ∀ i, i < 65536 → s.plotState ((x.pa + i) / 2 ^ 21) = 2) :
    s.functionKeys 0 0 n w = some ((List.range n).map (x.pa + ·)) := by
  refine mapM_range _ fun i hi => ?_
  have hi : i < n := List.mem_range.mp hi
  have hk : s.walk 0 (0 + i) w = .ok x := by
    rw [← hw]
    simp only [State.walk, walkFrom_low _ _ (0 + i) w (by omega)]
  have hm : i % x.size = i := Nat.mod_eq_of_lt (by omega)
  simp only [hk]
  simp [hm, show ¬ (0xF00000000000 ≤ i) by omega]
  exact fun h => absurd (hp i (by omega)) h

/-- A code object of one native kernel: header, three sections, descriptor, a dictionary of one empty bundle and one halfword, signed with
a key for which every signature of this form holds. -/
def someObject : List Byte :=
  let header := bytesOfNat 4 0x32584B53 ++ bytesOfNat 2 1 ++ bytesOfNat 2 3 ++ bytesOfNat 8 408 ++ [0, 1] ++ bytesOfNat 2 1
    ++ List.replicate 12 0 ++ bytesOfNat 8 128 ++ List.replicate 88 0
  let entry := fun (type off stored : Nat) => bytesOfNat 8 type ++ bytesOfNat 8 off ++ bytesOfNat 8 stored ++ List.replicate 8 0
  let descriptor := List.replicate 16 0 ++ bytesOfNat 4 1 ++ bytesOfNat 4 1 ++ List.replicate 40 0
  header ++ entry 1 224 64 ++ entry 3 336 2 ++ entry 4 288 48 ++ descriptor ++ bytesOfNat 48 (bundleWord true 0 0 none none).toNat
    ++ List.replicate 8 0 ++ bytesOfNat 32 1 ++ bytesOfNat 32 0

/-- What is read of it. -/
def readBack : CodeObject := ⟨someObject, 0, 1, 1,
      [⟨1, false, 0, 224, 64, 0, 0, 0⟩, ⟨3, false, 0, 336, 2, 0, 0, 0⟩, ⟨4, false, 0, 288, 48, 0, 0, 0⟩]⟩

/-- That object at virtual address 0 of function 0, and its key in slot 1. -/
def loading (nat : Bool) : State :=
  let s := mapped 3
  { s with mem := s.mem ++ (cellsAt (2 ^ 30) someObject).filter (·.2 ≠ 0), keys := [(1, 1, nat)] }

/-- Object 0 of function 0, and a node that runs its kernel, completed or not. -/
def holdsObject (state : NodeState) : State := { launching 0 [{ readyNode 0 0 0 with state }] with objects := [(0, 1)] }

theorem witness_LoadsAndReports :
    (errs (State.reset.loadObject 0 0 0) = true ∧ (State.reset.fn 15).ldst.extractLsb' 0 2 ≠ (1 : BitVec 2)) ∧
    (loading true).mem.wf = true ∧
    ((holdsObject (.ready 0)).objectBusy 0 = true ∧ (holdsObject (.completed 0)).objectBusy 0 = false ∧
      (holdsObject (.ready 0)).objects = [(0, 1)] ∧ (0 : W64).toNat / 2 ^ 60 = 0) ∧
    State.reset.reportKeys 0 0 = none ∧
    ((State.reset.fn 0).atstate ≠ 1 ∧ (State.reset.queue 63).qcfg.getLsbD 27 = false) := by decide +kernel

theorem loading_bytes (n : Nat) (hn : n ≤ 408) : (loading true).functionBytes 0 0 n = some (someObject.take n) := by
  have hw : (loading true).walk 0 0 false = .ok ⟨2 ^ 30, 2 ^ 30, false⟩ := by decide +kernel
  have hp : (loading true).plotState 512 = 2 := by decide +kernel
  have hr : (List.range 408).map (fun i => (loading true).mem.read (2 ^ 30 + i)) = someObject := by decide +kernel
  unfold State.functionBytes
  rw [low_keys _ false n (by omega) _ hw (by decide) fun i hi => by rw [show (2 ^ 30 + i) / 2 ^ 21 = 512 by omega]; exact hp]
  rw [← hr, ← List.map_take, List.take_range, Nat.min_eq_left hn]
  simp [Function.comp_def]

theorem reads_as (s : State) (fn va n : Nat) (h b : List Byte) (o : CodeObject) (hh : s.functionBytes fn va 128 = some h)
    (hk : headerOk h = true) (hn : fieldAt h 8 8 = n) (hb : s.functionBytes fn va n = some b)
    (hx : sectionsOf n (fieldAt h 0x12 2) 0 (fieldAt h 6 2) (b.drop (fieldAt h 0x20 8)) = .ok o.sects)
    (ho : o = ⟨b, fieldAt h 0x10 1, fieldAt h 0x11 1, fieldAt h 0x12 2, o.sects⟩) (hm : o.mbvOk = true) : s.readObject fn va = .ok o := by
  simp only [State.readObject, hh, hk, hn, hb, hx, ← ho, hm, Bool.not_true, Bool.false_eq_true, if_true, if_false]

theorem loads_as (s : State) (fn src area : Nat) (o : CodeObject) (x : Assembled) (hr : s.readObject fn src = .ok o) (h1 : s.signed o = true)
    (hk : o.key ≠ 0) (h2 : s.nativeOk o = true) (h3 : s.versionOk o = true) (hx : s.assemble o = .ok x) :
    s.loadObject fn src area = s.placeObject fn area o x := by
  simp [State.loadObject, hr, h1, hk, h2, h3, hx]

theorem witness_LoadsAndReports_load : gives ((loading true).loadObject 0 0 (2 ^ 48 + 2 ^ 16)) (fun x => x.2.isSome) = true := by
  have hx : sectionsOf 408 (fieldAt (someObject.take 128) 0x12 2) 0 (fieldAt (someObject.take 128) 6 2)
      ((someObject.take 408).drop (fieldAt (someObject.take 128) 0x20 8)) = .ok readBack.sects := by decide +kernel
  have hr := reads_as (loading true) 0 0 408 _ _ readBack (loading_bytes 128 (by decide)) (by decide +kernel) (by decide +kernel)
    (loading_bytes 408 (by decide)) hx (by decide +kernel) (by decide)
  have h1 : (loading true).signed readBack = true := by decide +kernel
  have h2 : (loading true).nativeOk readBack = true := by decide +kernel
  have h3 : (loading true).versionOk readBack = true := by decide +kernel
  have h4 : gives ((loading true).assemble readBack) (fun x =>
    gives ((loading true).placeObject 0 (2 ^ 48 + 2 ^ 16) readBack x) (fun x => x.2.isSome)) = true := by decide +kernel
  cases hx : (loading true).assemble readBack with
  | error e => simp [hx, gives] at h4
  | ok x =>
    rw [loads_as (loading true) 0 0 (2 ^ 48 + 2 ^ 16) readBack x hr h1 (by decide) h2 h3 hx]
    rw [hx] at h4
    exact h4

theorem witness_LoadsAndReports_report : ((mapped 7).reportKeys 0 0).isSome = true := by
  have hw : (mapped 7).walk 0 0 true = .ok ⟨2 ^ 30, 2 ^ 30, true⟩ := by decide +kernel
  have hp : (mapped 7).plotState 512 = 2 := by decide +kernel
  unfold State.reportKeys
  rw [low_keys _ true 320 (by decide) _ hw (by decide) fun i hi => by rw [show (2 ^ 30 + i) / 2 ^ 21 = 512 by omega]; exact hp]
  decide +kernel

/-- The test port at an address of the read-out space, the device stopped with its pin high. -/
def probed (a : W64) : State :=
  { State.reset with tap := { Tap.reset with addr := a, stopped := true, pin := true, shiftIn := 1 } }

theorem witness_TestPort :
    (let a : W64 := 0x3FFFFFFFF8
     a.extractLsb' 60 4 = (0 : BitVec 4) ∧ (a.extractLsb' 0 51).toNat + 8 ≤ 2 ^ 38) ∧
    (let a : W64 := 0x180000000FFFFFF8
     a.extractLsb' 60 4 = (1 : BitVec 4) ∧ (a.extractLsb' 59 1).toNat = 1 ∧ (a.extractLsb' 0 51).toNat + 8 ≤ 2 ^ 28 ∧
       (probed a).dieFailed 1 = false) ∧
    (let a : W64 := 0x2780000001FFFFF8
     a.extractLsb' 60 4 = (2 : BitVec 4) ∧ (a.extractLsb' 55 4).toNat = 15 ∧ (a.extractLsb' 0 51).toNat + 8 ≤ 2 ^ 25 ∧
     (probed a).dieFailed (a.extractLsb' 58 1).toNat = false) ∧
    (let a : W64 := 0x37D80000001FFFF8
     a.extractLsb' 60 4 = (3 : BitVec 4) ∧ (a.extractLsb' 0 51).toNat + 8 ≤ 2 ^ 21 ∧
     (probed a).coreOn (a.extractLsb' 55 4).toNat (a.extractLsb' 51 4).toNat = some 191) ∧
    ((probed 0).tap.shiftIn.getLsbD 0 = true ∧ (probed 0).tap.pin = true ∧ (probed 0).tap.stopped = true ∧ (probed 0).pkg.dying = false) ∧
    State.reset.tap.stopped = false := by decide +kernel

end Sys2Proof.Tests
end

/-! Every step keeps the canonical form of memory, and what the device holds right after reset. The laws of
Machine/Run.lean continue those of Laws/CanonicalDevice.lean up to `step`. -/

namespace Sys2Proof.Machine

/-! ### Run.lean -/

@[simp] theorem State.holdLimit_mem (was t : State) : (was.holdLimit t).mem = t.mem := by
  unfold State.holdLimit
  split
  · exact State.lowerCaps_mem t
  · rfl

@[simp] theorem State.later_mem (was t : State) : (was.later t).mem = t.mem := by
  unfold State.later
  dsimp only
  split
  · exact State.holdLimit_mem was t
  · rw [State.tick_mem, State.restSkidders_mem, State.holdLimit_mem]

@[simp] theorem State.perform_canonical (s : State) (i : Instr) (h_s : s.mem.wf = true) :
    (s.perform i).canonical = true :=
  Out.andThen_canonical _ _ (exec_canonical i s h_s) fun t h_t => by rwa [canonical_next, State.later_mem]

@[simp] theorem State.issueNext_canonical (s : State) (h_s : s.mem.wf = true) : s.issueNext.canonical = true := by
  refine Out.andThen_canonical _ _ ?_ fun t h_t => by rwa [canonical_next, State.later_mem, State.rotate_mem]
  cases s.turn with
  | task => exact State.issueTask_canonical s h_s
  | helper => exact State.issueHelper_canonical s h_s

@[simp] theorem State.performFor_canonical (s : State) (i : Instr) (h_s : s.mem.wf = true) :
    (s.performFor i).canonical = true := by
  unfold State.performFor
  split
  · exact State.perform_canonical s i h_s
  · rwa [canonical_next, State.later_mem]

/-- What the outside world does is an instruction, or leaves memory as it is. -/
@[simp] theorem State.takeInput_canonical (s : State) (x : Input) (h_s : s.mem.wf = true) :
    (s.takeInput x).canonical = true := by
  cases x with
  | event i => exact State.performFor_canonical s i h_s
  | write fn off n v => exact State.performFor_canonical s _ h_s
  | pins | shiftIR => exact h_s
  | read | config | msixControl | barRead | barWrite | streamError => simp [State.takeInput, h_s]

@[simp] theorem State.ownStep_canonical (s : State) (h_s : s.mem.wf = true) : s.ownStep.canonical = true := by
  unfold State.ownStep
  split
  · exact State.perform_canonical _ _ h_s
  · split_ifs
    · exact h_s
    · exact State.perform_canonical _ _ h_s
    · rwa [canonical_next, State.later_mem]
    · cases s.due with
      | some i => exact State.perform_canonical s i h_s
      | none => exact State.issueNext_canonical s h_s

theorem step_canonical (s : State) (h_s : s.mem.wf = true) : Out.canonical (step s) = true := by
  unfold step State.oneStep
  split
  · exact State.takeInput_canonical _ _ h_s
  · split_ifs
    · exact State.ownStep_canonical s h_s
    · rfl

/-! ### Reset -/

/-- The state of a plot stands in the first byte of its entry (R327). -/
theorem State.plotState_eq_read (s : State) (p : Nat) : s.plotState p = (s.mem.read (8 * p)).toNat % 8 := by
  simp only [State.plotState, State.plotEntry, Memory.word, Memory.readBytes, natOfBytes]
  omega

theorem unlistedByte_of_ne_zero {k : Nat} (h : k ≠ 0) : unlistedByte k = 0 := if_neg h

/-- Memory that lists nothing reads as unlisted (R350, R420). -/
theorem reset_read (a : Nat) : State.reset.mem.read a = unlistedByte a := rfl

theorem reset_plotState_of_ne_zero {p : Nat} (h : p ≠ 0) : State.reset.plotState p = 0 := by
  rw [State.plotState_eq_read, reset_read, unlistedByte_of_ne_zero (by omega)]
  rfl

/-- A logical core that reset lists nothing for is as after reset (R17, R248, R258). -/
theorem reset_core (l : Nat) : State.reset.core l = Core.reset l := rfl

theorem reset_queue (q : Nat) : State.reset.queue q = Queue.reset := rfl

/-! ### The statements -/

/-- Settles O6: whichever of its branches a step takes, what it runs keeps the canonical form. -/
theorem stepsKeepMemoryCanonical : Obligations.StepsKeepMemoryCanonical := by
  intro s t h_s h
  have h_c := step_canonical s h_s
  rwa [h] at h_c

/-- Settles O7: reset lists nothing, so every part of the device reads as its own reset record, and memory as unlisted
bytes. That DCC starts at 0 is the choice of log 3, the zero of host memory and of the safe tier that of log 1. -/
theorem resetState : Obligations.ResetState := by
  refine ⟨rfl, rfl, rfl, rfl, rfl, rfl, rfl, rfl, rfl, rfl, rfl, rfl, fun l => ?_, reset_read, ?_,
    fun p => reset_plotState_of_ne_zero, fun q => ?_⟩
  · rw [reset_core]; exact ⟨rfl, rfl, fun g => ⟨rfl, rfl⟩⟩
  · rw [State.plotState_eq_read]; rfl
  · rw [reset_queue]; exact ⟨rfl, rfl⟩

end Sys2Proof.Machine

/-! Registers and latency windows: closing a window changes its own register alone, and by what that register holds alone,
so windows of different registers may be applied in any order (R29, R30). -/

namespace Sys2Proof.Machine

/-- What the files store in the register a window names (`RegWrite.target`). -/
def TaskRegs.holds (r : TaskRegs) : Nat × Nat → Nat
  | (0, n) => (r.storedG n).toNat
  | (1, n) => (r.p.getLsbD n).toNat
  | (2, n) => (r.storedM n).toNat
  | (3, n) => (r.storedV n).toNat
  | _ => 0

/-- The list of open windows does not count. -/
theorem TaskRegs.holds_wins (r : TaskRegs) (ws : List Window) (x : Nat × Nat) :
    TaskRegs.holds { r with wins := ws } x = r.holds x := rfl

theorem TaskRegs.holds_g_inj {r q : TaskRegs} {n : Nat} : r.holds (0, n) = q.holds (0, n) ↔ r.storedG n = q.storedG n :=
  BitVec.toNat_inj

theorem TaskRegs.holds_p_inj {r q : TaskRegs} {n : Nat} :
    r.holds (1, n) = q.holds (1, n) ↔ r.p.getLsbD n = q.p.getLsbD n := by
  simp only [TaskRegs.holds]
  cases r.p.getLsbD n <;> cases q.p.getLsbD n <;> decide

theorem TaskRegs.holds_m_inj {r q : TaskRegs} {n : Nat} : r.holds (2, n) = q.holds (2, n) ↔ r.storedM n = q.storedM n :=
  BitVec.toNat_inj

theorem TaskRegs.holds_v_inj {r q : TaskRegs} {n : Nat} : r.holds (3, n) = q.holds (3, n) ↔ r.storedV n = q.storedV n := by
  simp only [TaskRegs.holds, BitVec.toNat_inj]

/-! ### What one closed window stores -/

theorem TaskRegs.storedG_apply (r : TaskRegs) (w : RegWrite) (k : Nat) :
    (r.apply w).storedG k = match w with
      | .g n x => if k = n ∧ n ≠ 0 then x else r.storedG k
      | _ => r.storedG k := by
  cases w with
  | g n x => by_cases hn : n = 0 <;> simp [TaskRegs.apply, TaskRegs.storedG, hn]
  | p n x | m n x y => simp only [TaskRegs.apply]; split <;> rfl
  | v n x y => rfl

theorem TaskRegs.p_apply (r : TaskRegs) (w : RegWrite) (k : Nat) :
    (r.apply w).p.getLsbD k = match w with
      | .p n x => if k = n ∧ n ≠ 0 ∧ n < 16 then x else r.p.getLsbD k
      | _ => r.p.getLsbD k := by
  cases w with
  | p n x =>
    by_cases hn : n = 0
    · simp [TaskRegs.apply, hn]
    · by_cases h16 : k < 16
      · by_cases hk : k = n <;> cases x <;> simp_all [TaskRegs.apply]
      · rw [BitVec.getLsbD_of_ge _ _ (by omega), BitVec.getLsbD_of_ge _ _ (by omega)]
        exact (if_neg (by omega)).symm
  | g n x | m n x y => simp only [TaskRegs.apply]; split <;> rfl
  | v n x y => rfl

theorem TaskRegs.storedM_apply (r : TaskRegs) (w : RegWrite) (k : Nat) :
    (r.apply w).storedM k = match w with
      | .m n mask x => if k = n ∧ n ≠ 0 then (r.storedM k &&& ~~~mask) ||| (x &&& mask) else r.storedM k
      | _ => r.storedM k := by
  cases w with
  | m n mask x =>
    by_cases hn : n = 0
    · simp [TaskRegs.apply, hn]
    · by_cases hk : k = n <;> simp [TaskRegs.apply, TaskRegs.storedM, hn, hk]
  | g n x | p n x => simp only [TaskRegs.apply]; split <;> rfl
  | v n x y => rfl

theorem TaskRegs.storedV_apply (r : TaskRegs) (w : RegWrite) (k : Nat) :
    (r.apply w).storedV k = match w with
      | .v n mask x => if k = n then (r.storedV k &&& ~~~mask) ||| (x &&& mask) else r.storedV k
      | _ => r.storedV k := by
  cases w with
  | v n mask x => by_cases hk : k = n <;> simp [TaskRegs.apply, TaskRegs.storedV, hk]
  | g n x | p n x | m n x y => simp only [TaskRegs.apply]; split <;> rfl

/-- A window leaves every other register as it is. -/
theorem TaskRegs.holds_apply_of_ne {r : TaskRegs} {w : RegWrite} {x : Nat × Nat} (h : w.target ≠ x) :
    (r.apply w).holds x = r.holds x := by
  obtain ⟨file, k⟩ := x
  match file with
  | 0 => rw [holds_g_inj, storedG_apply]; cases w <;> simp_all [RegWrite.target, eq_comm]
  | 1 => rw [holds_p_inj, p_apply]; cases w <;> simp_all [RegWrite.target, eq_comm]
  | 2 => rw [holds_m_inj, storedM_apply]; cases w <;> simp_all [RegWrite.target, eq_comm]
  | 3 => rw [holds_v_inj, storedV_apply]; cases w <;> simp_all [RegWrite.target, eq_comm]
  | file + 4 => rfl

/-- What a register holds after a window is given by what it held before. -/
theorem TaskRegs.holds_apply_congr {r q : TaskRegs} {x : Nat × Nat} (w : RegWrite) (h : r.holds x = q.holds x) :
    (r.apply w).holds x = (q.apply w).holds x := by
  obtain ⟨file, k⟩ := x
  match file with
  | 0 => rw [holds_g_inj] at h ⊢; simp only [storedG_apply, h]
  | 1 => rw [holds_p_inj] at h ⊢; simp only [p_apply, h]
  | 2 => rw [holds_m_inj] at h ⊢; simp only [storedM_apply, h]
  | 3 => rw [holds_v_inj] at h ⊢; simp only [storedV_apply, h]
  | file + 4 => rfl

/-! ### Lists of windows -/

/-- The files after a list of windows, applied in order. -/
def TaskRegs.applyAll (r : TaskRegs) (ws : List Window) : TaskRegs := ws.foldl (fun acc w => acc.apply w.write) r

theorem TaskRegs.applyAll_append (r : TaskRegs) (as bs : List Window) :
    r.applyAll (as ++ bs) = (r.applyAll as).applyAll bs := List.foldl_append

theorem TaskRegs.close_eq_applyAll (r : TaskRegs) : r.close = TaskRegs.applyAll { r with wins := [] } r.wins := rfl

/-- The windows on a register, in program order. -/
def windowsOn (x : Nat × Nat) (ws : List Window) : List Window := ws.filter fun w => w.write.target == x

/-- Only the windows on a register count for what it holds. -/
theorem TaskRegs.holds_applyAll {r q : TaskRegs} {x : Nat × Nat} (h : r.holds x = q.holds x) (ws : List Window) :
    (r.applyAll ws).holds x = (q.applyAll (windowsOn x ws)).holds x := by
  induction ws generalizing r q with
  | nil => exact h
  | cons w ws ih =>
    by_cases hw : w.write.target = x
    · rw [windowsOn, List.filter_cons_of_pos (by simpa using hw)]
      exact ih (holds_apply_congr w.write h)
    · rw [windowsOn, List.filter_cons_of_neg (by simpa using hw)]
      exact ih ((holds_apply_of_ne hw).trans h)

theorem TaskRegs.holds_applyAll_congr {r q : TaskRegs} {x : Nat × Nat} (h : r.holds x = q.holds x) (ws : List Window) :
    (r.applyAll ws).holds x = (q.applyAll ws).holds x :=
  (holds_applyAll h ws).trans (holds_applyAll rfl ws).symm

/-- A register with no open window holds its final value. -/
theorem TaskRegs.holds_close_of_no_window {r : TaskRegs} {x : Nat × Nat} (h : ∀ w ∈ r.wins, w.write.target ≠ x) :
    r.close.holds x = r.holds x := by
  have hnone : windowsOn x r.wins = [] := by simpa [windowsOn, List.filter_eq_nil_iff] using h
  rw [close_eq_applyAll, holds_applyAll rfl, hnone]
  exact holds_wins r [] x

/-! ### Settling a clock -/

/-- Every window on the register of `w` has closed before the clock. -/
def TaskRegs.due (r : TaskRegs) (clk : Nat) (w : Window) : Bool :=
  r.wins.all fun x => x.write.target != w.write.target || decide (x.closes < clk)

theorem TaskRegs.due_eq_false_iff {r : TaskRegs} {clk : Nat} {w : Window} :
    r.due clk w = false ↔ ∃ y ∈ r.wins, y.write.target = w.write.target ∧ clk ≤ y.closes := by
  simp [TaskRegs.due]

theorem TaskRegs.settle_eq (r : TaskRegs) (clk : Nat) : r.settle clk =
    { TaskRegs.applyAll { r with wins := [] } (r.wins.filter (r.due clk)) with
      wins := r.wins.filter fun w => !r.due clk w } := rfl

/-- The windows that a clock leaves open. -/
theorem TaskRegs.mem_settle_wins {r : TaskRegs} {clk : Nat} {x : Window} : x ∈ (r.settle clk).wins ↔
    x ∈ r.wins ∧ ∃ y ∈ r.wins, y.write.target = x.write.target ∧ clk ≤ y.closes := by
  simp [TaskRegs.settle_eq, TaskRegs.due_eq_false_iff]

/-- A choice that takes the windows on a register together leaves all of them or none. -/
theorem windowsOn_filter {x : Nat × Nat} {ws : List Window} {p : Window → Bool} {d : Bool}
    (h : ∀ w, w.write.target = x → p w = d) : windowsOn x (ws.filter p) = if d then windowsOn x ws else [] := by
  have hp : ∀ w : Window, (w.write.target == x && p w) = (w.write.target == x && d) := fun w => by
    by_cases hx : w.write.target = x
    · rw [h w hx]
    · rw [beq_false_of_ne hx]; rfl
  rw [windowsOn, List.filter_filter, List.filter_congr fun w _ => hp w]
  cases d <;> simp [windowsOn]

/-- The windows on one register are due together, so setting the due ones first keeps their order. -/
theorem TaskRegs.windowsOn_partition (r : TaskRegs) (clk : Nat) (x : Nat × Nat) :
    windowsOn x (r.wins.filter (r.due clk) ++ r.wins.filter fun w => !r.due clk w) = windowsOn x r.wins := by
  let d := r.wins.all fun y => y.write.target != x || decide (y.closes < clk)
  have hdue : ∀ w : Window, w.write.target = x → r.due clk w = d := by rintro w rfl; rfl
  rw [windowsOn, List.filter_append]
  change windowsOn x _ ++ windowsOn x _ = _
  rw [windowsOn_filter hdue, windowsOn_filter (d := !d) fun w hw => congrArg _ (hdue w hw)]
  cases d <;> simp

/-- Settling a clock keeps the final value of every register. -/
theorem TaskRegs.holds_settle_close (r : TaskRegs) (clk : Nat) (x : Nat × Nat) :
    (r.settle clk).close.holds x = r.close.holds x := by
  let base : TaskRegs := { r with wins := [] }
  let notDue := r.wins.filter fun w => !r.due clk w
  calc (r.settle clk).close.holds x
    _ = ((base.applyAll (r.wins.filter (r.due clk))).applyAll notDue).holds x := 
      holds_applyAll_congr (q := base.applyAll (r.wins.filter (r.due clk))) (holds_wins _ [] x) notDue
    _ = (base.applyAll (windowsOn x r.wins)).holds x := by
      rw [← applyAll_append, holds_applyAll rfl, windowsOn_partition]
    _ = r.close.holds x := (holds_applyAll rfl _).symm

/-! ### Reads of the present clock -/

theorem TaskRegs.open_eq_false_of_no_window {r : TaskRegs} {clk : Nat} {x : Nat × Nat}
    (h : ∀ w ∈ r.wins, w.write.target ≠ x) : r.open clk x = false := by
  simpa [TaskRegs.open] using fun w hw hx => absurd hx (h w hw)

/-- A window opened in the present clock is not yet seen by a read. -/
theorem State.open_put (s : State) (lat : Nat) (w : RegWrite) (x : Nat × Nat) :
    (s.put lat w).task.regs.open (s.put lat w).task.flow.clk x = s.task.regs.open s.task.flow.clk x := by
  unfold State.put
  split
  · rfl
  · simp [TaskRegs.open]; rfl

theorem State.put_files (s : State) (lat : Nat) (w : RegWrite) : (s.put lat w).task.regs.g = s.task.regs.g ∧
    (s.put lat w).task.regs.p = s.task.regs.p ∧ (s.put lat w).task.regs.m = s.task.regs.m ∧
    (s.put lat w).task.regs.v = s.task.regs.v ∧ (s.put lat w).epoch = s.epoch := by
  unfold State.put; split <;> exact ⟨rfl, rfl, rfl, rfl, rfl⟩

/-- Registers read in the clock that opens a window give their old values (R29). -/
theorem State.reads_put (s : State) (lat n : Nat) (w : RegWrite) :
    (s.put lat w).g n = s.g n ∧ (s.put lat w).p n = s.p n ∧ (s.put lat w).m n = s.m n ∧ (s.put lat w).v n = s.v n := by
  obtain ⟨hg, hp, hm, hv, he⟩ := s.put_files lat w
  simp only [State.g, State.p, State.m, State.v, State.open_put, TaskRegs.storedG, TaskRegs.storedM, TaskRegs.storedV,
    hg, hp, hm, hv, he, and_self]

/-- Settles O10: windows on other registers do not count, and those on one register close together (R29, R30). -/
theorem latencyWindows : Obligations.LatencyWindows := by
  intro s lat n w
  refine ⟨s.reads_put lat n w, fun h => ?_, fun h _ => ?_, fun h => ?_, fun h => ?_, fun r clk => ⟨?_, fun x => ?_⟩⟩
  · simp only [State.g, State.finalG, TaskRegs.open_eq_false_of_no_window h, Bool.false_eq_true, if_false,
      TaskRegs.holds_g_inj.1 (TaskRegs.holds_close_of_no_window h)]
  · simp only [State.p, State.finalP, TaskRegs.open_eq_false_of_no_window h, Bool.false_eq_true, if_false,
      TaskRegs.holds_p_inj.1 (TaskRegs.holds_close_of_no_window h)]
  · simp only [State.m, State.finalM, TaskRegs.open_eq_false_of_no_window h, Bool.false_eq_true, if_false,
      TaskRegs.holds_m_inj.1 (TaskRegs.holds_close_of_no_window h)]
  · simp only [State.v, State.finalV, TaskRegs.open_eq_false_of_no_window h, Bool.false_eq_true, if_false,
      TaskRegs.holds_v_inj.1 (TaskRegs.holds_close_of_no_window h)]
  · have hkeep := r.holds_settle_close clk
    simp only [State.finalG, State.finalP, State.finalM, State.finalV, State.setRegs_task,
      TaskRegs.holds_g_inj.1 (hkeep _), TaskRegs.holds_p_inj.1 (hkeep _), TaskRegs.holds_m_inj.1 (hkeep _),
      TaskRegs.holds_v_inj.1 (hkeep _), and_self]
  · exact TaskRegs.mem_settle_wins

end Sys2Proof.Machine

/-! SRD, SWR and RAND (R22, R28, R114 to R116). -/

namespace Sys2Proof.Machine

/-- SRD of a register that the determinism level lets it read. -/
theorem execSrd_of_special {s : State} {f : Slot} {x : Nat} (h : s.goes (.srd f) f)
    (hdet : readCause s.task.id.detlvl (f.imm.toNat % 4096) = none) (hx : s.special (f.imm.toNat % 4096) = some x) :
    exec (.srd f) s = .next (s.putG f (BitVec.ofNat 64 x)) := by
  refine (guarded_goes h).trans ?_
  rw [hdet, hx]

theorem execSwr_of_write {s : State} {f : Slot} {y : TaskSys} (h : s.goes (.swr f) f)
    (hy : s.task.sys.write (f.imm.toNat % 4096) (s.g f.a.toNat) = some y) : exec (.swr f) s = .next (s.setSys y) := by
  refine (guarded_goes h).trans ?_
  rw [hy]

theorem readCause_eq_none {level n : Nat} (hticks : n ∈ [0x030, 0x031, 0x032, 0x033, 0x034] → level = 0)
    (htask : n = 0 → level < 2) : readCause level n = none := by
  unfold readCause
  rw [if_neg fun h => h.2 (hticks (by simp [h.1])), if_neg fun h => h.2 (hticks (List.mem_cons_of_mem _ h.1)),
    if_neg fun h => absurd (htask h.1) (by omega)]

/-- The special registers whose value is one field of the state. -/
def State.plainSpecials (s : State) : List (Nat × W64) :=
  [(0x003, BitVec.ofNat 64 (s.task.flow.stage * 2 ^ 32 + s.task.flow.iter.toNat)),
    (0x010, s.task.sys.rmode.setWidth 64), (0x011, s.task.sys.synd), (0x012, s.task.sys.sclass.setWidth 64),
    (0x013, s.task.sys.epc.setWidth 64), (0x014, s.task.sys.tvec.setWidth 64),
    (0x020, BitVec.ofNat 64 s.task.bolt.boltpc), (0x021, BitVec.ofNat 64 s.task.bolt.retry),
    (0x022, s.task.sys.rlim.setWidth 64), (0x023, s.task.flow.repix.setWidth 64),
    (0x024, BitVec.ofNat 64 s.task.bolt.holdb), (0x030, BitVec.ofNat 64 s.dcc), (0x031, s.pkg.melt.setWidth 64),
    (0x050, s.task.id.seed), (0x051, s.task.id.ctrbase), (0x052, BitVec.ofNat 64 s.task.id.detlvl),
    (0x060, BitVec.ofNat 64 s.task.eng.fq.length), (0x061, BitVec.ofNat 64 s.task.id.clim)]

/-- Each of them is read zero-extended. -/
theorem State.special_of_plain {s : State} {n : Nat} {x : W64} (h : (n, x) ∈ s.plainSpecials) :
    ∃ y, s.special n = some y ∧ BitVec.ofNat 64 y = x := by
  simp only [State.plainSpecials, List.mem_cons, List.not_mem_nil, or_false, Prod.mk.injEq] at h
  rcases h with ⟨rfl, rfl⟩ | ⟨rfl, rfl⟩ | ⟨rfl, rfl⟩ | ⟨rfl, rfl⟩ | ⟨rfl, rfl⟩ | ⟨rfl, rfl⟩ | ⟨rfl, rfl⟩ | ⟨rfl, rfl⟩ |
    ⟨rfl, rfl⟩ | ⟨rfl, rfl⟩ | ⟨rfl, rfl⟩ | ⟨rfl, rfl⟩ | ⟨rfl, rfl⟩ | ⟨rfl, rfl⟩ | ⟨rfl, rfl⟩ | ⟨rfl, rfl⟩ | ⟨rfl, rfl⟩ |
    ⟨rfl, rfl⟩
  all_goals exact ⟨_, rfl, by simp [TaskFlow.kiter]⟩

/-! ### RAND -/

theorem randDraw_eq (seed ctr : W64) : randDraw seed ctr =
    randRound (randRound (randRound (randRound ctr (seed &&& 0xFFFFFFFF)) (seed >>> 32)) (seed &&& 0xFFFFFFFF))
      (seed >>> 32) := by
  have hlow : (seed.setWidth 32).setWidth 64 = seed &&& 0xFFFFFFFF := by
    apply BitVec.eq_of_toNat_eq
    have hmask : seed.toNat &&& (2 ^ 32 - 1) = seed.toNat % 2 ^ 32 := Nat.and_two_pow_sub_one_eq_mod _ _
    have hlt : seed.toNat % 2 ^ 32 < 2 ^ 64 := by omega
    simp only [BitVec.toNat_setWidth, BitVec.toNat_and, Nat.mod_eq_of_lt hlt]
    exact hmask.symm
  simp only [randDraw, hlow]

/-- Settles O16: each clause names the entry of `State.special`, of `TaskSys.write` or of `randDraw` that applies. An index of
RAND that comes from the pool is the choice of log 42. -/
theorem specialRegisters : Obligations.SpecialRegisters := by
  refine ⟨⟨fun s f n x h hn hticks htask hx => ?_, fun s f n h hn => ?_⟩, fun s f h => ?_⟩
  · obtain ⟨y, hy, rfl⟩ := State.special_of_plain hx
    subst hn
    exact ⟨_, execSrd_of_special h (readCause_eq_none hticks htask) hy, putG_writes s f _⟩
  · have stores : ∀ {y}, s.task.sys.write n (s.g f.a.toNat) = some y → exec (.swr f) s = .next (s.setSys y) :=
      fun hy => execSwr_of_write h (hn ▸ hy)
    refine ⟨?_, ?_, ?_, ?_, ?_, ?_⟩
    all_goals
      rintro rfl
      refine stores ?_
      simp only [TaskSys.write, BitVec.setWidth_eq_extractLsb', Nat.reduceLeDiff]
  · intro index seed round
    have hround : round = randRound := rfl
    rw [hround]
    exact ⟨_, guarded_goes h, _, _, _, _, _, randDraw_eq seed _ ▸ putG_writes s f _, rfl, rfl, rfl, rfl, rfl⟩

end Sys2Proof.Machine

/-! What the bookkeeping on a core, on a node and at the ports leaves alone: the selected task, the clusters and the
package. -/

namespace Sys2Proof.Machine

/-- A fold keeps what each of its steps keeps. -/
theorem foldl_keeps {α β : Type} (π : State → β) (f : State → α → State) (l : List α) (s : State)
    (hf : ∀ s x, π (f s x) = π s) : π (l.foldl f s) = π s := by
  induction l generalizing s with
  | nil => rfl
  | cons x l ih => exact (ih _).trans (hf s x)

/-- Where the logical cores are hosted, and the package (R292, R366). -/
def State.hosting (s : State) : Sparse Cluster × Package := (s.clusters, s.pkg)

/-- The selected task, and where the logical cores are hosted. -/
def State.aside (s : State) : Task × Sparse Cluster × Package := (s.task, s.hosting)

theorem task_of_aside {s t : State} (h : t.aside = s.aside) : t.task = s.task := congrArg Prod.fst h

theorem hosting_of_aside {s t : State} (h : t.aside = s.aside) : t.hosting = s.hosting := congrArg Prod.snd h

/-! ### Cores -/

@[simp] theorem State.setCore_aside (s : State) (c : Core) : (s.setCore c).aside = s.aside := rfl

@[simp] theorem State.leaveArray_aside (s : State) (home : Nat) (r : Running) : (s.leaveArray home r).aside = s.aside := by
  unfold State.leaveArray; split <;> rfl

@[simp] theorem State.cancel_aside (s : State) (l : Nat) (who : Issuer → Bool) : (s.cancel l who).aside = s.aside :=
  foldl_keeps State.aside _ _ _ fun s r => s.leaveArray_aside l r

@[simp] theorem State.rerateRuns_aside (s : State) (h : Nat) : (s.rerateRuns h).aside = s.aside := by
  unfold State.rerateRuns
  dsimp only
  split
  · rfl
  · exact foldl_keeps State.aside _ _ s fun _ _ => rfl

@[simp] theorem State.rerate_aside (s : State) (l : Nat) : (s.rerate l).aside = s.aside :=
  foldl_keeps State.aside _ _ _ fun s _ => s.rerateRuns_aside _

@[simp] theorem State.refreshLevel_aside (s : State) (l : Nat) : (s.refreshLevel l).aside = s.aside :=
  State.rerate_aside _ l

@[simp] theorem State.resolveClaims_aside (s : State) (full : Bool) (ks : List Nat) :
    (s.resolveClaims full ks).aside = s.aside := by
  induction ks generalizing s with
  | nil => rfl
  | cons k ks ih => refine (ih _).trans ?_; split <;> rfl

@[simp] theorem State.fillGranules_aside (s : State) (gs : List (Nat × Nat)) : (s.fillGranules gs).aside = s.aside := by
  induction gs generalizing s with
  | nil => rfl
  | cons g gs ih => exact ih _

@[simp] theorem State.writePads_aside (s : State) (l : Nat) (k : Kernel) : (s.writePads l k).aside = s.aside :=
  foldl_keeps State.aside _ _ _ fun _ _ => State.fillGranules_aside _ _

/-! ### Helpers -/

@[simp] theorem State.onHelper_aside (s : State) (l w : Nat) (f : Helper → Helper) : (s.onHelper l w f).aside = s.aside := by
  unfold State.onHelper; repeat' split
  all_goals rfl

@[simp] theorem State.onHelpers_aside (s : State) (l : Nat) (f : Helper → Helper) : (s.onHelpers l f).aside = s.aside :=
  (State.onHelper_aside _ l 1 f).trans (State.onHelper_aside s l 0 f)

@[simp] theorem State.discardWork_aside (s : State) (w : BoltWork) : (s.discardWork w).aside = s.aside :=
  (State.onHelpers_aside _ _ _).trans (State.resolveClaims_aside _ _ _)

@[simp] theorem State.selectHelper_aside (s : State) (l w : Nat) : (s.selectHelper l w).aside = s.aside := by
  unfold State.selectHelper; split <;> rfl

@[simp] theorem State.hReplay_aside (s : State) : s.hReplay.aside = s.aside :=
  (State.resolveClaims_aside _ _ _).trans (State.cancel_aside s _ _)

@[simp] theorem State.hRestart_aside (s : State) (run : HelperMode) : (s.hRestart run).aside = s.aside := s.hReplay_aside

@[simp] theorem State.restartHelpers_aside (s : State) (l : Nat) : (s.restartHelpers l).aside = s.aside :=
  foldl_keeps State.aside _ _ _ fun s w => by
    dsimp only
    split
    · rfl
    · exact (State.hRestart_aside _ _).trans (s.selectHelper_aside l w)

/-! ### Ports -/

@[simp] theorem State.portSend_aside (s : State) (k pos type : Nat) (payload : List Byte) :
    (s.portSend k pos type payload).aside = s.aside := by
  unfold State.portSend; dsimp only; split <;> rfl

@[simp] theorem State.sendTo_aside (s : State) (pos type : Nat) (payload : List Byte) :
    (s.sendTo pos type payload).aside = s.aside := by
  unfold State.sendTo
  split
  · exact s.portSend_aside ..
  · rfl

@[simp] theorem State.sendMessage_aside (s : State) (pos : Nat) (b : Config.PortBody) :
    (s.sendMessage pos b).aside = s.aside :=
  foldl_keeps State.aside _ _ _ fun s _ => s.sendTo_aside ..

@[simp] theorem State.sendAll_aside (s : State) (b : Config.PortBody) : (s.sendAll b).aside = s.aside :=
  foldl_keeps State.aside _ _ _ fun s p => s.sendMessage_aside p b

/-! ### Nodes and events -/

@[simp] theorem State.onStand_aside (s : State) (q seq level group : Nat) (f : Stand → Stand) :
    (s.onStand q seq level group f).aside = s.aside := rfl

theorem State.stands_aside (s : State) (zs : List Stand) : State.aside { s with stands := zs } = s.aside := rfl

@[simp] theorem State.freeLog_aside (s : State) (r : Releaser) : (s.freeLog r).aside = s.aside := rfl

@[simp] theorem State.counted_aside (s : State) (q seq : Nat) (f : Node → Node) : (s.counted q seq f).aside = s.aside := by
  unfold State.counted; dsimp only; split <;> rfl

@[simp] theorem State.countTile_aside (s : State) (q seq l : Nat) : (s.countTile q seq l).aside = s.aside :=
  s.counted_aside q seq _

/-- The resources of a task return; the task itself is as it was. -/
@[simp] theorem State.leaveCore_aside (s : State) (r : Releaser) (granules : Nat) : (s.leaveCore r granules).aside = s.aside := by
  unfold State.leaveCore
  dsimp only
  rw [State.countTile_aside]
  cases List.find? _ _ with
  | none => simp only [Option.map_none, Option.getD_none, State.stands_aside, State.refreshLevel_aside, State.freeLog_aside,
      State.setCore_aside]
  | some z => simp only [Option.map_some, Option.getD_some, State.sendAll_aside, State.stands_aside,
      State.refreshLevel_aside, State.freeLog_aside, State.setCore_aside]

end Sys2Proof.Machine

/-! END (R34, R35). -/

namespace Sys2Proof.Machine

/-- A task that has ended no longer runs. -/
theorem State.closeTask_not_live (s : State) : s.closeTask.task.id.live = false := by
  rw [State.closeTask, task_of_aside (State.leaveCore_aside _ _ _)]
  rfl

/-- A seal that can complete completes, and the operation goes on. -/
theorem State.sealThen_of_sealable {s : State} (h : s.sealable) (next : Nat) (k : State → State) :
    s.sealThen next k = k (s.afterQuiet.sealNow next) := by
  rw [State.sealThen, h.1]
  exact if_pos h.2

/-- The end of a sealed task whose commands have produced their results without a fault (R35). -/
theorem State.finishTask_not_live {s : State} (hdone : s.commandsDone = true)
    (hfault : s.task.eng.oldestFault [0, 1, 2, 3] = none) : s.finishTask.task.id.live = false := by
  rw [State.finishTask, hdone, hfault, Bool.not_true, if_neg Bool.false_ne_true]
  dsimp only
  exact State.closeTask_not_live _

/-- END in an earlier stage: every window has closed, and the flow goes on in another stage (R34). -/
def State.toStage (s : State) (stage : Nat) (iter : W32) (next : Nat) : State :=
  let closed := (s.setRegs s.task.regs.close).setFlow { s.task.flow with clk := s.task.regs.closedAt s.task.flow.clk }
  closed.setFlow { closed.task.flow with stage, iter, nextPc := next }

/-- The effect of END by the stage it finds. -/
def State.stageEnd (s : State) : State :=
  let id := s.task.id
  if s.task.flow.stage = 0 then (if id.trip = 0 then s.toStage 2 s.task.flow.iter id.ee else s.toStage 1 0 id.ke)
  else if s.task.flow.stage = 1 then
    (if (s.task.flow.iter + 1).toNat < id.trip then s.toStage 1 (s.task.flow.iter + 1) id.ke
     else s.toStage 2 (s.task.flow.iter + 1) id.ee)
  else s.endTask

theorem execEndTask_of_goes {s : State} {f : Slot} (h : s.goes (.endTask f) f) : exec (.endTask f) s = .next s.stageEnd :=
  guarded_goes h

/-- A change of stage leaves everything but the flow as it is. -/
theorem State.toStage_keeps (s : State) (stage : Nat) (iter : W32) (next : Nat) :
    let t := s.toStage stage iter next
    t.task.regs.wins = [] ∧ KeepsRegisters s t ∧ KeepsMemory s t ∧ KeepsSpecials s t ∧ KeepsOutside s t ∧
      t.task.bolt = s.task.bolt ∧ t.task.eng = s.task.eng :=
  ⟨s.task.regs.close_wins, keepsRegisters_of_regs s.task.regs.close_close, fun _ => rfl, ⟨rfl, rfl, rfl, rfl⟩, rfl, rfl, rfl⟩

/-- Before the epilogue END changes the stage. -/
theorem State.stageEnd_of_lt {s : State} (h : s.task.flow.stage < 2) :
    ∃ stage iter next, s.stageEnd = s.toStage stage iter next := by
  unfold State.stageEnd
  by_cases h0 : s.task.flow.stage = 0
  · by_cases htrip : s.task.id.trip = 0
    · exact ⟨_, _, _, (if_pos h0).trans (if_pos htrip)⟩
    · exact ⟨_, _, _, (if_pos h0).trans (if_neg htrip)⟩
  · have h1 : s.task.flow.stage = 1 := by omega
    by_cases hiter : (s.task.flow.iter + 1).toNat < s.task.id.trip
    · exact ⟨_, _, _, ((if_neg h0).trans (if_pos h1)).trans (if_pos hiter)⟩
    · exact ⟨_, _, _, ((if_neg h0).trans (if_pos h1)).trans (if_neg hiter)⟩

/-- Settles O13: each stage's branch of END, and the sealing end of the epilogue. -/
theorem endOfStages : Obligations.EndOfStages := by
  intro s f h id
  refine ⟨s.stageEnd, execEndTask_of_goes h, fun hstage => ?_, fun h0 htrip => ?_, fun h0 htrip => ?_, fun h1 => ?_,
    fun h2 hfault hready => ?_⟩
  · obtain ⟨stage, iter, next, e⟩ := State.stageEnd_of_lt hstage
    rw [e]
    exact s.toStage_keeps stage iter next
  · rw [State.stageEnd, if_pos h0, if_pos htrip]
    exact ⟨rfl, rfl⟩
  · rw [State.stageEnd, if_pos h0, if_neg htrip]
    exact ⟨rfl, rfl, rfl⟩
  · rw [State.stageEnd, if_neg (by omega), if_pos h1]
    by_cases hiter : (s.task.flow.iter + 1).toNat < id.trip
    · rw [if_pos hiter]
      exact ⟨rfl, by rw [if_pos]; exacts [⟨rfl, rfl⟩, hiter]⟩
    · rw [if_neg hiter]
      exact ⟨rfl, by rw [if_neg]; exacts [⟨rfl, rfl⟩, hiter]⟩
  · intro u hdone hnone
    rw [State.stageEnd, if_neg (by omega), if_neg (by omega), State.endTask, State.sealThen_of_sealable ⟨hfault, hready⟩]
    exact State.finishTask_not_live hdone hnone

end Sys2Proof.Machine

/-! The windows of a pointer, and the traps of an access that fails a check (R32, R33, R120, R357). -/

namespace Sys2Proof.Machine

/-! ### Windows, one branch of `placeOf` each (R33) -/

section
variable {l die n x : Nat} {exchange : Bool}

theorem toNat_of_lt_window (h : x < 2 ^ 48) : (BitVec.ofNat 64 x).toNat = x :=
  BitVec.toNat_ofNat x 64 ▸ Nat.mod_eq_of_lt (by omega)

/-- A pointer without a tag is placed by its 48 bits. -/
theorem placeOf_untagged (h : x < 2 ^ 48) : placeOf l die exchange (BitVec.ofNat 64 x) n =
    if x < 0xF00000000000 then (if 0xF00000000000 < x + n then .error 12 else .ok (.global x))
    else if x < 0xF00000200000 then
      (if 2 ^ 21 < x - 0xF00000000000 + n then .error 12 else .ok (.corePad l (x - 0xF00000000000) false))
    else if 0xF10000000000 ≤ x ∧ x < 0xF10000000000 + 12 * 2 ^ 21 then
      (if 2 ^ 21 < (x - 0xF10000000000) % 2 ^ 21 + n then .error 12
      else if (x - 0xF10000000000) / 2 ^ 21 = l % 12 then .ok (.corePad l ((x - 0xF10000000000) % 2 ^ 21) false)
      else if exchange then
        .ok (.corePad (l / 12 * 12 + (x - 0xF10000000000) / 2 ^ 21) ((x - 0xF10000000000) % 2 ^ 21) true)
      else .error 9)
    else if 0xF20000000000 ≤ x ∧ x < 0xF20002000000 then
      (if 2 ^ 25 < x - 0xF20000000000 + n then .error 12 else .ok (.clusterPad (l / 12) (x - 0xF20000000000)))
    else if 0xF30000000000 ≤ x ∧ x < 0xF30010000000 then
      (if 2 ^ 28 < x - 0xF30000000000 + n then .error 12
      else if 2 ^ 27 < x - 0xF30000000000 + n then .error 10 else .ok (.diePad die (x - 0xF30000000000)))
    else .error 11 := by
  have hmod : x % 2 ^ 48 = x := Nat.mod_eq_of_lt h
  have hdiv : x / 2 ^ 48 = 0 := Nat.div_eq_of_lt h
  simp only [placeOf, toNat_of_lt_window h, hmod, hdiv, ne_eq, not_true_eq_false, if_false]

theorem placeOf_tagged {tag a : Nat} (htag : 0 < tag) (h16 : tag < 2 ^ 16) (ha : a < 2 ^ 48) :
    placeOf l die exchange (BitVec.ofNat 64 (tag * 2 ^ 48 + a)) n = .error 13 := by
  have hnat : (BitVec.ofNat 64 (tag * 2 ^ 48 + a)).toNat = tag * 2 ^ 48 + a := by
    rw [BitVec.toNat_ofNat]; omega
  have htop : (tag * 2 ^ 48 + a) / 2 ^ 48 ≠ 0 := by omega
  rw [placeOf, hnat]
  exact if_pos htop

theorem placeOf_global (hn : 0 < n) (h : x + n ≤ 0xF00000000000) :
    placeOf l die exchange (BitVec.ofNat 64 x) n = .ok (.global x) := by
  rw [placeOf_untagged (by omega), if_pos (by omega), if_neg (by omega)]

theorem placeOf_global_edge (hx : x < 0xF00000000000) (h : 0xF00000000000 < x + n) :
    placeOf l die exchange (BitVec.ofNat 64 x) n = .error 12 := by
  rw [placeOf_untagged (by omega), if_pos hx, if_pos h]

theorem placeOf_ownPad {off : Nat} (hn : 0 < n) (h : off + n ≤ 2 ^ 21) :
    placeOf l die exchange (BitVec.ofNat 64 (0xF00000000000 + off)) n = .ok (.corePad l off false) := by
  rw [placeOf_untagged (by omega), if_neg (by omega), if_pos (by omega), Nat.add_sub_cancel_left, if_neg (by omega)]

theorem placeOf_ownPad_edge {off : Nat} (hoff : off < 2 ^ 21) (h : 2 ^ 21 < off + n) :
    placeOf l die exchange (BitVec.ofNat 64 (0xF00000000000 + off)) n = .error 12 := by
  rw [placeOf_untagged (by omega), if_neg (by omega), if_pos (by omega), Nat.add_sub_cancel_left, if_pos h]

/-- The pad of a sibling core is open in the exchange phase alone (R278). -/
theorem placeOf_sibling {k off : Nat} (hk : k < 12) (hne : k ≠ l % 12) (hn : 0 < n) (h : off + n ≤ 2 ^ 21) :
    placeOf l die exchange (BitVec.ofNat 64 (0xF10000000000 + k * 2 ^ 21 + off)) n =
      if exchange then .ok (.corePad (l / 12 * 12 + k) off true) else .error 9 := by
  have hdiv : (0xF10000000000 + k * 2 ^ 21 + off - 0xF10000000000) / 2 ^ 21 = k := by omega
  have hmod : (0xF10000000000 + k * 2 ^ 21 + off - 0xF10000000000) % 2 ^ 21 = off := by omega
  rw [placeOf_untagged (by omega), if_neg (by omega), if_neg (by omega), if_pos (by omega), hdiv, hmod,
    if_neg (by omega), if_neg hne]

theorem placeOf_clusterPad {off : Nat} (hn : 0 < n) (h : off + n ≤ 2 ^ 25) :
    placeOf l die exchange (BitVec.ofNat 64 (0xF20000000000 + off)) n = .ok (.clusterPad (l / 12) off) := by
  rw [placeOf_untagged (by omega), if_neg (by omega), if_neg (by omega), if_neg (by omega), if_pos (by omega),
    Nat.add_sub_cancel_left, if_neg (by omega)]

theorem placeOf_diePad {off : Nat} (hn : 0 < n) (h : off + n ≤ 2 ^ 27) :
    placeOf l die exchange (BitVec.ofNat 64 (0xF30000000000 + off)) n = .ok (.diePad die off) := by
  rw [placeOf_untagged (by omega), if_neg (by omega), if_neg (by omega), if_neg (by omega), if_neg (by omega),
    if_pos (by omega), Nat.add_sub_cancel_left, if_neg (by omega), if_neg (by omega)]

theorem placeOf_hole {off : Nat} (h : off < 2 ^ 36) :
    placeOf l die exchange (BitVec.ofNat 64 (0xF40000000000 + off)) n = .error 11 := by
  rw [placeOf_untagged (by omega), if_neg (by omega), if_neg (by omega), if_neg (by omega), if_neg (by omega),
    if_neg (by omega)]

end

/-! ### Traps (R120, R357) -/

/-- The memory-class syndrome of a slot and a kind of access. -/
theorem syndMem_slot (e : MemFault) (inB : Bool) {acc : Nat} (hacc : acc < 4) :
    syndMem e (if inB then 1 else 0) acc = BitVec.ofNat 64 (e.cause % 256 * 2 ^ 56 + (if inB then 1 else 0) * 2 ^ 54 +
      acc * 2 ^ 52 + e.reason % 16 * 2 ^ 48 + e.addr.toNat) := by
  have hslot : (if inB then 1 else 0) % 4 = if inB then 1 else 0 := by cases inB <;> rfl
  rw [syndMem, hslot, Nat.mod_eq_of_lt hacc]

/-- What an operation does whose access fails a check: it traps before anything else. -/
theorem trapped_of_failed_access {s : State} (hmay : s.mayTrap) {i : Instr} {e : MemFault} {acc : Nat} (hacc : acc < 4)
    (h : exec i s = .next (s.trapMem e acc)) :
    ∃ t, exec i s = .next t ∧ Trapped s t 1 (BitVec.ofNat 64 (e.cause % 256 * 2 ^ 56 +
      (if s.task.flow.inB then 1 else 0) * 2 ^ 54 + acc * 2 ^ 52 + e.reason % 16 * 2 ^ 48 + e.addr.toNat)) := by
  refine ⟨_, h, ?_⟩
  rw [← syndMem_slot e _ hacc]
  exact trapped_of_mayTrap hmay 1 _

section
variable {s : State} {f : Slot} {e : MemFault}

theorem execLd_of_failed (h : s.goes (.ld f) f)
    (he : s.resolve { ordered := f.ord ≠ 0, fe := f.wf || f.clr } (s.ea f) (accessBytes f) (accessBytes f) = .error e) :
    exec (.ld f) s = .next (s.trapMem e 0) := (guarded_goes h).trans (by rw [he])

theorem execSt_of_failed (h : s.goes (.st f) f)
    (he : s.resolve { write := true, ordered := f.ord ≠ 0 } (s.ea f) (accessBytes f) (accessBytes f) = .error e) :
    exec (.st f) s = .next (s.trapMem e 1) := (guarded_goes h).trans (by rw [he])

/-- CAS and AMO check their access before they seal. -/
theorem State.readModifyWrite_of_failed {aop : Nat}
    (he : s.resolve { rmw := true } (s.ea f) (accessBytes f) (accessBytes f) = .error e) :
    s.readModifyWrite f aop = s.trapMem e 2 := by rw [State.readModifyWrite, he]

theorem execCas_of_failed (h : s.goes (.cas f) f)
    (he : s.resolve { rmw := true } (s.ea f) (accessBytes f) (accessBytes f) = .error e) :
    exec (.cas f) s = .next (s.trapMem e 2) := (guarded_goes h).trans (by rw [State.readModifyWrite_of_failed he])

theorem execAmo_of_failed (h : s.goes (.amo f) f)
    (he : s.resolve { rmw := true } (s.ea f) (accessBytes f) (accessBytes f) = .error e) :
    exec (.amo f) s = .next (s.trapMem e 2) := (guarded_goes h).trans (by rw [State.readModifyWrite_of_failed he])

theorem execVld_of_failed (h : s.goes (.vld f) f)
    (he : s.resolve { ordered := f.ord ≠ 0, fe := f.wf || f.clr } (s.ea f) 256 16 = .error e) :
    exec (.vld f) s = .next (s.trapMem e 0) := (guarded_goes h).trans (by rw [he])

theorem execVst_of_failed (h : s.goes (.vst f) f)
    (he : s.resolve { write := true, ordered := f.ord ≠ 0 } (s.ea f) 256 16 = .error e) :
    exec (.vst f) s = .next (s.trapMem e 1) := (guarded_goes h).trans (by rw [he])

theorem execVldb_of_failed (h : s.goes (.vldb f) f)
    (he : s.resolve { ordered := f.ord ≠ 0, fe := f.wf || f.clr } (s.ea f) (typeWidth f.t / 8) (typeWidth f.t / 8) = .error e) :
    exec (.vldb f) s = .next (s.trapMem e 0) := (guarded_goes h).trans (by rw [he])

end

/-- Settles O18: the branch of `placeOf` that a pointer takes, and the trap that each operation's check leads to. -/
theorem pointerWindows : Obligations.PointerWindows := by
  refine ⟨fun s off n hn _ => ?_, fun s f e hmay => ?_⟩
  · intro l at_
    refine ⟨placeOf_ownPad hn, placeOf_ownPad_edge, fun k hk hne hx h => ?_, fun k hk hne hx h => ?_,
      placeOf_clusterPad hn, placeOf_diePad hn, fun h => ?_, fun hoff h => ?_, placeOf_hole,
      fun tag a => placeOf_tagged⟩
    · exact (placeOf_sibling hk hne hn h).trans (if_pos hx)
    · exact (placeOf_sibling hk hne hn h).trans (if_neg (by simp [hx]))
    · exact (congrArg (fun x => s.place (BitVec.ofNat 64 x) n) (Nat.zero_add off)).trans (placeOf_global hn h)
    · exact (congrArg (fun x => s.place (BitVec.ofNat 64 x) n) (Nat.zero_add off)).trans (placeOf_global_edge hoff h)
  · have traps {i : Instr} {acc : Nat} (hacc : acc < 4) := trapped_of_failed_access hmay (i := i) (e := e) hacc
    exact ⟨fun h he => traps (by decide) (execLd_of_failed h he), fun h he => traps (by decide) (execSt_of_failed h he),
      fun h he => traps (by decide) (execCas_of_failed h he), fun h he => traps (by decide) (execAmo_of_failed h he),
      fun h he => traps (by decide) (execVld_of_failed h he), fun h he => traps (by decide) (execVst_of_failed h he),
      fun h he => traps (by decide) (execVldb_of_failed h he)⟩

end Sys2Proof.Machine

/-! The end and the restart of tasks leave the map of the clusters and the package as they are. -/

namespace Sys2Proof.Machine

/-! ### Plain updates -/

@[simp] theorem State.setCore_hosting (s : State) (c : Core) : (s.setCore c).hosting = s.hosting := rfl

@[simp] theorem State.event_hosting (s : State) (q seq : Nat) (k : EventKind) : (s.event q seq k).hosting = s.hosting := rfl

@[simp] theorem State.failNode_hosting (s : State) (q seq : Nat) (x : FaultInfo) : (s.failNode q seq x).hosting = s.hosting := rfl

@[simp] theorem State.loseBytes_hosting (s : State) (l k n : Nat) : (s.loseBytes l k n).hosting = s.hosting := rfl

/-! ### Tasks -/

@[simp] theorem State.setTask_hosting (s : State) (t : Task) : (s.setTask t).hosting = s.hosting := rfl

@[simp] theorem State.select_hosting (s : State) (r : TaskRef) : (s.select r).hosting = s.hosting := by
  unfold State.select; repeat' split
  all_goals rfl

@[simp] theorem State.flagShared_hosting (s : State) : s.flagShared.hosting = s.hosting := rfl

@[simp] theorem State.abandon_hosting (s : State) : s.abandon.hosting = s.hosting := by
  have hdiscard : (s.task.bolt.outer.elim (s.discardWork s.task.bolt.work)
      (s.discardWork s.task.bolt.work).discardWork).hosting = s.hosting := by
    cases s.task.bolt.outer with
    | none => exact hosting_of_aside (s.discardWork_aside _)
    | some w => exact hosting_of_aside ((State.discardWork_aside _ w).trans (s.discardWork_aside _))
  exact (hosting_of_aside (State.cancel_aside _ _ _)).trans hdiscard

@[simp] theorem State.stopTasks_hosting (s : State) (ls : List Nat) : (s.stopTasks ls).hosting = s.hosting :=
  foldl_keeps State.hosting _ _ _ fun s t => (State.abandon_hosting _).trans (s.select_hosting t.ref)

@[simp] theorem State.restartTask_hosting (s : State) : s.restartTask.hosting = s.hosting := rfl

@[simp] theorem State.closeTask_hosting (s : State) : s.closeTask.hosting = s.hosting :=
  (hosting_of_aside (State.leaveCore_aside _ _ _)).trans rfl

@[simp] theorem State.endFaulted_hosting (s : State) (cls cause det : Nat) :
    (s.endFaulted cls cause det).hosting = s.hosting := by
  rw [State.endFaulted]
  rw [State.event_hosting, State.closeTask_hosting, State.failNode_hosting, State.abandon_hosting]

@[simp] theorem State.restartOrEnd_hosting (s : State) (ok : Bool) (t : Task) : (s.restartOrEnd ok t).hosting = s.hosting := by
  unfold State.restartOrEnd
  dsimp only
  split_ifs
  · exact s.select_hosting _
  · rw [State.restartTask_hosting, State.abandon_hosting, State.select_hosting]
  · rw [State.endFaulted_hosting, State.select_hosting]

/-! ### Stands and their restarts (R294) -/

@[simp] theorem State.haltMember_hosting (s : State) (r : TaskRef) : (s.haltMember r).hosting = s.hosting := by
  unfold State.haltMember
  dsimp only
  split_ifs
  · exact s.select_hosting r
  · rw [State.setTask_hosting, State.abandon_hosting, State.select_hosting]

@[simp] theorem State.unstart_hosting (s : State) (r : TaskRef) : (s.unstart r).hosting = s.hosting := by
  unfold State.unstart
  dsimp only
  split_ifs
  · exact s.select_hosting r
  · exact (hosting_of_aside (State.refreshLevel_aside _ _)).trans (s.select_hosting r)

@[simp] theorem State.decideRestart_hosting (s : State) (z : Stand) (ok : Bool) : (s.decideRestart z ok).hosting = s.hosting := by
  cases ok with
  | true => exact foldl_keeps State.hosting _ _ s fun s r => s.unstart_hosting r
  | false =>
    refine foldl_keeps State.hosting _ _ (s.onStand ..) fun s r => ?_
    dsimp only
    split
    · rw [State.endFaulted_hosting, State.select_hosting]
    · exact s.select_hosting r

@[simp] theorem State.settleRestart_hosting (s : State) (q seq : Nat) : (s.settleRestart q seq).hosting = s.hosting := by
  unfold State.settleRestart
  split
  · rfl
  · split_ifs
    · exact s.decideRestart_hosting _ _
    · rfl

@[simp] theorem State.haltStand_hosting (s : State) (z : Stand) : (s.haltStand z).hosting = s.hosting := by
  have hhalt : ((s.membersOn z).foldl (fun acc t => acc.haltMember t.ref) s).hosting = s.hosting :=
    foldl_keeps State.hosting _ _ s fun s t => s.haltMember_hosting t.ref
  unfold State.haltStand
  dsimp only
  split_ifs
  · rw [State.settleRestart_hosting]
    exact (hosting_of_aside ((State.sendAll_aside _ _).trans (State.onStand_aside _ _ _ _ _ _))).trans hhalt
  · rw [State.decideRestart_hosting, hhalt]

@[simp] theorem State.hearRestart_hosting (s : State) (q seq pos : Nat) (ok : Bool) :
    (s.hearRestart q seq pos ok).hosting = s.hosting := by
  unfold State.hearRestart
  dsimp only
  split
  · rfl
  · split_ifs
    · exact State.settleRestart_hosting _ q seq
    · exact State.haltStand_hosting _ _

@[simp] theorem State.deliverBody_hosting (s : State) (b : Config.PortBody) : (s.deliverBody b).hosting = s.hosting := by
  cases b with
  | packet q seq bytes => rfl
  | arrival q seq m no | ended q seq m | data q seq num member kind args vals bad =>
    unfold State.deliverBody
    dsimp only
    split_ifs <;> rfl
  | restart q seq pos ok =>
    unfold State.deliverBody
    dsimp only
    split_ifs
    · rfl
    · exact s.hearRestart_hosting q seq pos ok

@[simp] theorem State.deliverEarly_hosting (s : State) : s.deliverEarly.hosting = s.hosting :=
  foldl_keeps State.hosting _ _ _ State.deliverBody_hosting

@[simp] theorem State.restartTasks_hosting (s : State) (rs : List TaskRef) : (s.restartTasks rs).hosting = s.hosting := by
  refine (State.deliverEarly_hosting _).trans (foldl_keeps State.hosting _ _ s fun s r => ?_)
  split
  · rfl
  · split
    · rfl
    · split
      · split
        · exact s.restartOrEnd_hosting _ _
        · exact s.haltStand_hosting _
      · exact s.restartOrEnd_hosting _ _

/-! ### Cores that move (R293) -/

@[simp] theorem State.recallFrom_hosting (s : State) (h nb : Nat) : (s.recallFrom h nb).hosting = s.hosting := by
  unfold State.recallFrom
  dsimp only
  split_ifs
  · rfl
  · exact foldl_keeps State.hosting _ _ (s.setCore _) fun s r => hosting_of_aside (s.leaveArray_aside h r)

@[simp] theorem State.recall_hosting (s : State) (nb : Nat) : (s.recall nb).hosting = s.hosting :=
  foldl_keeps State.hosting _ _ s fun s _ => s.recallFrom_hosting _ nb

@[simp] theorem State.losePad_hosting (s : State) (l : Nat) : (s.losePad l).hosting = s.hosting :=
  s.loseBytes_hosting l _ _

@[simp] theorem State.moveCore_hosting (s : State) (l : Nat) : (s.moveCore l).hosting = s.hosting := by
  unfold State.moveCore
  dsimp only
  rw [hosting_of_aside (State.restartHelpers_aside _ l), foldl_keeps State.hosting, State.losePad_hosting,
    State.setCore_hosting, State.recall_hosting]
  intro t r
  cases s.kernelAt r.kernel with
  | none => rfl
  | some k => exact hosting_of_aside (t.writePads_aside l k)

@[simp] theorem State.moveCores_hosting (s : State) (ls : List Nat) : (s.moveCores ls).hosting = s.hosting :=
  foldl_keeps State.hosting _ _ s State.moveCore_hosting

/-! ### Hosts -/

theorem pkg_of_hosting {s t : State} (h : t.hosting = s.hosting) : t.pkg = s.pkg := congrArg Prod.snd h

theorem cluster_of_hosting {s t : State} (h : t.hosting = s.hosting) (c : Nat) : t.cluster c = s.cluster c := by
  rw [State.cluster, State.cluster, show t.clusters = s.clusters from congrArg Prod.fst h]

theorem hostOf_of_hosting {s t : State} (h : t.hosting = s.hosting) (l : Nat) : t.hostOf l = s.hostOf l := by
  simp only [State.hostOf, State.partner, State.dieFailed, pkg_of_hosting h, cluster_of_hosting h]
  rfl

end Sys2Proof.Machine

/-! The registers in which a task begins, and the granules of the cores as it does. -/

namespace Sys2Proof.Machine

/-- The registers in which a task begins (R14, R34). -/
def TaskRegs.start (arg : W64) : TaskRegs := { TaskRegs.reset with g := sset (fun _ => 0) [] 1 arg }

section
variable {s : State} {arg : W64} (h : s.task.regs = .start arg)
include h

/-- The argument is in g1, and every other register is 0. -/
theorem finalG_of_start (n : Nat) : s.finalG n = if n = 1 then arg else 0 := by
  by_cases hn : n = 1
  · subst hn; simp [State.finalG, h, TaskRegs.start, TaskRegs.close, TaskRegs.reset, TaskRegs.storedG]
  · simp [State.finalG, h, TaskRegs.start, TaskRegs.close, TaskRegs.reset, TaskRegs.storedG, hn, sget]

theorem finalP_of_start {n : Nat} (hn : 0 < n) : s.finalP n = false := by
  rw [State.finalP, h, if_neg (Nat.ne_of_gt hn)]
  exact BitVec.getLsbD_zero

theorem finalM_of_start {n : Nat} (hn : 0 < n) : s.finalM n = 0 := by
  rw [State.finalM, h, if_neg (Nat.ne_of_gt hn)]
  rfl

theorem finalV_of_start (n : Nat) : s.finalV n = 0 := by
  rw [State.finalV, h]
  rfl

end

/-- Binding tiles and nest slots leaves the granules of every core. -/
theorem State.unspecifyBound_freeGran (s : State) (l : Nat) (abind : BitVec 4) (nbind : BitVec 8) (k : Nat) :
    ((s.unspecifyBound l abind nbind).core k).freeGran = (s.core k).freeGran := by
  rw [State.unspecifyBound, core_setCore]
  by_cases hk : k = l
  · rw [if_pos (by exact hk), hk]
  · rw [if_neg (by exact hk)]

end Sys2Proof.Machine

/-! Shedding, and the restart of a task (R36, R292 to R294). -/

namespace Sys2Proof.Machine

/-! ### The map of a cluster (R292) -/

/-- The physical index that a map gives logical index `j`. -/
def mapNibble (m : BitVec 48) (j : Nat) : Nat := m.toNat / 16 ^ j % 16

theorem hostOf_of_not_adopted {s : State} (h : s.pkg.state ≠ 1) (l : Nat) :
    s.hostOf l = (l / 12, mapNibble (s.cluster (l / 12)).map (l % 12)) := by
  have hpartner : s.partner l = l := if_neg fun e => h e.1
  rw [State.hostOf, hpartner]
  rfl

/-- A number with the digit of weight `16 ^ j` replaced: what stands above and below stays. -/
theorem replaced_digit (n j k : Nat) :
    let m := n - n / 16 ^ j % 16 * 16 ^ j + k % 16 * 16 ^ j
    m / 16 ^ j = n / 16 ^ j - n / 16 ^ j % 16 + k % 16 ∧ m % 16 ^ j = n % 16 ^ j := by
  have hpos : 0 < 16 ^ j := Nat.pow_pos (by decide)
  have hn : 16 ^ j * (n / 16 ^ j) + n % 16 ^ j = n := Nat.div_add_mod n (16 ^ j)
  have hle : n / 16 ^ j % 16 ≤ n / 16 ^ j := Nat.mod_le _ _
  have hm : n - n / 16 ^ j % 16 * 16 ^ j + k % 16 * 16 ^ j =
      n % 16 ^ j + 16 ^ j * (n / 16 ^ j - n / 16 ^ j % 16 + k % 16) := by
    obtain ⟨d, hd⟩ := Nat.exists_eq_add_of_le hle
    have hexpand : 16 ^ j * (n / 16 ^ j) = n / 16 ^ j % 16 * 16 ^ j + 16 ^ j * d := by
      calc 16 ^ j * (n / 16 ^ j) = 16 ^ j * (n / 16 ^ j % 16 + d) := congrArg _ hd
        _ = _ := by ring
    have hdiff : n / 16 ^ j - n / 16 ^ j % 16 = d := by omega
    rw [hdiff, Nat.mul_add, Nat.mul_comm _ (k % 16)]
    omega
  intro m
  rw [show m = _ from hm]
  exact ⟨by rw [Nat.add_mul_div_left _ _ hpos, Nat.div_eq_of_lt (Nat.mod_lt _ hpos), Nat.zero_add],
    by rw [Nat.add_mul_mod_self_left, Nat.mod_mod]⟩

theorem mapNibble_setMap (m : BitVec 48) {i j k : Nat} (hj : j < 12) :
    mapNibble (setMap m j k) i = if i = j then k % 16 else mapNibble m i := by
  obtain ⟨hdiv, hmod⟩ := replaced_digit m.toNat j k
  have hbound : (setMap m j k).toNat = m.toNat - m.toNat / 16 ^ j % 16 * 16 ^ j + k % 16 * 16 ^ j := by
    rw [setMap, BitVec.toNat_ofNat]
    refine Nat.mod_eq_of_lt ?_
    have hpow : (2 : Nat) ^ 48 = 16 * 16 ^ (11 - j) * 16 ^ j := by
      rw [← Nat.pow_succ', ← Nat.pow_add, show 11 - j + 1 + j = 12 by omega]
      rfl
    have hm : m.toNat / 16 ^ j < 16 * 16 ^ (11 - j) := Nat.div_lt_of_lt_mul (by rw [Nat.mul_comm, ← hpow]; exact m.isLt)
    have hdigit (q d p : Nat) (hq : q < 16 * p) (hd : d < 16) : q - q % 16 + d < 16 * p := by omega
    rw [hpow, ← Nat.div_lt_iff_lt_mul (Nat.pow_pos (by decide)), hdiv]
    exact hdigit _ _ _ hm (Nat.mod_lt _ (by decide))
  rw [mapNibble, hbound]
  generalize m.toNat - m.toNat / 16 ^ j % 16 * 16 ^ j + k % 16 * 16 ^ j = x at *
  rcases Nat.lt_trichotomy i j with hlt | rfl | hgt
  · have hdvd : 16 ^ (i + 1) ∣ 16 ^ j := Nat.pow_dvd_pow 16 hlt
    have hlow (y : Nat) : y / 16 ^ i % 16 = y % 16 ^ j % 16 ^ (i + 1) / 16 ^ i := by
      rw [Nat.mod_mod_of_dvd _ hdvd, Nat.pow_succ, Nat.mod_mul_right_div_self]
    rw [if_neg (by omega), hlow, hmod, mapNibble, hlow]
  · rw [if_pos rfl, hdiv]
    omega
  · have hhigh (y : Nat) : y / 16 ^ i = y / 16 ^ j / 16 / 16 ^ (i - j - 1) := by
      rw [Nat.div_div_eq_div_mul _ 16, ← Nat.pow_succ', Nat.div_div_eq_div_mul, ← Nat.pow_add]
      congr 2; omega
    have hsame (q d : Nat) (hd : d < 16) : (q - q % 16 + d) / 16 = q / 16 := by omega
    rw [if_neg (by omega), hhigh, hdiv, mapNibble, hhigh, hsame _ _ (Nat.mod_lt _ (by decide))]

/-! ### Shedding (R292, R293) -/

/-- The logical indices of a cluster that a physical core serves, where it hosts one logical core. -/
theorem indices_of_hostedBy {s : State} {c k j : Nat} (hstate : s.pkg.state ≠ 1) (hc : c < 16) (hj : j < 12)
    (hone : s.hostedBy c k = [12 * c + j]) :
    ((List.range 12).filter fun i => (s.cluster c).map.toNat / 16 ^ i % 16 == k) = [j] := by
  have hmem (i : Nat) (hi : i < 12) : mapNibble (s.cluster c).map i = k ↔ i = j := by
    have hiff : 12 * c + i ∈ s.hostedBy c k ↔ mapNibble (s.cluster c).map i = k := by
      have hdiv : (12 * c + i) / 12 = c := by omega
      have hmod : (12 * c + i) % 12 = i := by omega
      have hlt : 12 * c + i < 192 := by omega
      simp [State.hostedBy, hostOf_of_not_adopted hstate, hdiv, hmod, hlt]
    rw [← hiff, hone, List.mem_singleton]
    omega
  have hfilter : ((List.range 12).filter fun i => (s.cluster c).map.toNat / 16 ^ i % 16 == k) =
      (List.range 12).filter (· == j) :=
    List.filter_congr fun i hi => by
      rw [Bool.eq_iff_iff, beq_iff_eq, beq_iff_eq]
      exact hmem i (List.mem_range.1 hi)
  have hsingle : ∀ j < 12, (List.range 12).filter (· == j) = [j] := by decide
  rw [hfilter, hsingle j hj]

/-- A cluster with a spare gives it to the logical index (R293). -/
theorem rehostAll_of_spare {s : State} {c k j : Nat} (h : (s.cluster c).spare ≠ 15) :
    s.rehostAll c k [j] = .ok (s.setCluster c
      { s.cluster c with map := setMap (s.cluster c).map j (s.cluster c).spare, spare := 15 }) := by
  rw [State.rehostAll, State.rehost]
  dsimp only
  rw [if_pos h]
  rfl

/-- Shedding is counted for the cluster and for the package. -/
def State.countShed (s : State) (c : Nat) : State :=
  let s1 := s.setCluster c { s.cluster c with shed := Nat.min ((s.cluster c).shed + 1) 15 }
  s1.setPkg { s1.pkg with shtot := Nat.min (s1.pkg.shtot + 1) 255 }

theorem State.countShed_cluster (s : State) (c : Nat) :
    (s.countShed c).cluster c = { s.cluster c with shed := Nat.min ((s.cluster c).shed + 1) 15 } :=
  (cluster_setCluster s c c _).trans (if_pos rfl)

theorem countShed_hosting {s t : State} (h : t.hosting = s.hosting) (c : Nat) :
    (t.countShed c).hosting = (s.countShed c).hosting := by
  have hclusters : t.clusters = s.clusters := congrArg Prod.fst h
  simp only [State.hosting, State.countShed, State.setCluster, State.setPkg, cluster_of_hosting h, hclusters,
    pkg_of_hosting h]

theorem setCluster_hosting {s t : State} (h : t.hosting = s.hosting) (c : Nat) (x : Cluster) :
    (t.setCluster c x).hosting = (s.setCluster c x).hosting := by
  have hclusters : t.clusters = s.clusters := congrArg Prod.fst h
  simp only [State.hosting, State.setCluster, hclusters, pkg_of_hosting h]

/-- Shedding once the logical cores of the physical core have new hosts. -/
theorem shedCore_of_rehosted {s t : State} {c k : Nat} {ls js : List Nat} (hls : s.hostedBy c k = ls) (hne : ls ≠ [])
    (hjs : ((List.range 12).filter fun i => (s.cluster c).map.toNat / 16 ^ i % 16 == k) = js)
    (hshed : (((s.stopTasks ls).countShed c).cluster c).shed ≤ 4)
    (h : ((s.stopTasks ls).countShed c).rehostAll c k js = .ok t) :
    s.shedCore c k = State.restartTasks (t.flagShared.moveCores ls) (t.tasksOf ls) := by
  subst hls hjs
  refine (if_neg (by simpa using hne)).trans ((if_neg (Nat.not_lt.2 hshed)).trans ?_)
  split
  next _ herr => cases herr.symm.trans h
  next _ hok => cases hok.symm.trans h; rfl

/-- A physical core with one logical core, in a cluster with a spare, is shed to the spare. -/
theorem shedCore_of_spare {s : State} {c k j : Nat} (hstate : s.pkg.state ≠ 1) (hone : s.hostedBy c k = [12 * c + j])
    (hj : j < 12) (hc : c < 16) (hshed : (s.cluster c).shed < 4) (hspare : (s.cluster c).spare ≠ 15) :
    (s.shedCore c k).hosting = ((s.countShed c).setCluster c
      { (s.countShed c).cluster c with map := setMap (s.cluster c).map j (s.cluster c).spare, spare := 15 }).hosting := by
  have hcount := countShed_hosting (s.stopTasks_hosting [12 * c + j]) c
  have hcluster := (cluster_of_hosting hcount c).trans (s.countShed_cluster c)
  have hrehost := rehostAll_of_spare (s := (s.stopTasks [12 * c + j]).countShed c) (c := c) (k := k) (j := j)
    (by rw [hcluster]; exact hspare)
  rw [shedCore_of_rehosted hone (by simp) (indices_of_hostedBy hstate hc hj hone) (by rw [hcluster]; exact (Nat.min_le_left _ _).trans hshed) hrehost,
    State.restartTasks_hosting, State.moveCores_hosting, State.flagShared_hosting, setCluster_hosting hcount, hcluster,
    s.countShed_cluster]

/-- The hosts of a cluster's logical cores after a shedding: the spare has the place of the shed core (R292, R293). -/
theorem hostOf_shedCore {s : State} {c k j : Nat} (hstate : s.pkg.state ≠ 1) (hone : s.hostedBy c k = [12 * c + j])
    (hj : j < 12) (hc : c < 16) (hshed : (s.cluster c).shed < 4) (hspare : (s.cluster c).spare < 15) {i : Nat} (hi : i < 12) :
    (s.shedCore c k).hostOf (12 * c + i) = if i = j then (c, (s.cluster c).spare) else s.hostOf (12 * c + i) := by
  have hdiv : (12 * c + i) / 12 = c := by omega
  have hmod : (12 * c + i) % 12 = i := by omega
  rw [hostOf_of_hosting (shedCore_of_spare hstate hone hj hc hshed (by omega)), hostOf_of_not_adopted (by exact hstate),
    hostOf_of_not_adopted hstate, hdiv, hmod, cluster_setCluster, if_pos rfl, mapNibble_setMap _ hj,
    Nat.mod_eq_of_lt (by omega)]
  split <;> rfl

/-! ### The restart of a task (R17, R36) -/

/-- The pool has the granules of the start: the task takes them and goes on. -/
theorem State.regain_of_le {s : State} (h : s.task.id.vstart ≤ s.myCore.freeGran) : s.regain =
    (s.setCore { s.myCore with freeGran := s.myCore.freeGran - s.task.id.vstart }).setTask { s.task with
      id := { s.task.id with vgran := s.task.id.vstart }, flow := { s.task.flow with wait := none } } := if_pos h

theorem State.regain_of_lt {s : State} (h : s.myCore.freeGran < s.task.id.vstart) : s.regain = s :=
  if_neg (Nat.not_le.2 h)

theorem State.restartTask_regs (s : State) : s.restartTask.task.regs = .start s.task.id.arg := rfl

/-- A restarted task returns what it holds to the pool (log 44). -/
theorem State.restartTask_freeGran (s : State) : (s.restartTask.core s.task.id.lcore).freeGran =
    (s.core s.task.id.lcore).freeGran + s.task.id.vgran + s.task.flow.freed := by
  refine (State.unspecifyBound_freeGran _ _ _ _ _).trans ?_
  rw [core_setCore, if_pos (by rfl)]

/-- Settles O50: shedding to the spare, and the fields of a restarted task. That a restarted task waits for its allotment is the
choice of log 44. -/
theorem coresAreShed : Obligations.CoresAreShed := by
  refine ⟨fun s c k h => ?_, fun s c k j hstate hone hj hc hshed hspare => ?_, fun s => ?_, fun s => ?_⟩
  · exact congrArg Host.Outcome.next (if_pos (by rw [h]; rfl))
  · have hhost {i : Nat} (hi : i < 12) := hostOf_shedCore hstate hone hj hc hshed hspare hi
    have hkeeps := shedCore_of_spare hstate hone hj hc hshed (by omega)
    have hcluster := (cluster_of_hosting hkeeps c).trans ((cluster_setCluster _ c c _).trans (if_pos rfl))
    refine ⟨_, rfl, (hhost hj).trans (if_pos rfl), ?_, ?_, ?_, fun i hi hne => (hhost hi).trans (if_neg hne)⟩
    · rw [hcluster]
    · rw [hcluster, s.countShed_cluster]
      exact Nat.min_eq_left (by omega)
    · rw [pkg_of_hosting hkeeps]
      rfl
  · refine ⟨fun h => ?_, State.regain_of_lt⟩
    rw [State.regain_of_le h]
    refine ⟨rfl, rfl, ?_, rfl⟩
    exact (core_setCore s _ _).trans (if_pos rfl)
  · refine ⟨rfl, rfl, rfl, ⟨_, rfl, rfl⟩, finalG_of_start s.restartTask_regs 1,
      fun n hn => (finalG_of_start s.restartTask_regs n).trans (if_neg hn), rfl, rfl, rfl, ?_, s.restartTask_mem, s.restartTask_freeGran⟩
    simp [State.restartTask]

end Sys2Proof.Machine

/-! The start of tasks, the aging of candidates and requests for pre-emption (R275, R302, R306 to R308). -/

namespace Sys2Proof.Machine

/-! ### What a kernel's residency leaves alone (R306) -/

/-- The selected task, the parked ones, and the nodes. -/
def State.work (s : State) : Task × List Task × List Node := (s.task, s.parked, s.nodes)

theorem State.fillGranules_work (s : State) (gs : List (Nat × Nat)) : (s.fillGranules gs).work = s.work := by
  induction gs generalizing s with
  | nil => rfl
  | cons g gs ih => exact ih _

theorem State.writePads_work (s : State) (l : Nat) (k : Kernel) : (s.writePads l k).work = s.work :=
  foldl_keeps State.work _ _ _ fun _ _ => State.fillGranules_work _ _

theorem State.onHelper_work (s : State) (l w : Nat) (f : Helper → Helper) : (s.onHelper l w f).work = s.work := by
  unfold State.onHelper; repeat' split
  all_goals rfl

theorem State.writeHelper_work (s : State) (l w func : Nat) (image : Option (List Byte)) :
    (s.writeHelper l w func image).work = s.work := by
  cases image with
  | none => rfl
  | some bs => exact State.onHelper_work _ l w _

theorem State.makeResident_work {s t : State} {l func base : Nat} {k : Kernel} (h : s.makeResident l func k = some (t, base)) :
    t.work = s.work := by
  obtain ⟨⟨b, rs⟩, -, hplace⟩ := Option.map_eq_some_iff.1 h
  dsimp only at hplace
  split at hplace
  · cases hplace; rfl
  · cases hplace
    rw [State.writeHelper_work, State.writeHelper_work, State.writePads_work]
    rfl

/-! ### Nodes -/

@[simp] theorem counter_setCounter (c : Sparse Nat) (i j v : Nat) :
    counter (setCounter c i v) j = if j = i then v else counter c j := by
  simp [counter, setCounter]

/-- A node that is changed where it stands is found changed. -/
theorem State.nodeAt_onNode (s : State) (q seq : Nat) {f : Node → Node} (hq : ∀ n, (f n).queue = n.queue)
    (hseq : ∀ n, (f n).seq = n.seq) : (s.onNode q seq f).nodeAt q seq = (s.nodeAt q seq).map f := by
  let g := fun (n : Node) => if n.queue = q ∧ n.seq = seq then f n else n
  have hsame : ((fun n : Node => n.queue == q && n.seq == seq) ∘ g) = fun n => n.queue == q && n.seq == seq := by
    funext n
    by_cases h : n.queue = q ∧ n.seq = seq <;> simp [g, h, hq, hseq]
  have hfound : (s.onNode q seq f).nodeAt q seq = (s.nodeAt q seq).map g := by
    rw [State.nodeAt, State.onNode, List.find?_map, hsame]
    rfl
  rw [hfound]
  cases hn : s.nodeAt q seq with
  | none => rfl
  | some n =>
    have h : n.queue = q ∧ n.seq = seq := by simpa using List.find?_some hn
    simp [g, h]

/-! ### The start of a tile (R306) -/

/-- The lowest free partition runs no task. -/
theorem State.freePart_spec {s : State} {l part : Nat} (h : s.freePart l = some part) :
    part < 16 ∧ ∀ x ∈ s.tasks, x.is ⟨l, part⟩ = false := by
  exact ⟨List.mem_range.1 (List.mem_of_find?_eq_some h), by simpa using List.find?_some h⟩

/-- The core of a start: what the kernel asks for is free, and the core can start tasks. -/
def State.hasRoomFor (s : State) (l : Nat) (k : Kernel) : Prop :=
  s.hosted l = true ∧ s.pkg.state ≠ 2 ∧ k.gran ≤ (s.core l).freeGran ∧ s.unbound l k.abind k.nbind = true

/-- The task of a node's next tile on a core. -/
def State.tileTask (s : State) (n : Node) (k : Kernel) (l part base : Nat) : Task :=
  let t := Task.begin_ (s.identity n k l part (sliceStart n.tiles l + counter n.started l) base) (packetStand n.packet)
    (k.entry k.tvec) s.dcc
  { t with bolt := { t.bolt with degr := s.startDegr l } }

/-- The task takes its granules and its partition, once its kernel is resident in `u`. -/
def State.placeTask (s u : State) (k : Kernel) (l : Nat) (t : Task) : State :=
  ((u.setCore { u.core l with freeGran := (s.core l).freeGran - k.gran }).unspecifyBound l k.abind k.nbind).addTask t

/-- The node counts its tile. -/
def Node.countStart (l : Nat) (n : Node) : Node := { n with started := setCounter n.started l (counter n.started l + 1) }

/-- The cores' aging blocks (R307). -/
def State.setAges (s : State) (ages : Sparse Nat) : State := { s with dev := { s.dev with ages } }

/-- What a start of a tile does: nothing but the aging block of the core differs from the counted start. -/
theorem State.startTile_cases {s t : State} {l q seq : Nat} (h : s.startTile l q seq = some t) :
    ∃ n k part base u ages, s.nodeAt q seq = some n ∧ s.kernelAt n.kernel = some k ∧ s.freePart l = some part ∧ s.hasRoomFor l k ∧
      s.makeResident l n.func k = some (u, base) ∧
      t = ((s.placeTask u k l (s.tileTask n k l part base)).onNode q seq (Node.countStart l)).setAges ages := by
  unfold State.startTile at h
  split at h
  · cases h
  next n hn =>
  split at h
  next k part hk hpart =>
    dsimp only at h
    split at h
    · cases h
    next hchecks =>
      obtain ⟨⟨u, base⟩, hres, hput⟩ := Option.map_eq_some_iff.1 h
      refine ⟨n, k, part, base, u, _, hn, hk, hpart, ?_, hres, hput.symm⟩
      simp only [Bool.or_eq_true, Bool.not_eq_true', beq_iff_eq, decide_eq_true_eq, not_or, Bool.not_eq_false] at hchecks
      obtain ⟨⟨⟨⟨hhost, hstate⟩, hgran⟩, hfree⟩, -⟩ := hchecks
      exact ⟨hhost, hstate, Nat.not_lt.1 hgran, hfree⟩
  · cases h

theorem State.placeTask_freeGran (s u : State) (k : Kernel) (l : Nat) (t : Task) :
    ((s.placeTask u k l t).core l).freeGran = (s.core l).freeGran - k.gran := by
  refine (State.unspecifyBound_freeGran _ l k.abind k.nbind l).trans ?_
  rw [core_setCore, if_pos (by rfl)]

theorem State.placeTask_nodes (s u : State) (k : Kernel) (l : Nat) (t : Task) : (s.placeTask u k l t).nodes = u.nodes := rfl

/-- The task selected before is parked. -/
theorem State.placeTask_parked {s u : State} {k : Kernel} {l : Nat} {t : Task} (h : u.task.id.live = true) :
    u.task ∈ (s.placeTask u k l t).parked := by
  have hparked : (s.placeTask u k l t).parked = u.parked ++ if u.task.id.live then [u.task] else [] := rfl
  rw [hparked, if_pos h]
  simp

/-! ### Turns of candidates (R275, R307) -/

/-- What `takeWhile` leaves begins with an element that fails the test. -/
theorem takeWhile_split {α : Type} {p : α → Bool} {l : List α} (h : l.any (fun x => !p x) = true) :
    ∃ m l2, l = l.takeWhile p ++ m :: l2 ∧ p m = false := by
  induction l with
  | nil => cases h
  | cons x l ih =>
    cases hx : p x with
    | false => exact ⟨x, l, by simp [hx], hx⟩
    | true =>
      obtain ⟨m, l2, hl, hm⟩ := ih (by simpa [hx] using h)
      exact ⟨m, l2, by rw [List.takeWhile_cons_of_pos hx, List.cons_append, ← hl], hm⟩

/-- A candidate that has its turn stands in the order behind others that cannot start. -/
theorem State.hasTurn_split {s : State} {n : Node} {i : Nat} (h : s.hasTurn n i = true) :
    ∃ l1 m l2, s.candidates i = l1 ++ m :: l2 ∧ m.ageKey = n.ageKey ∧
      ∀ x ∈ l1, x.ageKey ≠ n.ageKey ∧ s.tryStart i x = none := by
  obtain ⟨hany, hall⟩ := Bool.and_eq_true_iff.1 h
  obtain ⟨m, l2, hsplit, hm⟩ := takeWhile_split (p := fun m => m.ageKey != n.ageKey) (l := s.candidates i)
    (by simpa using hany)
  refine ⟨_, m, l2, hsplit, by simpa using hm, fun x hx => ⟨by simpa using List.mem_takeWhile_imp hx, ?_⟩⟩
  simpa using List.all_eq_true.1 hall x hx

/-- A candidate starts where it has its turn on each of its cores, by its launch level. -/
theorem State.startCandidate_cases {s t : State} {l : Nat} {n : Node} (h : s.startCandidate l n = some t) :
    (∀ i ∈ n.startCores l, i ≠ l → s.hasTurn n i = true) ∧ s.tryStart l n = some t := by
  rw [State.startCandidate] at h
  split at h
  next hturn =>
    refine ⟨fun i hi hne => List.all_eq_true.1 hturn i (List.mem_filter.2 ⟨hi, by simpa using hne⟩), h⟩
  · cases h

theorem State.tryStart_single {s : State} {l : Nat} {n : Node} (h : packetStand n.packet = 0) :
    s.tryStart l n = s.startTile l n.queue n.seq := if_pos h

theorem State.tryStart_stand {s t : State} {l : Nat} {n : Node} (h : packetStand n.packet ≠ 0) (ht : s.tryStart l n = some t) :
    s.restarting n = false ∧
      s.startTiles n.queue n.seq ((n.startCores l).flatMap fun i => List.replicate (n.sliceSize i) i) = some t := by
  rw [State.tryStart, if_neg h] at ht
  split at ht
  · cases ht
  next hr => exact ⟨by simpa using hr, ht⟩

/-! ### Aging (R307) -/

theorem execCandidateAgingBlock_of_none {s : State} {l : Nat} (h : s.agedOn l = none) :
    exec (.candidateAgingBlock l) s = .next s := by
  refine congrArg Host.Outcome.next ?_
  rw [h]

/-- The candidate takes the core's aging block. -/
def State.block (s : State) (l : Nat) (n : Node) : State := s.setAges (sset (fun _ => 0) s.dev.ages l n.ageKey)

theorem execCandidateAgingBlock_of_some {s : State} {l : Nat} {n : Node} (h : s.agedOn l = some n) :
    exec (.candidateAgingBlock l) s = .next (s.block l n) := by
  refine congrArg Host.Outcome.next ?_
  rw [h]
  rfl

theorem State.agedOn_spec {s : State} {l : Nat} {n : Node} (h : s.agedOn l = some n) :
    n ∈ s.nodes ∧ n.candidate l = true ∧ 4 * s.age < s.waited n := by
  rw [State.agedOn] at h
  split at h
  · cases h
  · have hmem := List.mem_mergeSort.1 (List.mem_of_find?_eq_some h)
    exact ⟨(List.mem_filter.1 hmem).1, (List.mem_filter.1 hmem).2, by simpa using List.find?_some h⟩

/-- Under the aging block of one of its candidates, a core has candidates of that node alone. -/
theorem State.candidates_block {s : State} {l : Nat} {n : Node} (hn : n ∈ s.nodes) (hc : n.candidate l = true) {m : Node}
    (hm : m ∈ (s.block l n).candidates l) : m.candidate l = true ∧ m.ageKey = n.ageKey := by
  have hages : sget (fun _ => 0) (s.block l n).dev.ages l = n.ageKey := by simp [State.block, State.setAges]
  have hmem (x : Node) : x ∈ (s.nodes.filter (·.candidate l)).mergeSort (s.block l n).before ↔
      x ∈ s.nodes ∧ x.candidate l = true := List.mem_mergeSort.trans List.mem_filter
  rw [State.candidates] at hm
  rw [hages] at hm
  split at hm
  next hnone =>
    exact absurd (beq_self_eq_true n.ageKey) (List.filter_eq_nil_iff.1 hnone n ((hmem n).2 ⟨hn, hc⟩))
  next =>
    obtain ⟨hx, hkey⟩ := List.mem_filter.1 hm
    exact ⟨((hmem m).1 hx).2, by simpa using hkey⟩

/-! ### Pre-emption (R308) -/

/-- A fold that keeps what it has or takes the next element chooses one of them. -/
theorem mem_of_foldl_choice {α : Type} {f : Option α → α → Option α} (hf : ∀ acc x, f acc x = acc ∨ f acc x = some x)
    {l : List α} {acc : Option α} {z : α} (h : l.foldl f acc = some z) : acc = some z ∨ z ∈ l := by
  induction l generalizing acc with
  | nil => exact .inl h
  | cons x l ih =>
    rcases ih h with hz | hz
    · rcases hf acc x with e | e
      · exact .inl (e.symm.trans hz)
      · exact .inr (by simp [Option.some.inj (e.symm.trans hz)])
    · exact .inr (List.mem_cons_of_mem x hz)

theorem State.preemptVictim_spec {s : State} {l : Nat} {y : Task} {rank : Nat × Nat × Nat}
    (h : s.preemptVictim l = some (y, rank)) :
    y ∈ s.tasks ∧ y.id.live = true ∧ y.id.lcore = l ∧ y.stand.level = 0 := by
  refine (mem_of_foldl_choice (fun acc x => ?_) h).elim (fun hnone => nomatch hnone) fun hmem => ?_
  · cases acc with
    | none => exact .inr rfl
    | some y => dsimp only; split <;> simp
  · obtain ⟨z, hz, hrank⟩ := List.mem_filterMap.1 hmem
    obtain ⟨r, -, he⟩ := Option.map_eq_some_iff.1 hrank
    cases he
    obtain ⟨hin, htest⟩ := List.mem_filter.1 hz
    simp only [Bool.and_eq_true, beq_iff_eq] at htest
    obtain ⟨⟨hlive, hcore⟩, hlevel⟩ := htest
    exact ⟨hin, hlive, hcore, hlevel⟩

/-- Whom the scheduler asks to leave, and for whom. -/
theorem State.preemptOn_spec {s : State} {l : Nat} {r : TaskRef} (h : s.preemptOn l = some r) :
    (∃ y ∈ s.tasks, y.ref = r ∧ y.id.live = true ∧ y.id.lcore = l ∧ y.stand.level = 0) ∧
      (∀ y ∈ s.tasks, y.id.live = true → y.id.lcore = l → y.flow.preempt = false) ∧
      ∃ m ∈ s.candidates l, s.age ≤ s.waited m ∧ s.lacks l m = true := by
  rw [State.preemptOn] at h
  split at h
  · cases h
  next hfree =>
  split at h
  · cases h
  next y rank hvictim =>
  dsimp only at h
  split at h
  next hneed =>
    cases h
    obtain ⟨hin, hlive, hcore, hlevel⟩ := State.preemptVictim_spec hvictim
    refine ⟨⟨y, hin, rfl, hlive, hcore, hlevel⟩, fun z hz hzlive hzcore => ?_, ?_⟩
    · exact Bool.eq_false_iff.2 fun hp => hfree (List.any_eq_true.2 ⟨z, hz, by simp [hzlive, hzcore, hp]⟩)
    · obtain ⟨m, hm, htest⟩ := List.any_eq_true.1 (Bool.and_eq_true_iff.1 hneed).2
      simp only [Bool.and_eq_true, decide_eq_true_eq] at htest
      obtain ⟨⟨hwait, -⟩, hlacks⟩ := htest
      exact ⟨m, hm, hwait, hlacks⟩
  · cases h

/-- The request: the next bundle of the task to complete may be the safe point (R195). -/
def State.requestPreemption (s : State) (r : TaskRef) : State :=
  s.onTask r fun t => { t with flow := { t.flow with preempt := true, safe := false } }

theorem execPreemptionRequest_of_none {s : State} {l : Nat} (h : s.preemptOn l = none) :
    exec (.preemptionRequest l) s = .next s := by
  refine congrArg Host.Outcome.next ?_
  rw [h]

theorem execPreemptionRequest_of_some {s : State} {l : Nat} {r : TaskRef} (h : s.preemptOn l = some r) :
    exec (.preemptionRequest l) s = .next (s.requestPreemption r) := by
  refine congrArg Host.Outcome.next ?_
  rw [h]
  rfl

theorem State.requestPreemption_taskAt {s : State} {r : TaskRef} {x : Task} (h : s.taskAt r = some x) :
    (s.requestPreemption r).taskAt r = some { x with flow := { x.flow with preempt := true, safe := false } } := by
  have hx : x.is r = true := by simpa using List.find?_some h
  rw [State.requestPreemption, taskAt_onTask, h, Option.map_some, if_pos hx]
  intro t
  rfl

theorem State.onTask_cores (s : State) (r : TaskRef) (f : Task → Task) : (s.onTask r f).cores = s.cores := by
  unfold State.onTask; split <;> rfl

/-! ### The statement -/

theorem execTaskStart_of_some {s t : State} {l : Nat} (h : s.startOn l = some t) : exec (.taskStart l) s = .next t :=
  congrArg (fun o : Option State => Host.Outcome.next (o.getD s)) h

theorem execTaskStart_of_none {s : State} {l : Nat} (h : s.startOn l = none) : exec (.taskStart l) s = .next s :=
  congrArg (fun o : Option State => Host.Outcome.next (o.getD s)) h

/-- Settles O48: the guards of each choice of the scheduler hold of what it chose, and a started task is `tileTask`, placed by
`placeTask` and counted by its node. -/
theorem tasksStart : Obligations.TasksStart := by
  intro s l
  refine ⟨fun t h => ⟨execTaskStart_of_some h, ?_⟩, execTaskStart_of_none, fun n t h => ?_, fun n i => State.hasTurn_split,
    fun q seq t h => ?_, fun n h => ?_, execCandidateAgingBlock_of_none, fun r x h hx => ?_, execPreemptionRequest_of_none⟩
  · exact List.exists_of_findSome?_eq_some h
  · obtain ⟨hturns, htry⟩ := State.startCandidate_cases h
    exact ⟨hturns, fun h0 => State.tryStart_single h0 ▸ htry, fun h0 => State.tryStart_stand h0 htry⟩
  · obtain ⟨n, k, part, base, u, ages, hn, hk, hpart, hroom, hres, rfl⟩ := State.startTile_cases h
    obtain ⟨hpart16, hfree⟩ := State.freePart_spec hpart
    obtain ⟨hhost, hstate, hgran, hunbound⟩ := hroom
    have hwork := State.makeResident_work hres
    have hregs : (s.tileTask n k l part base).regs = .start (BitVec.ofNat 64 (packetField n.packet 0x50 63 0)) := rfl
    refine ⟨n, k, part, hn, hk, hpart16, hfree, hgran, hunbound, hhost, hstate, ?_,
      s.placeTask_freeGran u k l (s.tileTask n k l part base), ?_, ?_⟩
    · exact ⟨rfl, rfl, rfl, rfl, rfl, rfl, rfl, rfl, rfl, rfl, rfl, rfl, rfl, rfl, rfl, rfl, rfl,
        finalG_of_start hregs 1, fun j hj => (finalG_of_start hregs j).trans (if_neg hj),
        fun j hj => ⟨finalP_of_start hregs hj, finalM_of_start hregs hj⟩, finalV_of_start hregs⟩
    · have hnodes : (s.placeTask u k l (s.tileTask n k l part base)).nodeAt q seq = some n := by
        rw [← hn, State.nodeAt, State.nodeAt, State.placeTask_nodes, show u.nodes = s.nodes from congrArg (·.2.2) hwork]
      have hcounted := State.nodeAt_onNode (s.placeTask u k l (s.tileTask n k l part base)) q seq (f := Node.countStart l)
        (fun _ => rfl) fun _ => rfl
      rw [hnodes] at hcounted
      refine (congrArg (Option.map fun m : Node => counter m.started l) hcounted).trans ?_
      simp [Node.countStart]
    · intro hlive
      have htask : u.task = s.task := congrArg (·.1) hwork
      rw [← htask] at hlive ⊢
      exact State.placeTask_parked (t := s.tileTask n k l part base) hlive
  · obtain ⟨hin, hcand, hwaited⟩ := State.agedOn_spec h
    exact ⟨hin, hcand, hwaited, _, execCandidateAgingBlock_of_some h, rfl, rfl, rfl, fun m => State.candidates_block hin hcand⟩
  · obtain ⟨hvictim, hnone, hneed⟩ := State.preemptOn_spec h
    exact ⟨hvictim, hnone, hneed, _, execPreemptionRequest_of_some h, State.requestPreemption_taskAt hx,
      State.onTask_mem s r _, s.onTask_cores r _⟩

end Sys2Proof.Machine

/-! Integer formats: how a conversion limits an exact integer, and how patterns read as integers (R38, R50, R53). -/

namespace Sys2Proof.Machine

/-! ### Formats -/

theorem floatFmt_of_intFmt {t : Nat} {x : Nat × Bool} (h : intFmt t = some x) : floatFmt t = none := by
  unfold intFmt at h
  split at h <;> cases h <;> rfl

theorem isVI_cases {t : BitVec 5} (h : isVI t = true) : t = 1 ∨ t = 2 ∨ t = 3 ∨ t = 5 ∨ t = 6 ∨ t = 7 := by
  revert t; decide

theorem intFmt_of_isVI {t : BitVec 5} (h : isVI t = true) : intFmt t.toNat = some (typeWidth t, signedType t) := by
  rcases isVI_cases h with rfl | rfl | rfl | rfl | rfl | rfl <;> rfl

/-! ### Patterns of integers -/

theorem intOf_emod (w : Nat) (signed : Bool) (x : Nat) : intOf w signed x % 2 ^ w = (x : Int) % 2 ^ w := by
  unfold intOf
  dsimp only
  split
  · rw [Int.sub_emod_right, Int.natCast_mod, Nat.cast_pow, Nat.cast_ofNat, Int.emod_emod]
  · rw [Int.natCast_mod, Nat.cast_pow, Nat.cast_ofNat, Int.emod_emod]

/-- The pattern of the integer that a pattern reads as is the pattern (R38). -/
theorem patternOf_intOf {w x : Nat} (signed : Bool) (h : x < 2 ^ w) : patternOf w (intOf w signed x) = x := by
  rw [patternOf, intOf_emod, Int.emod_eq_of_lt (by omega) (by exact_mod_cast h), Int.toNat_natCast]

theorem intOf_inj {w x y : Nat} {signed : Bool} (hx : x < 2 ^ w) (hy : y < 2 ^ w) (h : intOf w signed x = intOf w signed y) :
    x = y := by
  rw [← patternOf_intOf signed hx, h, patternOf_intOf signed hy]

theorem elementInt_eq_intOf {t : BitVec 5} {x : Nat} (h : x < 2 ^ typeWidth t) :
    elementInt t x = intOf (typeWidth t) (signedType t) x := by
  rw [elementInt, intOf, Nat.mod_eq_of_lt h]

/-! ### Limits (R53) -/

theorem intMin_le_intMax (w : Nat) (signed : Bool) : intMin w signed ≤ intMax w signed := by
  have hfull : (0 : Int) < 2 ^ w := by positivity
  have hhalf : (0 : Int) < 2 ^ (w - 1) := by positivity
  cases signed with
  | true => simp only [intMin, intMax, if_true]; omega
  | false => simp only [intMin, intMax, Bool.false_eq_true, if_false]; omega

/-- An integer clamped to the limits of a type under SAT. -/
def clampUnder (w : Nat) (signed sat : Bool) (n : Int) : Int :=
  if sat then max (intMin w signed) (min (intMax w signed) n) else n

theorem patternOf_limitInt (w : Nat) (signed sat : Bool) (n : Int) :
    patternOf w (limitInt w signed sat n) = patternOf w (clampUnder w signed sat n) := by
  have hle := intMin_le_intMax w signed
  have hwrap : patternOf w (intOf w signed (n % 2 ^ w).toNat) = patternOf w n := by
    have hpos : (0 : Int) < 2 ^ w := by positivity
    rw [patternOf, intOf_emod, Int.toNat_of_nonneg (Int.emod_nonneg n hpos.ne'), Int.emod_emod, patternOf]
  unfold limitInt clampUnder
  cases sat with
  | true =>
    simp only [if_true]
    split_ifs <;> congr 1 <;> omega
  | false =>
    simp only [Bool.false_eq_true, if_false]
    split_ifs
    · exact hwrap
    · exact hwrap
    · rfl

/-! ### Conversions of exact integers -/

/-- A finite value without a fraction as an integer. -/
def signedInt (neg : Bool) (m : Nat) : Int := if neg then -(m : Int) else m

theorem roundMag_of_dvd {rnd a b : Nat} {neg : Bool} {rand : RandomBits} (h : a % b = 0) :
    roundMag rnd neg a b rand = (a / b, true) := if_pos h

/-- A magnitude without a fraction stays under every rounding code (R50). -/
theorem roundMag_one (rnd a : Nat) (neg : Bool) (rand : RandomBits) : roundMag rnd neg a 1 rand = (a, true) := by
  rw [roundMag_of_dvd (Nat.mod_one a), Nat.div_one]

theorem ratioShift_zero (a b : Nat) : ratioShift a b 0 = (a, b) := by simp [ratioShift]

/-- An exact integer converts to an integer type limited once, whatever the rounding code and the random bits (R50, R53). -/
theorem convertTo_int {t w : Nat} {signed : Bool} (h : intFmt t = some (w, signed)) (rnd : Nat) (sat : Bool)
    (rand : RandomBits) (neg : Bool) (m : Nat) :
    convertTo t rnd sat rand (.fin neg m 0) = patternOf w (clampUnder w signed sat (signedInt neg m)) := by
  rw [← patternOf_limitInt]
  simp only [convertTo, floatFmt_of_intFmt h, h, ratioShift_zero, roundMag_one, signedInt]

/-- A value is exactly an integer, without an exponent. -/
def FVal.IsInt (v : FVal) (n : Int) : Prop := ∃ neg m, v = .fin neg m 0 ∧ signedInt neg m = n

theorem FVal.isInt_ofInt (n : Int) : (FVal.ofInt n).IsInt n := by
  refine ⟨_, _, rfl, ?_⟩
  simp only [signedInt, decide_eq_true_eq]
  split <;> omega

theorem convertTo_of_isInt {t w : Nat} {signed : Bool} (h : intFmt t = some (w, signed)) {v : FVal} {n : Int}
    (hv : v.IsInt n) (rnd : Nat) (sat : Bool) (rand : RandomBits) :
    convertTo t rnd sat rand v = patternOf w (clampUnder w signed sat n) := by
  obtain ⟨neg, m, rfl, rfl⟩ := hv
  exact convertTo_int h rnd sat rand neg m

/-- The pattern of an integer element type is that of the conversion (R53). -/
theorem elementOf_eq {f : Slot} (n : Int) :
    elementOf f n = patternOf (typeWidth f.t) (clampUnder (typeWidth f.t) (signedType f.t) (f.sat == 1) n) := by
  unfold elementOf patternOf clampUnder intMin intMax
  cases signedType f.t <;> simp

theorem convertTo_element {f : Slot} (h : isVI f.t = true) {v : FVal} {n : Int} (hv : v.IsInt n) (rnd : Nat)
    (rand : RandomBits) : convertTo f.t.toNat rnd (f.sat == 1) rand v = elementOf f n :=
  (convertTo_of_isInt (intFmt_of_isVI h) hv rnd _ rand).trans (elementOf_eq n).symm

/-! ### Operations on exact integers (R135) -/

theorem signedInt_neg (neg : Bool) (m : Nat) : signedInt (!neg) m = -signedInt neg m := by
  cases neg <;> simp [signedInt]

theorem signedInt_mul (a b : Bool) (m n : Nat) : signedInt (a != b) (m * n) = signedInt a m * signedInt b n := by
  cases a <;> cases b <;> simp [signedInt]

theorem scaleTo_zero (neg : Bool) (m : Nat) : scaleTo neg m 0 0 = signedInt neg m := by simp [scaleTo, signedInt]

theorem FVal.IsInt.neg {v : FVal} {n : Int} (h : v.IsInt n) : v.neg.IsInt (-n) := by
  obtain ⟨neg, m, rfl, rfl⟩ := h
  exact ⟨_, _, rfl, signedInt_neg neg m⟩

theorem FVal.IsInt.abs {v : FVal} {n : Int} (h : v.IsInt n) : v.abs.IsInt |n| := by
  obtain ⟨neg, m, rfl, rfl⟩ := h
  refine ⟨_, _, rfl, ?_⟩
  cases neg <;> simp [signedInt]

theorem FVal.IsInt.mul {v u : FVal} {n k : Int} (hv : v.IsInt n) (hu : u.IsInt k) : (v.mul u).IsInt (n * k) := by
  obtain ⟨neg, m, rfl, rfl⟩ := hv
  obtain ⟨neg', m', rfl, rfl⟩ := hu
  exact ⟨_, _, rfl, signedInt_mul neg neg' m m'⟩

theorem FVal.IsInt.add {v u : FVal} {n k : Int} (hv : v.IsInt n) (hu : u.IsInt k) (rnd : Nat) :
    (v.add rnd u).IsInt (n + k) := by
  obtain ⟨neg, m, rfl, rfl⟩ := hv
  obtain ⟨neg', m', rfl, rfl⟩ := hu
  simp only [FVal.add, min_self, scaleTo_zero]
  split
  next h => exact ⟨_, 0, rfl, h.symm ▸ by simp [signedInt]⟩
  next => exact FVal.isInt_ofInt _

/-- The order of two integers. -/
theorem FVal.IsInt.cmp {v u : FVal} {n k : Int} (hv : v.IsInt n) (hu : u.IsInt k) :
    v.cmp u = if n < k then -1 else if n = k then 0 else 1 := by
  obtain ⟨neg, m, rfl, rfl⟩ := hv
  obtain ⟨neg', m', rfl, rfl⟩ := hu
  simp only [FVal.cmp, min_self, scaleTo_zero, sub_neg, sub_eq_zero]

/-! ### Elements of integer types -/

theorem valueOf_int {t : BitVec 5} (h : isVI t = true) {x : Nat} (hx : x < 2 ^ typeWidth t) :
    valueOf t.toNat x = .ofInt (elementInt t x) := by
  rw [elementInt_eq_intOf hx]
  simp only [valueOf, floatFmt_of_intFmt (intFmt_of_isVI h), intFmt_of_isVI h]

theorem valueOf_isInt {t : BitVec 5} (h : isVI t = true) {x : Nat} (hx : x < 2 ^ typeWidth t) :
    (valueOf t.toNat x).IsInt (elementInt t x) := by
  rw [valueOf_int h hx]
  exact FVal.isInt_ofInt _

/-- The smaller, or the larger, of two integer patterns (R136). -/
theorem minMax_int {t : BitVec 5} (h : isVI t = true) {x y : Nat} (hx : x < 2 ^ typeWidth t) (hy : y < 2 ^ typeWidth t)
    (isMax : Bool) : minMax isMax t.toNat x y = if decide (elementInt t x ≤ elementInt t y) != isMax then x else y := by
  have hcmp := (valueOf_isInt h hx).cmp (valueOf_isInt h hy)
  rw [valueOf_int h hx, valueOf_int h hy] at hcmp
  simp only [minMax, valueOf_int h hx, valueOf_int h hy, hcmp]
  rcases Int.lt_trichotomy (elementInt t x) (elementInt t y) with hlt | heq | hgt
  · simp [hlt, hlt.le, FVal.ofInt, FVal.isNan]
  · have hxy : x = y := intOf_inj hx hy (by rwa [elementInt_eq_intOf hx, elementInt_eq_intOf hy] at heq)
    simp [hxy, FVal.ofInt, FVal.isNan]
  · simp [hgt.not_gt, hgt.not_ge, hgt.ne', FVal.ofInt, FVal.isNan]

end Sys2Proof.Machine

/-! Vector arithmetic of integer elements (R53, R135, R136). -/

namespace Sys2Proof.Machine

/-! ### Elements -/

/-- An operation on the governed elements writes what its lanes give, as far as the type keeps it (R131). -/
theorem WritesLanes.congr {s t : State} {f : Slot} {on : Nat → Bool} {val val' : Nat → Nat} (h : WritesLanes s t f on val)
    (hval : ∀ i, i < laneCount f.t → on i = true → val i % 2 ^ typeWidth f.t = val' i % 2 ^ typeWidth f.t) :
    WritesLanes s t f on val' := by
  refine ⟨h.1, fun i hi => ?_⟩
  rw [h.2 i hi]
  split
  next hon => exact hval i hi hon
  next => rfl

/-- An operation that goes and writes the governed elements of its destination (R131). -/
theorem guarded_putLanes {i : Instr} {f : Slot} {s : State} (h : s.goes i f) {val val' : Nat → Nat}
    (hval : ∀ k, k < laneCount f.t → val k % 2 ^ typeWidth f.t = val' k % 2 ^ typeWidth f.t) :
    ∃ t, guarded i f s (s.putLanes f val) = .next t ∧ WritesLanes s t f (s.governs f f.msel.toNat) val' :=
  ⟨_, guarded_goes h, (putLanes_writes s f val).congr fun k hk _ => hval k hk⟩

theorem elemBits_lt (w : Nat) (x : VReg) (i : Nat) : elemBits w x i < 2 ^ w := Nat.mod_lt _ (Nat.two_pow_pos w)

/-- Only bs9 lanes ignore bits of an element (R37). -/
theorem elem_eq_elemBits {t : BitVec 5} (h : t ≠ 15) (x : VReg) (i : Nat) : elem t x i = elemBits (typeWidth t) x i := by
  rw [elem, if_neg h, Nat.mod_eq_of_lt (elemBits_lt _ x i)]

theorem ne_bs9_of_isVI {t : BitVec 5} (h : isVI t = true) : t ≠ 15 := by
  rintro rfl; exact absurd h (by decide)

theorem secondBits_lt {f : Slot} (h : f.t ≠ 15) (s : State) (i : Nat) : s.secondBits f i < 2 ^ typeWidth f.t := by
  unfold State.secondBits
  split
  · exact Nat.mod_lt _ (Nat.two_pow_pos _)
  · rw [elem_eq_elemBits h]
    exact elemBits_lt _ _ i

/-! ### The operations -/

/-- A shift to the left multiplies the exact integer. -/
theorem signedInt_shl (neg : Bool) (m k : Nat) : signedInt neg (m * 2 ^ k) = signedInt neg m * 2 ^ k := by
  cases neg <;> simp [signedInt]

/-- A pattern read as a two's-complement integer. -/
theorem intOf_signed {w x : Nat} (h : x < 2 ^ w) :
    intOf w true x = x - (if 2 ^ (w - 1) ≤ x then 2 ^ w else 0 : Int) := by
  rw [intOf, Nat.mod_eq_of_lt h]
  by_cases hx : 2 ^ (w - 1) ≤ x <;> simp [hx]

section
variable {s : State} {f : Slot} (h : isVI f.t = true)
include h

theorem va_eq (i : Nat) : s.va f i = elemBits (typeWidth f.t) (s.v f.a.toNat) i := elem_eq_elemBits (ne_bs9_of_isVI h) _ i

theorem value_va (i : Nat) : (value f (s.va f i)).IsInt (elementInt f.t (elemBits (typeWidth f.t) (s.v f.a.toNat) i)) := by
  rw [va_eq h]
  exact valueOf_isInt h (elemBits_lt _ _ i)

theorem value_vc (i : Nat) : (value f (s.vc f i)).IsInt (elementInt f.t (elemBits (typeWidth f.t) (s.v f.c.toNat) i)) := by
  rw [State.vc, elem_eq_elemBits (ne_bs9_of_isVI h)]
  exact valueOf_isInt h (elemBits_lt _ _ i)

theorem value_second (i : Nat) : (value f (s.secondBits f i)).IsInt (elementInt f.t (s.secondBits f i)) :=
  valueOf_isInt h (secondBits_lt (ne_bs9_of_isVI h) s i)

/-- Arithmetic whose exact results are integers limits them once (R53, R135). -/
theorem guarded_arithmetic {i : Instr} (hgo : s.goes i f) (rnd : Nat) (rand : Nat → RandomBits) {r : Nat → FVal}
    {n : Nat → Int} (hr : ∀ k, (r k).IsInt (n k)) :
    ∃ t, guarded i f s (s.arithmetic f rnd rand r) = .next t ∧
      WritesLanes s t f (s.governs f f.msel.toNat) fun k => elementOf f (n k) :=
  guarded_putLanes hgo fun k _ => by rw [convertTo_element h (hr k)]

/-- VMIN and VMAX of integer elements (R136). -/
theorem guarded_minMax {i : Instr} (hgo : s.goes i f) (isMax : Bool) :
    ∃ t, guarded i f s (s.putLanes f fun k => minMax isMax f.t.toNat (s.va f k) (s.secondBits f k)) = .next t ∧
      WritesLanes s t f (s.governs f f.msel.toNat) fun k =>
        if decide (elementInt f.t (elemBits (typeWidth f.t) (s.v f.a.toNat) k) ≤ elementInt f.t (s.secondBits f k)) != isMax
        then elemBits (typeWidth f.t) (s.v f.a.toNat) k else s.secondBits f k :=
  guarded_putLanes hgo fun k _ => by
    rw [va_eq h, minMax_int h (elemBits_lt _ _ k) (secondBits_lt (ne_bs9_of_isVI h) s k)]

end

/-- Settles O22: the exact result of each operation is an integer, which its conversion limits. -/
theorem vectorIntegers : Obligations.VectorIntegers := by
  intro s f hvi w x y a b c k writes
  have ha := value_va (s := s) hvi
  have hb := value_second (s := s) hvi
  have hc := value_vc (s := s) hvi
  refine ⟨fun _ h => ?_, fun _ h => ?_, fun _ h => ?_, fun _ h => ?_, fun _ h => ?_, fun _ h => ?_, fun _ h => ?_,
    fun _ h => ?_, fun _ h => ?_, fun _ h => ?_, fun _ h => ?_, fun _ h => ?_⟩
  · exact guarded_arithmetic hvi h _ _ fun i => (ha i).add (hb i) _
  · exact guarded_arithmetic hvi h _ _ fun i => (ha i).add (hb i).neg _
  · exact guarded_arithmetic hvi h _ _ fun i => (ha i).mul (hb i)
  · exact guarded_arithmetic hvi h _ _ fun i => ((ha i).mul (hb i)).add (hc i) _
  · exact guarded_arithmetic hvi h _ _ fun i => ((ha i).mul (hb i)).add (hc i).neg _
  · exact guarded_arithmetic hvi h _ _ fun i => (ha i).abs
  · exact guarded_arithmetic hvi h _ _ fun i => (ha i).neg
  · refine guarded_arithmetic hvi h _ _ fun i => ?_
    obtain ⟨neg, m, hv, hn⟩ := ha i
    rw [hv]
    exact ⟨neg, _, rfl, (signedInt_shl neg m _).trans (by rw [hn]; rfl)⟩
  · obtain ⟨t, ht, hw⟩ := guarded_minMax hvi h false
    exact ⟨t, ht, hw.congr fun i _ _ => by simp [x, y, a, b, w]⟩
  · obtain ⟨t, ht, hw⟩ := guarded_minMax hvi h true
    exact ⟨t, ht, hw.congr fun i _ _ => by simp only [Bool.bne_true, Bool.not_eq_true', decide_eq_false_iff_not, ite_not]; rfl⟩
  · exact guarded_putLanes h fun i _ => by rw [va_eq hvi]; rfl
  · exact guarded_putLanes h fun i _ => by rw [va_eq hvi, intOf_signed (elemBits_lt _ _ i)]; rfl

end Sys2Proof.Machine

/-! Rounding codes, and floating patterns that convert to themselves (R39 to R44, R50, R53). -/

namespace Sys2Proof.Machine

/-! ### The rounding codes (R50) -/

/-- A magnitude is rounded to one of its neighbours. -/
theorem roundMag_neighbour (rnd a b : Nat) (neg : Bool) (rand : RandomBits) :
    (roundMag rnd neg a b rand).1 = a / b ∨ (roundMag rnd neg a b rand).1 = a / b + 1 := by
  by_cases h : a % b = 0
  · exact .inl (congrArg Prod.fst (roundMag_of_dvd h))
  · simp only [roundMag, if_neg h]
    exact (ite_eq_or_eq _ _ _).symm

/-- Which neighbour each code takes. -/
theorem roundMag_inexact {a b : Nat} (neg : Bool) (h : a % b ≠ 0) :
    (roundMag 1 neg a b none).1 = a / b ∧ (roundMag 2 neg a b none).1 = (if neg then a / b else a / b + 1) ∧
      (roundMag 3 neg a b none).1 = (if neg then a / b + 1 else a / b) ∧
      (roundMag 4 neg a b none).1 = (if 2 * (a % b) < b then a / b else a / b + 1) ∧
      (roundMag 5 neg a b none).1 % 2 = 1 ∧
      (roundMag 0 neg a b none).1 =
        (if 2 * (a % b) < b ∨ (2 * (a % b) = b ∧ a / b % 2 = 0) then a / b else a / b + 1) := by
  simp only [roundMag, if_neg h]
  generalize a / b = q
  generalize a % b = r
  refine ⟨if_neg Bool.false_ne_true, ?_, trivial, ?_, ?_, ?_⟩
  · cases neg <;> rfl
  · change (if decide (b ≤ 2 * r) then q + 1 else q) = _
    simp only [decide_eq_true_eq]
    split_ifs <;> omega
  · change (if decide (q % 2 = 0) then q + 1 else q) % 2 = 1
    simp only [decide_eq_true_eq]
    split_ifs <;> omega
  · change (if decide (b < 2 * r) || (decide (b = 2 * r) && decide (q % 2 = 1)) then q + 1 else q) = _
    simp only [Bool.or_eq_true, Bool.and_eq_true, decide_eq_true_eq]
    split_ifs <;> omega

/-! ### Numbers of a floating format (R39 to R44) -/

/-- The exact magnitude of a number by its exponent field and its fraction, in units of its lowest bit. -/
def FloatFmt.magnitude (fmt : FloatFmt) (e m : Nat) : Nat := if e = 0 then m else 2 ^ fmt.fbits + m

/-- The exponent of the lowest bit of a number. -/
def FloatFmt.lsb (fmt : FloatFmt) (e : Nat) : Int := (max e 1 : Nat) - (fmt.bias : Int) - fmt.fbits

theorem log2Ratio_one {a : Nat} (h : a ≠ 0) : log2Ratio a 1 = Nat.log2 a := by
  have hle : 2 ^ Nat.log2 a ≤ a := Nat.log2_self_le h
  have hone : Nat.log2 1 = 0 := by decide
  simp [log2Ratio, hone, hle]

section
variable {fmt : FloatFmt} {e m : Nat} (hm : m < 2 ^ fmt.fbits)
include hm

/-- A number's lowest bit is the one it is rounded at. -/
theorem FloatFmt.lsb_of_magnitude (h : fmt.magnitude e m ≠ 0) :
    max (log2Ratio (fmt.magnitude e m) 1 + fmt.lsb e) (1 - (fmt.bias : Int)) - fmt.fbits = fmt.lsb e := by
  rw [log2Ratio_one h]
  unfold magnitude lsb at *
  by_cases he : e = 0
  · rw [if_pos he] at h ⊢
    have hlog : Nat.log2 m < fmt.fbits := (Nat.log2_lt h).2 hm
    omega
  · rw [if_neg he] at h ⊢
    have hlog : Nat.log2 (2 ^ fmt.fbits + m) = fmt.fbits := by
      rw [Nat.log2_eq_iff h, Nat.pow_succ]
      omega
    omega

theorem packFloat_magnitude : packFloat fmt (fmt.magnitude e m) (fmt.lsb e) = e * 2 ^ fmt.fbits + m := by
  unfold packFloat FloatFmt.magnitude FloatFmt.lsb
  by_cases he : e = 0
  · simp [he, hm]
  · have hfield : (((max e 1 : Nat) - (fmt.bias : Int) - fmt.fbits + fmt.fbits - (1 - fmt.bias)).toNat + 1) = e := by omega
    rw [if_neg he, if_neg (by omega), if_neg (by rw [Nat.pow_succ]; omega), hfield]
    omega

/-- A number in range keeps its fields under every rounding code. -/
theorem roundFloat_magnitude {t : Nat} {neg : Bool} (hneg : ¬(t = 15 ∧ neg = true)) (hmax : e * 2 ^ fmt.fbits + m ≤ maxOf t)
    (rnd : Nat) (sat : Bool) (rand : RandomBits) :
    roundFloat t fmt rnd sat neg (fmt.magnitude e m) 1 (fmt.lsb e) rand = e * 2 ^ fmt.fbits + m + signOf t neg := by
  unfold roundFloat
  by_cases h : fmt.magnitude e m = 0
  · have hzero : e * 2 ^ fmt.fbits + m = 0 := by
      unfold FloatFmt.magnitude at h
      split at h
      next he => simp [he, h]
      next => have := Nat.two_pow_pos fmt.fbits; omega
    rw [if_pos h, hzero, Nat.zero_add]
  · simp only [if_neg h, fmt.lsb_of_magnitude hm h, sub_self, ratioShift_zero, roundMag_one, packFloat_magnitude hm,
      if_neg hneg, if_neg (Nat.not_lt.2 hmax)]

end

/-! ### Patterns -/

/-- The sign of a pattern; the bs9 format has none (R44). -/
def FloatFmt.sign (fmt : FloatFmt) (t x : Nat) : Bool := t != 15 && decide (x / 2 ^ (fmt.fbits + fmt.ebits) % 2 = 1)

/-- The bits of a pattern (R37). -/
def FloatFmt.width (fmt : FloatFmt) (t : Nat) : Nat := fmt.fbits + fmt.ebits + (if t = 15 then 0 else 1)

theorem signOf_false (t : Nat) : signOf t false = 0 := by
  unfold signOf; split <;> rfl

/-- A pattern is its sign, its exponent field and its fraction. -/
theorem FloatFmt.pattern_eq {fmt : FloatFmt} {t x : Nat} (h : floatFmt t = some fmt) (hx : x < 2 ^ fmt.width t) :
    x / 2 ^ fmt.fbits % 2 ^ fmt.ebits * 2 ^ fmt.fbits + x % 2 ^ fmt.fbits + signOf t (fmt.sign t x) = x := by
  have hlow : x / 2 ^ fmt.fbits % 2 ^ fmt.ebits * 2 ^ fmt.fbits + x % 2 ^ fmt.fbits = x % 2 ^ (fmt.fbits + fmt.ebits) := by
    rw [Nat.pow_add, Nat.mod_mul, Nat.add_comm, Nat.mul_comm]
  rw [hlow, sign]
  by_cases ht : t = 15
  · rw [width, if_pos ht, Nat.add_zero] at hx
    simp [ht, signOf_false, Nat.mod_eq_of_lt hx]
  · rw [width, if_neg ht, Nat.pow_succ] at hx
    have hsign : x / 2 ^ (fmt.fbits + fmt.ebits) < 2 := Nat.div_lt_of_lt_mul hx
    have hsplit := Nat.mod_add_div x (2 ^ (fmt.fbits + fmt.ebits))
    generalize x / 2 ^ (fmt.fbits + fmt.ebits) = q at *
    have hq : q = 0 ∨ q = 1 := by omega
    rcases hq with rfl | rfl
    · simpa [signOf_false] using hsplit
    · simpa [signOf, h, ht, Nat.add_comm fmt.ebits] using hsplit

section
variable {fmt : FloatFmt} {t e m : Nat} (h : floatFmt t = some fmt)
include h

/-- The numbers of a format end at its largest. -/
theorem le_maxOf_of_number {neg : Bool} (he : e < 2 ^ fmt.ebits) (hm : m < 2 ^ fmt.fbits)
    (hs : specialOf t fmt e m neg = none) : e * 2 ^ fmt.fbits + m ≤ maxOf t := by
  unfold floatFmt at h
  split at h <;> cases h
  all_goals
    simp [specialOf] at hs
    simp only [maxOf] at *
    omega

/-- Every other pattern is a NaN, or the infinity of its sign (R39, R41, R42). -/
theorem nan_or_inf_of_special {neg : Bool} {v : FVal} (hs : specialOf t fmt e m neg = some v) :
    v = .nan ∨ (v = .inf neg ∧ t ≠ 12 ∧ t ≠ 14 ∧ t ≠ 15 ∧ e * 2 ^ fmt.fbits + m = infOf t) := by
  unfold floatFmt at h
  split at h <;> cases h <;> simp only [specialOf] at hs
  case h_4 | h_7 => exact .inl (by split at hs <;> cases hs; rfl)
  case h_6 => cases hs
  all_goals
    split at hs
    next htop =>
      cases hs
      split
      next hzero => exact .inr ⟨rfl, by decide, by decide, by decide, by rw [htop, hzero]; rfl⟩
      next => exact .inl rfl
    next => cases hs

end

theorem convertTo_inf {fmt : FloatFmt} {t : Nat} (h : floatFmt t = some fmt) (h12 : t ≠ 12) (h14 : t ≠ 14) (h15 : t ≠ 15)
    (rnd : Nat) (sat neg : Bool) (rand : RandomBits) : convertTo t rnd sat rand (.inf neg) = infOf t + signOf t neg := by
  simp only [convertTo, h]

theorem valueOf_float {fmt : FloatFmt} {t : Nat} (h : floatFmt t = some fmt) (x : Nat) :
    valueOf t x = (specialOf t fmt (x / 2 ^ fmt.fbits % 2 ^ fmt.ebits) (x % 2 ^ fmt.fbits) (fmt.sign t x)).getD
      (.fin (fmt.sign t x) (fmt.magnitude (x / 2 ^ fmt.fbits % 2 ^ fmt.ebits) (x % 2 ^ fmt.fbits))
        (fmt.lsb (x / 2 ^ fmt.fbits % 2 ^ fmt.ebits))) := by
  simp only [valueOf, h, FloatFmt.sign, FloatFmt.magnitude, FloatFmt.lsb]
  cases specialOf t fmt (x / 2 ^ fmt.fbits % 2 ^ fmt.ebits) (x % 2 ^ fmt.fbits)
    (t != 15 && decide (x / 2 ^ (fmt.fbits + fmt.ebits) % 2 = 1)) with
  | some v => rfl
  | none =>
    by_cases he : x / 2 ^ fmt.fbits % 2 ^ fmt.ebits = 0
    · simp [he]
    · simp [he, Nat.max_eq_left (Nat.one_le_iff_ne_zero.2 he)]

/-- Patterns of the bs9 format have no sign. -/
theorem FloatFmt.not_negative_bs9 (fmt : FloatFmt) (t x : Nat) : ¬(t = 15 ∧ fmt.sign t x = true) := by
  rintro ⟨rfl, h⟩
  cases h

/-- Every number and every infinity converts to its own pattern under every rounding code (R50). -/
theorem convertTo_valueOf {fmt : FloatFmt} {t x : Nat} (h : floatFmt t = some fmt) (hx : x < 2 ^ fmt.width t)
    (hnan : (valueOf t x).isNan = false) (rnd : Nat) (sat : Bool) : convertTo t rnd sat none (valueOf t x) = x := by
  have hpattern := fmt.pattern_eq h hx
  have he : x / 2 ^ fmt.fbits % 2 ^ fmt.ebits < 2 ^ fmt.ebits := Nat.mod_lt _ (Nat.two_pow_pos _)
  have hm : x % 2 ^ fmt.fbits < 2 ^ fmt.fbits := Nat.mod_lt _ (Nat.two_pow_pos _)
  rw [valueOf_float h] at hnan ⊢
  generalize x / 2 ^ fmt.fbits % 2 ^ fmt.ebits = e at *
  generalize x % 2 ^ fmt.fbits = m at *
  cases hs : specialOf t fmt e m (fmt.sign t x) with
  | none =>
    have hround := roundFloat_magnitude hm (fmt.not_negative_bs9 t x) (le_maxOf_of_number h he hm hs) rnd sat none
    simp only [Option.getD_none, convertTo, h, hround, hpattern]
  | some v =>
    rw [hs] at hnan
    rcases nan_or_inf_of_special h hs with rfl | ⟨rfl, h12, h14, h15, hinf⟩
    · cases hnan
    · rw [Option.getD_some, convertTo_inf h h12 h14 h15, ← hinf, hpattern]

/-! ### The statement -/

/-- The floating types, and the bits of their patterns. -/
theorem floatFmt_of_range {t : BitVec 5} (hlo : 9 ≤ t.toNat) (hhi : t.toNat ≤ 15) :
    ∃ fmt, floatFmt t.toNat = some fmt ∧ fmt.width t.toNat = if t = 15 then 9 else typeWidth t := by
  have hall : ∀ t : BitVec 5, 9 ≤ t.toNat → t.toNat ≤ 15 →
      (floatFmt t.toNat).map (fun fmt => fmt.width t.toNat) = some (if t = 15 then 9 else typeWidth t) := by decide
  exact Option.map_eq_some_iff.1 (hall t hlo hhi)

/-- Settles O25: an exact magnitude is not rounded, and a floating pattern is the number its fields give. -/
theorem formatsAndRounding : Obligations.FormatsAndRounding := by
  refine ⟨fun neg a b _ => ⟨fun code h => ?_, fun code => roundMag_neighbour code a b neg none, roundMag_inexact neg⟩,
    fun t rnd x sat hlo hhi _ hx hnan => ?_, fun t rnd w signed n h => ⟨?_, ?_⟩⟩
  · exact congrArg Prod.fst (roundMag_of_dvd h)
  · obtain ⟨fmt, hfmt, hwidth⟩ := floatFmt_of_range hlo hhi
    exact convertTo_valueOf hfmt (hwidth ▸ hx) hnan rnd sat
  · exact convertTo_of_isInt h (FVal.isInt_ofInt n) rnd true none
  · exact convertTo_of_isInt h (FVal.isInt_ofInt n) rnd false none

end Sys2Proof.Machine

/-! Reductions, scans, and moves between lanes (R53, R132, R138, R146 to R150). -/

namespace Sys2Proof.Machine

open Sys2Proof.Laws.Slots (defect_none passed checks)

/-! ### Operand types (R83) -/

/-- The type of a well-formed operation is one that its form permits. -/
theorem type_of_wf {i : Instr} {f : Slot} {o : OpForm} (hf : opForm i = some (f, o)) (h : i.wf = true) :
    f.t.toNat ∈ o.types := by
  have hnone := defect_none h
  unfold slotDefect at hnone
  rw [hf] at hnone
  simpa using (passed hnone).1

theorem ne_bs9_of_wf {i : Instr} {f : Slot} {o : OpForm} {types : List Nat} (hf : opForm i = some (f, o))
    (ho : o.types = types) (h15 : 15 ∉ types) (h : i.wf = true) : f.t ≠ 15 := by
  intro ht
  have hmem := ho ▸ type_of_wf hf h
  rw [ht] at hmem
  exact h15 hmem

/-! ### The elements that enter a reduction (R146) -/

theorem reduced_length (s : State) (f : Slot) : (s.reduced f).length = laneCount f.t := by simp [State.reduced]

theorem reduced_eq {f : Slot} (h : f.t ≠ 15) (s : State) : s.reduced f = (List.range (laneCount f.t)).map fun i =>
    if s.governs f f.c.toNat i then elemBits (typeWidth f.t) (s.v f.a.toNat) i else identityOf f.cond f.t.toNat := by
  simp only [State.reduced, elem_eq_elemBits h]
  rfl

/-! ### Halves (R146) -/

/-- Combining halves `k` times leaves one of `2 ^ k` elements. -/
theorem halves_length (op : Nat → Nat → Nat) (k : Nat) (xs : List Nat) (h : xs.length = 2 ^ k) :
    (halves op k xs).length = 1 := by
  induction k generalizing xs with
  | zero => exact h
  | succ k ih =>
    refine ih _ ?_
    rw [Nat.pow_succ] at h
    simp only [List.length_zipWith, List.length_take, List.length_drop, h]
    omega

theorem laneCount_eq_two_pow (t : BitVec 5) : laneCount t = 2 ^ Nat.log2 (laneCount t) := by
  revert t; decide

theorem halves_reduced (s : State) (f : Slot) (op : Nat → Nat → Nat) :
    halves op (Nat.log2 (laneCount f.t)) (s.reduced f) = [(halves op (Nat.log2 (laneCount f.t)) (s.reduced f)).headD 0] := by
  obtain ⟨r, hr⟩ := List.length_eq_one_iff.1 (halves_length op _ (s.reduced f) ((reduced_length s f).trans (laneCount_eq_two_pow f.t)))
  rw [hr]
  rfl

/-! ### Scans (R147) -/

/-- Each element of a scan is the result before it, and that with it. -/
theorem scanList_getElem {α : Type} (op : α → α → α) (acc : α) (xs : List α) {i : Nat} (h : i < xs.length) :
    (scanList op acc xs)[i]? = some ((xs.take i).foldl op acc, (xs.take (i + 1)).foldl op acc) := by
  induction xs generalizing acc i with
  | nil => cases h
  | cons x xs ih =>
    cases i with
    | zero => rfl
    | succ i => simpa [scanList] using ih (op acc x) (Nat.lt_of_succ_lt_succ h)

/-- One element of an exclusive or an inclusive scan. -/
theorem scan_getD {α : Type} (op : α → α → α) (acc : α) (xs : List α) (g : α → Nat) (excl : Bool) {i : Nat} (h : i < xs.length) :
    ((scanList op acc xs).map fun p => g (if excl then p.1 else p.2)).getD i 0 =
      g ((xs.take (if excl then i else i + 1)).foldl op acc) := by
  rw [List.getD_eq_getElem?_getD, List.getElem?_map, scanList_getElem op acc xs h]
  cases excl <;> rfl

/-! ### Integer sums (R53, R146, R147) -/

/-- What element `i` adds to an integer sum. -/
def State.term (s : State) (f : Slot) (i : Nat) : Int :=
  if s.governs f f.c.toNat i then elementInt f.t (elemBits (typeWidth f.t) (s.v f.a.toNat) i) else 0

section
variable {s : State} {f : Slot} (h : isVI f.t = true) (hadd : f.cond = 0)
include h hadd

theorem reduced_ints : (s.reduced f).map (intValueOf f.t.toNat) = (List.range (laneCount f.t)).map (s.term f) := by
  have hzero : intValueOf f.t.toNat (identityOf f.cond f.t.toNat) = 0 := by
    rcases isVI_cases h with e | e | e | e | e | e <;> rw [e, hadd] <;> rfl
  rw [reduced_eq (ne_bs9_of_isVI h), List.map_map]
  refine List.map_congr_left fun i _ => ?_
  rw [Function.comp_apply, State.term, apply_ite (intValueOf f.t.toNat), hzero,
    elementInt_eq_intOf (elemBits_lt _ _ _)]
  simp only [intValueOf, intFmt_of_isVI h]

theorem exactAdd_of_int : exactAdd f.cond f.t.toNat = true := by
  rw [exactAdd, hadd, intFmt_of_isVI h]
  rfl

omit hadd in
theorem limitedSum_eq (n : Int) : limitedSum f.t.toNat (f.sat == 1) n = elementOf f n :=
  convertTo_element h (FVal.isInt_ofInt n) 0 none

end

/-- An exact sum over the first elements. -/
theorem foldl_add_take (g : Nat → Int) {k n : Nat} (h : k ≤ n) :
    (((List.range n).map g).take k).foldl (· + ·) 0 = ∑ i ∈ Finset.range k, g i := by
  rw [← List.map_take, List.take_range, Nat.min_eq_left h, ← List.sum_eq_foldl]
  rfl

/-! ### Single results -/

/-- One window on the lanes of a vector register, whatever the value. -/
theorem put_masked_writes (s : State) (f : Slot) (on : Nat → Bool) (x : VReg) :
    WritesLanes s (s.put f.lat.toNat (.v f.d.toNat (laneMask (typeWidth f.t) on) x)) f on (elemBits (typeWidth f.t) x) := by
  refine ⟨put_v_only .., fun i hi => ?_⟩
  rw [State.finalV_put]
  simp only [if_true]
  rw [elemBits_merge _ _ _ _ _ _ (elemBits_laneMask f.t on hi), Nat.mod_eq_of_lt (elemBits_lt _ x i)]

theorem elemBits_ofNat_zero {w : Nat} (hw : w ≤ 2048) (r : Nat) : elemBits w (BitVec.ofNat 2048 r) 0 = r % 2 ^ w := by
  rw [elemBits, BitVec.toNat_ofNat, Nat.mul_zero, Nat.pow_zero, Nat.div_one, Nat.mod_mod_of_dvd _ (Nat.pow_dvd_pow 2 hw)]

theorem typeWidth_le (t : BitVec 5) : typeWidth t ≤ 2048 := by
  revert t; decide

/-- A result in element 0 (R146). -/
theorem guarded_first {i : Instr} {f : Slot} {s : State} (h : s.goes i f) (r : Nat) :
    ∃ t, guarded i f s (s.put f.lat.toNat (.v f.d.toNat
        (laneMask (typeWidth f.t) fun i => i == 0 && gov (typeWidth f.t) (s.msel f) 0) (BitVec.ofNat 2048 r))) = .next t ∧
      WritesLanes s t f (fun i => i == 0 && s.governs f f.msel.toNat 0) fun _ => r := by
  refine ⟨_, guarded_goes h, (put_masked_writes s f _ _).congr fun k _ hon => ?_⟩
  have hk : k = 0 := by simpa using (Bool.and_eq_true_iff.1 hon).1
  rw [hk, elemBits_ofNat_zero (typeWidth_le f.t), Nat.mod_mod]

/-! ### VRED and VSCAN -/

section
variable {s : State} {f : Slot}

theorem execVred_int (hvi : isVI f.t = true) (hadd : f.cond = 0) (h : s.goes (.vred f) f) :
    ∃ t, exec (.vred f) s = .next t ∧ WritesLanes s t f (fun i => i == 0 && s.governs f f.msel.toNat 0) fun _ =>
      elementOf f (∑ i ∈ Finset.range (laneCount f.t), s.term f i) := by
  have hsum : elementOf f (∑ i ∈ Finset.range (laneCount f.t), s.term f i) =
      limitedSum f.t.toNat (f.sat == 1) ((s.reduced f).map (intValueOf f.t.toNat)).sum := by
    rw [limitedSum_eq hvi, reduced_ints hvi hadd]
    rfl
  obtain ⟨t, ht, hw⟩ := guarded_first h (elementOf f (∑ i ∈ Finset.range (laneCount f.t), s.term f i))
  refine ⟨t, ?_, hw⟩
  rw [← ht, hsum]
  change execVred f s = _
  simp only [execVred, exactAdd_of_int hvi hadd, if_true]

theorem execVscan_int (hvi : isVI f.t = true) (hadd : f.cond = 0) (h : s.goes (.vscan f) f) :
    ∃ t, exec (.vscan f) s = .next t ∧ WritesLanes s t f (s.governs f f.msel.toNat) fun i =>
      elementOf f (∑ j ∈ Finset.range (if f.qual.getLsbD 4 then i else i + 1), s.term f j) := by
  refine guarded_putLanes h fun i hi => ?_
  have hlen : i < ((s.reduced f).map (intValueOf f.t.toNat)).length := by rwa [List.length_map, reduced_length]
  rw [exactAdd_of_int hvi hadd, if_pos rfl, scan_getD _ _ _ (limitedSum f.t.toNat (f.sat == 1)) _ hlen, limitedSum_eq hvi,
    reduced_ints hvi hadd, foldl_add_take]
  split <;> omega

/-- Without an integer add, patterns are combined two at a time. -/
theorem exactAdd_eq_false (h : isVF f.t = true ∨ f.cond ≠ 0) : exactAdd f.cond f.t.toNat = false := by
  rcases h with hvf | hne
  · have hnone : ∀ t : BitVec 5, isVF t = true → (intFmt t.toNat).isSome = false := by decide
    rw [exactAdd, hnone f.t hvf, Bool.and_false]
  · rw [exactAdd, beq_false_of_ne hne, Bool.false_and]

/-- How a reduction combines two patterns (R146). -/
def State.combines (s : State) (f : Slot) : Nat → Nat → Nat := combine f.cond f.t.toNat (effRnd0 s f.rnd) (f.sat == 1)

theorem execVred_combine (hc : isVF f.t = true ∨ f.cond ≠ 0) (h : s.goes (.vred f) f) :
    ∃ t r, exec (.vred f) s = .next t ∧ halves (s.combines f) (Nat.log2 (laneCount f.t)) (s.reduced f) = [r] ∧
      WritesLanes s t f (fun i => i == 0 && s.governs f f.msel.toNat 0) fun _ => r := by
  obtain ⟨t, ht, hw⟩ := guarded_first h ((halves (s.combines f) (Nat.log2 (laneCount f.t)) (s.reduced f)).headD 0)
  refine ⟨t, _, ?_, halves_reduced s f _, hw⟩
  rw [← ht, ← reduced_length s f]
  change execVred f s = _
  simp only [execVred, exactAdd_eq_false hc, Bool.false_eq_true, if_false, State.combines]

theorem execVscan_combine (hc : isVF f.t = true ∨ f.cond ≠ 0) (h : s.goes (.vscan f) f) :
    ∃ t, exec (.vscan f) s = .next t ∧ WritesLanes s t f (s.governs f f.msel.toNat) fun i =>
      ((s.reduced f).take (if f.qual.getLsbD 4 then i else i + 1)).foldl (s.combines f) (identityOf f.cond f.t.toNat) := by
  refine guarded_putLanes h fun i hi => ?_
  have hlen : i < (s.reduced f).length := by rwa [reduced_length]
  rw [exactAdd_eq_false hc, if_neg Bool.false_ne_true]
  exact congrArg (· % _) (scan_getD _ _ _ id _ hlen)

end

/-! ### Moves between lanes (R148 to R150) -/

/-- A lane that IMM names has a number below 256 in the types of R148 and R149. -/
theorem laneCount_le_of_setVM {t : BitVec 5} (h : t.toNat ∈ setVM) : laneCount t ≤ 256 := by
  revert t; decide

theorem lane_of_wf {f : Slot} {i : Instr} {o : OpForm} (hf : opForm i = some (f, o)) (ht : o.types = setVM)
    (himm : o.imm = decide (f.imm.toNat < laneCount f.t)) (h : i.wf = true) : f.imm.toNat % 256 = f.imm.toNat := by
  have hlane : f.imm.toNat < laneCount f.t := of_decide_eq_true (himm ▸ (checks hf (defect_none h)).2)
  exact Nat.mod_eq_of_lt (hlane.trans_le (laneCount_le_of_setVM (ht ▸ type_of_wf hf h)))

/-- A pattern read as a two's-complement integer is the bit vector's. -/
theorem intOf_eq_toInt {w x : Nat} (hx : x < 2 ^ w) (hw : 0 < w) : intOf w true x = (BitVec.ofNat w x).toInt := by
  obtain ⟨n, rfl⟩ : ∃ n, w = n + 1 := ⟨w - 1, by omega⟩
  have hcast : (2 : Int) ^ n = ((2 ^ n : Nat) : Int) := by push_cast; rfl
  rw [intOf_signed hx, BitVec.toInt_eq_toNat_cond, BitVec.toNat_ofNat, Nat.mod_eq_of_lt hx, Nat.add_sub_cancel,
    Nat.pow_succ, pow_succ, hcast]
  split_ifs <;> omega

/-- An element extended to a scalar register as its type reads it (R149). -/
theorem extended_element {t : BitVec 5} (h : t.toNat ∈ setVM) (x : Nat) (hx : x < 2 ^ typeWidth t) :
    extended (intOf (typeWidth t) (isSigned t) x) =
      if t.toNat ≤ 3 then (BitVec.ofNat (typeWidth t) x).signExtend 64 else BitVec.ofNat 64 x := by
  have hsigned : ∀ t : BitVec 5, t.toNat ∈ setVM → isSigned t = decide (t.toNat ≤ 3) := by decide
  rw [hsigned t h, extended]
  by_cases ht : t.toNat ≤ 3
  · have hw : ∀ t : BitVec 5, t.toNat ∈ setVM → 0 < typeWidth t := by decide
    rw [decide_eq_true ht, if_pos ht, intOf_eq_toInt hx (hw t h)]
    rfl
  · rw [decide_eq_false ht, if_neg ht, intOf, Nat.mod_eq_of_lt hx]
    exact BitVec.ofInt_natCast 64 x

/-! ### Operations on patterns (R132, R138) -/

theorem secondBits_eq {f : Slot} (h : f.t ≠ 15) (s : State) (i : Nat) : s.secondBits f i =
    if f.im then (if f.psel = 0 then f.imm.toNat else (s.poolSel f).toNat) % 2 ^ typeWidth f.t
      else elemBits (typeWidth f.t) (s.v f.b.toNat) i := by
  rw [State.secondBits, elem_eq_elemBits h]

/-- An operation on the patterns of the elements. -/
theorem guarded_patterns {i : Instr} {f : Slot} {s : State} (h15 : f.t ≠ 15) (h : s.goes i f) (op : Nat → Nat → Nat → Nat) :
    ∃ t, guarded i f s (s.putLanes f fun k => op k (s.va f k) (s.secondBits f k)) = .next t ∧
      WritesLanes s t f (s.governs f f.msel.toNat) fun k => op k (elemBits (typeWidth f.t) (s.v f.a.toNat) k)
        (if f.im then (if f.psel = 0 then f.imm.toNat else (s.poolSel f).toNat) % 2 ^ typeWidth f.t
          else elemBits (typeWidth f.t) (s.v f.b.toNat) k) :=
  guarded_putLanes h fun k _ => by rw [State.va, elem_eq_elemBits h15, secondBits_eq h15]

/-! ### The statement -/

/-- Settles O28: the list of elements that enter a reduction, and each move's lanes. -/
theorem reductionsAndLaneMoves : Obligations.ReductionsAndLaneMoves := by
  refine ⟨⟨?_, ?_⟩, ?_, ?_⟩
  · intro s f hvi hadd w n term
    exact ⟨fun _ h => execVred_int hvi hadd h, fun _ h => execVscan_int hvi hadd h⟩
  · intro s f hc w xs code op
    have hxs (h15 : f.t ≠ 15) : s.reduced f = xs := reduced_eq h15 s
    refine ⟨fun hwf h => ?_, fun hwf h => ?_⟩
    · rw [← hxs (ne_bs9_of_wf rfl rfl (by decide : 15 ∉ setVA) hwf)]
      exact execVred_combine hc h
    · rw [← hxs (ne_bs9_of_wf rfl rfl (by decide : 15 ∉ setVA) hwf)]
      exact execVscan_combine hc h
  · intro s f w a writes
    refine ⟨fun _ h => ?_, fun _ h => ?_, fun hwf h => ?_, fun hwf h => ?_, fun _ h => ?_, fun _ h => ?_⟩
    · exact guarded_putLanes h fun i _ => rfl
    · exact guarded_putLanes h fun i _ => rfl
    · exact guarded_putLanes h fun i _ => by rw [lane_of_wf rfl rfl rfl hwf]
    · refine ⟨_, guarded_goes h, ?_⟩
      have hw := putG_writes s f (extended (intOf w (isSigned f.t) (a (f.imm.toNat % 256))))
      rwa [extended_element (type_of_wf rfl hwf) _ (elemBits_lt _ _ _), lane_of_wf rfl rfl rfl hwf] at hw ⊢
    · exact guarded_putLanes h fun i _ => rfl
    · exact guarded_putLanes h fun i _ => rfl
  · intro s f x y writes
    refine ⟨fun hwf h => ?_, fun hwf h => ?_, fun hwf h => ?_, fun hwf h => ?_⟩
    · exact guarded_patterns (ne_bs9_of_wf rfl rfl (by decide : 15 ∉ setPattern) hwf) h fun _ a b => a &&& b
    · exact guarded_patterns (ne_bs9_of_wf rfl rfl (by decide : 15 ∉ setPattern) hwf) h fun _ a b => a ||| b
    · exact guarded_patterns (ne_bs9_of_wf rfl rfl (by decide : 15 ∉ setPattern) hwf) h fun _ a b => a ^^^ b
    · exact guarded_patterns (ne_bs9_of_wf rfl rfl (by decide : 15 ∉ setVE) hwf) h fun i a b =>
        if s.governs f f.c.toNat i then a else b

end Sys2Proof.Machine

/-! MRD and MSTAT (R62, R198 to R200, R221, R223). -/

namespace Sys2Proof.Machine

/-! ### Fields of a descriptor (R202) -/

theorem descField_eq (d : Desc) {hi lo w : Nat} (hw : hi - lo + 1 = w) :
    Desc.field d hi lo = (d.extractLsb' lo w).toNat := by
  rw [Desc.field, bitsOf, hw, BitVec.extractLsb'_toNat, Nat.shiftRight_eq_div_pow]

/-- The type that MRD converts to (R221). -/
def readoutType (f : Slot) (d : Desc) : BitVec 5 := if f.t = 0 then d.extractLsb' 50 5 else f.t

theorem readoutType_toNat (f : Slot) (d : Desc) :
    (if f.t = 0 then Desc.field d 54 50 else f.t.toNat) = (readoutType f d).toNat := by
  unfold readoutType
  split
  · exact descField_eq d rfl
  · rfl

/-! ### The turn of MRD on the tile port (R198 to R200, R221) -/

/-- What must be over before an MRD reads its tile. -/
theorem readoutReady_spec {s : State} {l part tile : Nat} (h : s.readoutReady l part tile = true) :
    (∀ x ∈ (s.core l).mq, x.who.part ≠ part) ∧
      (∀ r ∈ (s.core l).run, r.cmd.who.part = part → r.cmd.op ≠ 0x281 → r.cmd.tile ≠ tile) ∧
      ∀ r ∈ (s.core l).run, r.cmd.away = none → unitTakes .tilePort r.cmd.op = false := by
  simp only [State.readoutReady, State.unitFree, Bool.and_eq_true, Bool.not_eq_true', List.any_eq_false, beq_iff_eq,
    bne_iff_ne, Option.isNone_iff_eq_none] at h
  obtain ⟨⟨⟨hqueue, hrun⟩, -⟩, hport, -⟩ := h
  refine ⟨hqueue, fun r hr hpart hop htile => hrun r hr ⟨⟨hpart, hop⟩, htile⟩, fun r hr haway => ?_⟩
  exact Bool.eq_false_iff.2 fun htakes => hport r hr ⟨htakes, haway⟩

/-- Whether MRD has the tile port. -/
def State.hasPort (s : State) (tile : Nat) : Prop :=
  s.readoutReady s.task.id.lcore s.task.id.part tile = true ∧ s.readoutFirst s.task.id.lcore s.task.id.part = false

/-- The port serves the partition, and the descriptor is used (R200, R204). -/
def State.servePort (s : State) (fq : List Desc) : State :=
  (s.setCore { s.myCore with served := s.myCore.served.set 2 s.task.id.part }).setEng { s.task.eng with fq }

/-- The elements that MRD reads (R62, R221). -/
def State.readout (s : State) (f : Slot) (d : Desc) (i : Nat) : Nat :=
  let t := s.myCore.tiles.getD (f.a.toNat % 4) .reset
  convertTo (readoutType f d).toNat (effRnd0 s f.rnd) (f.sat == 1) none
    (readoutValue d t.l (t.elem (f.imm.toNat % 2 ^ 14 + i)))

section
variable {s : State} {f : Slot} {d : Desc} {fq : List Desc} (htake : takeUse s.task.eng.fq = some (d, fq))
  (h : s.goes (.mrd f) f) (halign : f.imm.toNat % 2 ^ 14 % (2048 / typeWidth (readoutType f d)) = 0)
include htake h halign

theorem execMrd_aligned : exec (.mrd f) s = .next
    (if !s.readoutReady s.task.id.lcore s.task.id.part (f.a.toNat % 4) || s.readoutFirst s.task.id.lcore s.task.id.part then
      s.waitFor (.readout (f.a.toNat % 4))
    else (s.servePort fq).put f.lat.toNat (.v f.d.toNat (BitVec.allOnes 2048)
      (vregOf (typeWidth (readoutType f d)) (s.readout f d)))) := by
  refine (guarded_goes h).trans (congrArg _ ?_)
  simp only [State.withDesc, htake, readoutType_toNat, BitVec.ofNat_toNat, BitVec.setWidth_eq]
  rw [if_neg (by simpa using halign)]
  rfl

theorem execMrd_waits (hport : ¬s.hasPort (f.a.toNat % 4)) : exec (.mrd f) s = .next (s.waitFor (.readout (f.a.toNat % 4))) := by
  rw [execMrd_aligned htake h halign, if_pos]
  by_contra hneg
  simp only [Bool.or_eq_true, Bool.not_eq_true', not_or, Bool.not_eq_false, Bool.not_eq_true] at hneg
  exact hport hneg

theorem execMrd_reads (hport : s.hasPort (f.a.toNat % 4)) : exec (.mrd f) s = .next
    ((s.servePort fq).put f.lat.toNat (.v f.d.toNat (BitVec.allOnes 2048)
      (vregOf (typeWidth (readoutType f d)) (s.readout f d)))) := by
  rw [execMrd_aligned htake h halign, if_neg]
  simp [hport.1, hport.2]

end

/-- A vector register that is written whole. -/
theorem finalV_put_all (s : State) (lat n : Nat) (x : VReg) :
    (s.put lat (.v n (BitVec.allOnes 2048) x)).finalV n = x := by
  rw [State.finalV_put]
  simp only [if_true, BitVec.and_allOnes, BitVec.not_allOnes, BitVec.and_zero, BitVec.zero_or]

/-! ### Values read out (R62) -/

theorem readoutValue_nan {d : Desc} {l : Int} {x : AElem} (h : x.tag = 3 ∨ valueOf 9 (d.extractLsb' 64 32).toNat = .nan ∨
    valueOf 9 (d.extractLsb' 96 32).toNat = .nan) : readoutValue d l x = .nan := by
  have hmul (v : FVal) : v.mul .nan = .nan := by cases v <;> rfl
  unfold readoutValue
  simp only [descField_eq d (show 95 - 64 + 1 = 32 from rfl), descField_eq d (show 127 - 96 + 1 = 32 from rfl)]
  rcases h with htag | ha | hb
  · simp only [htag, if_true]; rfl
  · simp only [ha, hmul]; rfl
  · simp only [hb, hmul]

section
variable {d : Desc} {l : Int} {x : AElem} {na nb : Bool} {ma mb : Nat} {ea eb : Int}
  (ha : valueOf 9 (d.extractLsb' 64 32).toNat = .fin na ma ea) (hb : valueOf 9 (d.extractLsb' 96 32).toNat = .fin nb mb eb)
include ha hb

theorem readoutValue_finite (h : x.tag = 0) : readoutValue d l x =
    .fin ((x.q.natAbs * ma * mb != 0) && ((decide (x.q < 0) != na) != nb)) (x.q.natAbs * ma * mb) (l + ea + eb) := by
  simp only [readoutValue, descField_eq d (show 95 - 64 + 1 = 32 from rfl),
    descField_eq d (show 127 - 96 + 1 = 32 from rfl), ha, hb, h]
  rw [Bool.and_comm]
  rfl

/-- An infinite element is infinite under scales other than 0. -/
theorem readoutValue_infinite (h : x.tag = 1 ∨ x.tag = 2) : readoutValue d l x =
    if ma = 0 ∨ mb = 0 then .nan else .inf ((decide (x.tag = 2) != na) != nb) := by
  simp only [readoutValue, descField_eq d (show 95 - 64 + 1 = 32 from rfl),
    descField_eq d (show 127 - 96 + 1 = 32 from rfl), ha, hb]
  by_cases hma : ma = 0
  · rcases h with h | h <;> simp [h, hma, FVal.mul]
  · by_cases hmb : mb = 0 <;> rcases h with h | h <;> simp [h, hma, hmb, FVal.mul]

end

/-! ### The word of MSTAT (R223) -/

theorem packLanes_bit {g : Nat → Bool} {k n : Nat} (h : k < n) : (packLanes 1 (fun i => (g i).toNat) n).testBit k = g k := by
  have helem := packLanes_elem 1 (fun i => (g i).toNat) h
  rw [Nat.testBit_eq_decide_div_mod_eq]
  rw [Nat.one_mul, Nat.pow_one] at helem
  rw [helem]
  cases g k <;> rfl

theorem tileBits_lt (s : State) (test : Tile → Bool) : s.tileBits test < 16 := packLanes_lt 1 _ 4

theorem tileBits_testBit (s : State) (test : Tile → Bool) {k : Nat} (h : k < 4) : (s.tileBits test).testBit k =
    (s.task.id.abind.getLsbD k && test (s.myCore.tiles.getD k .reset)) :=
  packLanes_bit (g := fun k => s.task.id.abind.getLsbD k && test (s.myCore.tiles.getD k .reset)) h

theorem tile_special_iff (t : Tile) : t.special = true ↔ ∃ n, n < 16384 ∧ (t.elem n).tag ≠ 0 := by
  simp [Tile.special]

/-- What MSTAT reports. -/
def State.tileStatus (s : State) : Nat :=
  s.pending * 2 ^ 32 + s.task.eng.fifo0.length * 2 ^ 24 + s.tileBits (·.capd) * 2 ^ 20
    + s.tileBits Tile.special * 2 ^ 12 + s.tileBits (·.clamp) * 2 ^ 8 + s.tileBits (·.accsat) * 2 ^ 4

/-- A field of a word. -/
theorem extract_ofNat {n lo w x : Nat} (hn : n < 2 ^ 64) (h : n / 2 ^ lo % 2 ^ w = x) :
    (BitVec.ofNat 64 n).extractLsb' lo w = BitVec.ofNat w x := by
  apply BitVec.eq_of_toNat_eq
  rw [BitVec.extractLsb'_toNat, BitVec.toNat_ofNat, Nat.mod_eq_of_lt hn, Nat.shiftRight_eq_div_pow, BitVec.toNat_ofNat, h, ← h,
    Nat.mod_mod]

/-- A bit of a field of a word. -/
theorem getLsbD_ofNat_field {n lo k : Nat} {x : Nat} (hn : n < 2 ^ 64) (h : n / 2 ^ lo % 2 ^ 4 = x) (hk : k < 4) :
    (BitVec.ofNat 64 n).getLsbD (lo + k) = x.testBit k := by
  rw [BitVec.getLsbD, BitVec.toNat_ofNat, Nat.mod_eq_of_lt hn, ← h, Nat.testBit_mod_two_pow, Nat.testBit_div_two_pow,
    Nat.add_comm]
  simp [hk]

/-- The fields of the status word lie beside each other. -/
theorem tileStatus_fields {s : State} (hp : s.pending < 256) (hl : s.task.eng.fifo0.length < 256) :
    s.tileStatus < 2 ^ 64 ∧ s.tileStatus / 2 ^ 32 % 2 ^ 8 = s.pending ∧
      s.tileStatus / 2 ^ 24 % 2 ^ 8 = s.task.eng.fifo0.length ∧ s.tileStatus / 2 ^ 40 % 2 ^ 24 = 0 ∧
      s.tileStatus / 2 ^ 16 % 2 ^ 4 = 0 ∧ s.tileStatus / 2 ^ 0 % 2 ^ 4 = 0 ∧
      s.tileStatus / 2 ^ 20 % 2 ^ 4 = s.tileBits (·.capd) ∧ s.tileStatus / 2 ^ 8 % 2 ^ 4 = s.tileBits (·.clamp) ∧
      s.tileStatus / 2 ^ 4 % 2 ^ 4 = s.tileBits (·.accsat) ∧ s.tileStatus / 2 ^ 12 % 2 ^ 4 = s.tileBits Tile.special := by
  have hcapd := tileBits_lt s (·.capd)
  have hspecial := tileBits_lt s Tile.special
  have hclamp := tileBits_lt s (·.clamp)
  have haccsat := tileBits_lt s (·.accsat)
  unfold State.tileStatus
  omega

/-- The tiles of the core, the flags of the bound ones cleared. -/
def State.clearedTiles (s : State) : List Tile := (List.range 4).map fun k =>
  if s.task.id.abind.getLsbD k then { s.myCore.tiles.getD k .reset with clamp := false, accsat := false, capd := false }
  else s.myCore.tiles.getD k .reset

/-- MSTAT clears the flags it reports under QUAL[0]. -/
def State.clearFlags (s : State) (f : Slot) : State :=
  if f.qual.getLsbD 0 then s.setCore { s.myCore with tiles := s.clearedTiles } else s

/-- A window and the core's own record do not touch each other. -/
theorem State.setCore_put (s : State) (lat : Nat) (w : RegWrite) (c : Core) :
    (s.put lat w).setCore c = (s.setCore c).put lat w := by
  unfold State.put; split <;> rfl

theorem State.myCore_put (s : State) (lat : Nat) (w : RegWrite) : (s.put lat w).myCore = s.myCore := by
  unfold State.put; split <;> rfl

theorem execMstat_waits {s : State} {f : Slot} (h : s.goes (.mstat f) f) (hwt : f.qual.getLsbD 1 = true) (hp : s.pending ≠ 0) :
    exec (.mstat f) s = .next (s.waitFor .stall) := by
  refine (guarded_goes h).trans (congrArg _ (if_pos ?_))
  simp [hwt, hp]

theorem execMstat_reports {s : State} {f : Slot} (h : s.goes (.mstat f) f) (hgo : f.qual.getLsbD 1 = false ∨ s.pending = 0) :
    exec (.mstat f) s = .next ((s.clearFlags f).putG f (BitVec.ofNat 64 s.tileStatus)) := by
  refine (guarded_goes h).trans (congrArg _ ((if_neg ?_).trans ?_))
  · rcases hgo with hwt | hp
    · rw [hwt, Bool.false_and]
      exact Bool.false_ne_true
    · simp [hp]
  · unfold State.clearFlags
    split
    · simp only [State.putG, State.myCore_put, State.setCore_put]
      rfl
    · rfl

/-- Settles O31: the guards of MRD's turn, the factors of a value read out, and the fields of MSTAT's word. -/
theorem tileReadout : Obligations.TileReadout := by
  refine ⟨?_, ?_, ?_⟩
  · intro s f d fq htake h ty w e t tile ready
    refine ⟨fun hready => readoutReady_spec hready.1, fun halign hport => execMrd_waits htake h halign hport,
      fun halign hport => ⟨_, execMrd_reads htake h halign hport, put_v_only .., fun i hi => ?_⟩⟩
    rw [finalV_put_all]
    exact elemBits_vregOf _ _ (width_fits _).2 hi
  · intro d l x sa sb
    exact ⟨readoutValue_nan, fun na ma ea nb mb eb ha hb => ⟨readoutValue_finite ha hb, readoutValue_infinite ha hb⟩⟩
  · intro s f h hp hl tile bound cleared
    obtain ⟨hlt, hpending, hfifo, hhigh, hmid, hlow, hcapd, hclamp, haccsat, hspecial⟩ := tileStatus_fields hp hl
    refine ⟨execMstat_waits h, fun hgo => ⟨_, _, execMstat_reports h hgo, putG_writes (s.clearFlags f) f _, extract_ofNat hlt hpending,
      extract_ofNat hlt hfifo, extract_ofNat hlt hhigh, extract_ofNat hlt hmid, extract_ofNat hlt hlow, fun k hk => ?_⟩⟩
    rw [getLsbD_ofNat_field hlt hcapd hk, getLsbD_ofNat_field hlt hclamp hk, getLsbD_ofNat_field hlt haccsat hk,
      getLsbD_ofNat_field hlt hspecial hk]
    simp only [tileBits_testBit s _ hk, Bool.and_eq_true, tile_special_iff]
    exact ⟨rfl, rfl, rfl, Iff.rfl⟩

end Sys2Proof.Machine

/-! Accumulator elements: order-free accumulation, the 96-bit limit, and the 16-byte image (R48, R49, R60, R61). -/

namespace Sys2Proof.Machine

/-! ### One contribution (R60, R61) -/

/-- A limited integer lies within 96 bits. -/
theorem accLimit_range (q : Int) : -(2 ^ 95) ≤ (accLimit q).1 ∧ (accLimit q).1 < 2 ^ 95 := by
  unfold accLimit accMin accMax
  split_ifs <;> dsimp only <;> omega

theorem accLimit_sat_iff (q : Int) : (accLimit q).2 = false ↔ -(2 ^ 95) ≤ q ∧ q < 2 ^ 95 := by
  unfold accLimit accMin accMax
  split_ifs <;> simp <;> omega

theorem accLimit_of_not_sat {q : Int} (h : (accLimit q).2 = false) : (accLimit q).1 = q := by
  obtain ⟨hlo, hhi⟩ := (accLimit_sat_iff q).1 h
  unfold accLimit accMin accMax
  rw [if_neg (by omega), if_neg (by omega)]

/-- A sum of finite elements is limited to 96 bits. -/
theorem AElem.add_of_finite {x : AElem} {tag : BitVec 2} (c : Int) (h : x.tag ||| tag = 0) :
    x.add tag c = (⟨(accLimit (x.q + c)).1, 0⟩, (accLimit (x.q + c)).2) := if_neg (not_not.2 h)

/-- A tag that is not finite stays, and Q is 0. -/
theorem AElem.add_of_special {x : AElem} {tag : BitVec 2} (c : Int) (h : x.tag ||| tag ≠ 0) :
    x.add tag c = (⟨0, x.tag ||| tag⟩, false) := if_pos h

theorem AElem.add_tag (x : AElem) (tag : BitVec 2) (c : Int) : (x.add tag c).1.tag = x.tag ||| tag := by
  by_cases h : x.tag ||| tag = 0
  · rw [add_of_finite c h, h]
  · rw [add_of_special c h]

/-! ### Many contributions -/

/-- Contributions added one after the other, and whether a sum saturated. -/
def AElem.addAll (x : AElem × Bool) (l : List (BitVec 2 × Int)) : AElem × Bool :=
  l.foldl (fun a c => let r := a.1.add c.1 c.2; (r.1, a.2 || r.2)) x

/-- The tags of contributions together. -/
def tagOf (l : List (BitVec 2 × Int)) : BitVec 2 := (l.map (·.1)).foldr (· ||| ·) 0

/-- What contributions come to when no sum saturates. -/
def AElem.total (x : AElem) (l : List (BitVec 2 × Int)) : AElem :=
  if x.tag ||| tagOf l = 0 then ⟨x.q + (l.map (·.2)).sum, 0⟩ else ⟨0, x.tag ||| tagOf l⟩

theorem tagOf_cons (c : BitVec 2 × Int) (l : List (BitVec 2 × Int)) : tagOf (c :: l) = c.1 ||| tagOf l := rfl

/-- The first contribution does not change what all of them come to. -/
theorem AElem.total_add {x : AElem} {c : BitVec 2 × Int} (h : (x.add c.1 c.2).2 = false) (l : List (BitVec 2 × Int)) :
    (x.add c.1 c.2).1.total l = x.total (c :: l) := by
  have htag : (x.add c.1 c.2).1.tag ||| tagOf l = x.tag ||| tagOf (c :: l) := by
    rw [add_tag, tagOf_cons, BitVec.or_assoc]
  unfold total
  rw [htag]
  split
  next hzero =>
    have hfinite : x.tag ||| c.1 = 0 := by
      rw [tagOf_cons, ← BitVec.or_assoc] at hzero
      exact (BitVec.or_eq_zero_iff.1 hzero).1
    rw [add_of_finite c.2 hfinite] at h ⊢
    rw [accLimit_of_not_sat h, List.map_cons, List.sum_cons, add_assoc]
  next => rfl

theorem AElem.total_singleton {x : AElem} {c : BitVec 2 × Int} (h : (x.add c.1 c.2).2 = false) :
    (x.add c.1 c.2).1 = x.total [c] := by
  rw [← total_add h]
  unfold total
  have htag : (x.add c.1 c.2).1.tag ||| tagOf [] = (x.add c.1 c.2).1.tag := BitVec.or_zero
  rw [htag]
  by_cases hzero : x.tag ||| c.1 = 0
  · rw [add_of_finite c.2 hzero, if_pos rfl]
    simp
  · rw [add_of_special c.2 hzero, if_neg hzero]

theorem AElem.addAll_cons (x : AElem) (b : Bool) (c : BitVec 2 × Int) (l : List (BitVec 2 × Int)) :
    addAll (x, b) (c :: l) = addAll ((x.add c.1 c.2).1, b || (x.add c.1 c.2).2) l := rfl

/-- A sum that has saturated is not forgotten. -/
theorem AElem.addAll_sat {x : AElem} {b : Bool} {l : List (BitVec 2 × Int)} (h : (addAll (x, b) l).2 = false) : b = false := by
  induction l generalizing x b with
  | nil => exact h
  | cons c l ih => exact (Bool.or_eq_false_iff.1 (ih (addAll_cons x b c l ▸ h))).1

/-- Contributions that never saturate come to their total. -/
theorem AElem.addAll_eq_total {x : AElem} {b : Bool} {c : BitVec 2 × Int} {l : List (BitVec 2 × Int)}
    (h : (addAll (x, b) (c :: l)).2 = false) : (addAll (x, b) (c :: l)).1 = x.total (c :: l) := by
  induction l generalizing x b c with
  | nil => exact total_singleton (Bool.or_eq_false_iff.1 (addAll_sat (l := []) h)).2
  | cons d l ih =>
    rw [addAll_cons] at h ⊢
    rw [ih h, total_add (Bool.or_eq_false_iff.1 (addAll_sat h)).2]

/-- The total does not depend on the order. -/
theorem AElem.total_perm {l l' : List (BitVec 2 × Int)} (h : l.Perm l') (x : AElem) : x.total l = x.total l' := by
  have htags : tagOf l = tagOf l' := by
    refine (h.map _).foldr_eq' (fun a _ b _ c => ?_) 0
    rw [← BitVec.or_assoc, ← BitVec.or_assoc, BitVec.or_comm a b]
  rw [total, total, htags, (h.map _).sum_eq]

theorem AElem.addAll_perm {l l' : List (BitVec 2 × Int)} (hperm : l.Perm l') (x : AElem) (h : (addAll (x, false) l).2 = false)
    (h' : (addAll (x, false) l').2 = false) : (addAll (x, false) l).1 = (addAll (x, false) l').1 := by
  cases l with
  | nil => rw [List.nil_perm.1 hperm]
  | cons c l =>
    cases l' with
    | nil => exact absurd hperm.symm (List.not_perm_nil_cons c l)
    | cons c' l' => rw [addAll_eq_total h, addAll_eq_total h', total_perm hperm]

/-! ### Bytes -/

@[simp] theorem bytesOfNat_length (n x : Nat) : (bytesOfNat n x).length = n := by
  induction n generalizing x with
  | zero => rfl
  | succ n ih => rw [bytesOfNat, List.length_cons, ih]

theorem natOfBytes_bytesOfNat (n x : Nat) : natOfBytes (bytesOfNat n x) = x % 256 ^ n := by
  induction n generalizing x with
  | zero => rw [Nat.pow_zero, Nat.mod_one]; rfl
  | succ n ih =>
    rw [bytesOfNat, natOfBytes, ih, BitVec.toNat_ofNat, show 256 ^ (n + 1) = 256 * 256 ^ n from Nat.pow_succ']
    exact (Nat.mod_mul (x := x) (a := 256) (b := 256 ^ n)).symm

/-! ### The image of an element (R49) -/

theorem patternOf_lt (w : Nat) (n : Int) : patternOf w n < 2 ^ w := by
  have hpos : (0 : Int) < 2 ^ w := by positivity
  have hlt : n % 2 ^ w < ((2 ^ w : Nat) : Int) := by push_cast; exact Int.emod_lt_of_pos n hpos
  exact (Int.toNat_lt (Int.emod_nonneg n hpos.ne')).2 hlt

/-- The pattern of an integer within the range of its type: a negative one is complemented. -/
theorem patternOf_of_range {w : Nat} {n : Int} (hlo : -(2 ^ w) ≤ n) (hhi : n < 2 ^ w) :
    (patternOf w n : Int) = if n < 0 then n + 2 ^ w else n := by
  have hpos : (0 : Int) < 2 ^ w := by positivity
  rw [patternOf, Int.toNat_of_nonneg (Int.emod_nonneg n hpos.ne')]
  split
  next hneg => rw [← Int.add_emod_right, Int.emod_eq_of_lt (by omega) (by omega)]
  next hneg => exact Int.emod_eq_of_lt (by omega) hhi

/-- An integer within the range of its type is read back from its pattern (R38). -/
theorem intOf_patternOf {w : Nat} {signed : Bool} {n : Int} (hw : 0 < w) (hlo : intMin w signed ≤ n) (hhi : n ≤ intMax w signed) :
    intOf w signed (patternOf w n) = n := by
  obtain ⟨k, rfl⟩ : ∃ k, w = k + 1 := ⟨w - 1, by omega⟩
  have hpos : (0 : Int) < 2 ^ k := by positivity
  have hcast : ((2 ^ k : Nat) : Int) = 2 ^ k := by push_cast; rfl
  have htwo : (2 : Int) ^ (k + 1) = 2 * 2 ^ k := pow_succ' 2 k
  rw [intOf, Nat.mod_eq_of_lt (patternOf_lt _ n)]
  cases signed with
  | true =>
    simp only [intMin, intMax, if_true, Nat.add_sub_cancel] at hlo hhi
    have hpattern := patternOf_of_range (w := k + 1) (n := n) (by omega) (by omega)
    simp only [Bool.true_and, decide_eq_true_eq, Nat.add_sub_cancel]
    split_ifs at hpattern ⊢ <;> omega
  | false =>
    simp only [intMin, intMax, Bool.false_eq_true, if_false] at hlo hhi
    have hpattern := patternOf_of_range (w := k + 1) (n := n) (by omega) (by omega)
    rw [if_neg (by omega)] at hpattern
    simpa using hpattern

theorem AElem.image_length (x : AElem) : x.image.length = 16 := by
  rw [image, List.length_append, bytesOfNat_length]
  rfl

theorem AElem.elemOfImage_image {x : AElem} (hlo : -(2 ^ 95) ≤ x.q) (hhi : x.q < 2 ^ 95) (h : x.tag ≠ 0 → x.q = 0) :
    elemOfImage x.image = some x := by
  have hq : natOfBytes (x.image.take 12) = patternOf 96 x.q := by
    rw [image, List.take_left' (bytesOfNat_length 12 _), natOfBytes_bytesOfNat]
    exact Nat.mod_eq_of_lt (patternOf_lt 96 x.q)
  have htag : natOfBytes (x.image.drop 12) = x.tag.toNat := by
    rw [image, List.drop_left' (bytesOfNat_length 12 _)]
    have hsmall : x.tag.toNat < 256 := by omega
    simp [natOfBytes, Nat.mod_eq_of_lt hsmall]
  have hlt : x.tag.toNat < 4 := x.tag.isLt
  rw [elemOfImage]
  simp only [hq, htag]
  rw [intOf_patternOf (by decide) hlo (by simp only [intMax]; omega), if_neg]
  · simp
  · rintro (hbig | ⟨hne, hq0⟩)
    · omega
    · exact hq0 (h fun e => hne (by rw [e]; rfl))

/-! ### What one contribution leaves (R48, R60, R61) -/

theorem AElem.add_spec (x : AElem) (tag : BitVec 2) (c : Int) :
    let y := x.add tag c
    y.1.tag = x.tag ||| tag ∧ -(2 ^ 95) ≤ y.1.q ∧ y.1.q < 2 ^ 95 ∧ (y.1.tag ≠ 0 → y.1.q = 0 ∧ y.2 = false) ∧
      (y.1.tag = 0 → (y.2 = false ↔ -(2 ^ 95) ≤ x.q + c ∧ x.q + c < 2 ^ 95) ∧ (y.2 = false → y.1.q = x.q + c)) := by
  have htag := add_tag x tag c
  by_cases h : x.tag ||| tag = 0
  · obtain ⟨hlo, hhi⟩ := accLimit_range (x.q + c)
    rw [add_of_finite c h] at htag ⊢
    exact ⟨htag, hlo, hhi, fun hne => absurd rfl hne, fun _ => ⟨accLimit_sat_iff _, accLimit_of_not_sat⟩⟩
  · rw [add_of_special c h]
    exact ⟨rfl, by norm_num, by norm_num, fun _ => ⟨rfl, rfl⟩, fun hzero => absurd hzero h⟩

end Sys2Proof.Machine

/-! Planed records: their length, and what their lines and checksum rows read back as (R57, R58, R205, R206). -/

namespace Sys2Proof.Machine

/-! ### Planed integers (R57, R58) -/

/-- The integers of an aligned type lie within the planes. -/
theorem planed_bound {ty p arnd : Nat} {u : Int} {x : FVal} (hfloat : (floatFmt ty).isSome = true) (h14 : ty ≠ 14) :
    (planed ty p arnd u x).1.natAbs ≤ 2 ^ (p - 1) - 1 := by
  have hpos : 0 < 2 ^ (p - 1) := Nat.two_pow_pos _
  have hcast : ((2 ^ (p - 1) : Nat) : Int) = 2 ^ (p - 1) := by push_cast; rfl
  have haligned : ¬((floatFmt ty).isNone = true ∨ ty = 14) := by
    rw [Option.isNone_iff_eq_none]
    rintro (hnone | h)
    · rw [hnone] at hfloat; cases hfloat
    · exact h14 h
  cases x with
  | nan | inf neg => exact Nat.zero_le _
  | fin neg m e =>
    simp only [planed, Bool.or_eq_true, decide_eq_true_eq, if_neg haligned]
    split_ifs <;> dsimp only <;> omega

/-! ### Bytes that stand in memory -/

/-- Memory holds a list of bytes from a key on. -/
def Memory.Holds (m : Memory) (key : Nat) (bs : List Byte) : Prop := m.readBytes key bs.length = bs

theorem Memory.readBytes_add (m : Memory) (key a b : Nat) :
    m.readBytes key (a + b) = m.readBytes key a ++ m.readBytes (key + a) b := by
  induction a generalizing key with
  | zero => simp [Memory.readBytes]
  | succ a ih =>
    rw [Nat.succ_add, readBytes, ih, readBytes, List.cons_append, Nat.add_right_comm, Nat.add_assoc]

theorem Memory.readBytes_length (m : Memory) (key n : Nat) : (m.readBytes key n).length = n := by
  induction n generalizing key with
  | zero => rfl
  | succ n ih => rw [readBytes, List.length_cons, ih]

theorem Memory.holds_append {m : Memory} {key : Nat} {as bs : List Byte} :
    m.Holds key (as ++ bs) ↔ m.Holds key as ∧ m.Holds (key + as.length) bs := by
  unfold Holds
  rw [List.length_append, readBytes_add]
  refine ⟨fun h => List.append_inj h (m.readBytes_length key _), fun h => by rw [h.1, h.2]⟩

theorem Memory.Holds.read {m : Memory} {key : Nat} {bs : List Byte} (h : m.Holds key bs) {i : Nat} (hi : i < bs.length) :
    m.read (key + i) = bs[i] := by
  induction bs generalizing key i with
  | nil => cases hi
  | cons b bs ih =>
    obtain ⟨hb, hbs⟩ := List.cons.inj h
    cases i with
    | zero => exact hb
    | succ i => rw [Nat.add_succ, ← Nat.succ_add]; exact ih hbs (Nat.lt_of_succ_lt_succ hi)

/-! ### Rows of equal length -/

theorem flatMap_length {α β : Type} {g : α → List β} {n : Nat} {l : List α} (hlen : ∀ a ∈ l, (g a).length = n) :
    (l.flatMap g).length = n * l.length := by
  induction l with
  | nil => rfl
  | cons a l ih =>
    rw [List.flatMap_cons, List.length_append, hlen a List.mem_cons_self, ih fun x hx => hlen x (List.mem_cons_of_mem a hx),
      List.length_cons, Nat.mul_succ, Nat.add_comm]

/-- Each row of a table of rows stands at its place. -/
theorem Memory.Holds.row {α : Type} {g : α → List Byte} {n : Nat} {l : List α} (hlen : ∀ a ∈ l, (g a).length = n)
    {m : Memory} {key : Nat} (h : m.Holds key (l.flatMap g)) {i : Nat} (hi : i < l.length) :
    m.Holds (key + n * i) (g l[i]) := by
  induction l generalizing key i with
  | nil => cases hi
  | cons a l ih =>
    obtain ⟨hfirst, hrest⟩ := Memory.holds_append.1 (List.flatMap_cons ▸ h)
    rw [hlen a List.mem_cons_self] at hrest
    cases i with
    | zero => exact hfirst
    | succ i =>
      rw [Nat.mul_succ, Nat.add_comm (n * i), ← Nat.add_assoc]
      exact ih (fun x hx => hlen x (List.mem_cons_of_mem a hx)) hrest (Nat.lt_of_succ_lt_succ hi)

theorem Memory.Holds.number {m : Memory} {key n x : Nat} (h : m.Holds key (bytesOfNat n x)) :
    natOfBytes (m.readBytes key n) = x % 256 ^ n := by
  unfold Holds at h
  rw [bytesOfNat_length] at h
  rw [h, natOfBytes_bytesOfNat]

/-! ### Planes (R205) -/

theorem byteOfBits_bit (g : Nat → Bool) {i : Nat} (hi : i < 8) : (byteOfBits g).getLsbD i = g i := by
  rw [byteOfBits, BitVec.getLsbD_ofNat, packLanes_bit hi]
  simp [hi]

/-- The eight bytes of a line of a plane. -/
def lineBytes (l : List Bool) : List Byte := (List.range 8).map fun c => byteOfBits fun i => l.getD (8 * c + i) false

theorem lineBytes_length (l : List Bool) : (lineBytes l).length = 8 := rfl

theorem planeBytes_eq (lines : List (List Bool)) : planeBytes lines = lines.flatMap lineBytes := rfl

theorem planeBytes_length (lines : List (List Bool)) : (planeBytes lines).length = 8 * lines.length :=
  flatMap_length fun l _ => lineBytes_length l

/-- Bit `k` of line `r` of a plane. -/
theorem plane_bit {m : Memory} {key : Nat} {lines : List (List Bool)} (h : m.Holds key (planeBytes lines)) {r k : Nat}
    (hr : r < lines.length) (hk : k < 64) : (m.read (key + 8 * r + k / 8)).getLsbD (k % 8) = lines[r].getD k false := by
  have hline : m.Holds (key + 8 * r) (lineBytes lines[r]) := Memory.Holds.row (fun l _ => lineBytes_length l) h hr
  have hbyte : k / 8 < (lineBytes lines[r]).length := by rw [lineBytes_length]; omega
  rw [hline.read hbyte]
  simp only [lineBytes, List.getElem_map, List.getElem_range, byteOfBits_bit _ (Nat.mod_lt k (by decide)), Nat.div_add_mod]

/-! ### The parts of a record (R205, R206) -/

/-- The plane of a test on the planed integers of every line. -/
def intPlane (lines : List (List PlanedBlock)) (p t : Nat) : List (List Bool) :=
  (lines.map lineQs).map fun l => l.map fun q => (patternOf p q).testBit t

/-- The plane of a class bit of every line. -/
def classPlane (lines : List (List PlanedBlock)) (test : ClassBits → Bool) : List (List Bool) :=
  (lines.map lineCls).map fun l => l.map test

/-- The factor records of a line. -/
def factorBytes (l : List PlanedBlock) : List Byte := l.flatMap fun b => bytesOfNat 2 b.fac

theorem recordBytes_eq (p : Nat) (lines : List (List PlanedBlock)) : recordBytes p lines =
    (List.range p).flatMap (fun t => planeBytes (intPlane lines p t)) ++ planeBytes (classPlane lines (·.z)) ++
      planeBytes (classPlane lines (·.p)) ++ planeBytes (classPlane lines (·.m)) ++ lines.flatMap factorBytes ++
      (checksumWords (lines.map lineQs)).flatMap (bytesOfNat 4) := rfl

section
variable {p : Nat} {lines : List (List PlanedBlock)} (hlines : lines.length = 128)
include hlines

theorem intPlane_length (t : Nat) : (planeBytes (intPlane lines p t)).length = 1024 := by
  simp [planeBytes_length, intPlane, hlines]

theorem classPlane_length (test : ClassBits → Bool) : (planeBytes (classPlane lines test)).length = 1024 := by
  simp [planeBytes_length, classPlane, hlines]

variable (hfour : ∀ l ∈ lines, l.length = 4)
include hfour

omit hlines in
theorem factorBytes_length {l : List PlanedBlock} (h : l ∈ lines) : (factorBytes l).length = 8 := by
  rw [factorBytes, flatMap_length fun b _ => bytesOfNat_length 2 b.fac, hfour l h]

theorem recordBytes_length : (recordBytes p lines).length = (p + 4) * 1024 + 256 := by
  simp only [recordBytes_eq, List.length_append, flatMap_length fun t _ => intPlane_length hlines t, List.length_range,
    classPlane_length hlines, flatMap_length fun l hl => factorBytes_length hfour hl,
    flatMap_length fun x _ => bytesOfNat_length 4 x, checksumWords, List.length_map, hlines]
  omega

/-- Where the parts of a record stand. -/
theorem record_parts {m : Memory} {key : Nat} (h : m.Holds key (recordBytes p lines)) :
    (∀ t, t < p → m.Holds (key + 1024 * t) (planeBytes (intPlane lines p t))) ∧
      m.Holds (key + 1024 * p) (planeBytes (classPlane lines (·.z))) ∧
      m.Holds (key + 1024 * (p + 1)) (planeBytes (classPlane lines (·.p))) ∧
      m.Holds (key + 1024 * (p + 2)) (planeBytes (classPlane lines (·.m))) ∧
      m.Holds (key + 1024 * (p + 3)) (lines.flatMap factorBytes) ∧
      m.Holds (key + 1024 * (p + 4)) ((checksumWords (lines.map lineQs)).flatMap (bytesOfNat 4)) := by
  simp only [recordBytes_eq, Memory.holds_append, List.length_append, flatMap_length fun t _ => intPlane_length hlines t,
    List.length_range, classPlane_length hlines, flatMap_length fun l hl => factorBytes_length hfour hl, hlines] at h
  obtain ⟨⟨⟨⟨⟨hints, hz⟩, hp⟩, hm⟩, hfac⟩, hsum⟩ := h
  refine ⟨fun t ht => ?_, hz, hp, hm, hfac, hsum⟩
  have hrow := Memory.Holds.row (fun t _ => intPlane_length hlines t) hints (i := t) (by simpa using ht)
  rwa [List.getElem_range] at hrow

end

/-! ### Reading a line (R205, R206) -/

theorem packLanes_testBit (n p : Nat) : packLanes 1 (fun t => (n.testBit t).toNat) p = n % 2 ^ p := by
  induction p with
  | zero => rw [Nat.pow_zero, Nat.mod_one]; rfl
  | succ p ih =>
    rw [packLanes, ih, Nat.mod_pow_succ (k := p), Nat.toNat_testBit, Nat.pow_one, Nat.mod_mod, Nat.one_mul, Nat.mul_comm]

theorem packLanes_congr {w n : Nat} {g g' : Nat → Nat} (h : ∀ i, i < n → g i = g' i) : packLanes w g n = packLanes w g' n := by
  induction n with
  | zero => rfl
  | succ n ih => rw [packLanes, packLanes, ih fun i hi => h i (Nat.lt_succ_of_lt hi), h n (Nat.lt_succ_self n)]

/-- Bit `k` of a plane of line `r`, as a record is read. -/
def planeBit (m : Memory) (key r plane k : Nat) : Bool := (m.read (key + plane * 1024 + 8 * r + k / 8)).getLsbD (k % 8)

/-- The integer that the planes hold for element `k` of line `r`. -/
def heldInt (m : Memory) (key p : Nat) (unsigned : Bool) (r k : Nat) : Int :=
  intOf p (!unsigned) (packLanes 1 (fun t => (planeBit m key r t k).toNat) p)

theorem readLine_elems (m : Memory) (key p : Nat) (unsigned : Bool) (r : Nat) : (readLine m key p unsigned r).elems =
    (List.range 64).map fun k => takenElem (heldInt m key p unsigned r k)
      ⟨planeBit m key r p k, planeBit m key r (p + 1) k, planeBit m key r (p + 2) k⟩ := rfl

theorem readLine_facs (m : Memory) (key p : Nat) (unsigned : Bool) (r : Nat) : (readLine m key p unsigned r).facs =
    (List.range 4).map fun b => natOfBytes (m.readBytes (key + (p + 3) * 1024 + 8 * r + 2 * b) 2) := rfl

/-- A block as it stands in a record of `p` planes. -/
def PlanedBlock.Fits (p : Nat) (unsigned : Bool) (b : PlanedBlock) : Prop :=
  b.qs.length = 16 ∧ b.cls.length = 16 ∧ b.fac < 2 ^ 16 ∧
    ∀ q ∈ b.qs, if unsigned then 0 ≤ q ∧ q < 2 ^ p else -(2 ^ (p - 1)) ≤ q ∧ q < 2 ^ (p - 1)

section
variable {p : Nat} {unsigned : Bool} {b : PlanedBlock} (h : b.Fits p unsigned)
include h

theorem PlanedBlock.Fits.qs_length : b.qs.length = 16 := h.1
theorem PlanedBlock.Fits.cls_length : b.cls.length = 16 := h.2.1
theorem PlanedBlock.Fits.fac_lt : b.fac < 2 ^ 16 := h.2.2.1
theorem PlanedBlock.Fits.range : ∀ q ∈ b.qs, if unsigned then 0 ≤ q ∧ q < 2 ^ p else -(2 ^ (p - 1)) ≤ q ∧ q < 2 ^ (p - 1) :=
  h.2.2.2

end

/-- An integer that fits its planes is read back from them (R57). -/
theorem intOf_planes {p : Nat} {unsigned : Bool} {q : Int} (hp : 0 < p)
    (h : if unsigned then 0 ≤ q ∧ q < 2 ^ p else -(2 ^ (p - 1)) ≤ q ∧ q < 2 ^ (p - 1)) :
    intOf p (!unsigned) (patternOf p q) = q := by
  cases unsigned with
  | true => exact intOf_patternOf hp h.1 (Int.le_sub_one_of_lt h.2)
  | false => exact intOf_patternOf hp h.1 (Int.le_sub_one_of_lt h.2)

section
variable {m : Memory} {key p r : Nat} {unsigned : Bool} {lines : List (List PlanedBlock)}
  (h : m.Holds key (recordBytes p lines)) (hlines : lines.length = 128) (hfour : ∀ l ∈ lines, l.length = 4) (hr : r < lines.length)
include h hlines hfour hr

theorem planeBit_int {t k : Nat} (ht : t < p) (hk : k < 64) :
    planeBit m key r t k = ((lineQs lines[r])[k]?.map fun q => (patternOf p q).testBit t).getD false := by
  have hplane := (record_parts hlines hfour h).1 t ht
  have hbit := plane_bit hplane (r := r) (by simpa [intPlane] using hr) hk
  rw [planeBit, Nat.mul_comm t, hbit]
  simp [intPlane]

omit h hlines hfour in
/-- A class bit of an element. -/
theorem planeBit_class {test : ClassBits → Bool} {plane k : Nat} (hk : k < 64)
    (hplane : m.Holds (key + 1024 * plane) (planeBytes (classPlane lines test))) :
    planeBit m key r plane k = ((lineCls lines[r])[k]?.map test).getD false := by
  have hbit := plane_bit hplane (r := r) (by simpa [classPlane] using hr) hk
  rw [planeBit, Nat.mul_comm plane, hbit]
  simp [classPlane]

theorem readLine_facs_eq (hfac : ∀ b ∈ lines[r], b.fac < 2 ^ 16) : (readLine m key p unsigned r).facs = lines[r].map (·.fac) := by
  obtain ⟨-, -, -, -, hparts, -⟩ := record_parts hlines hfour h
  have hline := Memory.Holds.row (fun l hl => factorBytes_length hfour hl) hparts hr
  have hlen : lines[r].length = 4 := hfour _ (List.getElem_mem hr)
  rw [readLine_facs]
  refine List.ext_getElem (by simp [hlen]) fun b hb hb' => ?_
  have hb4 : b < lines[r].length := by simpa using hb'
  have hword := (Memory.Holds.row (fun b _ => bytesOfNat_length 2 b.fac) hline hb4).number
  have hmod : lines[r][b].fac % 256 ^ 2 = lines[r][b].fac := Nat.mod_eq_of_lt (hfac _ (List.getElem_mem hb4))
  rw [hmod, Nat.mul_comm 1024] at hword
  simpa using hword

theorem heldInt_eq {k : Nat} (hp : 0 < p) (hk : k < (lineQs lines[r]).length) (hk64 : k < 64)
    (hfits : ∀ b ∈ lines[r], b.Fits p unsigned) : heldInt m key p unsigned r k = (lineQs lines[r])[k] := by
  have hbits : packLanes 1 (fun t => (planeBit m key r t k).toNat) p = patternOf p (lineQs lines[r])[k] := by
    rw [packLanes_congr (g' := fun t => ((patternOf p (lineQs lines[r])[k]).testBit t).toNat), packLanes_testBit,
      Nat.mod_eq_of_lt (patternOf_lt p _)]
    intro t ht
    rw [planeBit_int h hlines hfour hr ht hk64, List.getElem?_eq_getElem hk]
    rfl
  obtain ⟨b, hb, hq⟩ := List.mem_flatMap.1 (List.getElem_mem hk)
  rw [heldInt, hbits, intOf_planes hp ((hfits b hb).range _ hq)]

theorem readLine_elems_eq (hp : 0 < p) (hfits : ∀ b ∈ lines[r], b.Fits p unsigned) :
    (readLine m key p unsigned r).elems = List.zipWith takenElem (lineQs lines[r]) (lineCls lines[r]) := by
  have hlen : lines[r].length = 4 := hfour _ (List.getElem_mem hr)
  have hqs : (lineQs lines[r]).length = 64 := by rw [lineQs, flatMap_length fun b hb => (hfits b hb).qs_length, hlen]
  have hcls : (lineCls lines[r]).length = 64 := by rw [lineCls, flatMap_length fun b hb => (hfits b hb).cls_length, hlen]
  obtain ⟨-, hz, hpos, hneg, -⟩ := record_parts hlines hfour h
  rw [readLine_elems]
  refine List.ext_getElem (by simp [hqs, hcls]) fun k hk _ => ?_
  have hk64 : k < 64 := by simpa using hk
  simp only [List.getElem_map, List.getElem_range, List.getElem_zipWith,
    heldInt_eq h hlines hfour hr hp (hqs ▸ hk64) hk64 hfits, planeBit_class hr hk64 hz, planeBit_class hr hk64 hpos,
    planeBit_class hr hk64 hneg, List.getElem?_eq_getElem (hcls ▸ hk64 : k < (lineCls lines[r]).length), Option.map_some,
    Option.getD_some]

omit hr in
/-- The checksum row holds the column sums. -/
theorem readChecksum_eq {k : Nat} (hk : k < 64) :
    (readChecksum m key p).getD k 0 = patternOf 32 ((lines.map lineQs).map fun l => l.getD k 0).sum := by
  obtain ⟨-, -, -, -, -, hsum⟩ := record_parts hlines hfour h
  have hlen : k < (checksumWords (lines.map lineQs)).length := by simpa [checksumWords] using hk
  have hword := (Memory.Holds.row (fun x _ => bytesOfNat_length 4 x) hsum hlen).number
  have hlt : (checksumWords (lines.map lineQs))[k] < 256 ^ 4 := by
    simp only [checksumWords, List.getElem_map]
    exact patternOf_lt 32 _
  rw [Nat.mod_eq_of_lt hlt, Nat.mul_comm 1024] at hword
  rw [readChecksum, List.getD_eq_getElem?_getD, List.getElem?_map, List.getElem?_range hk, Option.map_some, Option.getD_some, hword]
  simp [checksumWords]

end

/-! ### The statement -/

/-- Settles O32: what contributions come to is their total in any order, and each part of a record is read where it stands. -/
theorem accumulatorsAndPlanes : Obligations.AccumulatorsAndPlanes := by
  refine ⟨?_, fun ty p arnd u x _ hfloat h14 => planed_bound hfloat h14, ?_⟩
  · intro run
    exact ⟨fun x l l' hperm h h' => AElem.addAll_perm hperm x h h', AElem.add_spec,
      fun x hlo hhi h => ⟨x.image_length, AElem.elemOfImage_image hlo hhi h⟩⟩
  · intro m key p unsigned lines hp _ hlines hfits
    have hfour : ∀ l ∈ lines, l.length = 4 := fun l hl => (hfits l hl).1
    refine ⟨recordBytes_length hlines hfour, ?_⟩
    intro hread r hr bs
    have hholds : m.Holds key (recordBytes p lines) := by rwa [Memory.Holds, recordBytes_length hlines hfour]
    have hr' : r < lines.length := hlines ▸ hr
    have hbs : bs = lines[r] := by simp [bs, hr']
    have hblocks : ∀ b ∈ lines[r], b.Fits p unsigned := (hfits _ (List.getElem_mem hr')).2
    rw [hbs]
    exact ⟨readLine_facs_eq hholds hlines hfour hr' fun b hb => (hblocks b hb).fac_lt,
      readLine_elems_eq hholds hlines hfour hr' hp hblocks,
      fun k hk => by rw [readChecksum_eq hholds hlines hfour hk, List.map_map]; rfl⟩

end Sys2Proof.Machine

/-! The fields of a slot word, and the opcode map against the forms of the operations (R73, R76, R80, R81). -/

namespace Sys2Proof

/-! ### Slot words (R73, R76) -/

section
variable (op : BitVec 10) (f : Slot) (w : SlotWord)

/-- The bits of a slot word, with the width of the fields that it strings together. -/
theorem extract_slotWord (start len : Nat) : (slotWord op f).extractLsb' start len =
    (op ++ f.lat ++ f.rnd ++ f.sat ++ f.pn ++ f.pnum ++ f.d ++ f.a ++ f.b ++ f.c ++ f.t ++ f.psel ++ f.msel ++ f.qual
      ++ f.imm).extractLsb' start len := rfl

@[simp] theorem slotOp_slotWord : slotOp (slotWord op f) = op := by
  simp (disch := decide) only [slotOp, extract_slotWord, BitVec.extractLsb'_append_eq_of_le, Nat.reduceSub,
    BitVec.extractLsb'_eq_self]

@[simp] theorem slotFields_slotWord : slotFields (slotWord op f) = f := by
  simp (disch := decide) only [slotFields, extract_slotWord, BitVec.extractLsb'_append_eq_of_le,
    BitVec.extractLsb'_append_eq_of_add_le, Nat.reduceSub, BitVec.extractLsb'_eq_self]

theorem slotWord_slotFields : slotWord (slotOp w) (slotFields w) = w := by
  simp (disch := decide) only [slotOp, slotFields, slotWord, BitVec.extractLsb'_append_extractLsb'_eq_extractLsb']
  exact BitVec.extractLsb'_eq_self

end

/-! ### The opcode of an operation (R81) -/

/-- The slot that an operation stands in, and its opcode. -/
def opcodeOf (i : Instr) : Option (Slot × Nat) := (opForm i).map fun x => (x.1, x.2.op)

theorem opcodeOf_eq_some_iff {i : Instr} {f : Slot} {op : Nat} :
    opcodeOf i = some (f, op) ↔ ∃ o, opForm i = some (f, o) ∧ o.op = op := by
  rw [opcodeOf]
  generalize opForm i = x
  cases x with
  | none => simp
  | some x => simp [Prod.ext_iff]

theorem encode_of_opcode {i : Instr} {f : Slot} {op : Nat} (h : opcodeOf i = some (f, op)) :
    encode i = some (.slot (slotWord (BitVec.ofNat 10 op) f)) := by
  obtain ⟨o, hform, rfl⟩ := opcodeOf_eq_some_iff.1 h
  unfold encode
  rw [hform]

/-- Whatever the fields of its slot, the operation of a row keeps them and has the row's opcode. -/
def OpRow.Encodes (r : OpRow) : Prop := ∀ f, opcodeOf (r.2 f) = some (f, r.1)

/-- Two operations that share an opcode. -/
theorem OpRow.encodes_ite {op : Nat} {x y : Slot → Instr} {p : Slot → Prop} [DecidablePred p]
    (hx : OpRow.Encodes (op, x)) (hy : OpRow.Encodes (op, y)) : OpRow.Encodes (op, fun f => if p f then x f else y f) := by
  intro f
  by_cases h : p f
  · simpa only [if_pos h] using hx f
  · simpa only [if_neg h] using hy f

theorem rowsInteger_encode : ∀ r ∈ rowsInteger, r.Encodes := by
  have hli : OpRow.Encodes (0x020, pickLi) := OpRow.encodes_ite (fun _ => rfl) fun _ => rfl
  simp only [rowsInteger, List.forall_mem_cons, List.not_mem_nil, false_implies, implies_true, hli, true_and, and_true]
  and_intros
  all_goals exact fun _ => rfl

theorem rowsControl_encode : ∀ r ∈ rowsControl, r.Encodes := by
  intro r hr f
  fin_cases hr <;> rfl

theorem rowsMemory_encode : ∀ r ∈ rowsMemory, r.Encodes := by
  intro r hr f
  fin_cases hr <;> rfl

theorem rowsVector_encode : ∀ r ∈ rowsVector, r.Encodes := by
  intro r hr f
  fin_cases hr <;> rfl

theorem rowsConvert_encode : ∀ r ∈ rowsConvert, r.Encodes := by
  have hbcast : OpRow.Encodes (0x219, pickVbcast) := OpRow.encodes_ite (fun _ => rfl) fun _ => rfl
  have hiota : OpRow.Encodes (0x21B, pickViota) := OpRow.encodes_ite (fun _ => rfl) fun _ => rfl
  simp only [rowsConvert, List.forall_mem_cons, List.not_mem_nil, false_implies, implies_true, hbcast, hiota, true_and,
    and_true]
  and_intros
  all_goals exact fun _ => rfl

theorem rowsMatrix_encode : ∀ r ∈ rowsMatrix, r.Encodes := by
  have hnset : OpRow.Encodes (0x2A0, pickNset) :=
    OpRow.encodes_ite (fun _ => rfl) (OpRow.encodes_ite (fun _ => rfl) (OpRow.encodes_ite (fun _ => rfl) fun _ => rfl))
  simp only [rowsMatrix, List.forall_mem_cons, List.not_mem_nil, false_implies, implies_true, hnset, and_true]
  and_intros
  all_goals exact fun _ => rfl

theorem rowsSystem_encode : ∀ r ∈ rowsSystem, r.Encodes := by
  have henq : OpRow.Encodes (0x300, pickEnq) :=
    OpRow.encodes_ite (fun _ => rfl) (OpRow.encodes_ite (fun _ => rfl) fun _ => rfl)
  have hmov : OpRow.Encodes (0x308, pickSkmov) := OpRow.encodes_ite (fun _ => rfl) fun _ => rfl
  have hfeop : OpRow.Encodes (0x310, pickFeop) :=
    OpRow.encodes_ite (fun _ => rfl) (OpRow.encodes_ite (fun _ => rfl) fun _ => rfl)
  simp only [rowsSystem, List.forall_mem_cons, List.not_mem_nil, false_implies, implies_true, henq, hmov, hfeop, true_and,
    and_true]
  and_intros
  all_goals exact fun _ => rfl

theorem opcodeRows_encode (op : Nat) : ∀ r ∈ opcodeRows op, r.Encodes := by
  unfold opcodeRows
  split
  · exact rowsInteger_encode
  · exact rowsControl_encode
  · exact rowsMemory_encode
  · exact rowsVector_encode
  · exact rowsConvert_encode
  · exact rowsMatrix_encode
  · exact rowsSystem_encode
  · simp

/-- The operation that the opcode map names encodes with that opcode and the fields that it was given. -/
theorem opcodeOf_operationOf {op : Nat} {f : Slot} {i : Instr} (h : operationOf op f = some i) : opcodeOf i = some (f, op) := by
  obtain ⟨x, hlookup, rfl⟩ := Option.map_eq_some_iff.1 h
  obtain ⟨l₁, l₂, hrows, -⟩ := List.lookup_eq_some_iff.1 hlookup
  exact opcodeRows_encode op (op, x) (by simp [hrows]) f

/-- Class 0b111 has no operation (R81). -/
theorem class_lt_of_operationOf {op : Nat} {f : Slot} {i : Instr} (h : operationOf op f = some i) : op / 128 < 7 := by
  by_contra hge
  have hrows : opcodeRows op = [] := by
    unfold opcodeRows
    split
    case h_8 => rfl
    all_goals omega
  simp [operationOf, hrows] at h

/-- A well-formed operation is the one that its opcode and its fields name (R81). -/
theorem operationOf_opForm {i : Instr} {f : Slot} {o : OpForm} (hwf : i.wf = true) (h : opForm i = some (f, o)) :
    operationOf o.op f = some i := by
  have hpicked : Laws.Slots.Statement i → operationOf o.op f = some i := fun law => law hwf f o h
  cases i with
  | li g => exact hpicked (Laws.Slots.li g)
  | liHi g => exact hpicked (Laws.Slots.liHi g)
  | vbcast g => exact hpicked (Laws.Slots.vbcast g)
  | vbcastLane g => exact hpicked (Laws.Slots.vbcastLane g)
  | viota g => exact hpicked (Laws.Slots.viota g)
  | viotaCnt g => exact hpicked (Laws.Slots.viotaCnt g)
  | nset g => exact hpicked (Laws.Slots.nset g)
  | nsetRst g => exact hpicked (Laws.Slots.nsetRst g)
  | nsetStep g => exact hpicked (Laws.Slots.nsetStep g)
  | nsetOff g => exact hpicked (Laws.Slots.nsetOff g)
  | enqMove g => exact hpicked (Laws.Slots.enqMove g)
  | enqReduce g => exact hpicked (Laws.Slots.enqReduce g)
  | enqMailbox g => exact hpicked (Laws.Slots.enqMailbox g)
  | skmov g => exact hpicked (Laws.Slots.skmov g)
  | skmovNest g => exact hpicked (Laws.Slots.skmovNest g)
  | feopSet g => exact hpicked (Laws.Slots.feopSet g)
  | feopClr g => exact hpicked (Laws.Slots.feopClr g)
  | feopWait g => exact hpicked (Laws.Slots.feopWait g)
  | _ => cases h <;> (simp only [formInt, formPlain, formMem, formVec, formVec1, formTile, formSys]; rfl)

/-! ### Slots (R80, R83) -/

theorem decodeSlot_eq_ok_iff {inB : Bool} {pool : BitVec 2} {w : SlotWord} {i : Instr} : decodeSlot inB pool w = .ok i ↔
    operationOf (slotOp w).toNat (slotFields w) = some i ∧ classAllowed (slotOp w).toNat inB = true ∧
      slotDefect i pool = none := by
  unfold decodeSlot
  cases operationOf (slotOp w).toNat (slotFields w) with
  | none => simp
  | some j =>
    by_cases hclass : classAllowed (slotOp w).toNat inB = true
    · cases hd : slotDefect j pool with
      | none =>
        simp only [hclass, hd, if_true, Except.ok.injEq, Option.some.injEq, true_and]
        exact ⟨fun h => ⟨h, h ▸ hd⟩, And.left⟩
      | some d =>
        simp only [hclass, hd, if_true, reduceCtorEq, Option.some.injEq, true_and, false_iff, not_and]
        rintro rfl
        simp [hd]
    · simp [hclass]

/-- The word of a slot that decodes is the only word of its operation (R73, R76). -/
theorem encode_of_decodeSlot {inB : Bool} {pool : BitVec 2} {w : SlotWord} {i : Instr} (h : decodeSlot inB pool w = .ok i) :
    encode i = some (.slot w) := by
  obtain ⟨hop, -, -⟩ := decodeSlot_eq_ok_iff.1 h
  rw [encode_of_opcode (opcodeOf_operationOf hop), BitVec.ofNat_toNat, BitVec.setWidth_eq, slotWord_slotFields]

/-- Every class may stand in slot A, or else in slot B (R80). -/
theorem classAllowed_own (op : Nat) : classAllowed op (!classAllowed op false) = true := by
  unfold classAllowed
  split <;> simp_all

/-- A well-formed operation is read back from its slot word. -/
theorem decodeCode_slotWord {i : Instr} {f : Slot} {o : OpForm} (hwf : i.wf = true) (h : opForm i = some (f, o)) :
    decodeCode (.slot (slotWord (BitVec.ofNat 10 o.op) f)) = some i := by
  have hop := operationOf_opForm hwf h
  have hlt : o.op < 2 ^ 10 := by
    have := class_lt_of_operationOf hop
    omega
  have hpool : poolFormOf i = poolFormOfPsel f.psel := by
    unfold poolFormOf
    rw [h]
    rfl
  have hdecode : decodeSlot (!classAllowed o.op false) (poolFormOfPsel f.psel) (slotWord (BitVec.ofNat 10 o.op) f) = .ok i := by
    rw [decodeSlot_eq_ok_iff, slotOp_slotWord, slotFields_slotWord, BitVec.toNat_ofNat, Nat.mod_eq_of_lt hlt]
    exact ⟨hop, classAllowed_own _, hpool ▸ Laws.Slots.defect_none hwf⟩
  simp only [decodeCode, slotOp_slotWord, slotFields_slotWord, BitVec.toNat_ofNat, Nat.mod_eq_of_lt hlt, hdecode]

/-- The class of an opcode is its top three bits (R80). -/
theorem class_toNat (op : BitVec 10) : (op.extractLsb' 7 3).toNat = op.toNat / 128 := by
  rw [BitVec.extractLsb'_toNat, Nat.shiftRight_eq_div_pow]
  omega

theorem decodeSlot_of_class_seven {w : SlotWord} (h : (slotOp w).extractLsb' 7 3 = 7) (inB : Bool) (pool : BitVec 2) :
    decodeSlot inB pool w = .error .reservedOpcode := by
  have hclass : (slotOp w).toNat / 128 = 7 := by rw [← class_toNat, h]; rfl
  have hnone : operationOf (slotOp w).toNat (slotFields w) = none := by
    rw [Option.eq_none_iff_forall_ne_some]
    intro i hi
    have := class_lt_of_operationOf hi
    omega
  unfold decodeSlot
  rw [hnone]

/-- The classes that stand in slot B (R80). -/
theorem class_of_allowed_inB {op : BitVec 10} (h : classAllowed op.toNat true = true) :
    op.extractLsb' 7 3 ∉ ([1, 6] : List (BitVec 3)) := by
  intro hmem
  have hclass : op.toNat / 128 = 1 ∨ op.toNat / 128 = 6 := by
    rw [← class_toNat]
    simp only [List.mem_cons, List.not_mem_nil, or_false] at hmem
    exact hmem.imp (congrArg BitVec.toNat) (congrArg BitVec.toNat)
  obtain hclass | hclass := hclass <;> simp [classAllowed, hclass] at h

/-- The classes that stand in slot A (R80). -/
theorem class_of_allowed_inA {op : BitVec 10} (h : classAllowed op.toNat false = true) :
    op.extractLsb' 7 3 ∈ ([0, 1, 2, 6] : List (BitVec 3)) := by
  have hclass : op.toNat / 128 = 0 ∨ op.toNat / 128 = 1 ∨ op.toNat / 128 = 2 ∨ op.toNat / 128 = 6 := by
    unfold classAllowed at h
    split at h
    · omega
    · omega
    · omega
    · omega
    · cases h
  simp only [List.mem_cons, List.not_mem_nil, or_false, ← BitVec.toNat_inj, class_toNat]
  exact hclass

end Sys2Proof

/-! Helper words (R263). -/

namespace Sys2Proof

section
variable (funct7 : BitVec 7) (rs2 rs1 : BitVec 5) (funct3 : BitVec 3) (rd : BitVec 5)

/-- The bits of a word of Xhsk, with the width of the fields that it strings together. -/
theorem extract_xhskWord (start len : Nat) : (xhskWord funct7 rs2 rs1 funct3 rd).extractLsb' start len =
    (funct7 ++ rs2 ++ rs1 ++ funct3 ++ rd ++ (0x0B : BitVec 7)).extractLsb' start len := rfl

theorem xhskWord_fields :
    (xhskWord funct7 rs2 rs1 funct3 rd).extractLsb' 25 7 = funct7 ∧ (xhskWord funct7 rs2 rs1 funct3 rd).extractLsb' 20 5 = rs2 ∧
    (xhskWord funct7 rs2 rs1 funct3 rd).extractLsb' 15 5 = rs1 ∧ (xhskWord funct7 rs2 rs1 funct3 rd).extractLsb' 12 3 = funct3 ∧
    (xhskWord funct7 rs2 rs1 funct3 rd).extractLsb' 7 5 = rd ∧ (xhskWord funct7 rs2 rs1 funct3 rd).extractLsb' 0 7 = 0x0B := by
  simp (disch := decide) only [extract_xhskWord, BitVec.extractLsb'_append_eq_of_le,
    BitVec.extractLsb'_append_eq_of_add_le, Nat.reduceSub, BitVec.extractLsb'_eq_self, and_self]

end

/-- A word of the custom-0 opcode is the string of its fields. -/
theorem xhskWord_of_fields {w : BitVec 32} (hop : w.extractLsb' 0 7 = 0x0B) :
    xhskWord (w.extractLsb' 25 7) (w.extractLsb' 20 5) (w.extractLsb' 15 5) (w.extractLsb' 12 3) (w.extractLsb' 7 5) = w := by
  rw [xhskWord, ← hop]
  simp (disch := decide) only [BitVec.extractLsb'_append_extractLsb'_eq_extractLsb']
  exact BitVec.extractLsb'_eq_self

/-- A word of Xhsk is the only word of its operation. -/
theorem encode_of_decodeXhsk {w : BitVec 32} {i : Instr} (h : decodeXhsk w = some i) : encode i = some (.helper w) := by
  by_cases hop : w.extractLsb' 0 7 = 0x0B
  · have hw := xhskWord_of_fields hop
    simp only [decodeXhsk, hop, ne_eq, not_true, if_false, BitVec.toNat_eq_nat, Nat.reducePow, Nat.reduceLT, true_and] at h
    generalize w.extractLsb' 25 7 = funct7, w.extractLsb' 20 5 = rs2, w.extractLsb' 15 5 = rs1, w.extractLsb' 12 3 = funct3,
      w.extractLsb' 7 5 = rd at h hw
    subst hw
    split_ifs at h with henq hdeq hfew hfewClr hfes hmbr hmbw hdcc hdccHi hseal
    all_goals cases h
    · obtain ⟨rfl, rfl⟩ := henq; rfl
    · obtain ⟨rfl, rfl, rfl⟩ := hdeq; rfl
    · obtain ⟨rfl, rfl, rfl⟩ := hfew; rfl
    · obtain ⟨rfl, rfl, rfl⟩ := hfewClr; rfl
    · obtain ⟨rfl, rfl, rfl⟩ := hfes; rfl
    · obtain ⟨rfl, rfl, rfl⟩ := hmbr; rfl
    · obtain ⟨rfl, rfl, rfl⟩ := hmbw; rfl
    · obtain ⟨rfl, rfl, rfl, rfl⟩ := hdcc; rfl
    · obtain ⟨rfl, rfl, rfl, rfl⟩ := hdccHi; rfl
    · obtain ⟨rfl, rfl, rfl, rfl, rfl⟩ := hseal; rfl
  · simp only [decodeXhsk, ne_eq, hop, not_false_eq_true, if_true, reduceCtorEq] at h

/-- What encodes without being an operation of a slot is read back. -/
theorem decodeCode_of_opForm_none {i : Instr} {c : Code} (hform : opForm i = none) (h : encode i = some c) :
    decodeCode c = some i := by
  cases i
  case emptyBundle sp =>
    cases h
    cases sp <;> decide
  case helperRiscvInstruction w =>
    change (if decodeHelper w = .helperRiscvInstruction w then some (Code.helper w) else none) = some c at h
    split at h
    case isTrue hw => cases h; exact congrArg some hw
    case isFalse => cases h
  case hskEnq | hskDeq | hskFew | hskFewClr | hskFes | hskMbr | hskMbw | hskDcc | hskDccHi | hskSeal =>
    cases h
    simp [decodeCode, decodeHelper, decodeXhsk, xhskWord_fields]
  case tapBypass | tapIdcode | tapExtest | tapSamplePreload | braddr | brdata | brstat | thaw =>
    cases h
    rfl
  all_goals cases hform <;> cases h

/-- Settles O1: an operation is read back from its slot by its opcode's row, everything else by its own code. -/
theorem encodedWordsDecode : Obligations.EncodedWordsDecode := by
  intro i c hwf henc
  cases hform : opForm i with
  | none => exact decodeCode_of_opForm_none hform henc
  | some x =>
    obtain ⟨f, o⟩ := x
    rw [encode_of_opcode (opcodeOf_eq_some_iff.2 ⟨o, hform, rfl⟩)] at henc
    cases henc
    exact decodeCode_slotWord hwf hform

end Sys2Proof

/-! Bundles (R69 to R72, R79, R80, R83). -/

namespace Sys2Proof

/-! ### Bundle words (R69, R70) -/

section
variable {n : Nat} (w : BitVec n) (k : Nat)

theorem ofBool_getLsbD : BitVec.ofBool (w.getLsbD k) = w.extractLsb' k 1 := by
  rw [BitVec.getLsbD_eq_extractLsb']
  generalize w.extractLsb' k 1 = x
  revert x
  decide

theorem getLsbD_of_extract {x : Bool} (h : w.extractLsb' k 1 = BitVec.ofBool x) : w.getLsbD k = x := by
  rw [BitVec.getLsbD_eq_extractLsb', h]
  cases x <;> rfl

end

section
variable (sp : Bool) (pool : BitVec 2) (imm : BitVec 112) (a b : Option SlotWord)

/-- The bits of a bundle, with the width of the parts that it strings together. -/
theorem extract_bundleWord (start len : Nat) : (bundleWord sp pool imm a b).extractLsb' start len =
    (BitVec.ofBool sp ++ BitVec.ofBool a.isSome ++ BitVec.ofBool b.isSome ++ pool ++ (0 : BitVec 11) ++ a.getD 0 ++ b.getD 0
      ++ imm).extractLsb' start len := rfl

theorem bundleWord_fields :
    (bundleWord sp pool imm a b).extractLsb' 379 2 = pool ∧ (bundleWord sp pool imm a b).extractLsb' 368 11 = 0 ∧
    (bundleWord sp pool imm a b).extractLsb' 240 128 = a.getD 0 ∧ (bundleWord sp pool imm a b).extractLsb' 112 128 = b.getD 0 ∧
    (bundleWord sp pool imm a b).extractLsb' 0 112 = imm := by
  simp (disch := decide) only [extract_bundleWord, BitVec.extractLsb'_append_eq_of_le,
    BitVec.extractLsb'_append_eq_of_add_le, Nat.reduceSub, BitVec.extractLsb'_eq_self, and_self]

theorem bundleWord_bits :
    (bundleWord sp pool imm a b).getLsbD 383 = sp ∧ (bundleWord sp pool imm a b).getLsbD 382 = a.isSome ∧
    (bundleWord sp pool imm a b).getLsbD 381 = b.isSome := by
  refine ⟨getLsbD_of_extract _ _ ?_, getLsbD_of_extract _ _ ?_, getLsbD_of_extract _ _ ?_⟩
  all_goals
    simp (disch := decide) only [extract_bundleWord, BitVec.extractLsb'_append_eq_of_le,
      BitVec.extractLsb'_append_eq_of_add_le, Nat.reduceSub, BitVec.extractLsb'_eq_self]

theorem headerBad_bundleWord (hpool : pool ≠ 3) (himm : pool = 0 → imm = 0) :
    headerBad (bundleWord sp pool imm a b) = false := by
  cases a <;> cases b <;> simpa [headerBad, bundleWord_fields, bundleWord_bits] using And.intro hpool himm

end

/-- A bundle is the string of its parts. -/
theorem bundleWord_of_fields {w : BundleWord} {a b : Option SlotWord} (hzero : w.extractLsb' 368 11 = 0)
    (ha : a.isSome = w.getLsbD 382) (hb : b.isSome = w.getLsbD 381)
    (hslotA : a.getD 0 = w.extractLsb' 240 128) (hslotB : b.getD 0 = w.extractLsb' 112 128) :
    bundleWord (w.getLsbD 383) (w.extractLsb' 379 2) (w.extractLsb' 0 112) a b = w := by
  rw [bundleWord, ha, hb, hslotA, hslotB, ← hzero, ofBool_getLsbD, ofBool_getLsbD, ofBool_getLsbD]
  simp (disch := decide) only [BitVec.extractLsb'_append_extractLsb'_eq_extractLsb']
  exact BitVec.extractLsb'_eq_self

/-! ### The decoder (R79, R83, R84) -/

/-- A slot of a bundle holds an operation and decodes to it, or is not there. -/
def HoldsSlot (inB : Bool) (pool : BitVec 2) : Option SlotWord → Option Instr → Prop
  | some w, some i => decodeSlot inB pool w = .ok i
  | none, none => True
  | _, _ => False

theorem decodeHalf_of_holds {inB : Bool} {pool : BitVec 2} {w : Option SlotWord} {x : Option Instr} (h : HoldsSlot inB pool w x) :
    decodeHalf w.isSome inB pool (w.getD 0) = .ok x := by
  match w, x, h with
  | some w, some i, h =>
    have hdecode : decodeSlot inB pool w = .ok i := h
    simp [decodeHalf, hdecode]
  | none, none, _ => rfl

/-- The slot that a valid bit names. -/
def slotIf (valid : Bool) (w : SlotWord) : Option SlotWord := if valid then some w else none

theorem slotIf_isSome (valid : Bool) (w : SlotWord) : (slotIf valid w).isSome = valid := by
  cases valid <;> rfl

theorem holds_of_decodeHalf {valid inB : Bool} {pool : BitVec 2} {w : SlotWord} {x : Option Instr}
    (h : decodeHalf valid inB pool w = .ok x) : HoldsSlot inB pool (slotIf valid w) x := by
  unfold decodeHalf at h
  cases valid with
  | false => cases h; exact True.intro
  | true =>
    cases hd : decodeSlot inB pool w with
    | ok i => rw [hd] at h; cases h; exact hd
    | error d => rw [hd] at h; cases h

theorem HoldsSlot.isSome_eq {inB : Bool} {pool : BitVec 2} {w : Option SlotWord} {x : Option Instr} (h : HoldsSlot inB pool w x) :
    w.isSome = x.isSome := by
  match w, x, h with
  | some _, some _, _ => rfl
  | none, none, _ => rfl

theorem HoldsSlot.encode {inB : Bool} {pool : BitVec 2} {w : Option SlotWord} {i : Instr} (h : HoldsSlot inB pool w (some i)) :
    encode i = w.map .slot := by
  match w, h with
  | some _, h => exact encode_of_decodeSlot h

theorem decodeBundle_of_halves {w : BundleWord} {a b : Option Instr} (hgood : headerBad w = false)
    (ha : decodeHalf (w.getLsbD 382) false (w.extractLsb' 379 2) (w.extractLsb' 240 128) = .ok a)
    (hb : decodeHalf (w.getLsbD 381) true (w.extractLsb' 379 2) (w.extractLsb' 112 128) = .ok b) :
    decodeBundle w = if pairingBad a b then .error .pairing
      else .ok ⟨w.getLsbD 383, w.extractLsb' 379 2, w.extractLsb' 0 112, a, b⟩ := by
  simp only [decodeBundle, hgood, ha, hb, Bool.false_eq_true, if_false]

/-- What a bundle holds that decodes. -/
theorem decodeBundle_parts {w : BundleWord} {b : Bundle} (h : decodeBundle w = .ok b) :
    headerBad w = false ∧ decodeHalf (w.getLsbD 382) false (w.extractLsb' 379 2) (w.extractLsb' 240 128) = .ok b.a ∧
    decodeHalf (w.getLsbD 381) true (w.extractLsb' 379 2) (w.extractLsb' 112 128) = .ok b.b ∧
    b.sp = w.getLsbD 383 ∧ b.pool = w.extractLsb' 379 2 ∧ b.imm = w.extractLsb' 0 112 := by
  simp only [decodeBundle] at h
  split at h
  · cases h
  case isFalse hgood =>
    split at h
    · cases h
    next a ha =>
      split at h
      · cases h
      next y hb =>
        split at h
        · cases h
        · cases h
          exact ⟨by simpa using hgood, ha, hb, rfl, rfl, rfl⟩

/-- A slot that is not there is all zeros. -/
theorem slotIf_getD {valid : Bool} {w : SlotWord} (h : (!valid && w != 0) = false) : (slotIf valid w).getD 0 = w := by
  cases valid with
  | true => rfl
  | false =>
    have hzero : w = 0 := by simpa using h
    exact hzero.symm

/-- A bundle that decodes is the word of what it holds. -/
theorem bundleWord_of_decodeBundle {w : BundleWord} {b : Bundle} (h : decodeBundle w = .ok b) : ∃ wa wb : Option SlotWord,
    w = bundleWord b.sp b.pool b.imm wa wb ∧ HoldsSlot false b.pool wa b.a ∧ HoldsSlot true b.pool wb b.b := by
  obtain ⟨hgood, ha, hb, hsp, hpool, himm⟩ := decodeBundle_parts h
  simp only [headerBad, Bool.or_eq_false_iff, bne_eq_false_iff_eq] at hgood
  obtain ⟨⟨⟨⟨hzero, -⟩, -⟩, hslotA⟩, hslotB⟩ := hgood
  rw [hsp, hpool, himm]
  refine ⟨slotIf (w.getLsbD 382) (w.extractLsb' 240 128), slotIf (w.getLsbD 381) (w.extractLsb' 112 128), ?_,
    holds_of_decodeHalf ha, holds_of_decodeHalf hb⟩
  exact (bundleWord_of_fields hzero (slotIf_isSome _ _) (slotIf_isSome _ _) (slotIf_getD hslotA) (slotIf_getD hslotB)).symm

/-- A bundle of two slots, a pool and a header decodes to what it holds, unless its operations may not stand together. -/
theorem decodeBundle_bundleWord {sp : Bool} {pool : BitVec 2} {imm : BitVec 112} {wa wb : Option SlotWord} {a b : Option Instr}
    (hpool : pool ≠ 3) (himm : pool = 0 → imm = 0) (ha : HoldsSlot false pool wa a) (hb : HoldsSlot true pool wb b) :
    decodeBundle (bundleWord sp pool imm wa wb) = if pairingBad a b then .error .pairing else .ok ⟨sp, pool, imm, a, b⟩ := by
  obtain ⟨hp, -, hslotA, hslotB, hi⟩ := bundleWord_fields sp pool imm wa wb
  obtain ⟨hsp, hvalidA, hvalidB⟩ := bundleWord_bits sp pool imm wa wb
  rw [decodeBundle_of_halves (headerBad_bundleWord sp pool imm wa wb hpool himm) (a := a) (b := b), hsp, hp, hi]
  · rw [hvalidA, hp, hslotA]; exact decodeHalf_of_holds ha
  · rw [hvalidB, hp, hslotB]; exact decodeHalf_of_holds hb

theorem decodeBundle_of_header {w : BundleWord} (h : w.extractLsb' 368 11 ≠ 0 ∨ w.extractLsb' 379 2 = 3) :
    decodeBundle w = .error .malformedHeader := by
  have hbad : headerBad w = true := by
    simp only [headerBad, Bool.or_eq_true, bne_iff_ne, beq_iff_eq]
    exact .inl (.inl (.inl h))
  unfold decodeBundle
  rw [if_pos hbad]

/-! ### The statements -/

/-- Settles O2: a slot, a word of Xhsk and a bundle are each the string of the fields that the decoder reads. -/
theorem wordsAndBundlesDecode : Obligations.WordsAndBundlesDecode := by
  refine ⟨⟨fun inB pool w i => encode_of_decodeSlot, fun w i => encode_of_decodeXhsk⟩, ?_, ?_,
    fun inB pool w h => decodeSlot_of_class_seven h inB pool, ?_, ?_, fun w => decodeBundle_of_header⟩
  · intro sp pool imm wa wb a b hpool himm ha hb
    exact decodeBundle_bundleWord hpool himm ha hb
  · intro w b h
    obtain ⟨wa, wb, hw, ha, hb⟩ := bundleWord_of_decodeBundle h
    exact ⟨wa, wb, hw, ha.isSome_eq, hb.isSome_eq, fun i hi => (hi ▸ ha).encode, fun i hi => (hi ▸ hb).encode⟩
  · intro pool w i h
    obtain ⟨-, hallowed, -⟩ := decodeSlot_eq_ok_iff.1 h
    exact class_of_allowed_inB hallowed
  · intro pool w i h
    obtain ⟨-, hallowed, -⟩ := decodeSlot_eq_ok_iff.1 h
    exact class_of_allowed_inA hallowed

/-- Settles O3: the decoder's evaluation of each word. -/
theorem manualWords : Obligations.ManualWords := by
  unfold Obligations.ManualWords
  decide +kernel

end Sys2Proof

/-! A step that runs the bundle at the pc (R64, R78, R79, R84, R171). -/

namespace Sys2Proof.Machine

/-! ### The operation of a repetition (R107 to R109) -/

/-- TRAP is the one operation of its opcode (R81). -/
theorem isTrap_iff_op {op : Nat} {f : Slot} {i : Instr} (h : operationOf op f = some i) :
    isTrap (some i) = true ↔ op = 0x090 := by
  constructor
  · intro htrap
    have hcode := opcodeOf_operationOf h
    unfold isTrap at htrap
    split at htrap
    case h_1 g heq =>
      cases heq
      cases hcode
      rfl
    case h_2 => cases htrap
  · rintro rfl
    cases (h : some (Instr.trap f) = some i)
    rfl

theorem getD_eq_or_some {α : Type} (o : Option α) (x : α) : o.getD x = x ∨ o = some (o.getD x) := by
  cases o with
  | none => exact .inl rfl
  | some y => exact .inr rfl

/-- A repetition moves the fields of an operation and keeps its opcode. -/
theorem steppedInstr_cases (rep : Option RepState) (w : SlotWord) (x : Instr) :
    steppedInstr rep w x = x ∨ ∃ f, operationOf (slotOp w).toNat f = some (steppedInstr rep w x) := by
  unfold steppedInstr
  split
  · exact (getD_eq_or_some _ x).imp id fun h => ⟨_, h⟩
  · exact .inl rfl

theorem isTrap_steppedInstr {w : SlotWord} {f : Slot} {x : Instr} (h : operationOf (slotOp w).toNat f = some x)
    (rep : Option RepState) :
    isTrap (some (steppedInstr rep w x)) = isTrap (some x) := by
  obtain heq | ⟨f', hstep⟩ := steppedInstr_cases rep w x
  · rw [heq]
  · rw [Bool.eq_iff_iff, isTrap_iff_op h, isTrap_iff_op hstep]

/-! ### The two operations of a bundle (R78, R79, R171) -/

section
variable {t u v : State} {x y : Instr} {finish : State → State}

@[simp] theorem State.runSlot_none (s : State) (inB : Bool) : s.runSlot inB none = .next s := rfl

@[simp] theorem Out.andThen_next (s : State) (k : State → Out) : Out.andThen (.next s) k = k s := rfl

@[simp] theorem State.sourcesOf_flow (u t : State) : (u.sourcesOf t).task.flow = u.task.flow := rfl

@[simp] theorem State.resultsOf_sourcesOf (u t : State) : (u.sourcesOf t).resultsOf u = u := rfl

@[simp] theorem State.sourcesOf_self (t : State) : t.sourcesOf t = t := rfl

/-- An operation alone in slot A. -/
theorem State.runPair_slotA (ht : t.task.flow.fate = .retired) (hA : t.runSlot false (some x) = .next u) :
    t.runPair (some x) none finish = .next (if u.task.flow.fate = .retired then finish u else u) := by
  unfold State.runPair
  split
  · simp only [runSlot_none, Out.andThen_next, ht, hA]
    cases hu : u.task.flow.fate <;> simp
  · simp only [runSlot_none, Out.andThen_next, hA]
    cases hu : u.task.flow.fate <;> simp [hu]

/-- An operation alone in slot B. -/
theorem State.runPair_slotB (ht : t.task.flow.fate = .retired) (hB : t.runSlot true (some y) = .next u) :
    t.runPair none (some y) finish = .next (if u.task.flow.fate = .retired then finish u else u) := by
  simp only [State.runPair, isTrap, Bool.false_eq_true, if_false, runSlot_none, Out.andThen_next, ht, sourcesOf_self, hB]
  cases hu : u.task.flow.fate <;> simp

/-- Slot A, other than TRAP, and then slot B. -/
theorem State.runPair_both (hx : isTrap (some x) = false) (hA : t.runSlot false (some x) = .next u)
    (hu : u.task.flow.fate = .retired) (hB : State.runSlot (u.sourcesOf t) true (some y) = .next v) :
    (v.task.flow.fate = .retired → t.runPair (some x) (some y) finish = .next (finish (v.resultsOf u))) ∧
    (∀ r, v.task.flow.fate = .trapped r → t.runPair (some x) (some y) finish = .next (t.takeTrap r)) ∧
    ∀ k, v.task.flow.fate = .waits k →
      t.runPair (some x) (some y) finish = .next ((t.setFlow { t.task.flow with inB := true }).waitFor k) := by
  simp only [State.runPair, hx, Bool.false_eq_true, if_false, hA, Out.andThen_next, hu, hB]
  exact ⟨fun h => by simp [h], fun r h => by simp [h], fun k h => by simp [h]⟩

end

/-! ### The checks of a decoded bundle (R84) -/

theorem exec_emptyBundle (sp : Bool) (t : State) : exec (.emptyBundle sp) t = .next (t.setFlow { t.task.flow with sp }) := rfl

theorem State.setFlow_sp {t : State} {sp : Bool} (h : t.task.flow.sp = sp) : t.setFlow { t.task.flow with sp } = t := by
  subst h
  rfl

/-- The end of a bundle whose operations have retired; a SEAL that has sealed is no operation of the bolt that follows it
(R181). -/
def State.endOf (t : State) (b : Bundle) (u : State) : State :=
  u.retire t.task.flow.rep t.task.flow.loop (!isSeal b.a || u.task.bolt.work.num == t.task.bolt.work.num)

section
variable {t : State} {w : BundleWord} {b : Bundle}
  (hcontrol : controlOp b = none ∨ t.task.flow.rep = none ∧ t.task.flow.loop = none)
include hcontrol

/-- A bundle without an operation. -/
theorem State.issueDecoded_empty (ha : b.a = none) (hb : b.b = none) (hsp : t.task.flow.sp = b.sp) :
    t.issueDecoded w b = .next (t.retire t.task.flow.rep t.task.flow.loop false) := by
  have hrun : exec (.emptyBundle b.sp) t = .next t := by rw [exec_emptyBundle, setFlow_sp hsp]
  obtain h | ⟨hrep, hloop⟩ := hcontrol
  · simp [State.issueDecoded, h, ha, hb, hrun]
  · simp [State.issueDecoded, hrep, hloop, ha, hb, hrun]

/-- A bundle whose operations have no issue-time defect runs them. -/
theorem State.issueDecoded_runs (ha : b.a.bind t.repDefect = none) (hb : b.b.bind t.repDefect = none)
    (hsome : b.a.isSome = true ∨ b.b.isSome = true) : t.issueDecoded w b =
      t.runPair (b.a.map (steppedInstr t.task.flow.rep (w.extractLsb' 240 128)))
        (b.b.map (steppedInstr t.task.flow.rep (w.extractLsb' 112 128))) (t.endOf b) := by
  have hrun : (b.a.map (steppedInstr t.task.flow.rep (w.extractLsb' 240 128))).isSome = true ∨
      (b.b.map (steppedInstr t.task.flow.rep (w.extractLsb' 112 128))).isSome = true := by
    simpa only [Option.isSome_map] using hsome
  unfold State.issueDecoded State.endOf
  cases hc : controlOp b
  case' some op =>
    obtain ⟨hrep, hloop⟩ := hcontrol.resolve_left (by simp [hc])
    rw [hrep] at hrun
  all_goals
    simp only [*, Option.isSome_none, Bool.false_and, Bool.and_false, Bool.false_eq_true, if_false, Option.map_none, Option.none_or]
    generalize b.a.map _ = x, b.b.map _ = y at hrun ⊢
    match x, y, hrun with
    | some _, _, _ => rfl
    | none, some _, _ => rfl

end

/-! ### What a decoded bundle comes to -/

/-- Slot A finds the task as the fetch leaves it. -/
theorem State.runSlot_inA {t : State} (hfate : t.task.flow.fate = .retired) (hinB : t.task.flow.inB = false) (i : Instr) :
    t.runSlot false (some i) = exec i t := by
  have hflow : ({ t.task.flow with inB := false, fate := .retired } : TaskFlow) = t.task.flow := by rw [← hinB, ← hfate]
  simp only [State.runSlot, hflow]
  rfl

theorem State.runSlot_inB {t : State} (hfate : t.task.flow.fate = .retired) (i : Instr) :
    t.runSlot true (some i) = exec i (t.setFlow { t.task.flow with inB := true }) := by
  simp only [State.runSlot, hfate]

/-- The operation that a bundle holds in slot A is the one that the opcode there names. -/
theorem operationOf_slotA {w : BundleWord} {b : Bundle} {x : Instr} (h : decodeBundle w = .ok b) (hx : b.a = some x) :
    operationOf (slotOp (w.extractLsb' 240 128)).toNat (slotFields (w.extractLsb' 240 128)) = some x := by
  obtain ⟨-, ha, -⟩ := decodeBundle_parts h
  rw [hx] at ha
  have hheld := holds_of_decodeHalf ha
  cases hvalid : w.getLsbD 382 with
  | false => rw [hvalid] at hheld; exact hheld.elim
  | true => rw [hvalid] at hheld; exact And.left (decodeSlot_eq_ok_iff.1 hheld)

section
variable {t u v : State} {w : BundleWord} {b : Bundle} {x y : Instr} (hfate : t.task.flow.fate = .retired)
  (hcontrol : controlOp b = none ∨ t.task.flow.rep = none ∧ t.task.flow.loop = none)
include hfate hcontrol

theorem State.issueDecoded_slotA (hinB : t.task.flow.inB = false) (ha : b.a = some x) (hb : b.b = none) (hx : t.repDefect x = none)
    (hu : exec (steppedInstr t.task.flow.rep (w.extractLsb' 240 128) x) t = .next u) :
    t.issueDecoded w b = .next (if u.task.flow.fate = .retired then t.endOf b u else u) := by
  rw [issueDecoded_runs hcontrol (by simp [ha, hx]) (by simp [hb]) (by simp [ha]), ha, hb]
  exact runPair_slotA hfate (by rw [runSlot_inA hfate hinB, hu])

theorem State.issueDecoded_slotB (ha : b.a = none) (hb : b.b = some y) (hy : t.repDefect y = none)
    (hu : exec (steppedInstr t.task.flow.rep (w.extractLsb' 112 128) y) (t.setFlow { t.task.flow with inB := true }) = .next u) :
    t.issueDecoded w b = .next (if u.task.flow.fate = .retired then t.endOf b u else u) := by
  rw [issueDecoded_runs hcontrol (by simp [ha]) (by simp [hb, hy]) (by simp [hb]), ha, hb]
  exact runPair_slotB hfate (by rw [runSlot_inB hfate, hu])

theorem State.issueDecoded_both (hinB : t.task.flow.inB = false) (hdecode : decodeBundle w = .ok b) (ha : b.a = some x)
    (hb : b.b = some y) (htrap : ∀ f, x ≠ .trap f) (hx : t.repDefect x = none) (hy : t.repDefect y = none)
    (hu : exec (steppedInstr t.task.flow.rep (w.extractLsb' 240 128) x) t = .next u) (hretired : u.task.flow.fate = .retired)
    (hv : exec (steppedInstr t.task.flow.rep (w.extractLsb' 112 128) y) (u.inSlotB t) = .next v) :
    (v.task.flow.fate = .retired → t.issueDecoded w b = .next (t.endOf b (v.resultsOf u))) ∧
    (∀ r, v.task.flow.fate = .trapped r → t.issueDecoded w b = .next (t.takeTrap r)) ∧
    ∀ k, v.task.flow.fate = .waits k → t.issueDecoded w b = .next ((t.setFlow { t.task.flow with inB := true }).waitFor k) := by
  have hnot : isTrap (some x) = false := by
    unfold isTrap
    split
    case h_1 f heq => exact absurd (Option.some.inj heq) (htrap f)
    case h_2 => rfl
  rw [issueDecoded_runs hcontrol (by simp [ha, hx]) (by simp [hb, hy]) (by simp [ha]), ha, hb]
  exact runPair_both ((isTrap_steppedInstr (operationOf_slotA hdecode ha) _).trans hnot)
    (by rw [runSlot_inA hfate hinB, hu]) hretired hv

end

/-! ### Up to the bundle -/

theorem State.setStampBase_ite (u : State) (p : Prop) [Decidable p] (d : Nat) :
    (if p then u.setEng { u.task.eng with stampBase := d } else u) =
      u.setEng { u.task.eng with stampBase := if p then d else u.task.eng.stampBase } := by
  split <;> rfl

/-- What is done with a bundle that the selected task at its pc fetches. -/
def State.runFetched (u : State) : Except (Nat × Nat) (BundleWord × Nat) → Out
  | .error (cause, info) => .next (u.trapBundle cause info)
  | .ok (w, next) =>
    match decodeBundle w with
    | .error d => .next ((u.setFlow { u.task.flow with nextPc := next }).trapDefect d)
    | .ok b => State.issueDecoded ((u.chargeFetch u.task.flow.off next).setFlow
        { u.task.flow with nextPc := next, sp := b.sp && !isRep b.a, pool := b.imm }) w b

theorem State.issueBundle_eq (s : State) : s.issueBundle = s.atPc.runFetched (s.atPc.fetchBundle s.atPc.task.flow.pc) := by
  simp only [State.issueBundle, State.setStampBase_ite]
  rfl

/-- With nothing else to be run, a step is the issue of the selected task's bundle. -/
theorem step_of_issueBundle {s u : State} (hidle : s.idle) (hmay : s.mayIssue) (h : s.issueBundle = .next u) :
    step s = .next (s.later u.rotate) := by
  obtain ⟨hin, hpow, htap, hstop, hboot, hstage, hdue⟩ := hidle
  obtain ⟨hturn, hlive, hruns, hpre, hcharged, hhold, hallot, hwait⟩ := hmay
  have htask : s.issueTask = .next u := by
    simp [State.issueTask, hlive, hruns, hpre, hcharged, hallot, hwait, Nat.not_lt.2 hhold, h]
  simp only [step, State.oneStep, hin, hpow, State.ownStep, htap, hstop, hboot, Nat.not_lt.2 hstage, hdue, State.issueNext,
    hturn, htask, Bool.false_eq_true, if_true, if_false, Out.andThen]

theorem State.issueBundle_of_fault {s : State} {cause info : Nat}
    (h : s.atPc.fetchBundle s.atPc.task.flow.pc = .error (cause, info)) : s.issueBundle = .next (s.atPc.trapBundle cause info) := by
  rw [issueBundle_eq, h, runFetched]

section
variable {s : State} {w : BundleWord} {next : Nat}
  (hfetch : s.atPc.fetchBundle s.atPc.task.flow.pc = .ok (w, next))
include hfetch

theorem State.issueBundle_of_defect {d : BundleDefect} (h : decodeBundle w = .error d) :
    s.issueBundle = .next ((s.atPc.setFlow { s.atPc.task.flow with nextPc := next }).trapDefect d) := by
  simp only [issueBundle_eq, hfetch, runFetched, h]

theorem State.issueBundle_of_bundle {b : Bundle} (h : decodeBundle w = .ok b) :
    s.issueBundle = (s.atBundle b next).issueDecoded w b := by
  simp only [issueBundle_eq, hfetch, runFetched, h]
  rfl

end

/-! ### The statement -/

/-- Settles O4: the branch of the issue that each outcome of the fetch, of the decoder and of the operations takes. -/
theorem stepRunsTheBundle : Obligations.StepRunsTheBundle := by
  intro s hidle hmay goesOn here rep loop
  have hgo : ∀ u, s.issueBundle = .next u → goesOn u := fun u => step_of_issueBundle hidle hmay
  refine ⟨fun cause info h => hgo _ (State.issueBundle_of_fault h), fun w next hfetch =>
    ⟨fun d hd => hgo _ (State.issueBundle_of_defect hfetch hd), fun b hdecode hcontrol => ?_⟩⟩
  intro t seals
  have hissue : s.issueBundle = t.issueDecoded w b := State.issueBundle_of_bundle hfetch hdecode
  have hfate : t.task.flow.fate = .retired := rfl
  have hinB : t.task.flow.inB = false := rfl
  refine ⟨fun x u ha hb hx hu => ?_, fun y u ha hb hy hu => ?_, fun x y u v ha hb htrap hx hy hu hretired hv => ?_,
    fun ha hb => ?_⟩
  · have hrun := State.issueDecoded_slotA hfate hcontrol hinB ha hb hx hu
    exact ⟨fun h => hgo _ (by rw [hissue, hrun, if_pos h]; rfl), fun h => hgo _ (by rw [hissue, hrun, if_neg h])⟩
  · have hrun := State.issueDecoded_slotB hfate hcontrol ha hb hy hu
    have hend : t.endOf b u = u.retire rep loop true := by rw [State.endOf, ha]; rfl
    exact ⟨fun h => hgo _ (by rw [hissue, hrun, if_pos h, hend]), fun h => hgo _ (by rw [hissue, hrun, if_neg h])⟩
  · obtain ⟨hgoes, htraps, hwaits⟩ := State.issueDecoded_both hfate hcontrol hinB hdecode ha hb htrap hx hy hu hretired hv
    exact ⟨fun h => hgo _ (hissue.trans (hgoes h)), fun r h => hgo _ (hissue.trans (htraps r h)),
      fun k h => hgo _ (hissue.trans (hwaits k h))⟩
  · have hsp : t.task.flow.sp = b.sp := by simp [t, State.atBundle, ha, isRep]
    have hrun := State.issueDecoded_empty (t := t) (w := w) hcontrol ha hb hsp
    exact ⟨exec_emptyBundle b.sp t, hgo _ (hissue.trans hrun)⟩

end Sys2Proof.Machine

/-! Control transfers, NOP and FENCE (R105, R106, R113, R127). -/

namespace Sys2Proof.Machine

section
variable {s : State} {f : Slot}

/-- The offset at which issue goes on after a transfer to an exact target (R106). -/
def transferOffset (x : Int) : Nat := if 0 ≤ x ∧ x < 2 ^ 32 then x.toNat else 2 ^ 32

theorem State.transfer_eq (s : State) (x : Int) : s.transfer x = s.setFlow { s.task.flow with nextPc := transferOffset x } := rfl

/-- `put` opens a window and leaves the flow as it is. -/
@[simp] theorem State.put_flow (s : State) (lat : Nat) (w : RegWrite) : (s.put lat w).task.flow = s.task.flow := by
  unfold State.put; split <;> rfl

/-- A flow that is put back. -/
theorem State.setFlow_back {t : State} {x : TaskFlow} (y : TaskFlow) (h : t.task.flow = x) : (t.setFlow y).setFlow x = t := by
  subst h; rfl

@[simp] theorem State.putG_flow (s : State) (f : Slot) (x : W64) : (s.putG f x).task.flow = s.task.flow := s.put_flow _ _

theorem State.target_eq (s : State) (f : Slot) : s.target f =
    if f.im then (s.task.flow.off : Int) + f.imm.toInt else ((s.g f.a.toNat).extractLsb' 0 32).toNat := by
  rw [State.target, BitVec.setWidth_eq_extractLsb' (by decide)]

theorem execBr_of_goes (h : s.goes (.br f) f) : exec (.br f) s = .next (s.transfer (s.target f)) := guarded_goes h

theorem execCall_of_goes (h : s.goes (.call f) f) : exec (.call f) s =
    .next ((s.putG f (BitVec.ofNat 64 s.task.flow.nextPc)).transfer (s.target f)) := guarded_goes h

theorem execRet_of_goes (h : s.goes (.ret f) f) : exec (.ret f) s =
    .next (s.transfer ((s.g f.a.toNat).extractLsb' 0 32).toNat) := by
  rw [← BitVec.setWidth_eq_extractLsb' (by decide)]
  exact guarded_goes h

end

/-- Settles O11: the target of each transfer, and the window that CALL opens for its link. -/
theorem controlTransfers : Obligations.ControlTransfers := by
  refine ⟨fun s f => ⟨fun h => ?_, fun h => ?_, fun h => ?_⟩, fun s f => ⟨fun h => guarded_goes h, fun h => guarded_goes h⟩⟩
  · rw [execBr_of_goes h, State.target_eq]
    rfl
  · refine ⟨_, execCall_of_goes h, ?_, ?_⟩
    · rw [State.transfer_eq, State.setFlow_task, State.putG_flow, State.target_eq]
      rfl
    · rw [State.transfer_eq]
      rw [State.setFlow_back _ (s.putG_flow f _)]
      exact putG_writes s f _
  · rw [execRet_of_goes h]
    rfl

end Sys2Proof.Machine

/-! Scalar integer types: what a type code 1 to 8 reads of a register, and how a result goes back to one (R38, R53, R96). -/

namespace Sys2Proof.Machine

/-- A type code of set S (R96). -/
def ScalarType (t : BitVec 5) : Prop := 1 ≤ t.toNat ∧ t.toNat ≤ 8

namespace ScalarType

variable {t : BitVec 5} (h : ScalarType t)
include h

theorem typeWidth_eq : typeWidth t = intWidth t := by
  have hall : ∀ t : BitVec 5, 1 ≤ t.toNat ∧ t.toNat ≤ 8 → typeWidth t = intWidth t := by decide
  exact hall t h

theorem isSigned_eq : isSigned t = signedType t := by
  have hall : ∀ t : BitVec 5, 1 ≤ t.toNat ∧ t.toNat ≤ 8 → isSigned t = signedType t := by decide
  exact hall t h

end ScalarType

theorem scalarType_of_mem {t : BitVec 5} (h : t.toNat ∈ setScalar) : ScalarType t := by
  revert h
  rw [ScalarType]
  revert t
  decide

theorem intWidth_cases (t : BitVec 5) : intWidth t = 8 ∨ intWidth t = 16 ∨ intWidth t = 32 ∨ intWidth t = 64 := by
  revert t; decide

theorem intWidth_pos (t : BitVec 5) : 0 < intWidth t := by
  have := intWidth_cases t
  omega

/-! ### Patterns and integers -/

theorem intOf_mod (w : Nat) (signed : Bool) (x : Nat) : intOf w signed (x % 2 ^ w) = intOf w signed x := by
  rw [intOf, intOf, Nat.mod_mod]

theorem intOf_true_eq_toInt {w : Nat} (hw : 0 < w) (x : Nat) : intOf w true x = (BitVec.ofNat w x).toInt := by
  rw [← intOf_mod, intOf_eq_toInt (Nat.mod_lt _ (Nat.two_pow_pos w)) hw]
  congr 1
  exact BitVec.eq_of_toNat_eq (by simp)

theorem intOf_false_eq_toNat (w x : Nat) : intOf w false x = (BitVec.ofNat w x).toNat := by
  simp [intOf]

/-- What a type reads of a register (R96). -/
theorem typed_eq_readAs {t : BitVec 5} (h : ScalarType t) (x : W64) : typed t x = readAs t x := by
  rw [typed, h.typeWidth_eq, h.isSigned_eq, readAs]
  cases signedType t
  · rw [intOf_false_eq_toNat, BitVec.ofNat_toNat]
    rfl
  · rw [intOf_true_eq_toInt (intWidth_pos t), BitVec.ofNat_toNat]
    rfl

/-- A pattern extended to a register as an integer of its width is. -/
theorem extended_intOf {w : Nat} (hw : 0 < w) (signed : Bool) (x : Nat) : extended (intOf w signed x) =
    if signed then (BitVec.ofNat w x).signExtend 64 else (BitVec.ofNat w x).setWidth 64 := by
  rw [extended]
  cases signed
  · rw [intOf_false_eq_toNat, BitVec.ofInt_natCast, BitVec.ofNat_toNat]
    rfl
  · rw [intOf_true_eq_toInt hw]
    rfl

theorem ofNat_patternOf (w : Nat) (r : Int) : BitVec.ofNat w (patternOf w r) = BitVec.ofInt w r := by
  apply BitVec.eq_of_toNat_eq
  rw [BitVec.toNat_ofNat, Nat.mod_eq_of_lt (patternOf_lt w r), BitVec.toNat_ofInt, patternOf]
  norm_cast

/-! ### Results (R53, R98) -/

theorem wrapAs_eq_extendAs (t : BitVec 5) (r : Int) : wrapAs t r = extendAs t (BitVec.ofInt _ r) := rfl

theorem limitInt_wrapped {w : Nat} (hw : 0 < w) (signed : Bool) (r : Int) :
    limitInt w signed false r = intOf w signed (patternOf w r) := by
  have hwrap : intOf w signed (r % 2 ^ w).toNat = intOf w signed (patternOf w r) := rfl
  simp only [limitInt, Bool.false_eq_true, if_false]
  split_ifs with hlo hhi
  · exact hwrap
  · exact hwrap
  · exact (intOf_patternOf hw (not_lt.1 hlo) (not_lt.1 hhi)).symm

theorem limitInt_clamped (w : Nat) (signed : Bool) (r : Int) :
    limitInt w signed true r = max (intMin w signed) (min (intMax w signed) r) := by
  have hle := intMin_le_intMax w signed
  simp only [limitInt, if_true]
  split_ifs <;> omega

section
variable {f : Slot} (h : ScalarType f.t)
include h

/-- A result that is only reduced to its type (R98). -/
theorem intValue_wrapped (r : Int) : intValue f false r = wrapAs f.t r := by
  simp only [intValue, Bool.false_eq_true, if_false, h.typeWidth_eq, h.isSigned_eq]
  rw [extended_intOf (intWidth_pos f.t), ofNat_patternOf]
  rfl

/-- An exact result limited to its type (R53). -/
theorem intValue_limited (r : Int) : intValue f true r = satAs f r := by
  simp only [intValue, if_true, h.typeWidth_eq, h.isSigned_eq, satAs]
  by_cases hsat : f.sat = 1
  · rw [if_pos hsat, beq_iff_eq.2 hsat, limitInt_clamped, extended, clampAs]
    cases signedType f.t <;> rfl
  · rw [if_neg hsat, beq_false_of_ne hsat, limitInt_wrapped (intWidth_pos f.t),
      extended_intOf (intWidth_pos f.t), ofNat_patternOf]
    rfl

end

/-- An integer operation that goes writes its result. -/
theorem runInt_writes {i : Instr} {f : Slot} {s : State} (limit : Bool) (r : Int) {x : W64} (hx : intValue f limit r = x)
    (h : s.goes i f) : ∃ t, runInt i f limit r s = .next t ∧ WritesG s t f.d.toNat x :=
  ⟨_, guarded_goes h, hx ▸ putG_writes s f _⟩

/-! ### Quotient and remainder (R99) -/

theorem remainder_smaller {a b : Int} (hb : b ≠ 0) : (a.tmod b).natAbs < b.natAbs := by
  rw [Int.natAbs_tmod]
  exact Nat.mod_lt _ (Int.natAbs_pos.2 hb)

theorem remainder_sign (a b : Int) : a.tmod b = 0 ∨ (a.tmod b).sign = a.sign := by
  by_cases hdvd : b ∣ a
  · exact .inl (Int.tmod_eq_zero_of_dvd hdvd)
  · exact .inr (by rw [Int.sign_tmod, if_neg hdvd])

/-- Settles O8: each operation's exact result, and the value that its type leaves of it. -/
theorem integerArithmetic : Obligations.IntegerArithmetic := by
  refine ⟨fun s f hlo hhi => ?_, fun s f hlo hhi hdiv hrem => ?_⟩
  · have ht : ScalarType f.t := ⟨hlo, hhi⟩
    intro a b writes
    have ha : s.opA f = a := typed_eq_readAs ht _
    have hb : s.opB f = b := typed_eq_readAs ht _
    refine ⟨runInt_writes true _ ?_, runInt_writes true _ ?_, runInt_writes true _ ?_, runInt_writes false _ ?_,
      runInt_writes false _ ?_, runInt_writes false _ ?_⟩
    · rw [intValue_limited ht, ha, hb]
    · rw [intValue_limited ht, ha, hb]
    · rw [intValue_limited ht, ha, hb]
    · rw [intValue_wrapped ht, ha, hb, ht.typeWidth_eq]
    · rw [intValue_wrapped ht, ha, hb, min_def]
    · rw [intValue_wrapped ht, ha, hb, max_def]
  · have ht : ScalarType f.t := ⟨hlo, hhi⟩
    intro a b
    have ha : s.opA f = a := typed_eq_readAs ht _
    have hb : s.opB f = b := typed_eq_readAs ht _
    obtain ⟨t, htrun, htw⟩ := runInt_writes true (divide f.t (s.opA f) (s.opB f)) (intValue_limited ht _) hdiv
    obtain ⟨u, hurun, huw⟩ := runInt_writes false (remainder (s.opA f) (s.opB f)) (intValue_wrapped ht _) hrem
    refine ⟨t, u, _, _, htrun, hurun, htw, huw, fun hzero => ?_, fun hne => ?_⟩
    · rw [ha, hb, divide, remainder, if_pos hzero, if_pos hzero, ht.isSigned_eq, ht.typeWidth_eq]
      exact ⟨rfl, rfl⟩
    · rw [ha, hb, divide, remainder, if_neg hne, if_neg hne]
      exact ⟨(Int.mul_tdiv_add_tmod a b).symm, remainder_smaller hne, remainder_sign a b⟩

end Sys2Proof.Machine

/-! Bitwise operations, shifts, counts, comparison, selection, constants, bit fields and predicate logic (R72, R97 to R104). -/

namespace Sys2Proof.Machine

/-! ### Patterns (R98) -/

/-- A result given by its pattern. -/
theorem intValue_pattern {f : Slot} (h : ScalarType f.t) {n : Nat} {x : BitVec (intWidth f.t)} (hn : n % 2 ^ intWidth f.t = x.toNat) :
    intValue f false n = extendAs f.t x := by
  rw [intValue_wrapped h, wrapAs_eq_extendAs, BitVec.ofInt_natCast]
  congr 1
  exact BitVec.eq_of_toNat_eq (by rw [BitVec.toNat_ofNat, hn])

section
variable {s : State} {f : Slot} (h : ScalarType f.t)
include h

theorem rawA_eq : s.rawA f = ((s.g f.a.toNat).setWidth (intWidth f.t)).toNat := by
  rw [State.rawA, h.typeWidth_eq, BitVec.toNat_setWidth]

theorem rawB_eq : s.rawB f = ((s.operandB f).setWidth (intWidth f.t)).toNat := by
  rw [State.rawB, h.typeWidth_eq, BitVec.toNat_setWidth]

theorem shift_eq : s.shift f = ((s.operandB f).setWidth (intWidth f.t)).toNat % intWidth f.t := by
  rw [State.shift, rawB_eq h, h.typeWidth_eq]

end

/-- The bits that leave on the left come in on the right. -/
theorem toNat_rotateLeft_eq_add {w : Nat} (x : BitVec w) {k : Nat} (hk : k < w) :
    (x.rotateLeft k).toNat = x.toNat * 2 ^ k % 2 ^ w + x.toNat / 2 ^ (w - k) := by
  have hsplit : 2 ^ w = 2 ^ k * 2 ^ (w - k) := by rw [← Nat.pow_add, Nat.add_sub_cancel' hk.le]
  have hhigh : x.toNat * 2 ^ k % 2 ^ w = 2 ^ k * (x.toNat % 2 ^ (w - k)) := by
    rw [hsplit, Nat.mul_comm, Nat.mul_mod_mul_left]
  have hlow : x.toNat / 2 ^ (w - k) < 2 ^ k :=
    Nat.div_lt_of_lt_mul (by rw [Nat.mul_comm, ← hsplit]; exact x.isLt)
  rw [BitVec.toNat_rotateLeft, Nat.mod_eq_of_lt hk, Nat.shiftLeft_eq, Nat.shiftRight_eq_div_pow, hhigh,
    Nat.two_pow_add_eq_or_of_lt hlow]

/-! ### Counts (R98) -/

theorem leadingZeros_le (w u : Nat) : leadingZeros w u ≤ w := by
  unfold leadingZeros; split <;> omega

section
variable {w : Nat} (x : BitVec w)

theorem getMsbD_of_lt_leadingZeros {j : Nat} (hj : j < leadingZeros w x.toNat) : x.getMsbD j = false := by
  rw [BitVec.getMsbD_eq_getLsbD, BitVec.getLsbD]
  by_cases hx : x.toNat = 0
  · simp [hx]
  · rw [leadingZeros, if_neg hx] at hj
    have hbelow : x.toNat < 2 ^ (w - 1 - j) := (Nat.log2_lt hx).1 (by omega)
    rw [Nat.testBit_lt_two_pow hbelow, Bool.and_false]

theorem getMsbD_leadingZeros (h : leadingZeros w x.toNat < w) : x.getMsbD (leadingZeros w x.toNat) = true := by
  have hx : x.toNat ≠ 0 := fun hx => by simp [leadingZeros, hx] at h
  have htop : Nat.log2 x.toNat < w := (Nat.log2_lt hx).2 x.isLt
  have hpos : leadingZeros w x.toNat = w - 1 - Nat.log2 x.toNat := if_neg hx
  rw [BitVec.getMsbD_eq_getLsbD, BitVec.getLsbD, hpos, show w - 1 - (w - 1 - Nat.log2 x.toNat) = Nat.log2 x.toNat by omega,
    Nat.testBit_log2 hx, decide_eq_true (by omega)]
  rfl

theorem popCount_eq_card : popCount w x.toNat = (Finset.univ.filter fun j : Fin w => x.getLsbD j = true).card := by
  have hmap : (Finset.range w).filter (fun j => x.getLsbD j = true) =
      (Finset.univ.filter fun j : Fin w => x.getLsbD j = true).map Fin.valEmbedding := by
    ext j
    simp only [Finset.mem_filter, Finset.mem_range, Finset.mem_map, Finset.mem_univ, true_and, Fin.valEmbedding_apply]
    exact ⟨fun hj => ⟨⟨j, hj.1⟩, hj.2, rfl⟩, fun ⟨k, hk, e⟩ => e ▸ ⟨k.isLt, hk⟩⟩
  have hlist : popCount w x.toNat = ((Finset.range w).filter fun j => x.getLsbD j = true).card := by
    simp only [popCount, Finset.card, Finset.filter, Finset.range, Multiset.range, Multiset.filter_coe, Multiset.coe_card,
      BitVec.getLsbD, Bool.decide_eq_true]
  rw [hlist, hmap, Finset.card_map]

end

theorem popCount_le (w u : Nat) : popCount w u ≤ w := by
  rw [popCount]
  exact (List.length_filter_le _ _).trans_eq List.length_range

/-- A count of bits is within its type. -/
theorem intValue_count {f : Slot} (h : ScalarType f.t) {n : Nat} (hn : n ≤ intWidth f.t) :
    intValue f false n = BitVec.ofNat 64 n := by
  have hsmall : n < 2 ^ (intWidth f.t - 1) := by
    rcases intWidth_cases f.t with e | e | e | e <;> rw [e] at hn ⊢ <;> omega
  have hfull : n < 2 ^ intWidth f.t := hsmall.trans_le (Nat.pow_le_pow_right (by decide) (by omega))
  have hpattern : patternOf (intWidth f.t) n = n := by
    rw [patternOf]; norm_cast; exact Nat.mod_eq_of_lt hfull
  rw [intValue, if_neg Bool.false_ne_true, h.typeWidth_eq, hpattern, extended, intOf, Nat.mod_eq_of_lt hfull,
    decide_eq_false (by omega), Bool.and_false, if_neg Bool.false_ne_true, BitVec.ofInt_natCast]

/-! ### The second operand (R72, R97) -/

section
variable {s : State} {f : Slot}

theorem operandB_register (h : f.im = false) : s.operandB f = s.g f.b.toNat := by
  rw [State.operandB, h]; rfl

/-- An immediate of the slot is extended as its type is. -/
theorem operandB_immediate (him : f.im = true) (hpsel : f.psel = 0) (ht : ScalarType f.t) :
    s.operandB f = if signedType f.t then f.imm.signExtend 64 else f.imm.setWidth 64 := by
  have hzero : (f.t == 0) = false := by
    rw [beq_eq_false_iff_ne]
    rintro h0
    have := ht.1
    rw [h0] at this
    exact absurd this (by decide)
  rw [State.operandB, if_pos him, if_pos hpsel, ht.isSigned_eq, hzero, Bool.or_false]

theorem operandB_pool (him : f.im = true) (hpsel : f.psel ≠ 0) : s.operandB f = s.poolSel f := by
  rw [State.operandB, if_pos him, if_neg hpsel]

/-- The constant that LI writes, by the field that names it (R102). -/
theorem constant_eq (s : State) (f : Slot) :
    (if f.psel = 0 then f.imm.signExtend 64 else if f.psel = 3 then s.task.flow.pool.setWidth 64 else s.poolSel f) =
      match f.psel.toNat with
      | 0 => f.imm.signExtend 64 | 1 => poolOperand s.task.flow.pool false | 2 => poolOperand s.task.flow.pool true
      | _ => s.task.flow.pool.extractLsb' 0 64 := by
  have hcases : ∀ x : BitVec 2, x = 0 ∨ x = 1 ∨ x = 2 ∨ x = 3 := by decide
  rw [State.poolSel, BitVec.setWidth_eq_extractLsb' (by decide)]
  rcases hcases f.psel with e | e | e | e <;> rw [e] <;> rfl

end

/-! ### Comparison (R100) -/

/-- The relation that a condition code names. -/
def Compares (a b : Int) : Nat → Prop
  | 0 => a = b
  | 1 => a ≠ b
  | 2 => a < b
  | 3 => a ≤ b
  | 4 => b < a
  | _ => b ≤ a

theorem condHolds_intOrd {c : Nat} (hc : c ≤ 5) (a b : Int) : condHolds c (intOrd a b) = true ↔ Compares a b c := by
  have hord : (intOrd a b = -1 ∧ a < b) ∨ (intOrd a b = 0 ∧ a = b) ∨ (intOrd a b = 1 ∧ b < a) := by
    unfold intOrd; split_ifs <;> omega
  interval_cases c <;> rcases hord with ⟨e, h⟩ | ⟨e, h⟩ | ⟨e, h⟩ <;> simp [condHolds, Compares, e] <;> omega

/-! ### Bit fields (R103) -/

/-- The bits of the inserted field come from the second operand, the others from the first. -/
theorem getLsbD_insert (x y : W64) (pos len : Nat) {j : Nat} (hj : j < 64) :
    ((x &&& ~~~BitVec.ofNat 64 ((2 ^ len - 1) * 2 ^ pos)) ||| ((y <<< pos) &&& BitVec.ofNat 64 ((2 ^ len - 1) * 2 ^ pos))).getLsbD j =
      if pos ≤ j ∧ j < pos + len then y.getLsbD (j - pos) else x.getLsbD j := by
  have hmask : (BitVec.ofNat 64 ((2 ^ len - 1) * 2 ^ pos)).getLsbD j = decide (pos ≤ j ∧ j < pos + len) := by
    rw [BitVec.getLsbD_ofNat, Nat.testBit_mul_two_pow, Nat.testBit_two_pow_sub_one, ← Bool.decide_and, ← Bool.decide_and,
      decide_eq_decide]
    omega
  rw [BitVec.getLsbD_or, BitVec.getLsbD_and, BitVec.getLsbD_and, BitVec.getLsbD_not, hmask, BitVec.getLsbD_shiftLeft]
  by_cases h : pos ≤ j ∧ j < pos + len
  · simp [h, hj, not_lt.2 h.1]
  · simp [h, hj]

/-! ### The statement -/

/-- The destination of a well-formed operation is a register of its file (R74). -/
theorem dest_of_wf {i : Instr} {f : Slot} {o : OpForm} (hf : opForm i = some (f, o)) (h : i.wf = true) :
    fieldOk f.d o.d = true := by
  have hnone := Laws.Slots.defect_none h
  unfold slotDefect at hnone
  rw [hf] at hnone
  have hnone := Laws.Slots.passed (Laws.Slots.passed (Laws.Slots.passed hnone).2).2
  exact (Laws.Slots.passed (Laws.Slots.passed (Laws.Slots.passed hnone.2).2).2).1

theorem dest_lt_of_wf {i : Instr} {f : Slot} {o : OpForm} (hf : opForm i = some (f, o)) (h : i.wf = true) (hd : o.d = some .p) :
    f.d.toNat < 16 := by
  have hok := dest_of_wf hf h
  rw [hd] at hok
  exact of_decide_eq_true hok

/-- Settles O9: the pattern or the value of each result. That PSEL 3 selects the low half of the pool is R102's rule for LI. -/
theorem bitwiseAndSelection : Obligations.BitwiseAndSelection := by
  refine ⟨⟨fun s f hlo hhi => ?_, fun s f hlo hhi => ?_⟩, fun s f => ?_, fun s f => ?_⟩
  · have ht : ScalarType f.t := ⟨hlo, hhi⟩
    intro x y k writes
    have hx : s.rawA f = x.toNat := rawA_eq ht
    have hy : s.rawB f = y.toNat := rawB_eq ht
    have hk : s.shift f = k := shift_eq ht
    have hk_lt : k < intWidth f.t := Nat.mod_lt _ (intWidth_pos f.t)
    have hfull {n : Nat} {z : BitVec (intWidth f.t)} (e : n = z.toNat) : n % 2 ^ intWidth f.t = z.toNat := by
      rw [e, Nat.mod_eq_of_lt z.isLt]
    refine ⟨runInt_writes false _ (intValue_pattern ht (hfull ?_)), runInt_writes false _ (intValue_pattern ht (hfull ?_)),
      runInt_writes false _ (intValue_pattern ht (hfull ?_)), runInt_writes false _ (intValue_pattern ht (hfull ?_)),
      runInt_writes true _ ?_, runInt_writes false _ (intValue_pattern ht (hfull ?_)), runInt_writes false _ ?_,
      runInt_writes false _ (intValue_pattern ht (hfull ?_))⟩
    · rw [hx, hy, BitVec.toNat_and]
    · rw [hx, hy, BitVec.toNat_or]
    · rw [hx, hy, BitVec.toNat_xor]
    · rw [hx, hy, ht.typeWidth_eq, BitVec.toNat_and, BitVec.toNat_not]
    · have ha : s.opA f = readAs f.t (s.g f.a.toNat) := typed_eq_readAs ht _
      rw [intValue_limited ht, ha, hk]
    · rw [hx, hk, BitVec.toNat_ushiftRight, Nat.shiftRight_eq_div_pow]
    · rw [intValue_wrapped ht, wrapAs_eq_extendAs, hx, hk, ht.typeWidth_eq, intOf_true_eq_toInt (intWidth_pos f.t),
        BitVec.ofNat_toNat, BitVec.setWidth_eq, BitVec.sshiftRight_eq, Int.shiftRight_eq_div_pow]
      norm_cast
    · rw [hx, hk, ht.typeWidth_eq, toNat_rotateLeft_eq_add x hk_lt]
  · have ht : ScalarType f.t := ⟨hlo, hhi⟩
    intro x
    have hx : s.rawA f = x.toNat := rawA_eq ht
    refine ⟨fun hgo => ?_, fun hgo => ?_⟩
    · have hvalue : intValue f false (leadingZeros (typeWidth f.t) (s.rawA f)) =
          BitVec.ofNat 64 (leadingZeros (intWidth f.t) x.toNat) := by
        rw [hx, ht.typeWidth_eq, intValue_count ht (leadingZeros_le _ _)]
      obtain ⟨t, hrun, hwrites⟩ := runInt_writes false _ hvalue hgo
      exact ⟨t, _, hrun, hwrites, leadingZeros_le _ _, fun j => getMsbD_of_lt_leadingZeros x, getMsbD_leadingZeros x⟩
    · have hvalue : intValue f false (popCount (typeWidth f.t) (s.rawA f)) =
          BitVec.ofNat 64 (popCount (intWidth f.t) x.toNat) := by
        rw [hx, ht.typeWidth_eq, intValue_count ht (popCount_le _ _)]
      rw [popCount_eq_card] at hvalue
      exact runInt_writes false _ hvalue hgo
  · refine ⟨operandB_register, fun him hpsel hlo hhi => operandB_immediate him hpsel ⟨hlo, hhi⟩, fun him hpsel => ?_,
      fun him hpsel => ?_⟩
    · rw [operandB_pool him (by rw [hpsel]; decide), State.poolSel, hpsel]
      rfl
    · rw [operandB_pool him (by rw [hpsel]; decide), State.poolSel, hpsel]
      rfl
  · intro a b pos len x runs sets
    refine ⟨fun hwf hgo => ?_, fun _ hgo => ⟨_, guarded_goes hgo, putG_writes s f _⟩, fun _ hgo => ⟨_, guarded_goes hgo, ?_⟩,
      fun _ hgo => ⟨_, guarded_goes hgo, ?_⟩, fun _ hgo => ⟨_, guarded_goes hgo, ?_⟩, fun _ hgo => ⟨_, guarded_goes hgo, ?_⟩,
      fun hwf hgo => ⟨_, guarded_goes hgo, ?_⟩⟩
    · have ht : ScalarType f.t := scalarType_of_mem (type_of_wf rfl hwf)
      have hcond : f.cond ≤ 5 := of_decide_eq_true (Bool.and_eq_true_iff.1 (Laws.Slots.wf_checks rfl hwf).1).2
      have ha : s.opA f = a := typed_eq_readAs ht _
      have hb : s.opB f = b := typed_eq_readAs ht _
      exact ⟨_, guarded_goes hgo, _, putP_writes s f (dest_lt_of_wf rfl hwf rfl) _, ha ▸ hb ▸ condHolds_intOrd hcond _ _⟩
    · rw [constant_eq]
      exact putG_writes s f _
    · rw [BitVec.setWidth_eq_extractLsb' (by decide)]
      exact putG_writes s f _
    · have hfield : x.extractLsb' pos len = BitVec.ofNat len (x.toNat / 2 ^ pos) := by
        rw [BitVec.extractLsb', Nat.shiftRight_eq_div_pow]
      have hvalue : extended (intOf (fieldLen f) (f.t == 4) (x.toNat / 2 ^ fieldPos f)) =
          if f.t = 4 then (x.extractLsb' pos len).signExtend 64 else (x.extractLsb' pos len).setWidth 64 := by
        rw [extended_intOf (w := fieldLen f) (Nat.succ_pos _), hfield]
        simp only [beq_iff_eq]
        rfl
      exact hvalue ▸ putG_writes s f _
    · exact ⟨_, putG_writes s f _, fun j => getLsbD_insert _ _ _ _⟩
    · refine ⟨_, putP_writes s f (dest_lt_of_wf rfl hwf rfl) _, ?_⟩
      cases s.p f.a.toNat <;> cases s.p f.b.toNat <;> exact Iff.rfl

end Sys2Proof.Machine

/-! Repeats and loops (R107 to R109, R111, R255). -/

namespace Sys2Proof.Machine

/-- A stride of a repeat, as REP's QUAL names it (R107). -/
theorem stride_eq (f : Slot) (hi lo : Nat) (h : hi - lo + 1 = 6) :
    BitVec.ofNat 6 (f.q hi lo) = (f.qual.extractLsb' lo 6 : BitVec 6) := by
  apply BitVec.eq_of_toNat_eq
  rw [BitVec.toNat_ofNat, Slot.q, h, Nat.mod_mod, BitVec.extractLsb'_toNat]

/-- The count of a repeat (R107). -/
def State.repCount (s : State) (f : Slot) : Nat :=
  if f.im then f.imm.toNat else ((s.g f.a.toNat).extractLsb' 0 32).toNat

theorem execRep_of_goes {s : State} {f : Slot} (h : s.goes (.rep f) f) : exec (.rep f) s = .next
    (if s.repCount f = 0 then s.skipBundles s.task.flow.nextPc 1
     else s.setFlow { s.task.flow with
      rep := some ⟨s.task.flow.off, s.task.flow.nextPc, s.repCount f, f.qual.extractLsb' 1 6, f.qual.extractLsb' 7 6,
        f.qual.extractLsb' 13 6, f.qual.extractLsb' 19 6, 0⟩ }) := by
  refine (guarded_goes h).trans ?_
  rw [stride_eq f 6 1 rfl, stride_eq f 12 7 rfl, stride_eq f 18 13 rfl, stride_eq f 24 19 rfl,
    BitVec.setWidth_eq_extractLsb' (by decide)]
  rfl

theorem State.skipBundles_of_ok {s : State} {o n e : Nat} {os : List Nat} (h : s.bodyOffsets o n = .ok (os, e)) :
    s.skipBundles o n = s.setFlow { s.task.flow with nextPc := e } := by
  rw [State.skipBundles, h]

/-- One bundle is measured by its first halfword (R64). -/
theorem State.bodyOffsets_one {s : State} {o h : Nat} (hclim : o < s.task.id.clim) (hh : s.half o = some h) :
    s.bodyOffsets o 1 = .ok ([o], o + bundleLength h) := by
  rw [State.bodyOffsets, if_neg (Nat.not_le.2 hclim), hh]
  rfl

/-- What LOOPB does with a slot that has index points: the slot rewinds, and the loop begins behind LOOPB (R111). -/
def State.beginLoop (s : State) (slot len : Nat) : State :=
  let t := s.setCore (s.myCore.setNest slot (s.myCore.nest slot).rewind)
  t.setFlow { t.task.flow with loop := some ⟨s.task.flow.nextPc, len, slot⟩ }

theorem execLoopb_of_goes {s : State} {f : Slot} (h : s.goes (.loopb f) f) : exec (.loopb f) s = .next
    (if (s.myCore.nest f.a.toNat).points = 0 then s.skipBundles s.task.flow.nextPc (f.imm.toNat % 16 + 1)
     else s.beginLoop f.a.toNat (f.imm.toNat % 16 + 1)) := guarded_goes h

/-- The selected task's core after it is written. -/
theorem State.myCore_setCore {s : State} {c : Core} (h : c.lcore = s.task.id.lcore) : (s.setCore c).myCore = c := by
  refine (core_setCore s c _).trans ?_
  rw [State.setCore_task, if_pos h.symm, ← h]

/-- The end of a pass is the step that sets WRAP (R255). -/
theorem NestSlot.wrap_step (n : NestSlot) : ({ n with wrap := false } : NestSlot).step.wrap = n.wraps := by
  have hpoints : ({ n with wrap := false } : NestSlot).points = n.points := rfl
  rw [NestSlot.step, NestSlot.wraps, hpoints]
  by_cases h : n.points = 0
  · rw [if_pos h, h]; rfl
  · rw [if_neg h, bne_iff_ne.2 h]; rfl

/-! ### Retirement (R108, R111) -/

/-- The repeat after a repetition of its bundle (R108). -/
def State.afterRepetition (s : State) : Option RepState → State
  | some r =>
    if r.next + 1 < r.count then s.setFlow { s.task.flow with
      rep := some { r with next := r.next + 1 }, nextPc := r.body }
    else s.setFlow { s.task.flow with rep := none, repix := 0 }
  | none => s

/-- The loop after a bundle of its body (R111). -/
def State.afterBundle (s : State) (off : Nat) : Option LoopState → State
  | some l => if s.lastOfBody l off then s.endPass l else s
  | none => s

/-- Whatever else a bundle that retires without a bolt of its own changes, the repeat and the loop stay as they are and issue
goes on at the next offset. -/
theorem State.retire_flow {s : State} (howns : s.task.flow.owns = none) (rep : Option RepState) (loop : Option LoopState)
    (hasOp : Bool) : ∃ opClk clk quietAt safe, (s.retire rep loop hasOp).task.flow =
      let u := (s.afterRepetition rep).afterBundle s.task.flow.off loop
      { u.task.flow with pc := u.task.flow.nextPc, clk, opClk, quietAt, wait := none, owns := none, redo := false, safe } := by
  unfold State.retire
  rw [howns]
  exact ⟨_, _, _, _, rfl⟩

theorem State.afterRepetition_flow (s : State) (r : RepState) :
    let t := s.afterRepetition (some r)
    if r.next + 1 < r.count then t.task.flow.rep = some { r with next := r.next + 1 } ∧ t.task.flow.nextPc = r.body
    else t.task.flow.rep = none ∧ t.task.flow.repix = 0 ∧ t.task.flow.nextPc = s.task.flow.nextPc := by
  intro t
  by_cases h : r.next + 1 < r.count
  · rw [if_pos h, show t = _ from if_pos h]
    exact ⟨rfl, rfl⟩
  · rw [if_neg h, show t = _ from if_neg h]
    exact ⟨rfl, rfl, rfl⟩

theorem State.endPass_flow (s : State) (l : LoopState) : if (s.myCore.nest l.nest).wraps = true
    then (s.endPass l).task.flow.loop = none ∧ (s.endPass l).task.flow.nextPc = s.task.flow.nextPc
    else (s.endPass l).task.flow.loop = s.task.flow.loop ∧ (s.endPass l).task.flow.nextPc = l.start := by
  by_cases h : (s.myCore.nest l.nest).wraps = true
  · simp only [State.endPass, if_pos h]
    exact ⟨rfl, rfl⟩
  · simp only [State.endPass, if_neg h]
    exact ⟨rfl, rfl⟩

/-- Settles O12: the branch of REP and LOOPB that applies, and of the retirement of a bundle under a repeat or a loop. That an
invalid index counts as one halfword is the choice of log 42. -/
theorem repeatsAndLoops : Obligations.RepeatsAndLoops := by
  refine ⟨fun s f => ?_, fun s hasOp howns => ⟨fun r => ?_, fun l => ?_, ?_⟩⟩
  · intro count stride nest len
    have hcounted : s.repCount f = count := rfl
    refine ⟨fun h hcount => ?_, fun w h hcount hclim hw => ?_, fun h hpoints => ?_, fun os e h hpoints hbody => ?_⟩
    · rw [execRep_of_goes h, hcounted, if_neg hcount]
    · rw [execRep_of_goes h, hcounted, if_pos hcount, State.skipBundles_of_ok (State.bodyOffsets_one hclim hw)]
      rfl
    · refine ⟨_, execLoopb_of_goes h, ?_⟩
      rw [if_neg hpoints]
      exact ⟨rfl, State.myCore_setCore rfl, rfl⟩
    · rw [execLoopb_of_goes h, if_pos hpoints, State.skipBundles_of_ok hbody]
  · obtain ⟨opClk, clk, quietAt, safe, hflow⟩ := State.retire_flow howns (some r) none hasOp
    intro t
    rw [show t.task.flow = _ from hflow]
    exact s.afterRepetition_flow r
  · intro t n
    obtain ⟨opClk, clk, quietAt, safe, hflow⟩ := State.retire_flow howns none (some l) hasOp
    have hwrap : n.wrap = (s.myCore.nest l.nest).wraps := NestSlot.wrap_step _
    rw [hwrap, show t.task.flow = _ from hflow]
    by_cases hlast : s.lastOfBody l s.task.flow.off = true
    · have hend : (s.afterRepetition none).afterBundle s.task.flow.off (some l) = s.endPass l := if_pos hlast
      rw [if_pos hlast, hend]
      exact s.endPass_flow l
    · have hstay : (s.afterRepetition none).afterBundle s.task.flow.off (some l) = s := if_neg hlast
      rw [if_neg hlast, hstay]
      exact ⟨rfl, rfl⟩
  · obtain ⟨opClk, clk, quietAt, safe, hflow⟩ := State.retire_flow howns none none hasOp
    rw [hflow]
    rfl

end Sys2Proof.Machine

/-! Traps: the entry to the handler, the double trap, and which operations trap (R110, R113 to R115, R165 to R169, R323). -/

namespace Sys2Proof.Machine

/-! ### Fields of a syndrome (R173) -/

section
variable (cause slot op detail info : Nat)

/-- The number that a syndrome word encodes. -/
def syndNat : Nat :=
  cause % 256 * 2 ^ 56 + slot % 4 * 2 ^ 54 + op % 1024 * 2 ^ 44 + detail % 4096 * 2 ^ 32 + info % 2 ^ 32

theorem syndNat_lt : syndNat cause slot op detail info < 2 ^ 64 := by
  unfold syndNat; omega

theorem syndWord_cause : (syndWord cause slot op detail info).extractLsb' 56 8 = BitVec.ofNat 8 cause := by
  refine (extract_ofNat (syndNat_lt cause slot op detail info) (x := cause % 256) ?_).trans ?_
  · unfold syndNat; omega
  · exact BitVec.eq_of_toNat_eq (by simp)

theorem syndWord_slot : (syndWord cause slot op detail info).extractLsb' 54 2 = BitVec.ofNat 2 slot := by
  refine (extract_ofNat (syndNat_lt cause slot op detail info) (x := slot % 4) ?_).trans ?_
  · unfold syndNat; omega
  · exact BitVec.eq_of_toNat_eq (by simp)

theorem syndWord_op : (syndWord cause slot op detail info).extractLsb' 44 10 = BitVec.ofNat 10 op := by
  refine (extract_ofNat (syndNat_lt cause slot op detail info) (x := op % 1024) ?_).trans ?_
  · unfold syndNat; omega
  · exact BitVec.eq_of_toNat_eq (by simp)

theorem syndWord_info : (syndWord cause slot op detail info).extractLsb' 0 32 = BitVec.ofNat 32 info := by
  refine (extract_ofNat (syndNat_lt cause slot op detail info) (x := info % 2 ^ 32) ?_).trans ?_
  · unfold syndNat; omega
  · exact BitVec.eq_of_toNat_eq (by simp)

end

/-! ### Entering the handler (R110, R166, R167) -/

@[simp] theorem TaskBolt.endOwn_work (b : TaskBolt) : b.endOwn.work = b.work := by
  unfold TaskBolt.endOwn; split <;> rfl

@[simp] theorem TaskBolt.endOwn_holdb (b : TaskBolt) : b.endOwn.holdb = b.holdb := by
  unfold TaskBolt.endOwn; split <;> rfl

@[simp] theorem TaskBolt.endOwn_charged (b : TaskBolt) : b.endOwn.charged = b.charged := by
  unfold TaskBolt.endOwn; split <;> rfl

@[simp] theorem TaskBolt.endOwn_outCharged (b : TaskBolt) : b.endOwn.outCharged = b.outCharged := by
  unfold TaskBolt.endOwn; split <;> rfl

theorem enterHandler_sys (s : State) (r : TrapRec) :
    (s.enterHandler r).task.sys = { s.task.sys with synd := r.synd, sclass := r.sclass, epc := r.epc } := rfl

/-- The flow in the handler: issue goes on at TVEC, and the repeat and the loop stand in their shadows (R110, R166). -/
theorem enterHandler_flow (s : State) (r : TrapRec) : let t := s.enterHandler r
    t.task.flow.pc = s.task.sys.tvec.toNat ∧ t.task.flow.rep = none ∧ t.task.flow.repSh = s.task.flow.rep ∧
      t.task.flow.loop = none ∧ t.task.flow.loopSh = s.task.flow.loop ∧ t.task.flow.notices = s.task.flow.notices ∧
      s.task.flow.quietAt ≤ t.task.flow.holdOff :=
  ⟨rfl, rfl, rfl, rfl, rfl, rfl, Nat.le_max_left _ _⟩

/-- The handler's bolt, and the shadow of the one it interrupts (R167). -/
theorem enterHandler_bolt (s : State) (r : TrapRec) : let t := s.enterHandler r
    let b := s.task.bolt.endOwn
    t.task.bolt.handler = true ∧ t.task.bolt.shadow = some (b.boltpc, b.retry, b.holdb) ∧
      t.task.bolt.boltpc = s.task.sys.tvec.toNat ∧ t.task.bolt.retry = 0 ∧ t.task.bolt.holdb = b.holdb ∧
      t.task.bolt.outer = some b.work ∧ t.task.bolt.work.hold = [] ∧ t.task.bolt.work.claims = [] :=
  ⟨rfl, rfl, rfl, rfl, rfl, congrArg some s.task.bolt.endOwn_work.symm, rfl, rfl⟩

/-! ### The double trap (R169) -/

@[simp] theorem State.leaveCore_mem (s : State) (r : Releaser) (granules : Nat) : (s.leaveCore r granules).mem = s.mem := by
  unfold State.leaveCore
  dsimp only
  rw [State.countTile_mem]
  cases List.find? _ _ with
  | none => simp only [Option.map_none, Option.getD_none, State.refreshLevel_mem, State.freeLog_mem, State.setCore_mem]
  | some z => simp only [Option.map_some, Option.getD_some, State.sendAll_mem, State.refreshLevel_mem, State.freeLog_mem,
      State.setCore_mem]

@[simp] theorem State.closeTask_mem (s : State) : s.closeTask.mem = s.mem := by
  rw [State.closeTask, State.leaveCore_mem, State.setTask_mem, State.onNode_mem]

@[simp] theorem State.endFaulted_mem (s : State) (cls cause det : Nat) : (s.endFaulted cls cause det).mem = s.mem := by
  rw [State.endFaulted, State.event_mem, State.closeTask_mem, State.failNode_mem, State.abandon_mem]

theorem State.closeTask_sys (s : State) : s.closeTask.task.sys = s.task.sys := by
  rw [State.closeTask, task_of_aside (State.leaveCore_aside _ _ _)]
  rfl

/-- A task that stops keeps its special registers. -/
theorem State.abandon_sys (s : State) : s.abandon.task.sys = s.task.sys := by
  have hdiscard : (s.task.bolt.outer.elim (s.discardWork s.task.bolt.work)
      (s.discardWork s.task.bolt.work).discardWork).task = s.task := by
    cases s.task.bolt.outer with
    | none => exact task_of_aside (s.discardWork_aside _)
    | some w => exact task_of_aside ((State.discardWork_aside _ w).trans (s.discardWork_aside _))
  exact (congrArg Task.sys (task_of_aside (State.cancel_aside _ _ _))).trans (congrArg Task.sys hdiscard)

theorem State.endFaulted_sys (s : State) (cls cause det : Nat) : (s.endFaulted cls cause det).task.sys = s.task.sys := by
  rw [State.endFaulted, State.event_task, State.closeTask_sys]
  exact s.abandon_sys

theorem State.endFaulted_not_live (s : State) (cls cause det : Nat) : (s.endFaulted cls cause det).task.id.live = false := by
  rw [State.endFaulted, State.event_task]
  exact State.closeTask_not_live _

/-- A synchronous trap in handler mode ends the task. -/
theorem takeTrap_of_handler {s : State} (hc : s.task.bolt.charged = none) (hh : s.task.bolt.handler = true) (r : TrapRec) :
    s.takeTrap r = (s.setFlow { s.task.flow with fate := .trapped r }).endFaulted 5 0x1A
      (bitsOf r.synd.toNat 63 56 * 256 + r.sclass.toNat) := by
  rw [State.takeTrap, hc, hh]
  rfl

/-! ### Operations that trap -/

/-- Every operation of a slot makes its issue-time checks before it has any effect (R20, R78). -/
theorem exec_guarded {i : Instr} {f : Slot} {o : OpForm} (h : opForm i = some (f, o)) (s : State) :
    ∃ effect, exec i s = guarded i f s effect := by
  cases i <;> cases h <;> exact ⟨_, rfl⟩

section
variable {s : State} {f : Slot} (hmay : s.mayTrap)
include hmay

/-- An instruction-class trap of the slot that issues. -/
theorem trapInstr_trapped (op cause detail info : Nat) :
    Trapped s (s.trapInstr op cause detail info) 5 (syndWord cause s.slotNo op detail info) := trapped_of_mayTrap hmay 5 _

theorem trapDet_trapped (op cause : Nat) :
    Trapped s (s.trapDet op cause) 8 (syndWord cause s.slotNo op (s.task.id.detlvl * 1024) 0) := trapped_of_mayTrap hmay 8 _

theorem exec_of_defect {i : Instr} {o : OpForm} {cause detail info : Nat} (hf : opForm i = some (f, o))
    (h : s.issueDefect i = some (cause, o.op, detail, info)) :
    ∃ t, exec i s = .next t ∧ Trapped s t 5 (syndWord cause s.slotNo o.op detail info) := by
  obtain ⟨effect, hexec⟩ := exec_guarded hf s
  exact ⟨_, hexec.trans (guarded_defect h), trapInstr_trapped hmay _ _ _ _⟩

/-- TRAP is taken behind its bundle (R113). -/
theorem execTrap_of_goes (h : s.goes (.trap f) f) : exec (.trap f) s =
    .next (s.enterHandler ⟨5, syndWord 0x15 0 0x090 0 (f.imm.toNat % 65536), offWord s.task.flow.nextPc⟩) :=
  (guarded_goes h).trans (by rw [takeTrap_of_mayTrap hmay])

/-- ERET outside the handler (R113). -/
theorem execEret_outside (h : s.goes (.eret f) f) : exec (.eret f) s = .next (s.trapInstr 0x091 0x16 0 0) := by
  refine (guarded_goes h).trans ?_
  rw [hmay.2]
  rfl

end

/-! ### Special registers (R22, R114, R115, R323) -/

/-- A number outside the table of special registers (R22). -/
theorem State.special_eq_none (s : State) {n : Nat} (h : n = 0x015 ∨ 0x064 ≤ n) : s.special n = none := by
  unfold State.special
  split
  case h_29 => rfl
  all_goals omega

theorem TaskSys.write_eq_none {y : TaskSys} {x : W64} {n : Nat}
    (h : n ∉ [0x010, 0x011, 0x012, 0x013, 0x014, 0x022]) : y.write n x = none := by
  unfold TaskSys.write
  split
  case h_7 => rfl
  all_goals simp at h

section
variable {s : State} {f : Slot}

theorem execSrd_of_cause {cause : Nat} (h : s.goes (.srd f) f)
    (hdet : readCause s.task.id.detlvl (f.imm.toNat % 4096) = some cause) :
    exec (.srd f) s = .next (s.trapDet 0x098 cause) := (guarded_goes h).trans (by rw [hdet])

theorem execSrd_of_unknown (h : s.goes (.srd f) f) (hn : f.imm.toNat % 4096 = 0x015 ∨ 0x064 ≤ f.imm.toNat % 4096) :
    exec (.srd f) s = .next (s.trapInstr 0x098 0x18 0 (f.imm.toNat % 4096)) := by
  have hdet : readCause s.task.id.detlvl (f.imm.toNat % 4096) = none :=
    readCause_eq_none (fun hmem => by simp only [List.mem_cons, List.not_mem_nil, or_false] at hmem; omega) (by omega)
  exact (guarded_goes h).trans (by rw [hdet, s.special_eq_none hn])

theorem execSwr_refused (h : s.goes (.swr f) f)
    (hn : f.imm.toNat % 4096 ∉ [0x010, 0x011, 0x012, 0x013, 0x014, 0x022]) : exec (.swr f) s =
      .next (s.trapInstr 0x099 (if (s.special (f.imm.toNat % 4096)).isSome then 0x17 else 0x18) 0 (f.imm.toNat % 4096)) :=
  (guarded_goes h).trans (by rw [TaskSys.write_eq_none hn])

end

/-- The special registers that SWR finds read-only, as the statement lists them (R22, R115). -/
def readOnlySpecials : List Nat := [0x000, 0x001, 0x002, 0x003, 0x020, 0x021, 0x023, 0x024, 0x030, 0x050, 0x060, 0x061]

theorem State.special_of_readOnly (s : State) {n : Nat} (h : n ∈ readOnlySpecials) : (s.special n).isSome = true := by
  simp only [readOnlySpecials, List.mem_cons, List.not_mem_nil, or_false] at h
  rcases h with rfl | rfl | rfl | rfl | rfl | rfl | rfl | rfl | rfl | rfl | rfl | rfl <;> rfl

theorem not_writable_of_readOnly {n : Nat} (h : n ∈ readOnlySpecials) :
    n ∉ [0x010, 0x011, 0x012, 0x013, 0x014, 0x022] := by
  revert n; decide

/-- Settles O14: the fields of the handler's entry, the end of a task that traps in its handler, and the trap that each
operation leads to. -/
theorem trapsEnterHandler : Obligations.TrapsEnterHandler := by
  refine ⟨⟨fun s r hmay => ?_, fun s r hc hh => ?_⟩, fun s f hmay => ?_, fun s f hmay => ?_⟩
  · rw [takeTrap_of_mayTrap hmay]
    exact ⟨enterHandler_sys s r, enterHandler_flow s r, enterHandler_bolt s r, s.task.regs.close_wins,
      keepsRegisters_of_regs (by simp), fun _ => rfl, rfl, rfl, rfl, rfl, rfl, rfl⟩
  · rw [takeTrap_of_handler hc hh]
    exact ⟨State.endFaulted_not_live _ _ _ _, State.endFaulted_sys _ _ _ _, fun a => by rw [State.endFaulted_mem]; rfl⟩
  · refine ⟨fun h => ⟨_, execTrap_of_goes hmay h, rfl, rfl, rfl, syndWord_cause _ _ _ _ _, syndWord_slot _ _ _ _ _,
      syndWord_op _ _ _ _ _, ?_⟩, fun h => ⟨_, _, execEret_outside hmay h, trapInstr_trapped hmay _ _ _ _,
      syndWord_cause _ _ _ _ _, syndWord_op _ _ _ _ _⟩, fun i o cause detail info hf hd => ?_⟩
    · refine (syndWord_info _ _ _ _ _).trans (BitVec.eq_of_toNat_eq ?_)
      have hmask : f.imm.toNat &&& (2 ^ 16 - 1) = f.imm.toNat % 2 ^ 16 := Nat.and_two_pow_sub_one_eq_mod _ _
      rw [BitVec.toNat_ofNat, BitVec.toNat_and]
      refine (Nat.mod_eq_of_lt (by omega)).trans hmask.symm
    · exact exec_of_defect hmay hf hd
  · intro n cause
    refine ⟨fun hn hdet h => ?_, fun hn hdet h => ?_, fun hn hdet h => ?_, fun hn => ⟨fun h => ?_, fun h => ?_⟩,
      fun hn h => ?_⟩
    · have hcause : readCause s.task.id.detlvl n = some 0x01 := if_pos ⟨hn, hdet⟩
      exact ⟨_, _, execSrd_of_cause h hcause, trapDet_trapped hmay _ _, syndWord_cause _ _ _ _ _⟩
    · have hcause : readCause s.task.id.detlvl n = some 0x11 := by
        rw [readCause, if_neg, if_pos ⟨hn, hdet⟩]
        rintro ⟨h30, -⟩
        rw [h30] at hn
        simp at hn
      exact ⟨_, _, execSrd_of_cause h hcause, trapDet_trapped hmay _ _, syndWord_cause _ _ _ _ _⟩
    · have hcause : readCause s.task.id.detlvl n = some 0x10 := by
        rw [hn, readCause, if_neg (by simp), if_neg (by simp), if_pos ⟨rfl, hdet⟩]
      exact ⟨_, _, execSrd_of_cause h hcause, trapDet_trapped hmay _ _, syndWord_cause _ _ _ _ _⟩
    · exact ⟨_, _, execSrd_of_unknown h hn, trapInstr_trapped hmay _ _ _ _, syndWord_cause _ _ _ _ _⟩
    · have hnot : n ∉ [0x010, 0x011, 0x012, 0x013, 0x014, 0x022] := by
        simp only [List.mem_cons, List.not_mem_nil, or_false]
        omega
      have hexec := execSwr_refused h hnot
      rw [s.special_eq_none hn] at hexec
      exact ⟨_, _, hexec, trapInstr_trapped hmay _ _ _ _, syndWord_cause _ _ _ _ _⟩
    · have hexec := execSwr_refused h (not_writable_of_readOnly hn)
      rw [s.special_of_readOnly hn] at hexec
      exact ⟨_, _, hexec, trapInstr_trapped hmay _ _ _ _, syndWord_cause _ _ _ _ _⟩

end Sys2Proof.Machine

/-! The return from the handler (R110, R113, R168). -/

namespace Sys2Proof.Machine

@[simp] theorem TaskBolt.endOwn_snap (b : TaskBolt) : b.endOwn.snap = b.snap := by
  unfold TaskBolt.endOwn; split <;> rfl

/-- Leaving the handler changes the flow and the bolt of the selected task alone. -/
theorem State.leaveHandler_keeps (s : State) : let t := s.leaveHandler
    t.task.regs = s.task.regs ∧ KeepsMemory s t ∧ KeepsOutside s t ∧ KeepsSpecials s t ∧ t.task.eng = s.task.eng ∧
      t.task.stand = s.task.stand :=
  ⟨rfl, fun _ => rfl, rfl, ⟨rfl, rfl, rfl, rfl⟩, rfl, rfl⟩

/-- The bolt that goes on: what its shadow and the outer work held (R168). -/
theorem State.leaveHandler_bolt {s : State} {pc retry holdb : Nat} {w : BoltWork}
    (hshadow : s.task.bolt.shadow = some (pc, retry, holdb)) (houter : s.task.bolt.outer = some w) :
    let t := s.leaveHandler
    t.task.bolt.handler = false ∧ t.task.bolt.boltpc = pc ∧ t.task.bolt.retry = retry ∧ t.task.bolt.holdb = holdb ∧
      t.task.bolt.work = w ∧ t.task.bolt.charged = s.task.bolt.outCharged := by
  simp only [State.leaveHandler, hshadow, houter]
  exact ⟨rfl, rfl, rfl, rfl, rfl, rfl⟩

/-- The repeat whose REP stands at EPC comes back (R110). -/
theorem State.leaveHandler_flow (s : State) : let t := s.leaveHandler
    let rep := s.task.flow.repSh.filter (·.off = s.task.sys.epc.toNat)
    t.task.flow.rep = rep ∧ t.task.flow.nextPc = rep.elim s.task.sys.epc.toNat (·.body) ∧
      (s.task.flow.loopSh = none → t.task.flow.loop = none) :=
  ⟨rfl, rfl, fun h => by simp [State.leaveHandler, State.setBolt, State.setFlow, h]⟩

theorem execEret_of_handler {s : State} {f : Slot} (h : s.goes (.eret f) f) (hh : s.task.bolt.handler = true)
    (hnone : s.handlerHolds = false) : exec (.eret f) s = .next s.leaveHandler := by
  refine (guarded_goes h).trans ?_
  rw [hh, State.returnFromTrap, hnone]
  rfl

/-- Settles O15: what comes back from the shadows, and that an entry undone at once has changed nothing that counts. -/
theorem returnFromTrap : Obligations.ReturnFromTrap := by
  refine ⟨fun s f pc retry holdb w h hh hnone hshadow houter => ?_, fun s r hmay hout hloop hrep => ?_⟩
  · intro epc
    obtain ⟨hrep, hnext, -⟩ := s.leaveHandler_flow
    refine ⟨_, execEret_of_handler h hh hnone, State.leaveHandler_bolt hshadow houter, fun r hr hoff => ?_, fun hr => ?_,
      s.leaveHandler_keeps⟩
    · have hfilter : s.task.flow.repSh.filter (·.off = epc) = some r := by simp [hr, hoff]
      exact ⟨hrep.trans hfilter, hnext.trans (by rw [hfilter]; rfl)⟩
    · have hfilter : s.task.flow.repSh.filter (·.off = epc) = none := by simpa [Option.filter_eq_none_iff] using hr
      exact ⟨hrep.trans hfilter, hnext.trans (by rw [hfilter]; rfl)⟩
  · rw [takeTrap_of_mayTrap hmay]
    intro t
    obtain ⟨hrep', hnext, hloop'⟩ := (s.enterHandler r).leaveHandler_flow
    have hfilter : s.task.flow.rep.filter (·.off = r.epc.toNat) = s.task.flow.rep := by
      cases hr : s.task.flow.rep with
      | none => rfl
      | some x => simp [hrep x hr]
    obtain ⟨hhandler, hpc, hretry, hholdb, hwork, -⟩ := State.leaveHandler_bolt (s := s.enterHandler r) rfl rfl
    refine ⟨hrep'.trans hfilter, hloop' hloop, hnext.trans (congrArg (fun x => x.elim r.epc.toNat (·.body)) hfilter), hpc, hretry, ?_, hwork, rfl, hhandler,
      keepsRegisters_of_regs (by simp [t, State.leaveHandler, State.setBolt, State.setFlow]), fun _ => rfl, rfl⟩
    exact hholdb.trans s.task.bolt.endOwn_holdb

end Sys2Proof.Machine

/-! What a seal leaves of the selected task, of memory and of the claimed granules (R181, R182, R186). -/

namespace Sys2Proof.Machine

/-! ### The selected task under visible writes -/

@[simp] theorem State.fillGranules_task (s : State) (gs : List (Nat × Nat)) : (s.fillGranules gs).task = s.task :=
  task_of_aside (s.fillGranules_aside gs)

@[simp] theorem State.keepOldCode_task (s : State) (cells : List Host.Cell) : (s.keepOldCode cells).task = s.task := by
  unfold State.keepOldCode; split <;> rfl

@[simp] theorem State.touch_task (s : State) (ks : List Nat) : (s.touch ks).task = s.task :=
  foldl_keeps State.task _ _ s fun _ _ => rfl

@[simp] theorem State.show_task (s : State) (cells : List Host.Cell) : (s.show cells).task = s.task := by
  have hfill := State.fillGranules_task ((s.keepOldCode cells).setMem (s.mem.writeCells cells)) (granulesOf (cells.map (·.1)))
  exact (State.touch_task _ _).trans (hfill.trans (s.keepOldCode_task cells))

@[simp] theorem State.chargeKeys_task (s : State) (c : Nat) (ks : List Nat) : (s.chargeKeys c ks).task = s.task := by
  unfold State.chargeKeys; dsimp only; split <;> rfl

@[simp] theorem State.showOpen_task (s : State) (l fn : Nat) (cells : List Host.Cell) : (s.showOpen l fn cells).task = s.task :=
  (State.show_task _ _).trans (s.chargeKeys_task _ _)

/-! ### The selected task under released effects (R182) -/

/-- A task after effects have been released: its levels may have changed, and its flags of degradation. -/
def AfterRelease (u t : Task) : Prop := ∃ stand degr, t = { u with stand, bolt := { u.bolt with degr } }

theorem AfterRelease.of_eq {u t : Task} (h : t = u) : AfterRelease u t := ⟨u.stand, u.bolt.degr, h⟩

theorem AfterRelease.trans {t u v : Task} : AfterRelease t u → AfterRelease u v → AfterRelease t v := by
  rintro ⟨_, _, rfl⟩ ⟨stand, degr, rfl⟩
  exact ⟨stand, degr, rfl⟩

theorem State.flagCapped_afterRelease (s : State) : AfterRelease s.task s.flagCapped.task := by
  unfold State.flagCapped State.onTasks
  dsimp only
  split_ifs
  · exact ⟨s.task.stand, _, rfl⟩
  · exact .of_eq rfl
  · exact .of_eq rfl

/-- A change of a task's levels. -/
theorem State.onTask_afterRelease (s : State) (r : TaskRef) (p : Task → Bool) (g : TaskStand → TaskStand) :
    AfterRelease s.task (s.onTask r fun t => if p t then { t with stand := g t.stand } else t).task := by
  unfold State.onTask
  dsimp only
  split_ifs
  · exact ⟨_, s.task.bolt.degr, rfl⟩
  · exact .of_eq rfl
  · exact .of_eq rfl

theorem State.releaseItem_afterRelease (s : State) (r : Releaser) (i : HoldItem) :
    AfterRelease s.task (s.releaseItem r i).task := by
  cases i with
  | store cells | moved cells => exact .of_eq (s.showOpen_task _ _ _)
  | pxfer plot st ow =>
    refine .of_eq ?_
    unfold State.releaseItem State.transferPlot
    dsimp only
    split <;> rfl
  | opreq rail op => exact State.flagCapped_afterRelease (s.setPkg _)
  | zenter level => exact s.onTask_afterRelease _ r.of (·.enter level)
  | zleave => exact s.onTask_afterRelease _ r.of (·.leave)
  | push | post | launch | spec | decide | cord | skqset | skchn | mail => exact .of_eq rfl

theorem State.dropItem_task (s : State) (r : Releaser) (i : HoldItem) : (s.dropItem r i).task = s.task := by
  cases i <;> rfl

theorem State.releaseAll_afterRelease {r : Releaser} {out : State → HoldItem → State}
    (hout : ∀ s i, AfterRelease s.task (out s i).task) : ∀ (items : List HoldItem) (no : Nat) (s : State),
      AfterRelease s.task (s.releaseAll r out no items).task
  | [], _, _ => .of_eq rfl
  | i :: is, no, s => by
    rw [State.releaseAll]
    refine AfterRelease.trans ?_ (State.releaseAll_afterRelease hout is (no + 1) _)
    split
    · exact .of_eq (s.dropItem_task r i)
    · exact hout s i

/-- How the effects of a bolt leave: released, or buffered while the node is speculative (R181, R318). -/
def State.outlet (s : State) (u : State) (i : HoldItem) : State :=
  (if s.buffered then fun u i => u.bufferItem s.task.releaser i else fun u i => u.releaseItem s.task.releaser i) u i

/-- The state once the held effects of the current bolt have left (R182). -/
def State.afterHold (s : State) : State := s.releaseAll s.task.releaser s.outlet s.task.bolt.relNo s.task.bolt.work.hold

theorem State.releaseHold_eq (s : State) : s.releaseHold = s.afterHold.setBolt
    { s.afterHold.task.bolt with relNo := s.task.bolt.relNo + s.task.bolt.work.hold.length } := rfl

theorem State.afterHold_afterRelease (s : State) : AfterRelease s.task s.afterHold.task := by
  refine State.releaseAll_afterRelease (fun u i => ?_) _ _ _
  unfold State.outlet
  split
  · exact .of_eq rfl
  · exact u.releaseItem_afterRelease _ i

/-! ### The selected task after a seal (R181) -/

/-- The task that a seal leaves, its next bolt beginning at an offset. -/
def Task.sealed (t : Task) (next : Nat) (stand : TaskStand) (snap : BoltSnap) (degr : BitVec 16) : Task :=
  { t with
    eng := { t.eng with marks := 0 }
    stand
    lease := { t.lease with grant := none }
    bolt := { t.bolt with
      boltpc := next
      retry := 0
      holdb := if t.bolt.handler then (t.bolt.shadow.elim 0 (·.2.2)) else 0
      work := .fresh t.bolt.nextNum
      nextNum := t.bolt.nextNum + 1
      snap
      own := none
      relNo := t.bolt.relNo + t.bolt.work.hold.length
      restartable := t.bolt.restartable && !t.bolt.work.pushed
      degr } }

/-- A seal after its effects have left: stream bytes leave for good, claims resolve, words for the helpers become readable. -/
def State.resolved (s : State) : State :=
  let u := s.releaseHold
  let v := (u.setCore (u.myCore.settleStreams s.task.bolt.work.reserved false)).forgetWriter
    (boltId (claimMark s.task.id.lcore s.task.id.part) s.task.bolt.work.num)
  (v.resolveClaims false s.task.bolt.work.claims).onHelpers s.task.id.lcore (sealInbox s.task.id.part s.task.bolt.work.num)

theorem State.resolved_task (s : State) : s.resolved.task = s.releaseHold.task := by
  refine (task_of_aside (State.onHelpers_aside _ _ _)).trans ?_
  exact task_of_aside (State.resolveClaims_aside _ _ _)

/-- The rest of a seal: the next bolt begins, and results and grants of the last one are gone. -/
def State.startBolt (v : State) (t : Task) (next : Nat) : State :=
  let s4 := v.setEng { v.task.eng with marks := 0 }
  let s5 := if s4.task.stand.bst = 2 then s4 else s4.setStand { s4.task.stand with result := none }
  let s6 := s5.setLease { s5.task.lease with grant := none }
  s6.setBolt { s6.task.bolt with
    boltpc := next
    retry := 0
    holdb := if t.bolt.handler then (t.bolt.shadow.elim 0 (·.2.2)) else 0
    work := .fresh t.bolt.nextNum
    nextNum := t.bolt.nextNum + 1
    snap := s6.snapshot
    own := none
    restartable := t.bolt.restartable && !t.bolt.work.pushed }

theorem State.sealNow_eq (s : State) (next : Nat) : s.sealNow next = s.resolved.startBolt s.task next := rfl

theorem State.startBolt_eq (v : State) (t : Task) (next : Nat) : ∃ stand snap, v.startBolt t next = v.setTask { v.task with
    eng := { v.task.eng with marks := 0 }
    stand
    lease := { v.task.lease with grant := none }
    bolt := { v.task.bolt with
      boltpc := next
      retry := 0
      holdb := if t.bolt.handler then (t.bolt.shadow.elim 0 (·.2.2)) else 0
      work := .fresh t.bolt.nextNum
      nextNum := t.bolt.nextNum + 1
      snap
      own := none
      restartable := t.bolt.restartable && !t.bolt.work.pushed } } := by
  by_cases h : v.task.stand.bst = 2
  · refine ⟨v.task.stand, (v.setEng { v.task.eng with marks := 0 }).snapshot, ?_⟩
    rw [State.startBolt]
    simp only [State.setEng_task, h, if_true]
    rfl
  · refine ⟨{ v.task.stand with result := none }, (v.setEng { v.task.eng with marks := 0 }).snapshot, ?_⟩
    rw [State.startBolt]
    simp only [State.setEng_task, h, if_false]
    rfl

theorem State.sealNow_task (s : State) (next : Nat) : ∃ stand snap degr,
    (s.sealNow next).task = s.task.sealed next stand snap degr := by
  obtain ⟨_, degr, hrelease⟩ := s.afterHold_afterRelease
  obtain ⟨stand, snap, hstart⟩ := s.resolved.startBolt_eq s.task next
  refine ⟨stand, snap, degr, ?_⟩
  rw [State.sealNow_eq, hstart, State.setTask_task, State.resolved_task, State.releaseHold_eq, State.setBolt_task, hrelease]
  rfl

/-! ### Memory and claimed granules after a seal (R182, R186) -/

@[simp] theorem State.resolved_mem (s : State) : s.resolved.mem = s.afterHold.mem := by
  simp only [State.resolved, State.onHelpers_mem, State.resolveClaims_mem, State.forgetWriter_mem, State.setCore_mem,
    State.releaseHold_eq, State.setBolt_mem]

/-- A seal changes memory by its held effects alone. -/
theorem State.sealNow_mem (s : State) (next : Nat) : (s.sealNow next).mem = s.afterHold.mem := by
  obtain ⟨_, _, hstart⟩ := s.resolved.startBolt_eq s.task next
  rw [State.sealNow_eq, hstart, State.setTask_mem, State.resolved_mem]

theorem State.afterHold_of_nil {s : State} (h : s.task.bolt.work.hold = []) : s.afterHold = s := by
  rw [State.afterHold, h]
  rfl

@[simp] theorem State.onHelper_cores (s : State) (l w : Nat) (f : Helper → Helper) : (s.onHelper l w f).cores = s.cores := by
  unfold State.onHelper
  repeat' split
  all_goals rfl

@[simp] theorem State.onHelpers_cores (s : State) (l : Nat) (f : Helper → Helper) : (s.onHelpers l f).cores = s.cores :=
  (State.onHelper_cores _ _ _ _).trans (s.onHelper_cores _ _ _)

/-- The cores after a seal are those that the resolution of its claims leaves. -/
theorem State.sealNow_cores (s : State) (next : Nat) : ∃ u : State, (s.sealNow next).cores =
    (u.resolveClaims false s.task.bolt.work.claims).cores := by
  obtain ⟨_, _, hstart⟩ := s.resolved.startBolt_eq s.task next
  rw [State.sealNow_eq, hstart, State.setTask_cores, State.resolved, State.onHelpers_cores]
  exact ⟨_, rfl⟩

/-- A granule is claimed by nobody, and its full bit has a value. -/
def State.resolvedAt (s : State) (full : Bool) (l g : Nat) : Prop := (s.core l).claim g = 0 ∧ (s.core l).isFull g = full

theorem State.resolvedAt_setCore {s : State} {full : Bool} {l g : Nat} (l' g' : Nat) (h : s.resolvedAt full l g ∨ (l = l' ∧ g = g')) :
    (s.setCore (((s.core l').setClaim g' 0).setFull g' full)).resolvedAt full l g := by
  rw [State.resolvedAt, core_setCore]
  have hcore : (((s.core l').setClaim g' 0).setFull g' full).lcore = l' := rfl
  rw [hcore]
  by_cases hl : l = l'
  · subst hl
    rw [if_pos rfl]
    change (((s.core l).setClaim g' 0).setFull g' full).claim g = 0 ∧ (((s.core l).setClaim g' 0).setFull g' full).isFull g = full
    rw [claim_setFull, claim_setClaim, isFull_setFull, isFull_setClaim]
    by_cases hg : g = g'
    · rw [if_pos hg, if_pos hg]
      exact ⟨rfl, rfl⟩
    · rw [if_neg hg, if_neg hg]
      exact h.resolve_right fun e => hg e.2
  · rw [if_neg hl]
    exact h.resolve_right fun e => hl e.1

theorem State.resolvedAt_resolveClaims {full : Bool} {l g : Nat} : ∀ (ks : List Nat) {s : State},
    (s.resolvedAt full l g ∨ ∃ k ∈ ks, ∃ off, corePadOf k = some (l, off) ∧ off / 16 = g) →
    (s.resolveClaims full ks).resolvedAt full l g
  | [], s, h => h.resolve_right fun ⟨_, hk, _⟩ => absurd hk List.not_mem_nil
  | k :: ks, s, h => by
    rw [State.resolveClaims]
    refine State.resolvedAt_resolveClaims ks ?_
    rcases h with h | ⟨j, hj, off, hoff, hg⟩
    · left
      split
      · exact State.resolvedAt_setCore _ _ (.inl h)
      · exact h
    · rcases List.mem_cons.1 hj with rfl | hj
      · left
        rw [hoff]
        exact State.resolvedAt_setCore _ _ (.inr ⟨rfl, hg.symm⟩)
      · exact .inr ⟨j, hj, off, hoff, hg⟩

/-- The granules that a bolt had claimed are empty and unclaimed once it has sealed. -/
theorem State.sealNow_claims {s : State} {k l off : Nat} (next : Nat) (hk : k ∈ s.task.bolt.work.claims)
    (hpad : corePadOf k = some (l, off)) : (s.sealNow next).resolvedAt false l (off / 16) := by
  obtain ⟨u, hcores⟩ := s.sealNow_cores next
  have hresolved := State.resolvedAt_resolveClaims _ (s := u) (full := false) (.inr ⟨k, hk, off, hpad, rfl⟩)
  rwa [State.resolvedAt, State.core, ← hcores] at hresolved

/-! ### Registers -/

/-- States whose registers hold the same once every window has closed keep every register. -/
theorem keepsRegisters_of_holds {s t : State} (h : ∀ x, t.task.regs.close.holds x = s.task.regs.close.holds x) :
    KeepsRegisters s t := by
  refine ⟨fun k => ?_, fun k _ => ?_, fun k => ?_, fun k => ?_⟩
  · simp only [State.finalG, TaskRegs.holds_g_inj.1 (h (0, k))]
  · simp only [State.finalP, TaskRegs.holds_p_inj.1 (h (1, k))]
  · simp only [State.finalM, TaskRegs.holds_m_inj.1 (h (2, k))]
  · simp only [State.finalV, TaskRegs.holds_v_inj.1 (h (3, k))]

theorem State.afterQuiet_regs (s : State) : ∃ clk, s.afterQuiet.task.regs = s.task.regs.settle clk := ⟨_, rfl⟩

theorem State.sealNow_regs (s : State) (next : Nat) : (s.sealNow next).task.regs = s.task.regs := by
  obtain ⟨stand, snap, degr, htask⟩ := s.sealNow_task next
  rw [htask]
  rfl

/-- A seal changes no register: it settles windows that have closed (R29, R181). -/
theorem State.sealNow_keepsRegisters (s : State) (next : Nat) : KeepsRegisters s (s.afterQuiet.sealNow next) := by
  refine keepsRegisters_of_holds fun x => ?_
  obtain ⟨clk, hquiet⟩ := s.afterQuiet_regs
  rw [State.sealNow_regs, hquiet, TaskRegs.holds_settle_close]

end Sys2Proof.Machine

/-! GROW, SHRINK and SEAL, and the registers that a SHRINK gives up (R19, R20, R117, R118, R181). -/

namespace Sys2Proof.Machine

/-! ### Windows -/

theorem State.put_task (s : State) (lat : Nat) (w : RegWrite) :
    (s.put lat w).task = { s.task with regs := (s.put lat w).task.regs } := by
  unfold State.put; split <;> rfl

/-- What a register holds at last depends on what it held and on its own windows. -/
theorem TaskRegs.holds_close_congr {r q : TaskRegs} {x : Nat × Nat} (hbase : r.holds x = q.holds x)
    (hwins : windowsOn x r.wins = windowsOn x q.wins) : r.close.holds x = q.close.holds x := by
  rw [close_eq_applyAll, close_eq_applyAll]
  calc ({ r with wins := [] }.applyAll r.wins).holds x
      = ({ q with wins := [] }.applyAll (windowsOn x r.wins)).holds x :=
        holds_applyAll (r := { r with wins := [] }) (q := { q with wins := [] }) hbase r.wins
    _ = ({ q with wins := [] }.applyAll (windowsOn x q.wins)).holds x := by rw [hwins]
    _ = ({ q with wins := [] }.applyAll q.wins).holds x := (holds_applyAll rfl q.wins).symm

/-! ### Registers given up (R19, R20, R117) -/

/-- A write to a vector register at or beyond a limit. -/
def Window.beyond (limit : Nat) (w : Window) : Bool := decide (w.write.target.1 = 3 ∧ limit ≤ w.write.target.2)

/-- The files without the vector registers at or beyond a limit, and without the outstanding writes to them. -/
def TaskRegs.within (r : TaskRegs) (limit : Nat) : TaskRegs :=
  { r with v := r.v.filter fun x => decide (x.1 < limit), wins := r.wins.filter fun w => !w.beyond limit }

/-- The clock at which the outstanding writes beyond a limit have ended. -/
def TaskRegs.endOfBeyond (r : TaskRegs) (limit clk : Nat) : Nat :=
  (r.wins.filter (·.beyond limit)).foldl (fun acc w => Nat.max acc (w.closes + 1)) clk

theorem State.giveUp_eq {s : State} (h : s.task.flow.freed ≠ 0) : s.giveUp =
    let u := (s.setRegs (s.task.regs.within s.vLimit)).setCore
      { s.myCore with freeGran := s.myCore.freeGran + s.task.flow.freed }
    u.setFlow { s.task.flow with freed := 0, clk := s.task.regs.endOfBeyond s.vLimit s.task.flow.clk } := by
  rw [State.giveUp, if_neg h]
  rfl

theorem sget_filter_key {α : Type} {d : Nat → α} (p : Nat → Bool) (l : Sparse α) (k : Nat) :
    sget d (l.filter fun x => p x.1) k = if p k then sget d l k else d k := by
  induction l with
  | nil => simp [sget]
  | cons x l ih =>
    obtain ⟨j, v⟩ := x
    rw [List.filter_cons]
    by_cases hj : p j = true
    · rw [if_pos hj, sget, sget]
      by_cases hk : k = j
      · rw [if_pos hk, if_pos hk, hk, if_pos hj]
      · rw [if_neg hk, if_neg hk, ih]
    · rw [if_neg hj, ih, sget]
      by_cases hk : k = j
      · rw [hk, if_neg hj, if_neg hj]
      · rw [if_neg hk]

theorem TaskRegs.storedV_within (r : TaskRegs) (limit n : Nat) :
    (r.within limit).storedV n = if n < limit then r.storedV n else 0 := by
  have hfilter := sget_filter_key (d := fun _ => (0 : VReg)) (fun k => decide (k < limit)) r.v n
  simp only [decide_eq_true_eq] at hfilter
  exact hfilter

/-- A register that is kept holds what it held. -/
theorem TaskRegs.holds_within_close {r : TaskRegs} {limit : Nat} {x : Nat × Nat} (h : ¬(x.1 = 3 ∧ limit ≤ x.2)) :
    (r.within limit).close.holds x = r.close.holds x := by
  refine holds_close_congr ?_ ?_
  · obtain ⟨file, n⟩ := x
    match file with
    | 0 | 1 | 2 => rfl
    | 3 => rw [holds_v_inj, storedV_within, if_pos (by simpa using h)]
    | file + 4 => rfl
  · refine (windowsOn_filter (d := true) fun w hw => ?_).trans (if_pos rfl)
    rw [Window.beyond, hw, decide_eq_false h]
    rfl

/-- A vector register beyond the limit holds nothing. -/
theorem TaskRegs.storedV_within_close {r : TaskRegs} {limit n : Nat} (h : limit ≤ n) : (r.within limit).close.storedV n = 0 := by
  have hnone : ∀ w ∈ (r.within limit).wins, w.write.target ≠ (3, n) := fun w hw e => by
    have hkept : (!w.beyond limit) = true := (List.mem_filter.1 hw).2
    rw [Window.beyond, e, decide_eq_true (by exact ⟨rfl, h⟩)] at hkept
    cases hkept
  rw [holds_v_inj.1 (holds_close_of_no_window hnone), storedV_within, if_neg (Nat.not_lt.2 h)]

theorem le_foldl_max {α : Type} (g : α → Nat) (l : List α) (n : Nat) :
    n ≤ l.foldl (fun acc x => Nat.max acc (g x)) n := by
  induction l generalizing n with
  | nil => exact le_rfl
  | cons x l ih => exact (Nat.le_max_left _ _).trans (ih _)

theorem mem_le_foldl_max {α : Type} (g : α → Nat) {l : List α} {x : α} (h : x ∈ l) (n : Nat) :
    g x ≤ l.foldl (fun acc x => Nat.max acc (g x)) n := by
  induction l generalizing n with
  | nil => cases h
  | cons y l ih =>
    rcases List.mem_cons.1 h with rfl | h
    · exact (Nat.le_max_right _ _).trans (le_foldl_max g l _)
    · exact ih h _

/-- An outstanding write to a register given up has ended before the bundle that follows. -/
theorem TaskRegs.ended_of_beyond {r : TaskRegs} {limit clk : Nat} {w : Window} (hw : w ∈ r.wins) (h : w.beyond limit = true) :
    w ∉ (r.within limit).wins ∧ w.closes < r.endOfBeyond limit clk := by
  refine ⟨fun hin => ?_, mem_le_foldl_max (fun w => w.closes + 1) (List.mem_filter.2 ⟨hw, h⟩) clk⟩
  have hkept : (!w.beyond limit) = true := (List.mem_filter.1 hin).2
  rw [h] at hkept
  cases hkept

/-! ### GROW and SHRINK (R117, R118) -/

/-- The allotment after a GROW for which it and the core's pool have room. -/
def State.enlarged (u : State) (k : Nat) : State :=
  (u.setCore { u.myCore with freeGran := u.myCore.freeGran - k }).setId { u.task.id with vgran := u.task.id.vgran + k }

theorem State.enlarged_myCore (u : State) (k : Nat) :
    (u.enlarged k).myCore = { u.myCore with freeGran := u.myCore.freeGran - k } :=
  State.myCore_setCore (s := u) rfl

/-- There is room in the allotment and in the core's pool. -/
abbrev State.hasRoom (u : State) (k : Nat) : Prop := u.task.id.vgran + k ≤ 32 ∧ k ≤ u.myCore.freeGran

/-- GROW once it has sealed. -/
def State.grownBy (u : State) (f : Slot) (k : Nat) : State :=
  if u.hasRoom k then (u.enlarged k).putP f true else u.putP f false

theorem execGrow_of_sealable {s : State} {f : Slot} (hseal : s.sealable) (h : s.goes (.grow f) f) :
    exec (.grow f) s = .next ((s.afterQuiet.sealNow s.task.flow.nextPc).grownBy f f.imm.toNat) :=
  (guarded_goes h).trans (by rw [State.sealThen_of_sealable hseal]; rfl)

/-- What the predicate of GROW leaves alone: everything but its register. -/
theorem State.putP_keeps (u : State) (f : Slot) (x : Bool) : let t := u.putP f x
    t.task.id = u.task.id ∧ t.task.bolt = u.task.bolt ∧ t.myCore = u.myCore ∧ KeepsMemory u t := by
  intro t
  have htask : t.task = { u.task with regs := t.task.regs } := u.put_task _ _
  exact ⟨by rw [htask], by rw [htask], u.myCore_put _ _, fun a => by rw [State.putP_mem]⟩

theorem State.grownBy_writes (u : State) {f : Slot} (hd : f.d.toNat < 16) (k : Nat) : let t := u.grownBy f k
    KeepsOthers u t .p f.d.toNat ∧ KeepsMemory u t ∧ t.task.bolt = u.task.bolt ∧
      if u.hasRoom k then
        t.task.id = { u.task.id with vgran := u.task.id.vgran + k } ∧
        t.myCore = { u.myCore with freeGran := u.myCore.freeGran - k } ∧ t.finalP f.d.toNat = true
      else t.task.id = u.task.id ∧ t.myCore = u.myCore ∧ (f.d.toNat ≠ 0 → t.finalP f.d.toNat = false) := by
  intro t
  by_cases hroom : u.hasRoom k
  · have ht : t = (u.enlarged k).putP f true := if_pos hroom
    obtain ⟨⟨-, -, hothers⟩, hvalue⟩ := putP_writes (u.enlarged k) f hd true
    obtain ⟨hid, hbolt, hcore, hmem⟩ := (u.enlarged k).putP_keeps f true
    rw [if_pos hroom, ht]
    exact ⟨hothers, hmem, hbolt, hid, hcore.trans (u.enlarged_myCore k), hvalue.trans (ite_self _)⟩
  · have ht : t = u.putP f false := if_neg hroom
    obtain ⟨⟨-, -, hothers⟩, hvalue⟩ := putP_writes u f hd false
    obtain ⟨hid, hbolt, hcore, hmem⟩ := u.putP_keeps f false
    rw [if_neg hroom, ht]
    exact ⟨hothers, hmem, hbolt, hid, hcore, fun hne => hvalue.trans (if_neg hne)⟩

/-- SHRINK once it has sealed. -/
def State.shrunkBy (u : State) (k : Nat) : State :=
  (u.setFlow { u.task.flow with freed := u.task.flow.freed + k }).setId { u.task.id with vgran := u.task.id.vgran - k }

theorem State.shrunkBy_keeps (u : State) (k : Nat) : let t := u.shrunkBy k
    t.task.id = { u.task.id with vgran := u.task.id.vgran - k } ∧
      t.task.flow = { u.task.flow with freed := u.task.flow.freed + k } ∧ t.myCore = u.myCore ∧
      t.task.bolt = u.task.bolt ∧ t.task.regs = u.task.regs ∧ KeepsMemory u t :=
  ⟨rfl, rfl, rfl, rfl, rfl, fun _ => rfl⟩

theorem execShrink_of_le {s : State} {f : Slot} (hseal : s.sealable) (h : s.goes (.shrink f) f) (hk : f.imm.toNat ≤ s.task.id.vgran) :
    exec (.shrink f) s = .next ((s.afterQuiet.sealNow s.task.flow.nextPc).shrunkBy f.imm.toNat) := by
  refine (guarded_goes h).trans ?_
  rw [State.sealThen_of_sealable hseal, decide_eq_false (Nat.not_lt.2 hk)]
  rfl

theorem execShrink_of_lt {s : State} {f : Slot} (hseal : s.sealable) (h : s.goes (.shrink f) f) (hk : s.task.id.vgran < f.imm.toNat) :
    exec (.shrink f) s = .next ((s.afterQuiet.sealNow s.task.flow.off).trapInstr 0x0A9 0x14 0 f.imm.toNat) := by
  refine (guarded_goes h).trans ?_
  rw [State.sealThen_of_sealable hseal, decide_eq_true hk]
  rfl

/-- A trap of an instruction keeps the task's identity and its core. -/
theorem State.trapInstr_keeps {v : State} (hmay : v.mayTrap) (op cause detail info : Nat) : let t := v.trapInstr op cause detail info
    t.task.id = v.task.id ∧ t.myCore = v.myCore := by
  have henter := takeTrap_of_mayTrap hmay
  intro t
  constructor
  · rw [show t = v.trapInstr op cause detail info from rfl, State.trapInstr, State.trap, henter, enterHandler_id]
  · rw [show t = v.trapInstr op cause detail info from rfl, State.trapInstr, State.trap, henter]
    rfl

/-- A seal charges no error and does not enter the handler. -/
theorem State.sealNow_mayTrap {s : State} (h : s.mayTrap) (next : Nat) : (s.afterQuiet.sealNow next).mayTrap := by
  obtain ⟨stand, snap, degr, htask⟩ := s.afterQuiet.sealNow_task next
  rw [State.mayTrap, htask]
  exact h

/-! ### SEAL (R181, R182) -/

theorem execSealBolt_of_sealable {s : State} {f : Slot} (hseal : s.sealable) (h : s.goes (.sealBolt f) f) :
    exec (.sealBolt f) s = .next (s.afterQuiet.sealNow s.task.flow.nextPc) :=
  (guarded_goes h).trans (by rw [State.sealThen_of_sealable hseal]; rfl)

theorem execSealBolt_waits {s : State} {f : Slot} (hfault : s.sealFault = none) (hready : s.sealReady = false)
    (h : s.goes (.sealBolt f) f) : exec (.sealBolt f) s = .next (s.waitFor (.seal s.task.flow.nextPc)) := by
  refine (guarded_goes h).trans ?_
  rw [State.sealThen, hfault]
  simp only [hready, Bool.false_eq_true, if_false]

/-- The bytes of one held store that a release makes visible (R182, R333). -/
theorem State.afterHold_store {s : State} {cells : List Host.Cell} (hhold : s.task.bolt.work.hold = [.store cells])
    (hbuf : s.buffered = false) (hno : s.releasedCount s.task.releaser ≤ s.task.bolt.relNo) :
    s.afterHold.mem = s.mem.writeCells (cells.filter fun c => s.stillOpen s.task.id.lcore c.1) := by
  have hout : s.outlet = fun u i => u.releaseItem s.task.releaser i := by
    funext u i
    rw [State.outlet, hbuf]
    rfl
  have hfresh : (decide (s.task.bolt.relNo < s.releasedCount s.task.releaser) && !(HoldItem.store cells).own) = false := by
    rw [decide_eq_false (Nat.not_lt.2 hno), Bool.false_and]
  rw [State.afterHold, hhold, hout, State.releaseAll, hfresh]
  refine (show_mem _ _).trans ?_
  rw [State.bus_mem, State.chargeKeys_mem]
  rfl

theorem State.waitFor_keeps (s : State) (k : WaitKind) : let t := s.waitFor k
    t.task.flow.fate = .waits k ∧ t.task.bolt = s.task.bolt ∧ t.task.regs = s.task.regs ∧ KeepsMemory s t ∧ KeepsOutside s t :=
  ⟨rfl, rfl, rfl, fun _ => rfl, rfl⟩

theorem State.giveUp_keeps {s : State} (hfreed : s.task.flow.freed ≠ 0) : let t := s.giveUp
    t.task.flow.freed = 0 ∧ t.task.id = s.task.id ∧ KeepsMemory s t ∧
      t.myCore = { s.myCore with freeGran := s.myCore.freeGran + s.task.flow.freed } := by
  rw [State.giveUp_eq hfreed]
  exact ⟨rfl, rfl, fun _ => rfl, State.myCore_setCore (s := s.setRegs _) rfl⟩

theorem State.giveUp_regs {s : State} (hfreed : s.task.flow.freed ≠ 0) :
    s.giveUp.task.regs = s.task.regs.within s.vLimit ∧
      s.giveUp.task.flow.clk = s.task.regs.endOfBeyond s.vLimit s.task.flow.clk := by
  rw [State.giveUp_eq hfreed]
  exact ⟨rfl, rfl⟩

/-- The registers that a SHRINK gave up hold 0 and the others what they held. -/
theorem State.giveUp_finals {s : State} (hfreed : s.task.flow.freed ≠ 0) (n : Nat) : let t := s.giveUp
    (n < s.vLimit → t.finalV n = s.finalV n) ∧ (s.vLimit ≤ n → t.finalV n = 0) ∧ t.finalG n = s.finalG n ∧
      (n < 16 → t.finalP n = s.finalP n) ∧ t.finalM n = s.finalM n := by
  intro t
  have hregs : t.task.regs = s.task.regs.within s.vLimit := (State.giveUp_regs hfreed).1
  have hkeep {x : Nat × Nat} (hx : ¬(x.1 = 3 ∧ s.vLimit ≤ x.2)) : t.task.regs.close.holds x = s.task.regs.close.holds x := by
    rw [hregs]
    exact TaskRegs.holds_within_close hx
  refine ⟨fun hn => ?_, fun hn => ?_, ?_, fun _ => ?_, ?_⟩
  · exact TaskRegs.holds_v_inj.1 (hkeep fun hx => absurd hx.2 (Nat.not_le.2 hn))
  · rw [State.finalV, hregs]
    exact TaskRegs.storedV_within_close hn
  · simp only [State.finalG, TaskRegs.holds_g_inj.1 (hkeep (x := (0, n)) (by simp))]
  · simp only [State.finalP, TaskRegs.holds_p_inj.1 (hkeep (x := (1, n)) (by simp))]
  · simp only [State.finalM, TaskRegs.holds_m_inj.1 (hkeep (x := (2, n)) (by simp))]

/-- Settles O17: the branch that GROW and SHRINK take once they have sealed, what a seal leaves, and its wait. -/
theorem allotmentsAndSeals : Obligations.AllotmentsAndSeals := by
  refine ⟨⟨fun s f hseal => ?_, fun s hfreed => ?_⟩, fun s f hseal h => ?_, fun s f hfault hready h =>
    ⟨_, execSealBolt_waits hfault hready h, s.waitFor_keeps _⟩⟩
  · refine ⟨fun h hd => ⟨_, execGrow_of_sealable hseal h, State.grownBy_writes _ hd _⟩,
      fun h hk => ⟨_, execShrink_of_le hseal h hk, State.shrunkBy_keeps _ _⟩, fun h hk hmay => ?_⟩
    have hmay' := State.sealNow_mayTrap hmay s.task.flow.off
    obtain ⟨hhandler, -, -, hsynd, -⟩ := trapInstr_trapped hmay' 0x0A9 0x14 0 f.imm.toNat
    exact ⟨_, _, execShrink_of_lt hseal h hk, hsynd, syndWord_cause _ _ _ _ _, hhandler, State.trapInstr_keeps hmay' _ _ _ _⟩
  · obtain ⟨hempty, hid, hmem, hcore⟩ := State.giveUp_keeps hfreed
    obtain ⟨hregs, hclk⟩ := State.giveUp_regs hfreed
    refine ⟨hempty, hid, hmem, hcore, fun w hw n m y hwrite hn => ?_, fun n => State.giveUp_finals hfreed n⟩
    rw [hregs, hclk]
    refine TaskRegs.ended_of_beyond hw ?_
    rw [Window.beyond, hwrite]
    exact decide_eq_true ⟨rfl, hn⟩
  · obtain ⟨stand, snap, degr, htask⟩ := s.afterQuiet.sealNow_task s.task.flow.nextPc
    refine ⟨_, execSealBolt_of_sealable hseal h, ?_, fun hhold a => ?_, fun cells hhold hbuf hno a => ?_,
      fun k hk l off => State.sealNow_claims (s := s.afterQuiet) _ hk, s.sealNow_keepsRegisters _, ?_, ?_, ?_, ?_⟩
    · rw [htask]
      exact ⟨rfl, rfl, rfl, rfl, rfl, rfl, fun hh => if_neg (hh ▸ Bool.false_ne_true)⟩
    · rw [State.sealNow_mem, State.afterHold_of_nil (s := s.afterQuiet) hhold]
      rfl
    · rw [State.sealNow_mem, State.afterHold_store (s := s.afterQuiet) hhold hbuf hno]
      rfl
    all_goals rw [htask]; rfl

end Sys2Proof.Machine

/-! Read-modify-writes: what CAS and AMO send and how the controller serves it (R124 to R126, R180, R346). -/

namespace Sys2Proof.Machine

/-! ### Bytes in a row -/

theorem natOfBytes_lt (bs : List Byte) : natOfBytes bs < 256 ^ bs.length := by
  induction bs with
  | nil => decide
  | cons b bs ih =>
    have hb : b.toNat < 256 := b.isLt
    rw [natOfBytes, List.length_cons, Nat.pow_succ]
    omega

theorem cellsAt_keys (k : Nat) (bs : List Byte) : (cellsAt k bs).map (·.1) = List.range' k bs.length := by
  induction bs generalizing k with
  | nil => rfl
  | cons b bs ih => rw [cellsAt, List.map_cons, ih, List.length_cons, List.range'_succ]

theorem Memory.read_writeCells_outside (m : Memory) {k a : Nat} {bs : List Byte} (h : a < k ∨ k + bs.length ≤ a) :
    (m.writeCells (cellsAt k bs)).read a = m.read a := by
  refine Memory.read_writeCells_of_not_mem ?_
  rw [cellsAt_keys, List.mem_range'_1]
  omega

/-- Bytes written in a row stand there. -/
theorem Memory.holds_writeCells (m : Memory) (k : Nat) (bs : List Byte) : (m.writeCells (cellsAt k bs)).Holds k bs := by
  induction bs generalizing m k with
  | nil => rfl
  | cons b bs ih =>
    have hfirst : ((m.write k b).writeCells (cellsAt (k + 1) bs)).read k = b := by
      rw [read_writeCells_outside _ (.inl (Nat.lt_succ_self k)), read_write, if_pos rfl]
    exact congrArg₂ List.cons hfirst (ih (m.write k b) (k + 1))

/-! ### Sending -/

theorem keepsRegisters_trans {s t u : State} (h : KeepsRegisters s t) (hregs : u.task.regs = t.task.regs) : KeepsRegisters s u := by
  simpa only [KeepsRegisters, State.finalG, State.finalP, State.finalM, State.finalV, hregs] using h

/-- The state from which an operation that forms a bolt of its own goes on: behind its seal, unless it begins the bolt that
replays (R180). -/
def State.ownStart (s : State) : State := if s.task.flow.redo then s else s.afterQuiet.sealNow s.task.flow.off

theorem State.sealOwn_eq {s : State} (h : s.sealable ∨ s.task.flow.redo = true) (k : State → State) :
    s.sealOwn k = k s.ownStart := by
  rw [State.sealOwn, State.ownStart]
  by_cases hredo : s.task.flow.redo = true
  · rw [if_pos hredo, if_pos hredo]
  · rw [if_neg hredo, if_neg hredo, State.sealThen_of_sealable (h.resolve_right hredo)]

/-- The seal keeps the task's name, its RMW number and its registers. -/
theorem State.ownStart_keeps (s : State) : s.ownStart.task.ref = s.task.ref ∧
    s.ownStart.task.bolt.rmwNo = s.task.bolt.rmwNo ∧ KeepsRegisters s s.ownStart := by
  rw [State.ownStart]
  by_cases hredo : s.task.flow.redo = true
  · rw [if_pos hredo]
    exact ⟨rfl, rfl, fun _ => rfl, fun _ _ => rfl, fun _ => rfl, fun _ => rfl⟩
  · rw [if_neg hredo]
    obtain ⟨stand, snap, degr, htask⟩ := s.afterQuiet.sealNow_task s.task.flow.off
    refine ⟨?_, ?_, s.sealNow_keepsRegisters _⟩
    all_goals rw [htask]; rfl

/-- The request that CAS or AMO sends (R124 to R126). -/
def State.request (s : State) (f : Slot) (k aop : Nat) : Rmw where
  line := k / 64
  who := s.task.ref
  num := s.task.bolt.rmwNo
  addr := k
  width := accessBytes f
  signed := isSigned f.t
  aop := aop
  b := s.g f.b.toNat
  c := s.g f.c.toNat
  dest := f.d.toNat
  lat := f.lat.toNat

@[simp] theorem State.chargeKeys_rmwQ (s : State) (c : Nat) (ks : List Nat) : (s.chargeKeys c ks).rmwQ = s.rmwQ := by
  unfold State.chargeKeys; dsimp only; split <;> rfl

/-- A request stands in the controllers' queue. -/
def State.queued (s : State) (r : Rmw) : State := { s with rmwQ := s.rmwQ ++ [r] }

theorem State.sendRmw_eq {s : State} {f : Slot} {k : Nat} (aop : Nat) (hbuf : s.buffered = false)
    (hroom : (s.rmwQ.filter fun (r : Rmw) => r.line = k / 64).length < 32) : s.sendRmw f k aop =
      ((s.queued (s.request f k aop)).chargeKeys s.myCluster ((List.range (accessBytes f)).map (k + ·))).waitFor .rmw :=
  if_neg fun h => h.elim (fun hb => Bool.false_ne_true (hbuf ▸ hb)) (Nat.not_le.2 hroom)

/-- A request behind which the task waits: nothing but the controller's queue and the flow has changed. -/
theorem State.sendRmw_sends {s : State} {f : Slot} {k : Nat} (aop : Nat) (hbuf : s.buffered = false)
    (hroom : (s.rmwQ.filter fun (r : Rmw) => r.line = k / 64).length < 32) : let t := s.sendRmw f k aop
    t.task.flow.fate = .waits .rmw ∧ t.rmwQ = s.rmwQ ++ [s.request f k aop] ∧ t.task.regs = s.task.regs ∧ KeepsMemory s t := by
  rw [State.sendRmw_eq aop hbuf hroom]
  refine ⟨rfl, State.chargeKeys_rmwQ _ _ _, ?_, fun a => ?_⟩
  · change ((s.queued _).chargeKeys _ _).task.regs = s.task.regs
    rw [State.chargeKeys_task]
    rfl
  · rw [State.waitFor_mem, State.chargeKeys_mem]
    rfl

theorem State.readModifyWrite_of_resolved {s : State} {f : Slot} {ks : List Nat} (aop : Nat)
    (hkeys : s.resolve { rmw := true } (s.ea f) (accessBytes f) (accessBytes f) = .ok ks)
    (h : s.sealable ∨ s.task.flow.redo = true) : s.readModifyWrite f aop = s.ownStart.sendRmw f (ks.headD 0) aop := by
  rw [State.readModifyWrite, hkeys]
  exact State.sealOwn_eq h _

/-! ### Serving (R124, R125, R346) -/

/-- What a reply leaves alone once the operation has been made: memory, the controllers' queue and the log. -/
def State.ledger (s : State) : Memory × List Rmw × List Reply := (s.mem, s.rmwQ, s.replyLog)

/-- The tasks, the controllers' queue and the log: what a visible write leaves alone. -/
def State.partners (s : State) : Task × List Task × List Rmw × List Reply := (s.task, s.parked, s.rmwQ, s.replyLog)

theorem State.keepOldCode_partners (s : State) (cells : List Host.Cell) : (s.keepOldCode cells).partners = s.partners := by
  unfold State.keepOldCode; split <;> rfl

theorem State.fillGranules_partners (s : State) (gs : List (Nat × Nat)) : (s.fillGranules gs).partners = s.partners := by
  induction gs generalizing s with
  | nil => rfl
  | cons g gs ih => exact ih _

theorem State.touch_partners (s : State) (ks : List Nat) : (s.touch ks).partners = s.partners :=
  foldl_keeps State.partners _ _ s fun _ _ => rfl

theorem State.show_partners (s : State) (cells : List Host.Cell) : (s.show cells).partners = s.partners := by
  have hfill := State.fillGranules_partners ((s.keepOldCode cells).setMem (s.mem.writeCells cells)) (granulesOf (cells.map (·.1)))
  exact (State.touch_partners _ _).trans (hfill.trans (s.keepOldCode_partners cells))

theorem State.select_task {s : State} {r : TaskRef} {t : Task} (h : s.taskAt r = some t) : (s.select r).task = t := by
  rw [State.taskAt, State.tasks, List.find?_cons] at h
  rw [State.select]
  cases hs : s.task.is r
  · simp only [hs] at h
    rw [if_neg Bool.false_ne_true, h]
  · rw [if_pos rfl]
    simpa only [hs, Option.some.injEq] using h

theorem State.select_ledger (s : State) (r : TaskRef) : (s.select r).ledger = s.ledger := by
  unfold State.select
  split
  · rfl
  · split <;> rfl

theorem State.put_ledger (s : State) (lat : Nat) (w : RegWrite) : (s.put lat w).ledger = s.ledger := by
  unfold State.put; split <;> rfl

theorem State.resolveClaims_ledger (s : State) (full : Bool) (ks : List Nat) : (s.resolveClaims full ks).ledger = s.ledger := by
  induction ks generalizing s with
  | nil => rfl
  | cons k ks ih => refine (ih _).trans ?_; split <;> rfl

theorem State.onHelpers_ledger (s : State) (l : Nat) (f : Helper → Helper) : (s.onHelpers l f).ledger = s.ledger := by
  have hone (u : State) (w : Nat) : (u.onHelper l w f).ledger = u.ledger := by
    unfold State.onHelper
    repeat' split
    all_goals rfl
  exact (hone _ _).trans (hone s _)

/-- A seal with nothing held writes no memory, sends no request and logs no reply. -/
theorem State.sealNow_ledger {s : State} (hhold : s.task.bolt.work.hold = []) (next : Nat) :
    (s.sealNow next).ledger = s.ledger := by
  obtain ⟨_, _, hstart⟩ := s.resolved.startBolt_eq s.task next
  rw [State.sealNow_eq, hstart]
  refine (State.onHelpers_ledger _ _ _).trans ((State.resolveClaims_ledger _ _ _).trans ?_)
  rw [State.releaseHold_eq, State.afterHold_of_nil hhold]
  rfl

theorem State.afterRepetition_keeps (s : State) (rep : Option RepState) :
    (s.afterRepetition rep).ledger = s.ledger ∧ (s.afterRepetition rep).task.bolt = s.task.bolt := by
  unfold State.afterRepetition
  split
  · split <;> exact ⟨rfl, rfl⟩
  · exact ⟨rfl, rfl⟩

theorem State.afterBundle_keeps (s : State) (off : Nat) (loop : Option LoopState) :
    (s.afterBundle off loop).ledger = s.ledger ∧ (s.afterBundle off loop).task.bolt = s.task.bolt := by
  unfold State.afterBundle State.endPass
  split
  · dsimp only
    split_ifs <;> exact ⟨rfl, rfl⟩
  · exact ⟨rfl, rfl⟩

/-- A read-modify-write retires behind a seal of its own (R180). -/
theorem State.retire_rmw {s : State} (howns : s.task.flow.owns = some .rmw) (rep : Option RepState) (loop : Option LoopState)
    (hasOp : Bool) : ∃ flow next bolt, s.retire rep loop hasOp =
      ((((s.afterRepetition rep).afterBundle s.task.flow.off loop).setFlow flow).sealNow next).setBolt bolt := by
  unfold State.retire
  rw [howns]
  exact ⟨_, _, _, rfl⟩

theorem State.setBolt_ledger (s : State) (b : TaskBolt) : (s.setBolt b).ledger = s.ledger := rfl

theorem State.setFlow_ledger (s : State) (f : TaskFlow) : (s.setFlow f).ledger = s.ledger := rfl

theorem State.sealAfter_ledger {u : State} (hhold : u.task.bolt.work.hold = []) (flow : TaskFlow) (next : Nat) (bolt : TaskBolt) :
    (((u.setFlow flow).sealNow next).setBolt bolt).ledger = u.ledger := by
  have hnone : (u.setFlow flow).task.bolt.work.hold = [] := hhold
  rw [State.setBolt_ledger, State.sealNow_ledger hnone, State.setFlow_ledger]

theorem State.retire_rmw_ledger {s : State} (howns : s.task.flow.owns = some .rmw) (hhold : s.task.bolt.work.hold = [])
    (rep : Option RepState) (loop : Option LoopState) (hasOp : Bool) : (s.retire rep loop hasOp).ledger = s.ledger := by
  obtain ⟨flow, next, bolt, hretire⟩ := State.retire_rmw howns rep loop hasOp
  obtain ⟨hrep, hrepBolt⟩ := s.afterRepetition_keeps rep
  obtain ⟨hloop, hloopBolt⟩ := (s.afterRepetition rep).afterBundle_keeps s.task.flow.off loop
  rw [hretire, State.sealAfter_ledger (by rw [hloopBolt, hrepBolt, hhold]), hloop, hrep]

/-- A reply changes neither memory nor the log. -/
theorem State.deliverReply_ledger {s : State} {r : Rmw} {t : Task} (hwho : s.taskAt r.who = some t)
    (hhold : t.bolt.work.hold = []) (old : W64) (ok : Bool) : (s.deliverReply r old ok).ledger = s.ledger := by
  unfold State.deliverReply
  dsimp only
  split
  · rfl
  · refine (State.retire_rmw_ledger rfl ?_ _ _ _).trans ((State.put_ledger _ _ _).trans (s.select_ledger _))
    change ((s.select r.who).put r.lat _).task.bolt.work.hold = []
    rw [State.put_task, State.select_task hwho, hhold]

/-- The reply to a request of a task. -/
def Rmw.reply (r : Rmw) (t : Task) (old : Nat) (ok : Bool) : Reply :=
  ⟨t.id.queue, t.id.packet, t.id.tile, r.num, BitVec.ofNat 64 old, ok⟩

/-- A state whose request has left the queue, whose bytes are stored and whose reply is logged. -/
def State.served (s : State) (r : Rmw) (t : Task) : State :=
  (State.show { s with rmwQ := s.rmwQ.erase r } (s.rmwEffect r).2.2).logReply (r.reply t (s.rmwEffect r).1 (s.rmwEffect r).2.1)

/-- A request without a logged reply is served by its operation. -/
theorem State.serveRmw_eq {s : State} {r : Rmw} {t : Task} (hwho : s.taskAt r.who = some t) (hlog : s.logged t r.num = none) :
    s.serveRmw r = (s.served r t).deliverReply r (BitVec.ofNat 64 (s.rmwEffect r).1) (s.rmwEffect r).2.1 := by
  have hwho' : State.taskAt { s with rmwQ := s.rmwQ.erase r } r.who = some t := hwho
  have hlog' : State.logged { s with rmwQ := s.rmwQ.erase r } t r.num = none := hlog
  unfold State.serveRmw
  simp only [hwho', hlog']
  rfl

theorem State.served_taskAt (s : State) (r : Rmw) (t : Task) (who : TaskRef) : (s.served r t).taskAt who = s.taskAt who := by
  have hpartners := State.show_partners { s with rmwQ := s.rmwQ.erase r } (s.rmwEffect r).2.2
  simp only [State.partners, Prod.mk.injEq] at hpartners
  obtain ⟨htask, hparked, -, -⟩ := hpartners
  simp only [State.taskAt, State.tasks, State.served, State.logReply, htask, hparked]

theorem State.served_ledger (s : State) (r : Rmw) (t : Task) : ∃ kept, (s.served r t).ledger =
    (s.mem.writeCells (s.rmwEffect r).2.2, s.rmwQ.erase r, kept ++ [r.reply t (s.rmwEffect r).1 (s.rmwEffect r).2.1]) := by
  have hpartners := State.show_partners { s with rmwQ := s.rmwQ.erase r } (s.rmwEffect r).2.2
  simp only [State.partners, Prod.mk.injEq] at hpartners
  obtain ⟨-, -, hqueue, -⟩ := hpartners
  exact ⟨_, congrArg₂ Prod.mk (show_mem _ _) (congrArg₂ Prod.mk hqueue rfl)⟩

/-- What a controller stores fits its location. -/
theorem rmwValue_lt (aop : Nat) (signed : Bool) {w old b c : Nat} (ho : old < 2 ^ w) (hb : b < 2 ^ w) (hc : c < 2 ^ w) :
    rmwValue aop w signed old b c < 2 ^ w := by
  unfold rmwValue
  dsimp only
  split
  · exact hb
  · exact Nat.mod_lt _ (Nat.two_pow_pos w)
  · split_ifs <;> assumption
  · split_ifs <;> assumption
  · exact lt_of_le_of_lt Nat.and_le_left ho
  · exact Nat.or_lt_two_pow ho hb
  · exact Nat.xor_lt_two_pow ho hb
  · split_ifs <;> assumption

/-- The value that a request leaves at its location. -/
def State.rmwNew (s : State) (r : Rmw) : Nat :=
  rmwValue r.aop (8 * r.width) r.signed (natOfBytes (s.mem.readBytes r.addr r.width)) (r.b.toNat % 2 ^ (8 * r.width))
    (r.c.toNat % 2 ^ (8 * r.width))

/-- The request is a CAS that does not find what it compares. -/
def State.rmwFails (s : State) (r : Rmw) : Prop :=
  r.aop = 8 ∧ natOfBytes (s.mem.readBytes r.addr r.width) ≠ r.b.toNat % 2 ^ (8 * r.width)

theorem State.rmwEffect_of_fails {s : State} {r : Rmw} (h : s.rmwFails r) : (s.rmwEffect r).2.2 = [] := by
  obtain ⟨hcas, hne⟩ := h
  refine if_pos ?_
  rw [decide_eq_true hcas, decide_eq_false hne]
  rfl

theorem State.rmwEffect_of_stores {s : State} {r : Rmw} (h : ¬s.rmwFails r) :
    (s.rmwEffect r).2.2 = cellsAt r.addr (bytesOfNat r.width (s.rmwNew r)) := by
  refine if_neg fun hfails => h ?_
  rwa [Bool.and_eq_true, Bool.not_eq_true', decide_eq_true_eq, decide_eq_false_iff_not] at hfails

theorem State.rmwNew_lt (s : State) (r : Rmw) : s.rmwNew r < 256 ^ r.width := by
  have hpow : 256 ^ r.width = 2 ^ (8 * r.width) := by rw [Nat.pow_mul]
  have hold := natOfBytes_lt (s.mem.readBytes r.addr r.width)
  rw [Memory.readBytes_length, hpow] at hold
  rw [hpow]
  exact rmwValue_lt _ _ hold (Nat.mod_lt _ (Nat.two_pow_pos _)) (Nat.mod_lt _ (Nat.two_pow_pos _))

/-- An operation of a controller stores its value and nothing else; a CAS that does not find what it compares stores nothing. -/
theorem State.rmwEffect_cases (s : State) (r : Rmw) : let m := s.mem.writeCells (s.rmwEffect r).2.2
    (∀ a, a < r.addr ∨ r.addr + r.width ≤ a → m.read a = s.mem.read a) ∧
      (s.rmwFails r → ∀ a, m.read a = s.mem.read a) ∧
      (¬s.rmwFails r → natOfBytes (m.readBytes r.addr r.width) = s.rmwNew r) := by
  by_cases h : s.rmwFails r
  · rw [State.rmwEffect_of_fails h]
    exact ⟨fun _ _ => rfl, fun _ _ => rfl, fun hn => absurd h hn⟩
  · rw [State.rmwEffect_of_stores h]
    refine ⟨fun a ha => Memory.read_writeCells_outside _ (by rwa [bytesOfNat_length]), fun hf => absurd hf h, fun _ => ?_⟩
    rw [(Memory.holds_writeCells _ _ _).number, Nat.mod_eq_of_lt (s.rmwNew_lt r)]

/-- Settles O20: the request behind the seal; then the operation of the controller, by the bytes it stores. -/
theorem readModifyWrites : Obligations.ReadModifyWrites := by
  refine ⟨fun s f ks hready => ?_, fun s line r t hfind hwho hlog hhold _ => ?_⟩
  · intro u sends
    obtain ⟨href, hno, hregs⟩ := s.ownStart_keeps
    have hsends (i : Instr) (aop : Nat) (hexec : s.goes i f → exec i s = .next (s.readModifyWrite f aop)) : sends i aop := by
      intro hgoes hbuf hroom hkeys
      obtain ⟨hfate, hqueue, hsame, hmem⟩ := State.sendRmw_sends (s := s.ownStart) (f := f) aop hbuf hroom
      exact ⟨_, _, (hexec hgoes).trans (congrArg _ (State.readModifyWrite_of_resolved aop hkeys hready)), hfate, hqueue,
        href, hno, rfl, rfl, rfl, rfl, rfl, rfl, rfl, hsame, keepsRegisters_trans hregs hsame, hmem⟩
    exact ⟨hsends _ _ fun h => guarded_goes h, hsends _ _ fun h => guarded_goes h⟩
  · intro old b c new
    obtain ⟨kept, hledger⟩ := s.served_ledger r t
    rw [← State.deliverReply_ledger ((s.served_taskAt r t r.who).trans hwho) hhold, ← State.serveRmw_eq hwho hlog] at hledger
    obtain ⟨hmem, hrest⟩ := Prod.mk.inj hledger
    obtain ⟨hqueue, hreplies⟩ := Prod.mk.inj hrest
    have hexec : exec (.rmwService line) s = .next (s.serveRmw r) := by
      change execRmwService line s = _
      rw [execRmwService, hfind]
    obtain ⟨hframe, hkeeps, hvalue⟩ := s.rmwEffect_cases r
    rw [← hmem] at hframe hkeeps hvalue
    exact ⟨_, hexec, hqueue, hframe, fun hcas hne => hkeeps ⟨hcas, hne⟩,
      fun h => hvalue fun ⟨hcas, hne⟩ => h.elim (· hcas) hne, _, hreplies ▸ List.mem_concat_self, rfl, rfl, rfl, rfl, rfl⟩

end Sys2Proof.Machine

/-! Keys of a scalar access, the granules they lie in, and the bytes that a hold covers (R32, R121, R182, R258). -/

namespace Sys2Proof.Machine

/-! ### Keys of a scalar access -/

/-- The size of a scalar access in bytes (R96, R120). -/
def AccessSize (n : Nat) : Prop := n = 1 ∨ n = 2 ∨ n = 4 ∨ n = 8

theorem accessSize_intWidth (t : BitVec 5) : AccessSize (intWidth t / 8) := by
  rcases intWidth_cases t with h | h | h | h <;> rw [h, AccessSize] <;> decide

theorem place_global {s : State} {ptr : W64} {n va : Nat} (h : s.place ptr n = .ok (.global va)) :
    va = ptr.toNat % 2 ^ 48 := by
  simp only [State.place, placeOf] at h
  split_ifs at h <;> cases h
  rfl

theorem clusterKey_injective (s : State) (c off : Nat) : Function.Injective fun i => s.clusterKey c (off + i) := by
  intro a b h
  simp only [State.clusterKey, keyClusterPad] at h
  split_ifs at h <;> omega

/-- The bytes of an aligned scalar access have one key each: it crosses no page edge (R121). -/
theorem State.resolve_scalar {s : State} {fm : AccessForm} {ptr : W64} {n : Nat} {ks : List Nat} (hn : AccessSize n)
    (h : s.resolve fm ptr n n = .ok ks) : ∃ key : Nat → Nat, Function.Injective key ∧ ks = (List.range n).map key := by
  rw [State.resolve] at h
  cases hplace : s.place ptr n with
  | error r => rw [hplace] at h; cases h
  | ok pl =>
    rw [hplace] at h
    simp only at h
    split_ifs at h with halign
    cases hpiece : s.resolvePiece fm pl with
    | error e => rw [hpiece] at h; cases h
    | ok k =>
      rw [hpiece] at h
      have hrow : Function.Injective fun i => k + i := fun a b => Nat.add_left_cancel
      cases pl with
      | corePad l off across | diePad d off => exact ⟨_, hrow, (Except.ok.inj h).symm⟩
      | clusterPad c off => exact ⟨_, clusterKey_injective s c off, (Except.ok.inj h).symm⟩
      | global va =>
        have hva := place_global hplace
        have hroom : n ≤ 65536 - va % 65536 := by
          rcases hn with rfl | rfl | rfl | rfl <;> omega
        simp only [if_pos hroom] at h
        exact ⟨_, hrow, (Except.ok.inj h).symm⟩

/-- An aligned scalar access to the own core pad (R32). -/
theorem State.resolve_ownPad {s : State} {fm : AccessForm} {off n : Nat} (hn : AccessSize n) (hrmw : fm.rmw = false)
    (hoff : off + n ≤ 2 ^ 21) (halign : off % n = 0) : s.resolve fm (BitVec.ofNat 64 (0xF00000000000 + off)) n n =
      .ok ((List.range n).map (keyCorePad s.task.id.lcore off + ·)) := by
  have hpos : 0 < n := by rcases hn with rfl | rfl | rfl | rfl <;> decide
  have hplace : s.place (BitVec.ofNat 64 (0xF00000000000 + off)) n = .ok (.corePad s.task.id.lcore off false) :=
    placeOf_ownPad hpos hoff
  have haligned : (BitVec.ofNat 64 (0xF00000000000 + off)).toNat % n = 0 := by
    rw [toNat_of_lt_window (by omega)]
    rcases hn with rfl | rfl | rfl | rfl <;> omega
  rw [State.resolve, hplace]
  simp only [haligned, ne_eq, not_true_eq_false, if_false, State.resolvePiece, hrmw, Bool.false_eq_true]

/-! ### Core pads and granules -/

theorem corePadOf_keyCorePad {l off : Nat} (hl : l < 192) (hoff : off < 2 ^ 21) : corePadOf (keyCorePad l off) = some (l, off) := by
  have hdiv : (l * 2 ^ 21 + off) / 2 ^ 21 = l := by omega
  have hmod : (l * 2 ^ 21 + off) % 2 ^ 21 = off := by omega
  rw [corePadOf, keyCorePad, if_pos (by omega), Nat.add_assoc, Nat.add_sub_cancel_left, hdiv, hmod]

theorem keyCorePad_add (l off i : Nat) : keyCorePad l off + i = keyCorePad l (off + i) := by
  rw [keyCorePad, keyCorePad, Nat.add_assoc]

theorem State.ownPad_keyCorePad {s : State} {off : Nat} (hl : s.task.id.lcore < 192) (hoff : off < 2 ^ 21) :
    s.ownPad (keyCorePad s.task.id.lcore off) = true := by
  rw [State.ownPad, corePadOf_keyCorePad hl hoff]
  exact beq_self_eq_true _

/-- The granule of a key. -/
def granuleOf (k : Nat) : Option (Nat × Nat) := (corePadOf k).map fun x => (x.1, x.2 / 16)

theorem granuleOf_keyCorePad {l off : Nat} (hl : l < 192) (hoff : off < 2 ^ 21) :
    granuleOf (keyCorePad l off) = some (l, off / 16) := by
  rw [granuleOf, corePadOf_keyCorePad hl hoff, Option.map_some]

theorem granulesOf_eq (ks : List Nat) : granulesOf ks = (ks.filterMap granuleOf).dedup := rfl

/-- An aligned scalar access to a core pad touches one granule. -/
theorem granulesOf_row {l off n : Nat} (hl : l < 192) (hn : AccessSize n) (hoff : off + n ≤ 2 ^ 21) (halign : off % n = 0) :
    granulesOf ((List.range n).map (keyCorePad l off + ·)) = [(l, off / 16)] := by
  have hone : ∀ k ∈ (List.range n).map (keyCorePad l off + ·), granuleOf k = (some ∘ fun _ => (l, off / 16)) k := by
    intro k hk
    obtain ⟨i, hi, rfl⟩ := List.mem_map.1 hk
    have hi' := List.mem_range.1 hi
    have hgranule : (off + i) / 16 = off / 16 := by rcases hn with rfl | rfl | rfl | rfl <;> omega
    rw [keyCorePad_add, granuleOf_keyCorePad hl (by omega), hgranule, Function.comp_apply]
  have hpos : n ≠ 0 := by rcases hn with rfl | rfl | rfl | rfl <;> decide
  rw [granulesOf_eq, List.filterMap_congr hone, List.filterMap_eq_map, List.map_const', List.length_map, List.length_range,
    List.replicate_dedup hpos]

/-- Core-pad keys of an awake core keep no access back (R233). -/
theorem State.asleep_row {s : State} {l off n : Nat} (hl : l < 192) (hoff : off + n ≤ 2 ^ 21) (hawake : (s.core l).awake s.dcc = true) :
    s.asleep ((List.range n).map (keyCorePad l off + ·)) = none := by
  rw [State.asleep]
  split
  · rfl
  · refine List.find?_eq_none.2 fun j hj => ?_
    obtain ⟨k, hk, hpad⟩ := List.mem_filterMap.1 hj
    obtain ⟨i, hi, rfl⟩ := List.mem_map.1 hk
    have hi' := List.mem_range.1 hi
    rw [keyCorePad_add, corePadOf_keyCorePad hl (by omega)] at hpad
    obtain rfl : l = j := Option.some.inj hpad
    rw [hawake]
    exact Bool.false_ne_true

/-! ### Bytes of a number, and the bytes that a hold covers -/

theorem bytesOfNat_getElem {n x i : Nat} (h : i < (bytesOfNat n x).length) : (bytesOfNat n x)[i] = BitVec.ofNat 8 (x / 256 ^ i) := by
  induction n generalizing x i with
  | zero => cases h
  | succ n ih =>
    cases i with
    | zero => simp [bytesOfNat]
    | succ i =>
      have hi : i < (bytesOfNat n (x / 256)).length := Nat.lt_of_succ_lt_succ h
      rw [Nat.pow_succ', ← Nat.div_div_eq_div_mul]
      exact ih hi

/-- Byte `i` of a register as a store writes it. -/
theorem bytesOfNat_register {n i : Nat} (x : W64) (h : i < (bytesOfNat n x.toNat).length) :
    (bytesOfNat n x.toNat)[i] = x.extractLsb' (8 * i) 8 := by
  apply BitVec.eq_of_toNat_eq
  rw [bytesOfNat_getElem, BitVec.toNat_ofNat, BitVec.extractLsb'_toNat, Nat.shiftRight_eq_div_pow, Nat.pow_mul]

theorem cellsAt_eq_zip (k : Nat) (bs : List Byte) : cellsAt k bs = ((List.range bs.length).map (k + ·)).zip bs := by
  induction bs generalizing k with
  | nil => rfl
  | cons b bs ih =>
    rw [cellsAt, ih, List.length_cons, List.range_succ_eq_map, List.map_cons, List.zip_cons_cons, List.map_map]
    refine congrArg (_ :: ·) (congrArg (List.zip · bs) (List.map_congr_left fun i _ => ?_))
    exact (Nat.add_assoc k 1 i).trans (congrArg (k + ·) (Nat.add_comm 1 i))

theorem cellsLookup_of_not_mem {k : Nat} {cells : List Host.Cell} (h : k ∉ cells.map (·.1)) : cellsLookup k cells = none := by
  induction cells with
  | nil => rfl
  | cons c cells ih =>
    rw [List.map_cons, List.mem_cons, not_or] at h
    rw [cellsLookup, ih h.2]
    exact if_neg (Ne.symm h.1)

/-- Cells with distinct keys hold their bytes. -/
theorem cellsLookup_zip {ks : List Nat} {bs : List Byte} (hnodup : ks.Nodup) {i : Nat} (hk : i < ks.length) (hb : i < bs.length) :
    cellsLookup ks[i] (ks.zip bs) = some bs[i] := by
  induction ks generalizing bs i with
  | nil => cases hk
  | cons k ks ih =>
    obtain ⟨hnew, hrest⟩ := List.nodup_cons.1 hnodup
    cases bs with
    | nil => cases hb
    | cons b bs =>
      cases i with
      | zero =>
        have hnone : cellsLookup k (ks.zip bs) = none := by
          refine cellsLookup_of_not_mem fun hmem => ?_
          obtain ⟨c, hc, rfl⟩ := List.mem_map.1 hmem
          exact hnew (List.of_mem_zip hc).1
        simp only [List.getElem_cons_zero, List.zip_cons_cons, cellsLookup, hnone, if_true]
      | succ i =>
        have hlater := ih hrest (bs := bs) (Nat.lt_of_succ_lt_succ hk) (Nat.lt_of_succ_lt_succ hb)
        simp only [List.getElem_cons_succ, List.zip_cons_cons, cellsLookup, hlater]

/-- The store that was held last covers its bytes. -/
theorem holdLookup_append_store {k : Nat} {b : Byte} {cells : List Host.Cell} (h : cellsLookup k cells = some b)
    (items : List HoldItem) : holdLookup k (items ++ [.store cells]) = some b := by
  induction items with
  | nil => exact h
  | cons i items ih => unfold holdLookup; simp only [List.cons_append, ih]

end Sys2Proof.Machine

/-! Scalar loads and stores (R120 to R123, R160, R182 to R185, R233). -/

namespace Sys2Proof.Machine

/-! ### Loads -/

theorem State.fullEmptyLoad_of_asleep {s : State} {f : Slot} {ks : List Nat} {l : Nat} (h : s.asleep ks = some l)
    (addrOf : Nat × Nat → BitVec 48) (k : State → State) : s.fullEmptyLoad f ks addrOf k = s.waitFor (.pad l) := by
  rw [State.fullEmptyLoad, h]

/-- A load without WF and CLR goes on at once (R123). -/
theorem State.fullEmptyLoad_of_plain {s : State} {f : Slot} {ks : List Nat} (h : s.asleep ks = none) (hwf : f.wf = false)
    (hclr : f.clr = false) (addrOf : Nat × Nat → BitVec 48) (k : State → State) : s.fullEmptyLoad f ks addrOf k = k s := by
  rw [State.fullEmptyLoad, h, hwf, hclr]
  rfl

/-- A load with WF waits while a granule it reads is empty (R123). -/
theorem State.fullEmptyLoad_of_empty {s : State} {f : Slot} {ks : List Nat} {g : Nat × Nat} (h : s.asleep ks = none)
    (hwf : f.wf = true) (hg : g ∈ granulesOf ks) (hempty : (s.core g.1).isFull g.2 = false) (addrOf : Nat × Nat → BitVec 48)
    (k : State → State) : s.fullEmptyLoad f ks addrOf k = s.waitFor (.fullEmpty ((granulesOf ks).map addrOf)) := by
  have hin : g ∈ s.emptyGranules (granulesOf ks) :=
    List.mem_filter.2 ⟨hg, by rw [Core.fullFor, hempty]; rfl⟩
  have hsome : (s.emptyGranules (granulesOf ks)).isEmpty = false :=
    List.isEmpty_eq_false_iff.2 (List.ne_nil_of_mem hin)
  rw [State.fullEmptyLoad, h]
  simp only [hwf, hsome, Bool.true_or, Bool.not_false, Bool.and_self, if_true]

/-- What LD does with the keys of its bytes. -/
def State.loadFrom (s : State) (f : Slot) (ks : List Nat) : State :=
  s.fullEmptyLoad f ks (fun _ => BitVec.ofNat 48 ((s.ea f).toNat / 16 * 16)) fun t =>
    (t.reading ks).putG f (loaded f.t (t.loadKeys ks))

theorem State.loadFrom_of_empty {s : State} {f : Slot} {ks : List Nat} {g : Nat × Nat} (h : s.asleep ks = none)
    (hwf : f.wf = true) (hg : g ∈ granulesOf ks) (hempty : (s.core g.1).isFull g.2 = false) : s.loadFrom f ks =
      s.waitFor (.fullEmpty ((granulesOf ks).map fun _ => BitVec.ofNat 48 ((s.ea f).toNat / 16 * 16))) :=
  State.fullEmptyLoad_of_empty h hwf hg hempty _ _

theorem execLd_of_resolved {s : State} {f : Slot} {ks : List Nat} (h : s.goes (.ld f) f)
    (hkeys : s.resolve { ordered := f.ord ≠ 0, fe := f.wf || f.clr } (s.ea f) (accessBytes f) (accessBytes f) = .ok ks) :
    exec (.ld f) s = .next (s.loadFrom f ks) := (guarded_goes h).trans (by rw [hkeys]; rfl)

/-- A read notes whose unsealed writes it has seen, and changes nothing else of the task (R353). -/
theorem State.reading_task (s : State) (ks : List Nat) : ∃ reads, (s.reading ks).task =
    { s.task with bolt := { s.task.bolt with work := { s.task.bolt.work with reads } } } := by
  have htouch (u : State) : ((u.chargeKeys s.myCluster ks).touch ks).task = u.task := by
    rw [State.touch_task, State.chargeKeys_task]
  unfold State.reading State.noteReads
  dsimp only
  split
  · exact ⟨_, htouch s⟩
  · rw [State.setWork, State.setBolt, htouch]
    exact ⟨_, rfl⟩

theorem loaded_eq_extendAs {t : BitVec 5} (h : ScalarType t) (x : Nat) : loaded t x = extendAs t (BitVec.ofNat _ x) := by
  rw [loaded, h.typeWidth_eq, h.isSigned_eq, extended_intOf (intWidth_pos t)]
  rfl

/-- A load of some bytes: the register gets the value, and the task has read them. -/
theorem State.loads (s : State) (f : Slot) (ks : List Nat) (x : W64) : let t := (s.reading ks).putG f x
    KeepsOthers s t .g f.d.toNat ∧ KeepsMemory s t ∧ KeepsSpecials s t ∧
      t.task.bolt.work.hold = s.task.bolt.work.hold ∧ (f.d.toNat ≠ 0 → t.finalG f.d.toNat = x) := by
  intro t
  obtain ⟨reads, hread⟩ := s.reading_task ks
  obtain ⟨⟨-, hmem, hg, hp, hm, hv⟩, hvalue⟩ := putG_writes (s.reading ks) f x
  have hfinals : KeepsRegisters s (s.reading ks) := keepsRegisters_of_regs (by rw [hread])
  obtain ⟨hg', hp', hm', hv'⟩ := hfinals
  have htask : t.task = { (s.reading ks).task with regs := t.task.regs } := State.put_task _ _ _
  rw [hread] at htask
  refine ⟨⟨fun k hk => (hg k hk).trans (hg' k), fun k h16 hk => (hp k h16 hk).trans (hp' k h16), fun k hk => (hm k hk).trans (hm' k),
    fun k hk => (hv k hk).trans (hv' k)⟩, fun a => (hmem a).trans (by rw [State.reading_mem]), ⟨?_, ?_, ?_, ?_⟩, ?_,
    fun hd => hvalue.trans (if_neg hd)⟩
  all_goals rw [htask]

/-- Without held bytes a load sees memory. -/
theorem State.loadByte_of_nothing_held {s : State} (hhold : s.task.bolt.work.hold = []) (houter : s.task.bolt.outer = none)
    (hnode : s.myNode = none) (k : Nat) : s.loadByte k = s.mem.read k := by
  rw [State.loadByte, hhold, houter, hnode]
  rfl

/-! ### Stores -/

theorem execSt_of_resolved {s : State} {f : Slot} {ks : List Nat} (h : s.goes (.st f) f)
    (hkeys : s.resolve { write := true, ordered := f.ord ≠ 0 } (s.ea f) (accessBytes f) (accessBytes f) = .ok ks) :
    exec (.st f) s = .next (s.storeCells 0x101 (ks.zip (bytesOfNat (accessBytes f) (s.g f.b.toNat).toNat))) :=
  (guarded_goes h).trans (by rw [hkeys])

section
variable {s : State} {cells : List Host.Cell} (op : Nat)

theorem filter_ownPad_of_foreign (h : ∀ c ∈ cells, s.ownPad c.1 = false) :
    cells.filter (fun c => s.ownPad c.1) = [] ∧ cells.filter (fun c => !s.ownPad c.1) = cells :=
  ⟨List.filter_eq_nil_iff.2 fun c hc => by rw [h c hc]; exact Bool.false_ne_true,
    List.filter_eq_self.2 fun c hc => by rw [h c hc]; rfl⟩

theorem filter_ownPad_of_own (h : ∀ c ∈ cells, s.ownPad c.1 = true) :
    cells.filter (fun c => s.ownPad c.1) = cells ∧ cells.filter (fun c => !s.ownPad c.1) = [] :=
  ⟨List.filter_eq_self.2 h, List.filter_eq_nil_iff.2 fun c hc => by rw [h c hc]; exact Bool.false_ne_true⟩

theorem State.asleep_nil (s : State) : s.asleep [] = none := by
  unfold State.asleep
  split <;> rfl

/-- A store outside the own core pad is held (R160, R182). -/
theorem State.storeCells_held (h : ∀ c ∈ cells, s.ownPad c.1 = false) (hne : cells ≠ [])
    (hroom : s.task.bolt.holdb + cells.length ≤ 65536) : s.storeCells op cells = s.hold (.store cells) cells.length := by
  obtain ⟨hmine, hrest⟩ := filter_ownPad_of_foreign h
  have hlimit : s.overHold cells.length = false := decide_eq_false (Nat.not_lt.2 hroom)
  have hsome : cells.isEmpty = false := List.isEmpty_eq_false_iff.2 hne
  simp only [State.storeCells, hmine, hrest, hlimit, List.map_nil, State.asleep_nil, hsome, Bool.false_eq_true, if_false]
  rfl

/-- A store past the limit traps before it holds anything (R183). -/
theorem State.storeCells_over (h : ∀ c ∈ cells, s.ownPad c.1 = false) (hover : 65536 < s.task.bolt.holdb + cells.length) :
    s.storeCells op cells = s.trapHold op cells.length := by
  have hlimit : s.overHold cells.length = true := decide_eq_true hover
  simp only [State.storeCells, (filter_ownPad_of_foreign h).2, hlimit, if_true]

/-- A store to the own core pad is visible at once (R122). -/
theorem State.storeCells_own (h : ∀ c ∈ cells, s.ownPad c.1 = true) (hne : cells ≠ []) (hlimit : s.task.bolt.holdb ≤ 65536)
    (hawake : s.asleep (cells.map (·.1)) = none)
    (hopen : ∀ g ∈ granulesOf (cells.map (·.1)), s.writeStalls (claimMark s.task.id.lcore s.task.id.part) g = false) :
    s.storeCells op cells = s.showOf s.myBoltId cells := by
  obtain ⟨hmine, hrest⟩ := filter_ownPad_of_own h
  have hroom : s.overHold 0 = false := decide_eq_false (Nat.not_lt.2 hlimit)
  have hsome : cells.isEmpty = false := List.isEmpty_eq_false_iff.2 hne
  have hgo : (granulesOf (cells.map (·.1))).any (s.writeStalls (claimMark s.task.id.lcore s.task.id.part)) = false :=
    List.any_eq_false.2 fun g hg => by rw [hopen g hg]; exact Bool.false_ne_true
  simp only [State.storeCells, hmine, hrest, List.length_nil, hroom, hawake, hgo, hsome, List.isEmpty_nil, Bool.false_eq_true,
    if_false, if_true]

end

/-! ### Visible writes and full bits (R258) -/

theorem State.touch_isFull (s : State) (ks : List Nat) (l g : Nat) : ((s.touch ks).core l).isFull g = (s.core l).isFull g := by
  refine foldl_keeps (fun u => (u.core l).isFull g) _ _ s fun u k => ?_
  rw [core_setCore]
  split
  · next h => rw [h]; rfl
  · rfl

/-- A granule that a visible write touches alone is full. -/
theorem State.showOf_isFull (s : State) (id : Nat) {cells : List Host.Cell} {l g : Nat} (h : granulesOf (cells.map (·.1)) = [(l, g)]) :
    ((s.showOf id cells).core l).isFull g = true := by
  change ((s.show cells).core l).isFull g = true
  rw [State.show, State.touch_isFull]
  change ((State.fillGranules _ (granulesOf (cells.map (·.1)))).core l).isFull g = true
  rw [h, State.fillGranules, State.fillGranules, core_setCore]
  exact (congrArg (fun c : Core => c.isFull g) (if_pos rfl)).trans ((isFull_setFull _ g g true).trans (if_pos rfl))

theorem State.showOf_mem (s : State) (id : Nat) (cells : List Host.Cell) : (s.showOf id cells).mem = s.mem.writeCells cells := by
  rw [State.showOf, State.setWriter_mem, show_mem]

theorem State.showOf_task (s : State) (id : Nat) (cells : List Host.Cell) : (s.showOf id cells).task = s.task := s.show_task cells

/-! ### LD and ST by their keys -/

/-- The cells of a scalar store in a row of keys. -/
theorem zip_row (k : Nat) {n : Nat} (x : Nat) :
    ((List.range n).map (k + ·)).zip (bytesOfNat n x) = cellsAt k (bytesOfNat n x) := by
  rw [cellsAt_eq_zip, bytesOfNat_length]

theorem row_keys (k n x : Nat) : (cellsAt k (bytesOfNat n x)).map (·.1) = (List.range n).map (k + ·) := by
  rw [← zip_row, List.map_fst_zip (by simp)]

/-- A held store is what the task's own loads see. -/
theorem State.hold_loadByte (s : State) {ks : List Nat} {bs : List Byte} (hnodup : ks.Nodup) {i : Nat} (hk : i < ks.length)
    (hb : i < bs.length) (n : Nat) : (s.hold (.store (ks.zip bs)) n).loadByte ks[i] = bs[i] := by
  have hlookup : holdLookup ks[i] (s.hold (.store (ks.zip bs)) n).task.bolt.work.hold = some bs[i] :=
    holdLookup_append_store (cellsLookup_zip hnodup hk hb) _
  rw [State.loadByte, hlookup]

/-- An aligned store to the own core pad: its bytes are visible and their granule is full, and nothing else has changed (R122,
R258). -/
theorem State.storesOwn {s : State} {off n : Nat} (hl : s.task.id.lcore < 192) (hn : AccessSize n) (hoff : off + n ≤ 2 ^ 21)
    (halign : off % n = 0) (hlimit : s.task.bolt.holdb ≤ 65536) (hawake : s.myCore.awake s.dcc = true)
    (hopen : s.writeStalls (claimMark s.task.id.lcore s.task.id.part) (s.task.id.lcore, off / 16) = false) (op : Nat) (x : W64) :
    let k := keyCorePad s.task.id.lcore off
    let t := s.storeCells op (cellsAt k (bytesOfNat n x.toNat))
    KeepsRegisters s t ∧ KeepsSpecials s t ∧ t.task.bolt = s.task.bolt ∧
      (∀ i, i < n → t.mem.read (k + i) = x.extractLsb' (8 * i) 8) ∧
      (∀ a, a < k ∨ k + n ≤ a → t.mem.read a = s.mem.read a) ∧ t.myCore.isFull (off / 16) = true := by
  intro k t
  have hgranules : granulesOf ((cellsAt k (bytesOfNat n x.toNat)).map (·.1)) = [(s.task.id.lcore, off / 16)] := by
    rw [row_keys]
    exact granulesOf_row hl hn hoff halign
  have hown : ∀ c ∈ cellsAt k (bytesOfNat n x.toNat), s.ownPad c.1 = true := fun c hc => by
    have hkey : c.1 ∈ (List.range n).map (k + ·) := row_keys k n x.toNat ▸ List.mem_map_of_mem hc
    obtain ⟨i, hi, hrow⟩ := List.mem_map.1 hkey
    have hi' := List.mem_range.1 hi
    rw [← hrow, keyCorePad_add]
    exact State.ownPad_keyCorePad hl (by omega)
  have hne : cellsAt k (bytesOfNat n x.toNat) ≠ [] := fun h => by
    rw [h] at hgranules
    cases hgranules
  have ht : t = s.showOf s.myBoltId (cellsAt k (bytesOfNat n x.toNat)) := by
    refine State.storeCells_own op hown hne hlimit ?_ fun g hg => ?_
    · rw [row_keys]
      exact State.asleep_row hl hoff hawake
    · rw [hgranules] at hg
      rw [List.mem_singleton.1 hg, hopen]
  have htask : t.task = s.task := by rw [ht, State.showOf_task]
  have hmem : t.mem = s.mem.writeCells (cellsAt k (bytesOfNat n x.toNat)) := by rw [ht, State.showOf_mem]
  refine ⟨keepsRegisters_of_regs (by rw [htask]), ?_, by rw [htask], fun i hi => ?_, fun a ha => ?_, ?_⟩
  · rw [KeepsSpecials, htask]
    exact ⟨rfl, rfl, rfl, rfl⟩
  · have hb : i < (bytesOfNat n x.toNat).length := by rwa [bytesOfNat_length]
    rw [hmem, (Memory.holds_writeCells _ _ _).read hb, bytesOfNat_register]
  · rw [hmem, Memory.read_writeCells_outside _ (by rwa [bytesOfNat_length])]
  · rw [State.myCore, htask, ht]
    exact s.showOf_isFull _ hgranules

/-- A store anywhere else: memory has not changed, HOLDB has grown by its bytes, and the task's own loads see them (R121, R182). -/
theorem State.storesHeld {s : State} {n : Nat} {key : Nat → Nat} (hn : AccessSize n) (hkey : Function.Injective key)
    (hforeign : ∀ k ∈ (List.range n).map key, s.ownPad k = false) (hroom : s.task.bolt.holdb + n ≤ 65536) (op : Nat) (x : W64) :
    let ks := (List.range n).map key
    let cells := ks.zip (bytesOfNat n x.toNat)
    let t := s.storeCells op cells
    KeepsRegisters s t ∧ KeepsMemory s t ∧ KeepsSpecials s t ∧ t.task.bolt.holdb = s.task.bolt.holdb + n ∧
      t.task.bolt.work.hold = s.task.bolt.work.hold ++ [.store cells] ∧
      ∀ i, i < n → t.loadByte (ks.getD i 0) = x.extractLsb' (8 * i) 8 := by
  intro ks cells t
  have hks : ks.length = n := by rw [List.length_map, List.length_range]
  have hlen : cells.length = n := by rw [List.length_zip, bytesOfNat_length, hks, Nat.min_self]
  have hne : cells ≠ [] := List.ne_nil_of_length_pos (by rcases hn with h | h | h | h <;> omega)
  have ht : t = s.hold (.store cells) n := by
    rw [← hlen]
    exact State.storeCells_held op (fun c hc => hforeign _ (List.of_mem_zip hc).1) hne (by rwa [hlen])
  rw [ht]
  refine ⟨keepsRegisters_of_regs rfl, fun _ => rfl, ⟨rfl, rfl, rfl, rfl⟩, rfl, rfl, fun i hi => ?_⟩
  have hi' : i < ks.length := by rwa [hks]
  have hb : i < (bytesOfNat n x.toNat).length := by rwa [bytesOfNat_length]
  rw [List.getD_eq_getElem ks 0 hi', s.hold_loadByte (List.nodup_range.map hkey) hi' hb, bytesOfNat_register]

/-- Settles O19: a load by what keeps it back, a store by where its keys lie. -/
theorem scalarMemory : Obligations.ScalarMemory := by
  refine ⟨⟨?_, ?_, ?_⟩, ?_, ?_⟩
  · intro s f ks hlo hhi h hwf hclr hkeys hawake
    have hsize : accessBytes f = intWidth f.t / 8 := by rw [accessBytes, ScalarType.typeWidth_eq ⟨hlo, hhi⟩]
    have hexec : exec (.ld f) s = .next (s.loadFrom f ks) := execLd_of_resolved h (by rw [hsize, hwf, hclr]; exact hkeys)
    have hload : s.loadFrom f ks = (s.reading ks).putG f (loaded f.t (s.loadKeys ks)) :=
      State.fullEmptyLoad_of_plain hawake hwf hclr _ _
    obtain ⟨hothers, hmem, hspecials, hhold, hvalue⟩ := s.loads f ks (loaded f.t (s.loadKeys ks))
    rw [hload] at hexec
    exact ⟨_, hexec, hothers, hmem, hspecials, hhold, fun hd => (hvalue hd).trans (loaded_eq_extendAs ⟨hlo, hhi⟩ _),
      State.loadByte_of_nothing_held⟩
  · intro s f off hlo hhi h hwf hl n hea hoff halign hawake hempty
    have hsize : accessBytes f = n := by rw [accessBytes, ScalarType.typeWidth_eq ⟨hlo, hhi⟩]
    have hn : AccessSize n := accessSize_intWidth f.t
    have hgranules := granulesOf_row hl hn hoff halign
    have hexec := execLd_of_resolved h (by rw [hsize, State.ea, hea]; exact State.resolve_ownPad hn rfl hoff halign)
    have hwait := State.loadFrom_of_empty (g := (s.task.id.lcore, off / 16)) (State.asleep_row hl hoff hawake) hwf
      (hgranules ▸ List.mem_singleton_self _) hempty
    have haddr : (s.ea f).toNat / 16 * 16 = 0xF00000000000 + off / 16 * 16 := by
      rw [State.ea, hea, toNat_of_lt_window (by omega)]
      omega
    rw [hgranules, haddr] at hwait
    obtain ⟨hfate, hbolt, hregs, hmem, houtside⟩ := s.waitFor_keeps (.fullEmpty [BitVec.ofNat 48 (0xF00000000000 + off / 16 * 16)])
    exact ⟨_, hexec.trans (congrArg _ hwait), hfate, hregs, hbolt, hmem, houtside⟩
  · intro s f ks l h hkeys hasleep
    obtain ⟨hfate, hbolt, hregs, hmem, houtside⟩ := s.waitFor_keeps (.pad l)
    exact ⟨_, (execLd_of_resolved h hkeys).trans (congrArg _ (State.fullEmptyLoad_of_asleep hasleep _ _)), hfate, hregs, hbolt,
      hmem, houtside⟩
  · intro s f off hlo hhi h hl n k hea hoff halign hlimit hawake hopen
    have hsize : accessBytes f = n := by rw [accessBytes, ScalarType.typeWidth_eq ⟨hlo, hhi⟩]
    have hn : AccessSize n := accessSize_intWidth f.t
    have hexec := execSt_of_resolved h (by rw [hsize, State.ea, hea]; exact State.resolve_ownPad hn rfl hoff halign)
    rw [hsize, zip_row] at hexec
    exact ⟨_, hexec, State.storesOwn hl hn hoff halign hlimit hawake hopen _ _⟩
  · intro s f ks hlo hhi h n hkeys hforeign
    have hsize : accessBytes f = n := by rw [accessBytes, ScalarType.typeWidth_eq ⟨hlo, hhi⟩]
    have hn : AccessSize n := accessSize_intWidth f.t
    have hexec := execSt_of_resolved h (by rw [hsize]; exact hkeys)
    rw [hsize] at hexec
    obtain ⟨key, hkey, rfl⟩ := State.resolve_scalar hn hkeys
    refine ⟨fun hroom => ⟨_, hexec, State.storesHeld hn hkey hforeign hroom _ _⟩, fun hover hmay => ?_⟩
    have hlen : (((List.range n).map key).zip (bytesOfNat n (s.g f.b.toNat).toNat)).length = n := by
      rw [List.length_zip, bytesOfNat_length, List.length_map, List.length_range, Nat.min_self]
    rw [State.storeCells_over 0x101 (fun c hc => hforeign _ (List.of_mem_zip hc).1) (by rwa [hlen])] at hexec
    exact ⟨_, _, hexec, trapInstr_trapped hmay _ _ _ _, syndWord_cause _ _ _ _ _⟩

end Sys2Proof.Machine

/-! Floating vector arithmetic (R133, R135, R136). -/

namespace Sys2Proof.Machine

/-! ### The rounding code and its random bits (R50, R51, R133) -/

theorem ne_bs9_of_isVF {t : BitVec 5} (h : isVF t = true) : t ≠ 15 := by
  rintro rfl; exact absurd h (by decide)

/-- Random bits are taken exactly under the effective code 6. -/
theorem randomBits_eq (s : State) (f : Slot) (t : BitVec 5) (i : Nat) : s.randomBits f t i =
    if effRnd s f.rnd = 6 then some (typeWidth t, elemBits (typeWidth t) (s.v f.c.toNat) i) else none := by
  have hrnd : effRnd s f.rnd = 6 → f.rnd = 6 ∨ f.rnd = 7 := fun h => by
    unfold effRnd at h
    split at h
    next h7 => exact .inr h7
    next => exact .inl (BitVec.eq_of_toNat_eq h)
  unfold State.randomBits
  by_cases h : effRnd s f.rnd = 6
  · rw [if_pos ⟨hrnd h, h⟩, if_pos h]
  · rw [if_neg fun hboth => h hboth.2, if_neg h]

/-! ### Magnitudes and the order of values (R135, R136) -/

theorem FVal.abs_eq (x : FVal) : x.abs = if x.isNeg then x.neg else x := by
  cases x with
  | nan => rfl
  | inf neg => cases neg <;> rfl
  | fin neg m e => cases neg <;> rfl

/-- Exchanging two values turns their order around. -/
theorem FVal.cmp_swap {x y : FVal} (hx : x.isNan = false) (hy : y.isNan = false) : y.cmp x = -x.cmp y := by
  cases x with
  | nan => cases hx
  | inf s =>
    cases y with
    | nan => cases hy
    | inf s' => cases s <;> cases s' <;> rfl
    | fin s' m' e' => cases s <;> rfl
  | fin s m e =>
    cases y with
    | nan => cases hy
    | inf s' => cases s' <;> rfl
    | fin s' m' e' =>
      simp only [FVal.cmp, min_comm e' e]
      split_ifs <;> omega

theorem FVal.cmp_self (x : FVal) : x.cmp x = 0 := by
  cases x with
  | nan => rfl
  | inf s => simp [FVal.cmp]
  | fin s m e => simp [FVal.cmp]

/-- One value lies above another; −0 lies below +0 (R136). -/
def FVal.above (p q : FVal) : Bool := decide (0 < p.cmp q) || (decide (p.cmp q = 0) && !p.isNeg && q.isNeg)

theorem FVal.above_self (x : FVal) : x.above x = false := by
  cases hneg : x.isNeg <;> simp [FVal.above, FVal.cmp_self, hneg]

/-- Of two values that are not NaN, one does not lie above the other. -/
theorem FVal.above_asymm {x y : FVal} (hx : x.isNan = false) (hy : y.isNan = false) (h : x.above y = true) :
    y.above x = false := by
  have hswap := FVal.cmp_swap hx hy
  simp only [FVal.above, Bool.or_eq_true, Bool.and_eq_true, decide_eq_true_eq, Bool.not_eq_true', Bool.or_eq_false_iff,
    decide_eq_false_iff_not, Bool.and_eq_false_iff] at h ⊢
  rcases h with hlt | ⟨⟨heq, hpos⟩, hneg⟩
  · exact ⟨by omega, .inl (.inl (by omega))⟩
  · exact ⟨by omega, .inl (.inr (by simp [hneg]))⟩

/-! ### VMIN and VMAX of floating elements (R136) -/

/-- Of two numbers VMIN takes the first one, and VMAX the second one, exactly if the second lies above the first. -/
theorem minMax_number {t a b : Nat} (ha : (valueOf t a).isNan = false) (hb : (valueOf t b).isNan = false) (isMax : Bool) :
    minMax isMax t a b = if (valueOf t b).above (valueOf t a) != isMax then a else b := by
  have hless : (decide ((valueOf t a).cmp (valueOf t b) < 0) ||
      (decide ((valueOf t a).cmp (valueOf t b) = 0) && (valueOf t a).isNeg && !(valueOf t b).isNeg)) =
      (valueOf t b).above (valueOf t a) := by
    rw [FVal.above, FVal.cmp_swap ha hb, Bool.and_assoc, Bool.and_assoc, Bool.and_comm (valueOf t a).isNeg]
    simp only [Int.neg_pos, Int.neg_eq_zero]
  simp only [minMax, ha, hb, Bool.false_eq_true, if_false, hless]

/-- One value lies above another for VMIN, below it for VMAX. -/
def FVal.beyond (isMax : Bool) (p q : FVal) : Bool := if isMax then q.above p else p.above q

/-- The result is one of the operands, and lies beyond neither. -/
theorem minMax_bound {t a b : Nat} (ha : (valueOf t a).isNan = false) (hb : (valueOf t b).isNan = false) (isMax : Bool) :
    (minMax isMax t a b = a ∨ minMax isMax t a b = b) ∧ (valueOf t (minMax isMax t a b)).beyond isMax (valueOf t a) = false ∧
      (valueOf t (minMax isMax t a b)).beyond isMax (valueOf t b) = false := by
  rw [minMax_number ha hb]
  cases h : (valueOf t b).above (valueOf t a) with
  | true => cases isMax <;> simp [FVal.beyond, FVal.above_self, FVal.above_asymm hb ha h]
  | false => cases isMax <;> simp [FVal.beyond, FVal.above_self, h]

/-- The result of two patterns: the canonical NaN of two NaN, the other operand of one, and a bound of two numbers. -/
theorem minMax_spec (isMax : Bool) (t a b : Nat) : let r := minMax isMax t a b
    ((valueOf t a).isNan = true → (valueOf t b).isNan = true → r = nanOf t) ∧
    ((valueOf t a).isNan = true → (valueOf t b).isNan = false → r = b) ∧
    ((valueOf t a).isNan = false → (valueOf t b).isNan = true → r = a) ∧
    ((valueOf t a).isNan = false → (valueOf t b).isNan = false → (r = a ∨ r = b) ∧
      (valueOf t r).beyond isMax (valueOf t a) = false ∧ (valueOf t r).beyond isMax (valueOf t b) = false) :=
  ⟨fun ha hb => by simp [minMax, ha, hb], fun ha hb => by simp [minMax, ha, hb], fun ha hb => by simp [minMax, ha, hb],
    fun ha hb => minMax_bound ha hb isMax⟩

/-! ### The statement -/

/-- An arithmetic operation rounds the exact results of its governed elements once (R135). -/
theorem guarded_arithmetic_float {i : Instr} {f : Slot} {s : State} (h : s.goes i f) {rnd rnd' : Nat}
    {rand rand' : Nat → RandomBits} {r r' : Nat → FVal} (hrnd : rnd = rnd') (hrand : ∀ k, rand k = rand' k)
    (hr : ∀ k, r k = r' k) : ∃ t, guarded i f s (s.arithmetic f rnd rand r) = .next t ∧
      WritesLanes s t f (s.governs f f.msel.toNat) fun k => convertTo f.t.toNat rnd' (f.sat == 1) (rand' k) (r' k) :=
  guarded_putLanes h fun k _ => by rw [hrnd, hrand, hr]

/-- Settles O23: each operation's exact value is converted once, and the lower and the higher of two values are told by `above`. -/
theorem vectorFloats : Obligations.VectorFloats := by
  refine ⟨fun s f hvf => ?_, fun s f hvf => ?_⟩
  · intro t x y z code once writes random
    have h15 := ne_bs9_of_isVF hvf
    have hx (i : Nat) : value f (s.va f i) = x i := by rw [value, State.va, elem_eq_elemBits h15]
    have hz (i : Nat) : value f (s.vc f i) = z i := by rw [value, State.vc, elem_eq_elemBits h15]
    have hrandom (i : Nat) : s.randomBits f f.t i = random i := randomBits_eq s f f.t i
    refine ⟨fun _ h => ?_, fun _ h => ?_, fun _ h => ?_, fun _ h => ?_, fun _ h => ?_, fun _ h => ?_, fun _ h => ?_⟩
    · exact guarded_arithmetic_float h rfl hrandom fun i => by rw [hx]; rfl
    · exact guarded_arithmetic_float h rfl hrandom fun i => by rw [hx]; rfl
    · exact guarded_arithmetic_float h rfl hrandom fun i => by rw [hx]; rfl
    · exact guarded_arithmetic_float h rfl (fun _ => rfl) fun i => by rw [hx, hz]; rfl
    · exact guarded_arithmetic_float h rfl (fun _ => rfl) fun i => by rw [hx, hz]; rfl
    · exact guarded_arithmetic_float h rfl (fun _ => rfl) fun i => by rw [hx]
    · exact guarded_arithmetic_float h rfl (fun _ => rfl) fun i => by rw [hx, FVal.abs_eq]
  · intro w x y val gives above
    have h15 := ne_bs9_of_isVF hvf
    have hva (i : Nat) : s.va f i = x i := elem_eq_elemBits h15 _ i
    have hwrites {i : Instr} (isMax : Bool) (h : s.goes i f) :
        ∃ t, guarded i f s (s.putLanes f fun k => minMax isMax f.t.toNat (s.va f k) (s.secondBits f k)) = .next t ∧
          WritesLanes s t f (s.governs f f.msel.toNat) fun k => minMax isMax f.t.toNat (x k) (y k) :=
      guarded_putLanes h fun k _ => by rw [hva]
    refine ⟨fun _ h => ?_, fun _ h => ?_⟩
    · obtain ⟨t, ht, hw⟩ := hwrites false h
      exact ⟨t, _, ht, hw, fun j => minMax_spec false f.t.toNat (x j) (y j)⟩
    · obtain ⟨t, ht, hw⟩ := hwrites true h
      exact ⟨t, _, ht, hw, fun j => minMax_spec true f.t.toNat (x j) (y j)⟩

end Sys2Proof.Machine

/-! VCMP and KLOG (R137, R151). -/

namespace Sys2Proof.Machine

/-! ### Bits of packed lanes -/

/-- A bit of packed lanes is a bit of its lane. -/
theorem packLanes_lane_testBit {w : Nat} (hw : 0 < w) (f : Nat → Nat) {n k : Nat} (h : k < w * n) :
    (packLanes w f n).testBit k = (f (k / w)).testBit (k % w) := by
  have helem := congrArg (Nat.testBit · (k % w)) (packLanes_elem w f (Nat.div_lt_of_lt_mul h))
  simpa only [Nat.testBit_mod_two_pow, Nat.mod_lt k hw, decide_true, Bool.true_and, Nat.testBit_div_two_pow,
    Nat.mod_add_div] using helem

/-- Lanes of all ones and lanes of zeros. -/
theorem packLanes_ones_testBit {w : Nat} (hw : 0 < w) (on : Nat → Bool) {n k : Nat} (h : k < w * n) :
    (packLanes w (fun i => if on i then 2 ^ w - 1 else 0) n).testBit k = on (k / w) := by
  rw [packLanes_lane_testBit hw _ h]
  cases on (k / w) <;> simp [Nat.testBit_two_pow_sub_one, Nat.mod_lt k hw]

/-! ### VCMP (R137) -/

/-- The mask in which every byte of an element has the element's bit. -/
def laneBits (w : Nat) (on : Nat → Bool) : Mask :=
  BitVec.ofNat 256 (packLanes w (fun i => if on i then 2 ^ w - 1 else 0) (256 / w))

theorem laneBits_getLsbD {w : Nat} (hw : 0 < w) (hdvd : w ∣ 256) (on : Nat → Bool) {j : Nat} (hj : j < 256) :
    (laneBits w on).getLsbD j = on (j / w) := by
  rw [laneBits, BitVec.getLsbD_ofNat, decide_eq_true hj, Bool.true_and,
    packLanes_ones_testBit hw on (by rwa [Nat.mul_div_cancel' hdvd])]

theorem execVcmp_goes {s : State} {f : Slot} (h : s.goes (.vcmp f) f) : exec (.vcmp f) s = .next (s.put f.lat.toNat
    (.m f.d.toNat (laneBits (typeWidth f.t / 8) (gov (8 * (typeWidth f.t / 8)) (s.msel f)))
      (laneBits (typeWidth f.t / 8) fun i => condValues f.cond (value f (s.va f i)) (value f (s.secondBits f i))))) :=
  guarded_goes h

/-- The elements of VCMP are made of whole bytes, of which a register holds 256. -/
theorem bytes_of_setVA {t : BitVec 5} (h : t.toNat ∈ setVA) :
    0 < typeWidth t / 8 ∧ typeWidth t / 8 ∣ 256 ∧ 8 * (typeWidth t / 8) = typeWidth t := by
  revert t; decide

/-! ### KLOG (R151) -/

/-- The number of the word in which KLOG packs a count, the least element and the greatest. -/
def logNat (last head len : Nat) : Nat := last * 2 ^ 32 + head * 2 ^ 16 + len

/-- The three fields of KLOG's word. -/
theorem logNat_fields {last head len : Nat} (hlast : last < 2 ^ 16) (hhead : head < 2 ^ 16) (hlen : len < 2 ^ 16) :
    (BitVec.ofNat 64 (logNat last head len)).extractLsb' 48 16 = BitVec.ofNat 16 0 ∧
      (BitVec.ofNat 64 (logNat last head len)).extractLsb' 0 16 = BitVec.ofNat 16 len ∧
      (BitVec.ofNat 64 (logNat last head len)).extractLsb' 16 16 = BitVec.ofNat 16 head ∧
      (BitVec.ofNat 64 (logNat last head len)).extractLsb' 32 16 = BitVec.ofNat 16 last := by
  have hlt : logNat last head len < 2 ^ 64 := by unfold logNat; omega
  refine ⟨extract_ofNat hlt ?_, extract_ofNat hlt ?_, extract_ofNat hlt ?_, extract_ofNat hlt ?_⟩ <;> unfold logNat <;> omega

/-- The word that KLOG gives for the governed elements. -/
def logWord (on : List Nat) : W64 :=
  BitVec.ofNat 64 (logNat (on.getLast?.getD 0xFFFF) (on.head?.getD 0xFFFF) on.length)

theorem getD_lt {o : Option Nat} (h : ∀ i ∈ o, i < 2 ^ 16) : o.getD 0xFFFF < 2 ^ 16 := by
  cases o with
  | none => simp
  | some i => exact h i rfl

theorem logWord_fields {on : List Nat} (hlen : on.length < 2 ^ 16) (hlt : ∀ i ∈ on, i < 2 ^ 16) :
    (logWord on).extractLsb' 48 16 = 0 ∧ ((logWord on).extractLsb' 0 16).toNat = on.length ∧
      ((logWord on).extractLsb' 16 16).toNat = on.head?.getD 0xFFFF ∧
      ((logWord on).extractLsb' 32 16).toNat = on.getLast?.getD 0xFFFF := by
  have hlast : on.getLast?.getD 0xFFFF < 2 ^ 16 := getD_lt fun i hi => hlt i (List.mem_of_mem_getLast? hi)
  have hhead : on.head?.getD 0xFFFF < 2 ^ 16 := getD_lt fun i hi => hlt i (List.mem_of_mem_head? hi)
  obtain ⟨htop, hcount, hleast, hgreatest⟩ := logNat_fields hlast hhead hlen
  rw [logWord, hcount, hleast, hgreatest]
  exact ⟨htop, Nat.mod_eq_of_lt hlen, Nat.mod_eq_of_lt hhead, Nat.mod_eq_of_lt hlast⟩

/-- In an increasing list the first element is the least one and the last one the greatest. -/
theorem head_le_le_last {on : List Nat} (h : on.Pairwise (· ≤ ·)) {i : Nat} (hi : i ∈ on) :
    on.head?.getD 0xFFFF ≤ i ∧ i ≤ on.getLast?.getD 0xFFFF := by
  have hne := List.ne_nil_of_mem hi
  rw [List.head?_eq_some_head hne, List.getLast?_eq_some_getLast hne]
  exact ⟨h.rel_head hi, h.rel_getLast hi⟩

theorem mem_head_last {on : List Nat} (h : on ≠ []) : on.head?.getD 0xFFFF ∈ on ∧ on.getLast?.getD 0xFFFF ∈ on := by
  rw [List.head?_eq_some_head h, List.getLast?_eq_some_getLast h]
  exact ⟨List.head_mem h, List.getLast_mem h⟩

/-- A register holds at most 512 elements. -/
theorem laneCount_le (t : BitVec 5) : laneCount t ≤ 512 := by
  revert t; decide

/-- The condition of VCMP on two values (R137). -/
theorem condValues_eq (cond : Nat) (a b : FVal) : condValues cond a b =
    if a.isNan || b.isNan then cond == 1 || cond == 6 else match cond with
      | 0 => a.cmp b == 0 | 1 => a.cmp b != 0 | 2 => decide (a.cmp b < 0) | 3 => decide (a.cmp b ≤ 0)
      | 4 => decide (0 < a.cmp b) | 5 => decide (0 ≤ a.cmp b) | _ => false := by
  unfold condValues
  by_cases h6 : cond = 6
  · subst h6; rfl
  · rw [if_neg h6]; rfl

/-- Settles O24: each mask bit is its element's, and the governed elements stand in increasing order. -/
theorem masksOfLanes : Obligations.MasksOfLanes := by
  refine ⟨fun s f hwf h hd => ?_, fun s f hwf h => ?_⟩
  · intro wb x y holds
    have h15 : f.t ≠ 15 := ne_bs9_of_wf rfl rfl (by decide : 15 ∉ setVA) hwf
    obtain ⟨hpos, hdvd, hwidth⟩ := bytes_of_setVA (type_of_wf rfl hwf)
    have htruth (i : Nat) : condValues f.cond (value f (s.va f i)) (value f (s.secondBits f i)) = holds i := by
      rw [condValues_eq, value, State.va, elem_eq_elemBits h15]
      rfl
    refine ⟨_, execVcmp_goes h, put_m_only .., fun j hj => ?_⟩
    simp only [State.finalM_put, hd, ne_eq, not_false_eq_true, and_self, if_true, BitVec.getLsbD_or, BitVec.getLsbD_and,
      BitVec.getLsbD_not, hj, decide_true, Bool.true_and, laneBits_getLsbD hpos hdvd _ hj, htruth, hwidth]
    change ((s.finalM f.d.toNat).getLsbD j && !s.governs f f.msel.toNat (j / wb) ||
      holds (j / wb) && s.governs f f.msel.toNat (j / wb)) = _
    cases s.governs f f.msel.toNat (j / wb) <;> simp
  · intro on
    have hmem : ∀ i ∈ on, i < 512 := fun i hi =>
      (List.mem_range.1 (List.mem_filter.1 hi).1).trans_le (laneCount_le f.t)
    have hlen : on.length ≤ 512 :=
      (List.length_filter_le _ _).trans ((List.length_range (n := laneCount f.t)).trans_le (laneCount_le f.t))
    have hsorted : on.Pairwise (· ≤ ·) := List.Pairwise.filter _ List.pairwise_le_range
    obtain ⟨htop, hcount, hleast, hgreatest⟩ := logWord_fields (by omega) fun i hi => (hmem i hi).trans (by decide)
    refine ⟨_, logWord on, guarded_goes h, putG_writes .., htop, hcount, fun hnil => ?_, fun hne => ?_⟩
    · rw [hnil]
      decide
    · rw [hleast, hgreatest]
      exact ⟨(mem_head_last hne).1, (mem_head_last hne).2, fun i hi => head_le_le_last hsorted hi⟩

end Sys2Proof.Machine

/-! VCVT, VBSC and VPACK4 (R45, R139 to R142). -/

namespace Sys2Proof.Machine

open Sys2Proof.Laws.Slots (wf_checks)

/-! ### Lanes picked from a source (R139, R142) -/

/-- One window on the governed lanes that a source element is picked for. -/
theorem put_picked_writes (s : State) (f : Slot) (m : Mask) {pick : Nat → Option Nat} (g : Nat → Nat) {written : Nat → Bool}
    {from_ : Nat → Nat} (hpick : ∀ i, i < laneCount f.t → pick i = if written i then some (from_ i) else none) :
    WritesLanes s (s.put f.lat.toNat (.v f.d.toNat
        (laneMask (typeWidth f.t) fun i => (pick i).isSome && gov (typeWidth f.t) m i)
        (vregOf (typeWidth f.t) fun i => (pick i).elim 0 g))) f (fun i => written i && gov (typeWidth f.t) m i)
      fun i => g (from_ i) := by
  obtain ⟨honly, hlanes⟩ := put_lanes_writes s f (fun i => (pick i).isSome && gov (typeWidth f.t) m i)
    fun i => (pick i).elim 0 g
  refine ⟨honly, fun i hi => (hlanes i hi).trans ?_⟩
  simp only [hpick i hi]
  cases written i <;> rfl

/-! ### VCVT (R139, R140) -/

/-- The destination elements that VCVT writes: every one, or those of the part that the source elements fill. -/
def convertWrites (st t : BitVec 5) (part i : Nat) : Bool :=
  if typeWidth t ≤ typeWidth st then decide (part * laneCount st ≤ i ∧ i < part * laneCount st + laneCount st) else true

/-- The source element of a destination element that VCVT writes. -/
def convertFrom (st t : BitVec 5) (part i : Nat) : Nat :=
  if typeWidth t ≤ typeWidth st then i - part * laneCount st else part * laneCount t + i

theorem sourceIndex_eq {st t : BitVec 5} {part i : Nat} (hi : i < laneCount t) :
    sourceIndex st t part i = if convertWrites st t part i then some (convertFrom st t part i) else none := by
  unfold sourceIndex convertWrites convertFrom
  by_cases h : typeWidth t ≤ typeWidth st <;> simp [h, hi]

/-- What VCVT makes of one source element. -/
def State.converted (s : State) (f : Slot) (j : Nat) : Nat :=
  convertTo f.t.toNat (effRnd s f.rnd) (f.sat == 1) (s.randomBits f f.st j) (valueOf f.st.toNat (elem f.st (s.v f.a.toNat) j))

theorem execVcvt_goes {s : State} {f : Slot} (h : s.goes (.vcvt f) f) : exec (.vcvt f) s = .next (s.put f.lat.toNat
    (.v f.d.toNat (laneMask (typeWidth f.t) fun i => (sourceIndex f.st f.t f.part i).isSome && gov (typeWidth f.t) (s.msel f) i)
      (vregOf (typeWidth f.t) fun i => (sourceIndex f.st f.t f.part i).elim 0 (s.converted f)))) := by
  refine (guarded_goes h).trans ?_
  congr 5
  funext i
  cases sourceIndex f.st f.t f.part i <;> rfl

theorem execVcvt_writes {s : State} {f : Slot} (h : s.goes (.vcvt f) f) : ∃ t, exec (.vcvt f) s = .next t ∧
    WritesLanes s t f (fun i => convertWrites f.st f.t f.part i && s.governs f f.msel.toNat i)
      fun i => s.converted f (convertFrom f.st f.t f.part i) :=
  ⟨_, execVcvt_goes h, put_picked_writes s f (s.msel f) (s.converted f) fun _ hi => sourceIndex_eq hi⟩

/-! ### Numbers of nine bits, each at its place (R45) -/

/-- A word of nine-bit numbers. -/
def placed9 (place g : Nat → Nat) (n : Nat) : Nat := ((List.range n).map fun j => g j * 2 ^ place j).sum

theorem placed9_succ (place g : Nat → Nat) (n : Nat) : placed9 place g (n + 1) = 2 ^ place n * g n + placed9 place g n := by
  rw [placed9, List.range_succ, List.map_append, List.sum_append, List.map_singleton, List.sum_singleton, Nat.mul_comm,
    Nat.add_comm]
  rfl

section
variable {place g : Nat → Nat} (hg : ∀ j, g j < 2 ^ 9) (hplace : ∀ i j, i < j → place i + 9 ≤ place j)
include hg hplace

theorem placed9_lt {n m : Nat} (hm : ∀ j, j < n → place j + 9 ≤ m) : placed9 place g n < 2 ^ m := by
  induction n generalizing m with
  | zero => exact Nat.two_pow_pos m
  | succ n ih =>
    have hlow : placed9 place g n < 2 ^ place n := ih fun j hj => hplace j n hj
    calc placed9 place g (n + 1) = 2 ^ place n * g n + placed9 place g n := placed9_succ place g n
      _ < 2 ^ place n * (g n + 1) := by rw [Nat.mul_succ]; exact Nat.add_lt_add_left hlow _
      _ ≤ 2 ^ place n * 2 ^ 9 := Nat.mul_le_mul_left _ (hg n)
      _ = 2 ^ (place n + 9) := (Nat.pow_add ..).symm
      _ ≤ 2 ^ m := Nat.pow_le_pow_right (by decide) (hm n (Nat.lt_succ_self n))

theorem placed9_succ_testBit (n k : Nat) : (placed9 place g (n + 1)).testBit k =
    if k < place n then (placed9 place g n).testBit k else (g n).testBit (k - place n) := by
  rw [placed9_succ, Nat.testBit_two_pow_mul_add _ (placed9_lt hg hplace fun j hj => hplace j n hj)]

/-- A bit of one of the numbers. -/
theorem placed9_testBit {n j r : Nat} (hj : j < n) (hr : r < 9) :
    (placed9 place g n).testBit (place j + r) = (g j).testBit r := by
  induction n with
  | zero => cases hj
  | succ n ih =>
    rw [placed9_succ_testBit hg hplace]
    rcases Nat.lt_succ_iff_lt_or_eq.1 hj with hlt | rfl
    · have := hplace j n hlt
      rw [if_pos (by omega), ih hlt]
    · rw [if_neg (by omega), Nat.add_sub_cancel_left]

/-- Between the numbers the bits are zero. -/
theorem placed9_testBit_outside {n k : Nat} (hk : ∀ j, j < n → k < place j ∨ place j + 9 ≤ k) :
    (placed9 place g n).testBit k = false := by
  induction n with
  | zero => exact Nat.zero_testBit k
  | succ n ih =>
    rw [placed9_succ_testBit hg hplace]
    split
    · exact ih fun j hj => hk j (Nat.lt_succ_of_lt hj)
    · have hhigh := (hk n (Nat.lt_succ_self n)).resolve_left ‹_›
      exact Nat.testBit_lt_two_pow ((hg n).trans_le (Nat.pow_le_pow_right (by decide) (by omega)))

end

/-! ### VBSC (R45, R141) -/

theorem scaleBit_step (b0 : Nat) {i j : Nat} (h : i < j) : scaleBit b0 i + 9 ≤ scaleBit b0 j := by
  unfold scaleBit; omega

theorem scaleBit_room {b0 n j : Nat} (h : b0 + n ≤ 224) (hj : j < n) : scaleBit b0 j + 9 ≤ 2048 := by
  unfold scaleBit; omega

theorem overflowFloat_bs9 (rnd : Nat) (sat neg up : Bool) : overflowFloat 15 rnd sat neg up = if sat then 0x1FE else 0x1FF := rfl

/-- A positive value converts to nine bits of the bs9 format (R44). -/
theorem convertTo_bs9_lt (rnd : Nat) (sat : Bool) (rand : RandomBits) (m : Nat) (e : Int) (den : Nat) :
    convertTo 15 rnd sat rand (.fin false m e) den < 2 ^ 9 := by
  change roundFloat 15 ⟨5, 4, 15⟩ rnd sat false m den e rand < 2 ^ 9
  unfold roundFloat
  split
  · decide
  · dsimp only
    split
    next h => exact absurd h.2 Bool.false_ne_true
    next =>
      split
      next =>
        rw [overflowFloat_bs9]
        cases sat <;> decide
      next hmax => exact Nat.lt_of_le_of_lt (Nat.not_lt.1 hmax) (by decide)

theorem blockScale_lt (sat : Bool) (xs : List FVal) : blockScale sat xs < 2 ^ 9 := by
  unfold blockScale
  split
  · decide
  · split
    · split
      · decide
      · exact convertTo_bs9_lt ..
    · decide

/-- The scale of a block of the source (R141). -/
def State.sourceScale (s : State) (f : Slot) (j : Nat) : Nat :=
  blockScale (f.sat == 1) ((List.range 16).map fun i => valueOf f.st.toNat (elem f.st (s.v f.a.toNat) (16 * j + i)))

theorem State.sourceScale_lt (s : State) (f : Slot) (j : Nat) : s.sourceScale f j < 2 ^ 9 := blockScale_lt ..

/-- The bits of a register of which some fields of nine bits are written. -/
theorem put_placed9_finalV (s : State) (lat d : Nat) {place g : Nat → Nat} {n k : Nat} (hk : k < 2048) :
    ((s.put lat (.v d (BitVec.ofNat 2048 (placed9 place (fun _ => 511) n))
        (BitVec.ofNat 2048 (placed9 place g n)))).finalV d).getLsbD k =
      if (placed9 place (fun _ => 511) n).testBit k then (placed9 place g n).testBit k else (s.finalV d).getLsbD k := by
  simp only [State.finalV_put, if_true, BitVec.getLsbD_or, BitVec.getLsbD_and, BitVec.getLsbD_not, BitVec.getLsbD_ofNat, hk,
    decide_true, Bool.true_and]
  cases (placed9 place (fun _ => 511) n).testBit k <;> simp

theorem execVbsc_writes {s : State} {f : Slot} (h : s.goes (.vbsc f) f) (hroom : f.imm.toNat % 256 + laneCount f.st / 16 ≤ 224) :
    ∃ t, exec (.vbsc f) s = .next t ∧ OnlyRegister s t .v f.d.toNat ∧
      (∀ j, j < laneCount f.st / 16 →
        (t.finalV f.d.toNat).extractLsb' (scaleBit (f.imm.toNat % 256) j) 9 = BitVec.ofNat 9 (s.sourceScale f j)) ∧
      ∀ k, k < 2048 → (∀ j, j < laneCount f.st / 16 →
          k < scaleBit (f.imm.toNat % 256) j ∨ scaleBit (f.imm.toNat % 256) j + 9 ≤ k) →
        (t.finalV f.d.toNat).getLsbD k = (s.finalV f.d.toNat).getLsbD k := by
  have hstep : ∀ i j, i < j → scaleBit (f.imm.toNat % 256) i + 9 ≤ scaleBit (f.imm.toNat % 256) j := fun i j => scaleBit_step _
  have hones : ∀ j : Nat, (fun _ => 511) j < 2 ^ 9 := fun _ => (by decide : 511 < 2 ^ 9)
  have hbits {k : Nat} (hk : k < 2048) := put_placed9_finalV s f.lat.toNat f.d.toNat (place := scaleBit (f.imm.toNat % 256))
    (g := s.sourceScale f) (n := laneCount f.st / 16) hk
  refine ⟨_, guarded_goes h, put_v_only .., fun j hj => ?_, fun k hk hout => ?_⟩
  · have hfit := scaleBit_room hroom hj
    refine BitVec.eq_of_getLsbD_eq fun r hr => ?_
    rw [BitVec.getLsbD_extractLsb', BitVec.getLsbD_ofNat, decide_eq_true hr, Bool.true_and, Bool.true_and]
    refine (hbits (by omega)).trans ?_
    rw [placed9_testBit hones hstep hj hr, placed9_testBit (s.sourceScale_lt f) hstep hj hr]
    exact if_pos ((Nat.testBit_two_pow_sub_one 9 r).trans (decide_eq_true hr))
  · refine (hbits hk).trans ?_
    rw [placed9_testBit_outside hones hstep hout]
    rfl

/-- The fields of VBSC and VPACK4 lie in the register (R141). -/
theorem blocks_of_ok {f : Slot} (h : blocksOk f = true) : f.imm.toNat % 256 + laneCount f.st / 16 ≤ 224 :=
  of_decide_eq_true (Bool.and_eq_true_iff.1 h).2

/-! ### VPACK4 (R142) -/

/-- The scale words of the blocks whose reserved bit is set. -/
def State.reservedScales (s : State) (f : Slot) : List Nat :=
  ((List.range (sourceBlocks f)).map fun j => (f.imm.toNat % 256 + j) / 7).filter fun k => (s.v f.b.toNat).getLsbD (64 * k + 63)

theorem State.reservedScales_eq_nil {s : State} {f : Slot} : s.reservedScales f = [] ↔
    ∀ j, j < laneCount f.st / 16 → (s.v f.b.toNat).getLsbD (64 * ((f.imm.toNat % 256 + j) / 7) + 63) = false := by
  simp [State.reservedScales, sourceBlocks]

/-- The code of one source element under the scale of its block. -/
def State.packed (s : State) (f : Slot) (j : Nat) : Nat :=
  packCode (effRnd s f.rnd) (s.randomBits f f.st j)
    ((s.v f.b.toNat).toNat / 2 ^ scaleBit (f.imm.toNat % 256) (j / 16) % 512) (valueOf f.st.toNat (elem f.st (s.v f.a.toNat) j))

/-- The source element of a code that VPACK4 writes. -/
def packIndex (f : Slot) (i : Nat) : Option Nat :=
  if f.part * laneCount f.st ≤ i ∧ i < f.part * laneCount f.st + laneCount f.st then some (i - f.part * laneCount f.st) else none

theorem execVpack4_packs {s : State} {f : Slot} (h : s.goes (.vpack4 f) f) (hok : s.reservedScales f = []) :
    exec (.vpack4 f) s = .next (s.put f.lat.toNat (.v f.d.toNat (laneMask 4 fun i => (packIndex f i).isSome && gov 4 (s.msel f) i)
      (vregOf 4 fun i => (packIndex f i).elim 0 (s.packed f)))) := by
  refine (guarded_goes h).trans ?_
  unfold State.reservedScales at hok
  simp only [hok]
  congr 5
  funext i
  by_cases hi : f.part * laneCount f.st ≤ i ∧ i < f.part * laneCount f.st + laneCount f.st <;> simp only [packIndex, hi] <;> rfl

theorem execVpack4_traps {s : State} {f : Slot} (h : s.goes (.vpack4 f) f) (hbad : s.reservedScales f ≠ []) :
    ∃ k, exec (.vpack4 f) s = .next (s.trap 2 (syndWord 1 s.slotNo 0x201 0 k)) := by
  obtain ⟨k, ks, hks⟩ := List.exists_cons_of_ne_nil hbad
  refine ⟨k, (guarded_goes h).trans ?_⟩
  unfold State.reservedScales at hks
  rw [hks]

/-- Settles O26: the lanes that a source element is picked for, and the fields of the scale words. That a reserved bit of any block
traps, whatever the mask leaves out, is log 43's choice. -/
theorem vectorConversions : Obligations.VectorConversions := by
  refine ⟨fun s f hwf h => ?_, fun s f hwf h => ?_, fun s f hwf h => ?_⟩
  · intro ws wd code
    obtain ⟨t, ht, honly, hlanes⟩ := execVcvt_writes h
    have hvalue (j : Nat) : s.converted f j = convertTo f.t.toNat code (f.sat == 1)
        (if code = 6 then some (ws, elemBits ws (s.v f.c.toNat) j) else none) (valueOf f.st.toNat (elem f.st (s.v f.a.toNat) j)) := by
      rw [State.converted, randomBits_eq]
      rfl
    refine ⟨t, ht, honly, fun i hi => (hlanes i hi).trans ?_⟩
    simp only [hvalue]
    rfl
  · intro b0 n place scale
    exact execVbsc_writes h (blocks_of_ok (wf_checks rfl hwf).2)
  · intro ns slot reserved scale code
    have ht : f.t = 14 := BitVec.eq_of_toNat_eq (List.mem_singleton.1 (type_of_wf rfl hwf))
    have hw : typeWidth f.t = 4 := by rw [ht]; rfl
    have hvalue (k : Nat) : s.packed f k = packCode code
        (if code = 6 then some (typeWidth f.st, elemBits (typeWidth f.st) (s.v f.c.toNat) k) else none) (scale (k / 16))
        (valueOf f.st.toNat (elem f.st (s.v f.a.toNat) k)) := by
      simp only [scale]
      rw [State.packed, randomBits_eq, BitVec.extractLsb'_toNat, Nat.shiftRight_eq_div_pow]
      rfl
    refine ⟨fun hok => ?_, fun ⟨j, hj, hbad⟩ hmay => ?_⟩
    · have hpick : ∀ i, i < laneCount f.t → packIndex f i =
          if decide (f.part * ns ≤ i ∧ i < f.part * ns + ns) then some (i - f.part * ns) else none := fun i _ => by
        simp only [decide_eq_true_eq]
        rfl
      obtain ⟨honly, hlanes⟩ := put_picked_writes s f (s.msel f) (s.packed f) hpick
      rw [hw] at honly hlanes
      refine ⟨_, execVpack4_packs h (State.reservedScales_eq_nil.2 hok), honly, fun i hi => ?_⟩
      refine (hlanes i (by rw [laneCount, hw]; exact hi)).trans ?_
      have hgov : gov 4 (s.msel f) i = s.governs f f.msel.toNat i := by rw [State.governs, hw]; rfl
      simp only [hvalue, hgov]
      rfl
    · obtain ⟨k, hk⟩ := execVpack4_traps h fun hnil => by
        have := State.reservedScales_eq_nil.1 hnil j hj
        exact absurd (this.symm.trans hbad) Bool.false_ne_true
      exact ⟨_, _, hk, trapped_of_mayTrap hmay _ _, syndWord_cause _ _ _ _ _⟩

end Sys2Proof.Machine

/-! SPUSH, SPOP and SCNT (R152 to R155). -/

namespace Sys2Proof.Machine

/-! ### Vector registers written after other units have changed -/

/-- Two states agree on what a window on a vector register depends on, and on what it must leave alone. -/
structure WritesAs (s u : State) : Prop where
  regs : u.task.regs = s.task.regs
  flow : u.task.flow = s.task.flow
  epoch : u.epoch = s.epoch
  memory : KeepsMemory s u
  specials : KeepsSpecials s u

section
variable {s u : State} (h : WritesAs s u)
include h

theorem WritesAs.m_eq (n : Nat) : u.m n = s.m n := by
  unfold State.m
  rw [h.regs, h.flow, h.epoch]

theorem WritesAs.finalV_eq (n : Nat) : u.finalV n = s.finalV n := by
  rw [State.finalV, State.finalV, h.regs]

/-- One window on a vector register. -/
theorem WritesAs.put_v (lat n : Nat) (mask x : VReg) : let t := u.put lat (.v n mask x)
    KeepsOthers s t .v n ∧ KeepsMemory s t ∧ KeepsSpecials s t ∧ t.task.bolt = u.task.bolt := by
  intro t
  obtain ⟨-, hmem, hg, hp, hm, hv⟩ := put_v_only u lat n mask x
  obtain ⟨hg', hp', hm', hv'⟩ : KeepsRegisters s u := keepsRegisters_of_regs (by rw [h.regs])
  obtain ⟨hid, hsys, hlease, hphase⟩ := h.specials
  have htask : t.task = { u.task with regs := t.task.regs } := State.put_task _ _ _
  refine ⟨⟨fun k hk => (hg k hk).trans (hg' k), fun k h16 hk => (hp k h16 hk).trans (hp' k h16),
    fun k hk => (hm k hk).trans (hm' k), fun k hk => (hv k hk).trans (hv' k)⟩, fun a => (hmem a).trans (h.memory a), ?_, by rw [htask]⟩
  rw [KeepsSpecials, htask]
  exact ⟨hid, hsys, hlease, hphase⟩

/-- One window on the governed elements. -/
theorem WritesAs.putLanes (f : Slot) (val : Nat → Nat) : let t := u.putLanes f val
    (KeepsOthers s t .v f.d.toNat ∧ KeepsMemory s t ∧ KeepsSpecials s t ∧ t.task.bolt = u.task.bolt) ∧
      ∀ i, i < laneCount f.t → elemBits (typeWidth f.t) (t.finalV f.d.toNat) i =
        if s.governs f f.msel.toNat i then val i % 2 ^ typeWidth f.t else elemBits (typeWidth f.t) (s.finalV f.d.toNat) i := by
  obtain ⟨-, hlanes⟩ := putLanes_writes u f val
  refine ⟨h.put_v .., fun i hi => (hlanes i hi).trans ?_⟩
  rw [State.msel, h.m_eq, h.finalV_eq]
  rfl

end

/-! ### Governed elements -/

/-- The governed elements of an operation, in increasing order. -/
def State.governedLanes (s : State) (f : Slot) : List Nat :=
  (List.range (laneCount f.t)).filter fun j => s.governs f f.msel.toNat j

theorem governed_eq (s : State) (f : Slot) : governed (typeWidth f.t) (s.msel f) = s.governedLanes f := rfl

theorem mem_governedLanes {s : State} {f : Slot} {j : Nat} :
    j ∈ s.governedLanes f ↔ j < laneCount f.t ∧ s.governs f f.msel.toNat j = true := by
  rw [State.governedLanes, List.mem_filter, List.mem_range]

/-- The place of a governed element among the governed ones. -/
theorem findIdx_governedLanes {s : State} {f : Slot} {n : Nat} (h : n < (s.governedLanes f).length) :
    (s.governedLanes f).findIdx (· == (s.governedLanes f)[n]) = n := by
  have hnodup : (s.governedLanes f).Nodup := List.Nodup.filter _ List.nodup_range
  exact hnodup.idxOf_getElem n h

/-- The bytes of the records of the governed elements. -/
def State.recordBytes (s : State) (f : Slot) : Nat := (s.governedLanes f).length * (typeWidth f.t / 8)

/-- The types of a stream operation are made of whole bytes. -/
theorem bytes_of_setVM {t : BitVec 5} (h : t.toNat ∈ setVM) : 0 < typeWidth t / 8 ∧ 8 * (typeWidth t / 8) = typeWidth t := by
  revert t; decide

/-! ### Streams of a core (R152) -/

/-- What a change of a stream leaves alone stays, also where the core has no such stream. -/
theorem Core.stream_setStream_keeps {α : Type} (g : Stream → α) (c : Core) (i : Nat) {x : Stream} (h : g x = g (c.stream i)) :
    g ((c.setStream i x).stream i) = g (c.stream i) := by
  unfold Core.setStream Core.stream at *
  by_cases hi : i < c.streams.length
  · simpa [hi] using h
  · simp [hi]

/-! ### SPUSH (R153) -/

/-- The bytes that SPUSH appends. -/
def State.pushedBytes (s : State) (f : Slot) : List Byte :=
  (s.governedLanes f).flatMap fun j => bytesOfNat (typeWidth f.t / 8) (elemBits (typeWidth f.t) (s.v f.a.toNat) j)

theorem pushedBytes_length (s : State) (f : Slot) : (s.pushedBytes f).length = s.recordBytes f := by
  simp [State.pushedBytes, State.recordBytes, List.length_flatMap]

/-- SPUSH charges room in the stream and holds its bytes. -/
theorem State.pushStream_holds {s : State} {f : Slot} (hsome : s.recordBytes f ≠ 0)
    (hfree : s.recordBytes f ≤ s.streamFree (streamNo f)) (hroom : s.task.bolt.holdb + s.recordBytes f ≤ 65536) :
    s.pushStream f = (s.setCore (s.myCore.setStream (streamNo f) { s.myCore.stream (streamNo f) with
      pending := (s.myCore.stream (streamNo f)).pending + s.recordBytes f })).hold
        (.push (streamNo f) (s.pushedBytes f)) (s.recordBytes f) := by
  have hlen := pushedBytes_length s f
  unfold State.pushedBytes at hlen ⊢
  simp only [State.pushStream, governed_eq, hlen, hsome, if_false, State.overHold, decide_eq_true_eq, Nat.not_lt.2 hroom,
    Nat.not_lt.2 hfree]

theorem execSpush_holds {s : State} {f : Slot} (h : s.goes (.spush f) f) (hsome : s.recordBytes f ≠ 0)
    (hfree : s.recordBytes f ≤ s.streamFree (streamNo f)) (hroom : s.task.bolt.holdb + s.recordBytes f ≤ 65536) :
    ∃ t, exec (.spush f) s = .next t ∧
      t.task.bolt.work.hold = s.task.bolt.work.hold ++ [.push (streamNo f) (s.pushedBytes f)] ∧
      t.task.bolt.holdb = s.task.bolt.holdb + s.recordBytes f ∧
      (t.myCore.stream (streamNo f)).bytes = (s.myCore.stream (streamNo f)).bytes ∧
      KeepsRegisters s t ∧ KeepsMemory s t ∧ KeepsSpecials s t := by
  refine ⟨_, (guarded_goes h).trans (congrArg _ (State.pushStream_holds hsome hfree hroom)), rfl, rfl, ?_,
    keepsRegisters_of_regs rfl, fun _ => rfl, ⟨rfl, rfl, rfl, rfl⟩⟩
  refine (congrArg (fun c : Core => (c.stream (streamNo f)).bytes) (State.myCore_setCore rfl)).trans ?_
  exact Core.stream_setStream_keeps Stream.bytes _ _ rfl

/-! ### SPOP (R154) -/

/-- The value of a record among available bytes. -/
def recordAt (available : List (Nat × Byte)) (size n : Nat) : Nat :=
  natOfBytes (((available.drop (n * size)).take size).map (·.2))

theorem recordAt_lt (available : List (Nat × Byte)) (size n : Nat) : recordAt available size n < 2 ^ (8 * size) := by
  refine (natOfBytes_lt _).trans_le ?_
  rw [Nat.pow_mul]
  refine Nat.pow_le_pow_right (by decide) ?_
  rw [List.length_map]
  exact List.length_take_le _ _

/-- The records lie within the bytes that are taken. -/
theorem recordAt_take {available : List (Nat × Byte)} {size n count : Nat} (h : n < count) :
    natOfBytes ((((available.take (count * size)).map (·.2)).drop (n * size)).take size) = recordAt available size n := by
  have hfit : size ≤ count * size - n * size := by
    rw [← Nat.sub_mul]
    exact Nat.le_mul_of_pos_left size (Nat.sub_pos_of_lt h)
  rw [recordAt, ← List.map_drop, ← List.map_take, List.drop_take, List.take_take, Nat.min_eq_left hfit]

/-- The value that SPOP writes to a governed element. -/
def State.poppedRecord (s : State) (f : Slot) (j : Nat) : Nat :=
  natOfBytes (((((s.streamAvailable (streamNo f)).take (s.recordBytes f)).map (·.2)).drop
    ((s.governedLanes f).findIdx (· == j) * (typeWidth f.t / 8))).take (typeWidth f.t / 8))

theorem State.poppedRecord_eq {s : State} {f : Slot} {n : Nat} (h : n < (s.governedLanes f).length) :
    s.poppedRecord f ((s.governedLanes f)[n]) = recordAt (s.streamAvailable (streamNo f)) (typeWidth f.t / 8) n := by
  rw [State.poppedRecord, findIdx_governedLanes h, State.recordBytes, recordAt_take h]

theorem State.popStream_takes {s : State} {f : Slot} (hsome : s.recordBytes f ≠ 0)
    (henough : s.recordBytes f ≤ (s.streamAvailable (streamNo f)).length) :
    s.popStream f = (s.reserve (streamNo f) (s.recordBytes f)).putLanes f (s.poppedRecord f) := by
  unfold State.recordBytes at *
  simp only [State.popStream, governed_eq, hsome, if_false, Nat.not_lt.2 henough]
  rfl

theorem State.popStream_waits {s : State} {f : Slot} (hshort : (s.streamAvailable (streamNo f)).length < s.recordBytes f) :
    s.popStream f = s.waitFor (.stream (streamNo f) true (s.recordBytes f)) := by
  unfold State.recordBytes at *
  simp only [State.popStream, governed_eq, Nat.ne_zero_of_lt hshort, if_false, hshort, if_true]

/-- Reserving bytes changes the bolt and the stream. -/
theorem State.reserve_writesAs (s : State) (i b : Nat) : WritesAs s (s.reserve i b) :=
  ⟨rfl, rfl, rfl, fun _ => rfl, rfl, rfl, rfl, rfl⟩

theorem execSpop_takes {s : State} {f : Slot} (ht : f.t.toNat ∈ setVM) (h : s.goes (.spop f) f) (hsome : s.recordBytes f ≠ 0)
    (henough : s.recordBytes f ≤ (s.streamAvailable (streamNo f)).length) :
    ∃ t, exec (.spop f) s = .next t ∧ KeepsOthers s t .v f.d.toNat ∧ KeepsMemory s t ∧ KeepsSpecials s t ∧
      t.task.bolt.work.reserved = s.task.bolt.work.reserved ++
        ((s.streamAvailable (streamNo f)).take (s.recordBytes f)).map (fun x => (streamNo f, x)) ∧
      t.task.bolt.work.hold = s.task.bolt.work.hold ∧
      ∀ n, n < (s.governedLanes f).length → elemBits (typeWidth f.t) (t.finalV f.d.toNat) ((s.governedLanes f).getD n 0) =
        recordAt (s.streamAvailable (streamNo f)) (typeWidth f.t / 8) n := by
  obtain ⟨⟨hothers, hmem, hspecials, hbolt⟩, hlanes⟩ :=
    (s.reserve_writesAs (streamNo f) (s.recordBytes f)).putLanes f (s.poppedRecord f)
  refine ⟨_, (guarded_goes h).trans (congrArg _ (State.popStream_takes hsome henough)), hothers, hmem, hspecials,
    congrArg (·.work.reserved) hbolt, congrArg (·.work.hold) hbolt, fun n hn => ?_⟩
  obtain ⟨hlt, hgov⟩ := mem_governedLanes.1 (List.getElem_mem hn)
  have hwidth := (bytes_of_setVM ht).2
  rw [List.getD_eq_getElem _ 0 hn, hlanes _ hlt, if_pos hgov, State.poppedRecord_eq hn]
  exact Nat.mod_eq_of_lt ((recordAt_lt _ _ n).trans_eq (by rw [hwidth]))

/-- Settles O29: the branch of SPUSH and SPOP that the bytes of the governed elements lead to. -/
theorem conditionalStreams : Obligations.ConditionalStreams := by
  intro s f i w on bytes available b
  refine ⟨fun _ h hsome hfree hroom => execSpush_holds h hsome hfree hroom,
    fun hwf h hsome henough => execSpop_takes (type_of_wf rfl hwf) h hsome henough, fun _ h hshort => ?_,
    fun _ h => ⟨_, guarded_goes h, putG_writes ..⟩⟩
  obtain ⟨hfate, -, hregs, -, -⟩ := s.waitFor_keeps (.stream i true b)
  exact ⟨_, (guarded_goes h).trans (congrArg _ (State.popStream_waits hshort)), hfate, hregs⟩

end Sys2Proof.Machine

/-! Vector loads and stores (R131, R158 to R160, R182). -/

namespace Sys2Proof.Machine

/-! ### Bytes of a register -/

/-- A byte of a number given by its bytes. -/
theorem natOfBytes_byte {bs : List Byte} {b : Nat} (h : b < bs.length) : natOfBytes bs / 2 ^ (8 * b) % 2 ^ 8 = bs[b].toNat := by
  induction bs generalizing b with
  | nil => cases h
  | cons x bs ih =>
    have hx : x.toNat < 256 := x.isLt
    cases b with
    | zero => simp only [natOfBytes, List.getElem_cons_zero]; omega
    | succ b =>
      have hrest : natOfBytes (x :: bs) / 2 ^ 8 = natOfBytes bs := by simp only [natOfBytes]; omega
      rw [Nat.mul_succ, Nat.add_comm, Nat.pow_add, ← Nat.div_div_eq_div_mul, hrest]
      exact ih (Nat.lt_of_succ_lt_succ h)

/-- An element of a register given by its number. -/
theorem elemBits_ofNat {w i : Nat} (h : w * i + w ≤ 2048) (n : Nat) :
    elemBits w (BitVec.ofNat 2048 n) i = n / 2 ^ (w * i) % 2 ^ w := by
  refine Nat.eq_of_testBit_eq fun r => ?_
  rw [elemBits, Nat.testBit_mod_two_pow, Nat.testBit_mod_two_pow, Nat.testBit_div_two_pow, Nat.testBit_div_two_pow,
    BitVec.testBit_toNat, BitVec.getLsbD_ofNat]
  by_cases hr : r < w
  · rw [decide_eq_true (by omega : r + w * i < 2048), Bool.true_and]
  · rw [decide_eq_false hr, Bool.false_and, Bool.false_and]

/-- Every bit of a byte is governed by the mask bit of the byte's first element (R16, R159). -/
theorem governing_byte (t : BitVec 5) {b r : Nat} (hr : r < 8) :
    (8 * b + r) / typeWidth t * typeWidth t / 8 = 8 * b / typeWidth t * typeWidth t / 8 := by
  have hwidth : ∀ t : BitVec 5, typeWidth t ∈ [4, 8, 16, 32, 64, 128] := by decide
  have h := hwidth t
  simp only [List.mem_cons, List.not_mem_nil, or_false] at h
  rcases h with h | h | h | h | h | h <;> rw [h] <;> omega

theorem laneMask_getLsbD (t : BitVec 5) (on : Nat → Bool) {k : Nat} (hk : k < 2048) :
    (laneMask (typeWidth t) on).getLsbD k = on (k / typeWidth t) := by
  have hfull : ∀ t : BitVec 5, typeWidth t * (2048 / typeWidth t) = 2048 := by decide
  rw [laneMask, vregOf, BitVec.getLsbD_ofNat, decide_eq_true hk, Bool.true_and,
    packLanes_ones_testBit (width_fits t).1 on (by rwa [hfull])]

/-- The mask of the governed elements is made of whole bytes. -/
theorem elemBits_laneMask_byte (t : BitVec 5) (m : Mask) {b : Nat} (hb : b < 256) :
    elemBits 8 (laneMask (typeWidth t) (gov (typeWidth t) m)) b =
      if gov (typeWidth t) m (8 * b / typeWidth t) then 2 ^ 8 - 1 else 0 := by
  refine Nat.eq_of_testBit_eq fun r => ?_
  rw [elemBits, Nat.testBit_mod_two_pow, Nat.testBit_div_two_pow, BitVec.testBit_toNat]
  by_cases hr : r < 8
  · rw [Nat.add_comm r, laneMask_getLsbD t _ (by omega), gov, governing_byte t hr, ← gov]
    cases gov (typeWidth t) m (8 * b / typeWidth t) <;> simp [hr, Nat.testBit_two_pow_sub_one 8]
  · cases gov (typeWidth t) m (8 * b / typeWidth t) <;> simp [hr, Nat.testBit_two_pow_sub_one 8]

/-! ### Keys -/

/-- An access has one key for each of its bytes. -/
theorem State.resolve_length {s : State} {fm : AccessForm} {ptr : W64} {n align : Nat} {ks : List Nat}
    (h : s.resolve fm ptr n align = .ok ks) : ks.length = n := by
  rw [State.resolve] at h
  cases hplace : s.place ptr n with
  | error r => rw [hplace] at h; cases h
  | ok pl =>
    rw [hplace] at h
    simp only at h
    split_ifs at h
    cases hpiece : s.resolvePiece fm pl with
    | error e => rw [hpiece] at h; cases h
    | ok k =>
      rw [hpiece] at h
      cases pl with
      | corePad l off across | diePad d off => rw [← Except.ok.inj h, List.length_map, List.length_range]
      | clusterPad c off => rw [← Except.ok.inj h, State.clusterKeys, List.length_map, List.length_range]
      | global va =>
        simp only at h
        split_ifs at h with hroom
        · rw [← Except.ok.inj h, List.length_map, List.length_range]
        · cases hnext : s.resolvePiece fm (.global (va + (65536 - va % 65536))) with
          | error e => rw [hnext] at h; cases h
          | ok k' =>
            rw [hnext] at h
            rw [← Except.ok.inj h, List.length_append, List.length_map, List.length_map, List.length_range, List.length_range]
            omega

/-- The value of the bytes of one element. -/
theorem natOfBytes_element {t : BitVec 5} (ht : t.toNat ∈ setVM) {ks : List Nat} (hlen : ks.length = typeWidth t / 8)
    (byte : Nat → Byte) : natOfBytes (ks.map byte) % 2 ^ typeWidth t = natOfBytes (ks.map byte) := by
  refine Nat.mod_eq_of_lt ((natOfBytes_lt _).trans_eq ?_)
  rw [List.length_map, hlen, ← (bytes_of_setVM ht).2, Nat.pow_mul, Nat.mul_div_cancel_left _ (by decide)]

/-- The keys of the governed lanes of a gather or scatter, each resolved at its own address. -/
theorem State.laneKeys_ok {s : State} {f : Slot} {fe write : Bool} {lanes : List (Nat × List Nat)}
    (h : s.laneKeys f fe write = .ok lanes) : ∃ keys : Nat → List Nat,
      lanes = (governed (8 * (typeWidth f.t / 8)) (s.msel f)).map (fun i => (i, keys i)) ∧
      ∀ i ∈ governed (8 * (typeWidth f.t / 8)) (s.msel f),
        s.resolve { fe, write } (s.laneAddr f i) (typeWidth f.t / 8) (typeWidth f.t / 8) = .ok (keys i) := by
  unfold State.laneKeys at h
  simp only at h
  split at h
  · cases h
  split at h
  · cases h
  split at h
  · cases h
  split at h
  · cases h
  next hnone =>
    refine ⟨_, (Except.ok.inj h).symm, fun i hi => ?_⟩
    have hlane := List.findSome?_eq_none_iff.1 hnone i hi
    cases hres : s.resolve { fe, write } (s.laneAddr f i) (typeWidth f.t / 8) (typeWidth f.t / 8) with
    | ok ks => rfl
    | error e => rw [hres] at hlane; cases hlane

/-! ### Loads (R158, R159) -/

theorem State.touch_epoch (s : State) (ks : List Nat) : (s.touch ks).epoch = s.epoch :=
  foldl_keeps (fun u : State => u.epoch) _ _ s fun _ _ => rfl

theorem State.reading_epoch (s : State) (ks : List Nat) : (s.reading ks).epoch = s.epoch := by
  have hcharge : (s.chargeKeys s.myCluster ks).epoch = s.epoch := by
    unfold State.chargeKeys
    dsimp only
    split <;> rfl
  unfold State.reading State.noteReads
  dsimp only
  split
  · exact (State.touch_epoch _ _).trans hcharge
  · exact (State.touch_epoch _ _).trans hcharge

/-- A read changes nothing that a register window needs. -/
theorem State.reading_writesAs (s : State) (ks : List Nat) : WritesAs s (s.reading ks) := by
  obtain ⟨reads, htask⟩ := s.reading_task ks
  refine ⟨by rw [htask], by rw [htask], s.reading_epoch ks, fun a => by rw [State.reading_mem], ?_⟩
  rw [KeepsSpecials, htask]
  exact ⟨rfl, rfl, rfl, rfl⟩

/-- The keys of the governed bytes of a row of 256 (R159). -/
def State.governedKeys (s : State) (f : Slot) (ks : List Nat) : List Nat :=
  (governedBytes (typeWidth f.t) (s.msel f)).map fun b => ks.getD b 0

/-- The bytes that VLD writes. -/
def State.loadedBytes (s : State) (f : Slot) (ks : List Nat) : List Byte :=
  (List.range 256).map fun b => if gov (typeWidth f.t) (s.msel f) (8 * b / typeWidth f.t) then s.loadByte (ks.getD b 0) else 0

/-- The keys that VLDB reads: none where no element is governed. -/
def State.broadcastKeys (s : State) (f : Slot) (ks : List Nat) : List Nat := if (s.governedLanes f).isEmpty then [] else ks

theorem State.broadcastKeys_of_governed {s : State} {f : Slot} {i : Nat} (hi : i < laneCount f.t)
    (hgov : s.governs f f.msel.toNat i = true) (ks : List Nat) : s.broadcastKeys f ks = ks := by
  have hsome : (s.governedLanes f).isEmpty = false :=
    List.isEmpty_eq_false_iff.2 (List.ne_nil_of_mem (mem_governedLanes.2 ⟨hi, hgov⟩))
  rw [State.broadcastKeys, hsome, if_neg Bool.false_ne_true]

theorem State.broadcastKeys_awake {s : State} {f : Slot} {ks : List Nat}
    (h : (∃ i, i < laneCount f.t ∧ s.governs f f.msel.toNat i = true) → s.asleep ks = none) :
    s.asleep (s.broadcastKeys f ks) = none := by
  cases hlanes : s.governedLanes f with
  | nil => rw [State.broadcastKeys, hlanes]; exact s.asleep_nil
  | cons i is =>
    obtain ⟨hi, hgov⟩ := mem_governedLanes.1 (hlanes ▸ List.mem_cons_self : i ∈ s.governedLanes f)
    rw [State.broadcastKeys_of_governed hi hgov]
    exact h ⟨i, hi, hgov⟩

section
variable {s : State} {f : Slot} (hwf : f.wf = false) (hclr : f.clr = false)
include hwf hclr

theorem execVld_of_resolved {ks : List Nat} (h : s.goes (.vld f) f)
    (hkeys : s.resolve { ordered := f.ord ≠ 0 } (s.ea f) 256 16 = .ok ks) (hawake : s.asleep (s.governedKeys f ks) = none) :
    exec (.vld f) s = .next ((s.reading (s.governedKeys f ks)).put f.lat.toNat (.v f.d.toNat
      (laneMask (typeWidth f.t) (gov (typeWidth f.t) (s.msel f))) (BitVec.ofNat 2048 (natOfBytes (s.loadedBytes f ks))))) := by
  have hfe : (f.wf || f.clr) = false := by rw [hwf, hclr]; rfl
  refine (guarded_goes h).trans ?_
  rw [hfe, hkeys]
  exact congrArg Host.Outcome.next (State.fullEmptyLoad_of_plain hawake hwf hclr _ _)

/-- VLD gives each governed byte the byte at its key. -/
theorem execVld_loads {ks : List Nat} (h : s.goes (.vld f) f)
    (hkeys : s.resolve { ordered := f.ord ≠ 0 } (s.ea f) 256 16 = .ok ks) (hawake : s.asleep (s.governedKeys f ks) = none) :
    ∃ t, exec (.vld f) s = .next t ∧ KeepsOthers s t .v f.d.toNat ∧ KeepsMemory s t ∧ KeepsSpecials s t ∧ ∀ b, b < 256 →
      elemBits 8 (t.finalV f.d.toNat) b = if s.governs f f.msel.toNat (8 * b / typeWidth f.t)
        then (s.loadByte (ks.getD b 0)).toNat else elemBits 8 (s.finalV f.d.toNat) b := by
  have hwrites := s.reading_writesAs (s.governedKeys f ks)
  obtain ⟨hothers, hmem, hspecials, -⟩ := hwrites.put_v f.lat.toNat f.d.toNat
    (laneMask (typeWidth f.t) (gov (typeWidth f.t) (s.msel f))) (BitVec.ofNat 2048 (natOfBytes (s.loadedBytes f ks)))
  refine ⟨_, execVld_of_resolved hwf hclr h hkeys hawake, hothers, hmem, hspecials, fun b hb => ?_⟩
  have hbyte : b < (s.loadedBytes f ks).length := by rwa [State.loadedBytes, List.length_map, List.length_range]
  have hvalue : (s.loadedBytes f ks)[b] =
      if gov (typeWidth f.t) (s.msel f) (8 * b / typeWidth f.t) then s.loadByte (ks.getD b 0) else 0 := by
    simp only [State.loadedBytes, List.getElem_map, List.getElem_range]
  rw [State.finalV_put]
  simp only [if_true]
  rw [elemBits_merge _ _ _ _ _ _ (elemBits_laneMask_byte f.t (s.msel f) hb), hwrites.finalV_eq, elemBits_ofNat (by omega),
    natOfBytes_byte hbyte, hvalue]
  change _ = if gov (typeWidth f.t) (s.msel f) (8 * b / typeWidth f.t) then _ else _
  cases gov (typeWidth f.t) (s.msel f) (8 * b / typeWidth f.t) <;> rfl

theorem execVldb_of_resolved (ht : f.t.toNat ∈ setVM) {ks : List Nat} (h : s.goes (.vldb f) f)
    (hkeys : s.resolve { ordered := f.ord ≠ 0 } (s.ea f) (typeWidth f.t / 8) (typeWidth f.t / 8) = .ok ks)
    (hawake : s.asleep (s.broadcastKeys f ks) = none) : exec (.vldb f) s =
      .next ((s.reading (s.broadcastKeys f ks)).putLanes f fun _ => s.loadKeys (s.broadcastKeys f ks)) := by
  have hfe : (f.wf || f.clr) = false := by rw [hwf, hclr]; rfl
  refine (guarded_goes h).trans ?_
  rw [hfe, hkeys, (bytes_of_setVM ht).2]
  exact congrArg Host.Outcome.next (State.fullEmptyLoad_of_plain hawake hwf hclr _ _)

/-- VLDB gives one element to every governed lane. -/
theorem execVldb_loads (ht : f.t.toNat ∈ setVM) {ks : List Nat} (h : s.goes (.vldb f) f)
    (hkeys : s.resolve { ordered := f.ord ≠ 0 } (s.ea f) (typeWidth f.t / 8) (typeWidth f.t / 8) = .ok ks)
    (hawake : (∃ i, i < laneCount f.t ∧ s.governs f f.msel.toNat i = true) → s.asleep ks = none) :
    ∃ t, exec (.vldb f) s = .next t ∧ KeepsOthers s t .v f.d.toNat ∧ KeepsMemory s t ∧ KeepsSpecials s t ∧
      ∀ i, i < laneCount f.t → elemBits (typeWidth f.t) (t.finalV f.d.toNat) i =
        if s.governs f f.msel.toNat i then natOfBytes (ks.map s.loadByte) else elemBits (typeWidth f.t) (s.finalV f.d.toNat) i := by
  obtain ⟨⟨hothers, hmem, hspecials, -⟩, hvalues⟩ :=
    (s.reading_writesAs (s.broadcastKeys f ks)).putLanes f fun _ => s.loadKeys (s.broadcastKeys f ks)
  refine ⟨_, execVldb_of_resolved hwf hclr ht h hkeys (State.broadcastKeys_awake hawake), hothers, hmem, hspecials,
    fun i hi => (hvalues i hi).trans ?_⟩
  cases hgov : s.governs f f.msel.toNat i with
  | false => rfl
  | true =>
    rw [if_pos rfl, if_pos rfl, State.broadcastKeys_of_governed hi hgov]
    exact natOfBytes_element ht (State.resolve_length hkeys) s.loadByte

theorem execVldg_of_resolved {lanes : List (Nat × List Nat)} (h : s.goes (.vldg f) f)
    (hlanes : s.laneKeys f false false = .ok lanes) (hawake : s.asleep (lanes.flatMap (·.2)) = none) : exec (.vldg f) s =
      .next ((s.reading (lanes.flatMap (·.2))).putLanes f fun i => (lanes.lookup i).elim 0 s.loadKeys) := by
  have hfe : (f.wf || f.clr) = false := by rw [hwf, hclr]; rfl
  refine (guarded_goes h).trans ?_
  rw [hfe, hlanes]
  refine (congrArg Host.Outcome.next (State.fullEmptyLoad_of_plain hawake hwf hclr _ _)).trans ?_
  congr 2
  funext i
  cases lanes.lookup i <;> rfl

/-- VLDG gives each governed lane the element at its own address. -/
theorem execVldg_loads (ht : f.t.toNat ∈ setVM) {lanes : List (Nat × List Nat)} (h : s.goes (.vldg f) f)
    (hlanes : s.laneKeys f false false = .ok lanes) (hawake : s.asleep (lanes.flatMap (·.2)) = none) :
    ∃ t, exec (.vldg f) s = .next t ∧ KeepsOthers s t .v f.d.toNat ∧ KeepsMemory s t ∧ KeepsSpecials s t ∧
      ∀ i, i < laneCount f.t →
        (s.governs f f.msel.toNat i = true → ∃ ks, (i, ks) ∈ lanes ∧
          s.resolve {} (s.ea f + BitVec.ofNat 64 (elemBits (typeWidth f.t) (s.v f.b.toNat) i * (typeWidth f.t / 8)))
            (typeWidth f.t / 8) (typeWidth f.t / 8) = .ok ks ∧
          elemBits (typeWidth f.t) (t.finalV f.d.toNat) i = natOfBytes (ks.map s.loadByte)) ∧
        (s.governs f f.msel.toNat i = false →
          elemBits (typeWidth f.t) (t.finalV f.d.toNat) i = elemBits (typeWidth f.t) (s.finalV f.d.toNat) i) := by
  have h15 : f.t ≠ 15 := by
    rintro h15
    rw [h15] at ht
    exact absurd ht (by decide)
  obtain ⟨⟨hothers, hmem, hspecials, -⟩, hvalues⟩ :=
    (s.reading_writesAs (lanes.flatMap (·.2))).putLanes f fun i => (lanes.lookup i).elim 0 s.loadKeys
  obtain ⟨keys, hlist, hkeys⟩ := State.laneKeys_ok hlanes
  rw [(bytes_of_setVM ht).2, governed_eq] at hlist hkeys
  refine ⟨_, execVldg_of_resolved hwf hclr h hlanes hawake, hothers, hmem, hspecials,
    fun i hi => ⟨fun hgov => ?_, fun hgov => ?_⟩⟩
  · have hin : i ∈ s.governedLanes f := mem_governedLanes.2 ⟨hi, hgov⟩
    have haddr := hkeys i hin
    rw [State.laneAddr, elem_eq_elemBits h15] at haddr
    have hlookup : lanes.lookup i = some (keys i) := hlist ▸ List.lookup_graph keys hin
    refine ⟨keys i, hlist ▸ List.mem_map_of_mem hin, haddr, (hvalues i hi).trans ?_⟩
    rw [if_pos hgov, hlookup]
    exact natOfBytes_element ht (State.resolve_length haddr) s.loadByte
  · rw [hvalues i hi, hgov, if_neg Bool.false_ne_true]

end

/-! ### Stores (R160, R182) -/

section
variable {s : State} {cells : List Host.Cell} (op : Nat)

/-- A store outside the own core pad is held, and nothing else has changed. -/
theorem State.storeCells_foreign (hne : cells ≠ []) (hforeign : ∀ c ∈ cells, s.ownPad c.1 = false)
    (hroom : s.task.bolt.holdb + cells.length ≤ 65536) : let t := s.storeCells op cells
    KeepsRegisters s t ∧ KeepsMemory s t ∧ KeepsSpecials s t ∧
      t.task.bolt.work.hold = s.task.bolt.work.hold ++ [.store cells] ∧
      t.task.bolt.holdb = s.task.bolt.holdb + cells.length := by
  rw [State.storeCells_held op hforeign hne hroom]
  exact ⟨keepsRegisters_of_regs rfl, fun _ => rfl, ⟨rfl, rfl, rfl, rfl⟩, rfl, rfl⟩

theorem State.storeCells_nil (hlimit : s.task.bolt.holdb ≤ 65536) : s.storeCells op [] = s := by
  have hroom : s.overHold 0 = false := decide_eq_false (Nat.not_lt.2 hlimit)
  simp [State.storeCells, hroom, State.asleep_nil, granulesOf]

/-- A store to the own core pad is visible at once, and nothing else of the task has changed. -/
theorem State.storeCells_visible (hown : ∀ c ∈ cells, s.ownPad c.1 = true) (hlimit : s.task.bolt.holdb ≤ 65536)
    (hawake : s.asleep (cells.map (·.1)) = none)
    (hopen : ∀ g ∈ granulesOf (cells.map (·.1)), s.writeStalls (claimMark s.task.id.lcore s.task.id.part) g = false) :
    let t := s.storeCells op cells
    t.task = s.task ∧ t.mem = s.mem.writeCells cells := by
  rcases eq_or_ne cells [] with rfl | hne
  · rw [State.storeCells_nil op hlimit]
    exact ⟨rfl, rfl⟩
  · rw [State.storeCells_own op hown hne hlimit hawake hopen]
    exact ⟨State.showOf_task .., State.showOf_mem ..⟩

end

/-! ### The statement -/

/-- Settles O21: the window of each load on its lanes or bytes, and a store by where its keys lie. -/
theorem vectorMemory : Obligations.VectorMemory := by
  refine ⟨fun s f hwf hclr => ?_, fun s f => ?_⟩
  · intro w ea fm runs
    exact ⟨fun ks hkeys hawake _ h => execVld_loads hwf hclr h hkeys hawake,
      fun ks hkeys hawake hwell h => execVldb_loads hwf hclr (type_of_wf rfl hwell) h hkeys hawake,
      fun lanes hlanes hawake hwell h => execVldg_loads hwf hclr (type_of_wf rfl hwell) h hlanes hawake⟩
  · intro w ea stores
    have hstores {i : Instr} {cells : List Host.Cell} (op : Nat)
        (hexec : i.wf = true → s.goes i f → exec i s = .next (s.storeCells op cells)) : stores i cells := by
      intro hwell h
      refine ⟨fun hne hforeign hroom => ⟨_, hexec hwell h, State.storeCells_foreign op hne hforeign hroom⟩,
        fun hown hlimit hawake hopen => ?_⟩
      obtain ⟨htask, hmem⟩ := State.storeCells_visible op hown hlimit hawake hopen
      refine ⟨_, hexec hwell h, keepsRegisters_of_regs (by rw [htask]), ?_, by rw [htask], fun a => by rw [hmem]⟩
      rw [KeepsSpecials, htask]
      exact ⟨rfl, rfl, rfl, rfl⟩
    refine ⟨fun ks hkeys => hstores 0x111 fun _ h => (guarded_goes h).trans ?_,
      fun lanes hlanes => hstores 0x113 fun hwell h => (guarded_goes h).trans ?_⟩
    · have hkeys' : s.resolve { write := true, ordered := f.ord ≠ 0 } (s.ea f) 256 16 = .ok ks := hkeys
      rw [hkeys']
      rfl
    · rw [hlanes, (bytes_of_setVM (type_of_wf rfl hwell)).2]

end Sys2Proof.Machine

/-! The bound of the fast special functions: a rounded value lies within a unit in the last place (R39 to R41, R50, R145). -/

namespace Sys2Proof.Machine

/-! ### Exact values as rational numbers -/

theorem two_zpow_pos (e : Int) : (0 : ℚ) < 2 ^ e := zpow_pos (by norm_num) e

theorem scaleTo_rat (neg : Bool) (m : Nat) {e e0 : Int} (h : e0 ≤ e) :
    (scaleTo neg m e e0 : ℚ) * 2 ^ e0 = signedInt neg m * 2 ^ e := by
  have hscale : scaleTo neg m e e0 = signedInt neg m * 2 ^ (e - e0).toNat := by
    unfold scaleTo signedInt
    cases neg <;> simp
  have hexp : (2 : ℚ) ^ e = 2 ^ (e - e0).toNat * 2 ^ e0 := by
    rw [← zpow_natCast, ← zpow_add₀ (by norm_num), Int.toNat_of_nonneg (by omega), sub_add_cancel]
  rw [hscale, hexp]
  push_cast
  ring

/-- The order of two numbers that are not negative. -/
theorem le_of_cmp {m m' : Nat} {e e' : Int} (h : (FVal.fin false m e).cmp (.fin false m' e') ≤ 0) :
    (m : ℚ) * 2 ^ e ≤ m' * 2 ^ e' := by
  have hle : scaleTo false m e (min e e') ≤ scaleTo false m' e' (min e e') := by
    simp only [FVal.cmp] at h
    split_ifs at h <;> omega
  have hcast : (scaleTo false m e (min e e') : ℚ) * 2 ^ min e e' ≤ scaleTo false m' e' (min e e') * 2 ^ min e e' :=
    mul_le_mul_of_nonneg_right (by exact_mod_cast hle) (two_zpow_pos _).le
  rwa [scaleTo_rat _ _ (min_le_left ..), scaleTo_rat _ _ (min_le_right ..)] at hcast

/-- The exponent of the unit in the last place of an exact value in a format. -/
def FloatFmt.ulp (fmt : FloatFmt) (m : Nat) (e : Int) : Int := max (Nat.log2 m + e) (1 - (fmt.bias : Int)) - fmt.fbits

/-- A pattern whose value lies near an exact value is within its bound (R145). -/
theorem withinUlps_of_near {fmt : FloatFmt} {t y m m' : Nat} {neg neg' : Bool} {e e' : Int} (h : floatFmt t = some fmt)
    (hy : valueOf t y = .fin neg' m' e')
    (hnear : |(signedInt neg' m' : ℚ) * 2 ^ e' - signedInt neg m * 2 ^ e| ≤ 2 * 2 ^ fmt.ulp m e) :
    withinUlps t y (.fin neg m e) = true := by
  simp only [withinUlps, h, hy, decide_eq_true_eq]
  change _ ≤ 2 * 2 ^ (fmt.ulp m e - min (min e e') (fmt.ulp m e)).toNat
  change (scaleTo neg' m' e' (min (min e e') (fmt.ulp m e)) - scaleTo neg m e (min (min e e') (fmt.ulp m e))).natAbs ≤ _
  generalize hlow : min (min e e') (fmt.ulp m e) = e0
  have hpos := two_zpow_pos e0
  have hunit : (2 : ℚ) ^ fmt.ulp m e = 2 ^ (fmt.ulp m e - e0).toNat * 2 ^ e0 := by
    rw [← zpow_natCast, ← zpow_add₀ (by norm_num), Int.toNat_of_nonneg (by omega), sub_add_cancel]
  rw [← scaleTo_rat neg' m' (by omega : e0 ≤ e'), ← scaleTo_rat neg m (by omega : e0 ≤ e), ← sub_mul, abs_mul, abs_of_pos hpos,
    hunit, ← mul_assoc, mul_le_mul_iff_left₀ hpos] at hnear
  rw [← Nat.cast_le (α := ℚ), Nat.cast_natAbs]
  exact_mod_cast hnear

/-! ### Rounding to a neighbour (R50) -/

/-- A shifted magnitude as a ratio. -/
theorem ratioShift_rat (m : Nat) (e : Int) : 0 < (ratioShift m 1 e).2 ∧
    ((ratioShift m 1 e).1 : ℚ) / (ratioShift m 1 e).2 = m * 2 ^ e := by
  unfold ratioShift
  split
  next h =>
    refine ⟨by positivity, ?_⟩
    obtain ⟨k, rfl⟩ : ∃ k : Nat, e = -k := ⟨(-e).toNat, by omega⟩
    simp [div_eq_mul_inv]
  next h =>
    obtain ⟨k, rfl⟩ : ∃ k : Nat, e = k := ⟨e.toNat, by omega⟩
    simp

section
variable {rnd a b : Nat} {neg : Bool} {rand : RandomBits} (hb : 0 < b)
include hb

/-- A rounded magnitude does not pass an integer above it. -/
theorem roundMag_le {k : Nat} (h : (a : ℚ) / b ≤ k) : (roundMag rnd neg a b rand).1 ≤ k := by
  have hle : a ≤ k * b := by
    rw [div_le_iff₀ (by exact_mod_cast hb)] at h
    exact_mod_cast h
  by_cases hexact : a % b = 0
  · rw [roundMag_of_dvd hexact]
    exact (Nat.div_le_iff_le_mul_add_pred hb).2 (by rw [Nat.mul_comm]; omega)
  · have hlt : a / b < k := by
      refine (Nat.div_lt_iff_lt_mul hb).2 (lt_of_le_of_ne hle fun heq => hexact ?_)
      rw [heq, Nat.mul_mod_left]
    rcases roundMag_neighbour rnd a b neg rand with h | h <;> omega

/-- A rounded magnitude does not pass an integer below it. -/
theorem le_roundMag {k : Nat} (h : (k : ℚ) ≤ a / b) : k ≤ (roundMag rnd neg a b rand).1 := by
  have hle : k * b ≤ a := by
    rw [le_div_iff₀ (by exact_mod_cast hb)] at h
    exact_mod_cast h
  have := (Nat.le_div_iff_mul_le hb).2 hle
  rcases roundMag_neighbour rnd a b neg rand with h | h <;> omega

/-- A rounded magnitude differs by one at most. -/
theorem roundMag_near : |((roundMag rnd neg a b rand).1 : ℚ) - a / b| ≤ 1 := by
  have hb' : (0 : ℚ) < b := by exact_mod_cast hb
  have hlow : ((a / b : Nat) : ℚ) ≤ a / b := Nat.cast_div_le
  have hhigh : (a : ℚ) / b < ((a / b : Nat) : ℚ) + 1 := by
    rw [div_lt_iff₀ hb']
    exact_mod_cast (Nat.lt_mul_div_succ a hb).trans_eq (Nat.mul_comm ..)
  rcases roundMag_neighbour rnd a b neg rand with h | h <;> rw [h, abs_le] <;> push_cast <;> constructor <;> linarith

end

/-! ### Numbers of the formats of the special functions (R39 to R41) -/

/-- The exponent of the lowest bit of the largest numbers of a format with infinities. -/
def FloatFmt.top (fmt : FloatFmt) : Int := 2 ^ fmt.ebits - 2 - (fmt.bias : Int) - fmt.fbits

/-- A format of set VF. -/
structure FloatFmt.IsVF (fmt : FloatFmt) (t : Nat) : Prop where
  type : t = 9 ∨ t = 10 ∨ t = 11
  format : floatFmt t = some fmt

theorem FloatFmt.isVF_of_mem {t : Nat} (h : t ∈ [9, 10, 11]) : ∃ fmt : FloatFmt, fmt.IsVF t := by
  have htype : t = 9 ∨ t = 10 ∨ t = 11 := by simpa using h
  rcases htype with rfl | rfl | rfl <;> exact ⟨_, by decide, rfl⟩

section
variable {fmt : FloatFmt} {t : Nat} (h : fmt.IsVF t)
include h

theorem FloatFmt.IsVF.ne_bs9 : t ≠ 15 := by
  rcases h.type with rfl | rfl | rfl <;> decide

theorem FloatFmt.IsVF.exponents : 2 < 2 ^ fmt.ebits ∧ 1 - (fmt.bias : Int) - fmt.fbits ≤ fmt.top := by
  obtain ⟨ht, hfmt⟩ := h
  rcases ht with rfl | rfl | rfl <;> cases hfmt <;> decide

/-- The largest number. -/
theorem FloatFmt.IsVF.valueOf_maxOf : valueOf t (maxOf t) = .fin false (2 ^ (fmt.fbits + 1) - 1) fmt.top := by
  obtain ⟨ht, hfmt⟩ := h
  rcases ht with rfl | rfl | rfl <;> cases hfmt <;> decide

variable {e m : Nat} (he : e + 1 < 2 ^ fmt.ebits)
include he

theorem FloatFmt.IsVF.specialOf_eq_none (neg : Bool) : specialOf t fmt e m neg = none := by
  obtain ⟨ht, hfmt⟩ := h
  rcases ht with rfl | rfl | rfl <;> cases hfmt <;> exact if_neg (by simp only at he ⊢; omega)

variable (hm : m < 2 ^ fmt.fbits)
include hm

/-- The value of a pattern by its sign, its exponent field and its fraction. -/
theorem FloatFmt.IsVF.valueOf_fields (neg : Bool) :
    valueOf t (e * 2 ^ fmt.fbits + m + signOf t neg) = .fin neg (fmt.magnitude e m) (fmt.lsb e) := by
  have hfields : (e * 2 ^ fmt.fbits + m + signOf t neg) / 2 ^ fmt.fbits % 2 ^ fmt.ebits = e ∧
      (e * 2 ^ fmt.fbits + m + signOf t neg) % 2 ^ fmt.fbits = m ∧ fmt.sign t (e * 2 ^ fmt.fbits + m + signOf t neg) = neg := by
    obtain ⟨ht, hfmt⟩ := h
    rcases ht with rfl | rfl | rfl <;> cases hfmt <;> cases neg <;> simp [signOf, floatFmt, FloatFmt.sign] at * <;> omega
  obtain ⟨hexp, hfrac, hsign⟩ := hfields
  rw [valueOf_float h.format, hexp, hfrac, hsign, h.specialOf_eq_none he, Option.getD_none]

end

/-- A number that a format represents: `n` units of its lowest bit. -/
structure FloatFmt.Represents (fmt : FloatFmt) (n : Nat) (lsb : Int) : Prop where
  low : 1 - (fmt.bias : Int) - fmt.fbits ≤ lsb
  subnormal : n < 2 ^ fmt.fbits → lsb = 1 - (fmt.bias : Int) - fmt.fbits
  le : n ≤ 2 ^ (fmt.fbits + 1)
  top : lsb ≤ fmt.top
  carry : n = 2 ^ (fmt.fbits + 1) → lsb < fmt.top

/-- A represented number is packed as the fields that give its value, and they are those of no infinity. -/
theorem FloatFmt.Represents.packFloat_fields {fmt : FloatFmt} {n : Nat} {lsb : Int} (h : fmt.Represents n lsb)
    (hbig : 2 < 2 ^ fmt.ebits) : ∃ e m, e + 1 < 2 ^ fmt.ebits ∧ m < 2 ^ fmt.fbits ∧
      packFloat fmt n lsb = e * 2 ^ fmt.fbits + m ∧ (fmt.magnitude e m : ℚ) * 2 ^ fmt.lsb e = n * 2 ^ lsb := by
  obtain ⟨hlow, hsub, hn, htop, hcarry⟩ := h
  have hpow : 2 ^ (fmt.fbits + 1) = 2 * 2 ^ fmt.fbits := by rw [Nat.pow_succ, Nat.mul_comm]
  have hbits : 0 < 2 ^ fmt.fbits := Nat.two_pow_pos _
  have hcast : ((2 ^ fmt.ebits : Nat) : Int) = 2 ^ fmt.ebits := by push_cast; rfl
  rw [FloatFmt.top, ← hcast] at htop hcarry
  -- the exponent field of a number with the leading bit at `fbits`
  obtain ⟨e, he⟩ : ∃ e : Nat, (e : Int) = lsb + fmt.fbits + fmt.bias := ⟨(lsb + fmt.fbits + fmt.bias).toNat, by omega⟩
  by_cases hsmall : n < 2 ^ fmt.fbits
  · have hlsb : fmt.lsb 0 = lsb := by rw [hsub hsmall]; simp [FloatFmt.lsb]
    refine ⟨0, n, by omega, hsmall, by simp [packFloat, hsmall], ?_⟩
    rw [hlsb, FloatFmt.magnitude, if_pos rfl]
  · by_cases heq : n = 2 ^ (fmt.fbits + 1)
    · have hless := hcarry heq
      have hlsb : fmt.lsb (e + 1) = lsb + 1 := by unfold FloatFmt.lsb; omega
      have hfield : (lsb + fmt.fbits + 1 - (1 - (fmt.bias : Int))).toNat + 1 = e + 1 := by omega
      refine ⟨e + 1, 0, by omega, hbits, by simp only [packFloat, if_neg hsmall, if_pos heq, hfield, Nat.add_zero], ?_⟩
      rw [hlsb, FloatFmt.magnitude, if_neg (by omega), heq, zpow_add₀ (by norm_num)]
      push_cast
      ring
    · have hlsb : fmt.lsb e = lsb := by unfold FloatFmt.lsb; omega
      have hfield : (lsb + fmt.fbits - (1 - (fmt.bias : Int))).toNat + 1 = e := by omega
      refine ⟨e, n - 2 ^ fmt.fbits, by omega, by omega, by simp only [packFloat, if_neg hsmall, if_neg heq, hfield], ?_⟩
      rw [hlsb, FloatFmt.magnitude, if_neg (by omega), Nat.add_sub_cancel' (by omega)]

/-! ### Rounding into a format (R50, R53) -/

/-- A magnitude lies between its leading power of two and the next one. -/
theorem leading_power {m : Nat} (hm : 0 < m) (e : Int) :
    (2 : ℚ) ^ (Nat.log2 m + e) ≤ m * 2 ^ e ∧ (m : ℚ) * 2 ^ e < 2 ^ (Nat.log2 m + e + 1) := by
  have hpos := two_zpow_pos e
  have hlow : 2 ^ Nat.log2 m ≤ m := Nat.log2_self_le hm.ne'
  have hhigh : m < 2 ^ (Nat.log2 m + 1) := Nat.lt_log2_self
  rw [show (Nat.log2 m : Int) + e + 1 = ((Nat.log2 m + 1 : Nat) : Int) + e by push_cast; ring, zpow_add₀ (by norm_num),
    zpow_add₀ (by norm_num), zpow_natCast, zpow_natCast]
  exact ⟨mul_le_mul_of_nonneg_right (by exact_mod_cast hlow) hpos.le, mul_lt_mul_of_pos_right (by exact_mod_cast hhigh) hpos⟩

/-- How many units of its last place a value is rounded to. -/
def FloatFmt.units (fmt : FloatFmt) (rnd : Nat) (neg : Bool) (m : Nat) (e : Int) (rand : RandomBits) : Nat :=
  (roundMag rnd neg (ratioShift m 1 (e - fmt.ulp m e)).1 (ratioShift m 1 (e - fmt.ulp m e)).2 rand).1

section
variable (fmt : FloatFmt) (rnd : Nat) (neg : Bool) (m : Nat) (e : Int) (rand : RandomBits)

/-- A value in units of its last place. -/
theorem FloatFmt.scaled_mul : (m : ℚ) * 2 ^ (e - fmt.ulp m e) * 2 ^ fmt.ulp m e = m * 2 ^ e := by
  rw [mul_assoc, ← zpow_add₀ (by norm_num), sub_add_cancel]

theorem FloatFmt.units_le {k : Nat} (h : (m : ℚ) * 2 ^ e ≤ k * 2 ^ fmt.ulp m e) : fmt.units rnd neg m e rand ≤ k := by
  obtain ⟨hpos, hratio⟩ := ratioShift_rat m (e - fmt.ulp m e)
  rw [← fmt.scaled_mul m e, ← hratio] at h
  exact roundMag_le hpos (le_of_mul_le_mul_right h (two_zpow_pos _))

theorem FloatFmt.le_units {k : Nat} (h : (k : ℚ) * 2 ^ fmt.ulp m e ≤ m * 2 ^ e) : k ≤ fmt.units rnd neg m e rand := by
  obtain ⟨hpos, hratio⟩ := ratioShift_rat m (e - fmt.ulp m e)
  rw [← fmt.scaled_mul m e, ← hratio] at h
  exact le_roundMag hpos (le_of_mul_le_mul_right h (two_zpow_pos _))

/-- A value is rounded by less than a unit in its last place. -/
theorem FloatFmt.units_near : |(fmt.units rnd neg m e rand : ℚ) * 2 ^ fmt.ulp m e - m * 2 ^ e| ≤ 2 ^ fmt.ulp m e := by
  obtain ⟨hpos, hratio⟩ := ratioShift_rat m (e - fmt.ulp m e)
  have hunit := two_zpow_pos (fmt.ulp m e)
  have hone : |(fmt.units rnd neg m e rand : ℚ) - m * 2 ^ (e - fmt.ulp m e)| ≤ 1 := hratio ▸ roundMag_near hpos
  calc |(fmt.units rnd neg m e rand : ℚ) * 2 ^ fmt.ulp m e - m * 2 ^ e|
      = |(fmt.units rnd neg m e rand : ℚ) - m * 2 ^ (e - fmt.ulp m e)| * 2 ^ fmt.ulp m e := by
        rw [← fmt.scaled_mul m e, ← sub_mul, abs_mul, abs_of_pos hunit]
    _ ≤ 1 * 2 ^ fmt.ulp m e := mul_le_mul_of_nonneg_right hone hunit.le
    _ = 2 ^ fmt.ulp m e := one_mul _

end

section
variable {fmt : FloatFmt} {t : Nat} (h : fmt.IsVF t) {m : Nat} (hm : 0 < m) {e : Int}
  (hmax : (FVal.fin false m e).cmp (valueOf t (maxOf t)) ≤ 0)
include h hm hmax

omit hm in
/-- The bound of R145's values as rational numbers. -/
theorem FloatFmt.IsVF.le_max : (m : ℚ) * 2 ^ e ≤ (2 ^ (fmt.fbits + 1) - 1 : Nat) * 2 ^ fmt.top := by
  rw [h.valueOf_maxOf] at hmax
  exact le_of_cmp hmax

/-- The leading bit of a value within the format is at most that of its largest number. -/
theorem FloatFmt.IsVF.lead_le_top : Nat.log2 m + e ≤ fmt.top + fmt.fbits := by
  have hlt : (2 : ℚ) ^ (Nat.log2 m + e) < 2 ^ (fmt.top + (fmt.fbits + 1 : Nat)) := by
    refine ((leading_power hm e).1.trans (h.le_max hmax)).trans_lt ?_
    rw [zpow_add₀ (by norm_num), mul_comm, zpow_natCast]
    exact mul_lt_mul_of_pos_left (by exact_mod_cast Nat.sub_lt (Nat.two_pow_pos _) Nat.one_pos) (two_zpow_pos _)
  have hexp := (zpow_lt_zpow_iff_right₀ (by norm_num : (1 : ℚ) < 2)).1 hlt
  push_cast at hexp
  omega

/-- A value within the format is rounded to a number of the format. -/
theorem FloatFmt.IsVF.represents (rnd : Nat) (neg : Bool) (rand : RandomBits) :
    fmt.Represents (fmt.units rnd neg m e rand) (fmt.ulp m e) := by
  obtain ⟨hlead, hnext⟩ := leading_power hm e
  obtain ⟨-, hemin⟩ := h.exponents
  have hulp : fmt.ulp m e = max (Nat.log2 m + e) (1 - (fmt.bias : Int)) - fmt.fbits := rfl
  have hleTop := h.lead_le_top hm hmax
  refine ⟨by omega, fun hsmall => ?_, ?_, by omega, fun heq => ?_⟩
  · by_contra hne
    refine absurd hsmall (Nat.not_lt.2 (fmt.le_units rnd neg m e rand ?_))
    refine le_of_eq_of_le ?_ hlead
    push_cast
    rw [← zpow_natCast, ← zpow_add₀ (by norm_num)]
    congr 1
    omega
  · refine fmt.units_le rnd neg m e rand (hnext.le.trans ?_)
    push_cast
    rw [← zpow_natCast, ← zpow_add₀ (by norm_num)]
    exact zpow_le_zpow_right₀ (by norm_num) (by push_cast; omega)
  · refine lt_of_le_of_ne (by omega) fun htop => ?_
    have := fmt.units_le rnd neg m e rand (htop ▸ h.le_max hmax)
    have := Nat.two_pow_pos (fmt.fbits + 1)
    omega

/-- A value within the format converts to the pattern of the number it is rounded to. -/
theorem FloatFmt.IsVF.convertTo_eq (rnd : Nat) (sat neg : Bool) (rand : RandomBits) :
    convertTo t rnd sat rand (.fin neg m e) = packFloat fmt (fmt.units rnd neg m e rand) (fmt.ulp m e) + signOf t neg := by
  obtain ⟨x, y, hx, hy, hpack, -⟩ := (h.represents hm hmax rnd neg rand).packFloat_fields h.exponents.1
  have hinrange : ¬maxOf t < packFloat fmt (fmt.units rnd neg m e rand) (fmt.ulp m e) := by
    rw [hpack, Nat.not_lt]
    exact le_maxOf_of_number h.format (by omega) hy (h.specialOf_eq_none hx neg)
  simp only [convertTo, h.format, roundFloat, hm.ne', if_false, log2Ratio_one hm.ne', h.ne_bs9, false_and]
  exact if_neg hinrange

/-- A converted value lies within a unit in the last place. -/
theorem FloatFmt.IsVF.convertTo_withinUlps (rnd : Nat) (sat neg : Bool) (rand : RandomBits) :
    withinUlps t (convertTo t rnd sat rand (.fin neg m e)) (.fin neg m e) = true := by
  obtain ⟨x, y, hx, hy, hpack, hvalue⟩ := (h.represents hm hmax rnd neg rand).packFloat_fields h.exponents.1
  rw [h.convertTo_eq hm hmax, hpack]
  refine withinUlps_of_near h.format (h.valueOf_fields hx hy neg) ?_
  have hnear := fmt.units_near rnd neg m e rand
  rw [← hvalue] at hnear
  have hunit := two_zpow_pos (fmt.ulp m e)
  have habs : |(signedInt neg (fmt.magnitude x y) : ℚ) * 2 ^ fmt.lsb x - signedInt neg m * 2 ^ e| =
      |(fmt.magnitude x y : ℚ) * 2 ^ fmt.lsb x - m * 2 ^ e| := by
    cases neg with
    | false => simp [signedInt]
    | true =>
      rw [← abs_neg]
      congr 1
      simp [signedInt]
      ring
  rw [habs]
  linarith

end

end Sys2Proof.Machine

/-! The special functions (R143 to R145, R323). -/

namespace Sys2Proof.Machine

/-! ### Integer square roots (R144) -/

/-- Bits are set from the top as long as the square does not pass the number. -/
theorem sqrtBits_spec {n acc : Nat} : ∀ {k : Nat}, acc * acc ≤ n → n < (acc + 2 ^ k) * (acc + 2 ^ k) →
    sqrtBits n acc k * sqrtBits n acc k ≤ n ∧ n < (sqrtBits n acc k + 1) * (sqrtBits n acc k + 1) := by
  intro k
  induction k generalizing acc with
  | zero => exact fun hle hlt => ⟨hle, hlt⟩
  | succ k ih =>
    intro hle hlt
    rw [sqrtBits]
    split
    next hbit => exact ih hbit (by rwa [Nat.add_assoc, ← Nat.two_mul, ← Nat.pow_succ'])
    next hbit => exact ih hle (Nat.not_le.1 hbit)

theorem intSqrt_spec (n : Nat) : intSqrt n * intSqrt n ≤ n ∧ n < (intSqrt n + 1) * (intSqrt n + 1) := by
  refine sqrtBits_spec (by omega) ?_
  rw [Nat.zero_add, ← Nat.pow_add]
  exact Nat.lt_log2_self.trans_le (Nat.pow_le_pow_right (by decide) (by omega))

/-! ### Fast results (R145) -/

/-- Whatever the free pattern, a fast result lies within the bound. -/
theorem fastResult_withinUlps {t m : Nat} {e : Int} (ht : t ∈ [9, 10, 11]) (hm : 0 < m)
    (hmax : (FVal.fin false m e).cmp (valueOf t (maxOf t)) ≤ 0) (neg sat : Bool) (free : W32) :
    withinUlps t (fastResult t sat (.fin neg m e) free) (.fin neg m e) = true := by
  obtain ⟨fmt, hfmt⟩ := FloatFmt.isVF_of_mem ht
  unfold fastResult
  split
  next hfree => exact hfree
  next => exact hfmt.convertTo_withinUlps hm hmax 0 sat neg none

/-- The element that VSQRT, VEXP2 or VLOG2 writes. -/
def State.specialValue (s : State) (f : Slot) (r : FVal → FVal) (fast : Nat → W32 → W32) (i : Nat) : Nat :=
  if f.im && !specialInput (s.operandValue f i) && !(r (s.operandValue f i)).isNan then
    fastResult f.t.toNat (f.sat == 1) (r (s.operandValue f i)) (fast f.t.toNat (BitVec.ofNat 32 (elem f.t (s.v f.a.toNat) i)))
  else convertTo f.t.toNat (effRnd s f.rnd) (f.sat == 1) (s.randomBits f f.t i) (r (s.operandValue f i))

/-! ### The instructions (R143 to R145, R323) -/

section
variable {s : State} {f : Slot} (op : Nat) {i : Instr} (h : s.goes i f)
include h

/-- A function whose .fast form is allowed writes its governed elements. -/
theorem guarded_fastOr_writes (hfast : f.im = false ∨ s.task.id.detlvl ≠ 3) {val val' : Nat → Nat}
    (hval : ∀ k, val k = val' k) :
    ∃ t, guarded i f s (s.fastOr f op (s.putLanes f val)) = .next t ∧ WritesLanes s t f (s.governs f f.msel.toNat) val' := by
  have hgo : s.fastOr f op (s.putLanes f val) = s.putLanes f val := by
    rw [State.fastOr, if_neg]
    intro hdet
    obtain ⟨him, hlevel⟩ := Bool.and_eq_true_iff.1 hdet
    exact hfast.elim (fun hslow => Bool.false_ne_true (hslow.symm.trans him)) (· (beq_iff_eq.1 hlevel))
  rw [hgo]
  exact guarded_putLanes h fun k _ => by rw [hval]

/-- A .fast form at determinism level 3 traps (R323). -/
theorem guarded_fastOr_traps (him : f.im = true) (hlevel : s.task.id.detlvl = 3) (hmay : s.mayTrap) (k : State) :
    ∃ t y, guarded i f s (s.fastOr f op k) = .next t ∧ Trapped s t 8 y ∧ y.extractLsb' 56 8 = (2 : BitVec 8) := by
  have htrap : s.fastOr f op k = s.trapDet op 0x02 := by
    rw [State.fastOr, him, hlevel]
    rfl
  rw [htrap]
  exact ⟨_, _, guarded_goes h, trapped_of_mayTrap hmay _ _, syndWord_cause _ _ _ _ _⟩

end

/-- Settles O27: the branch of each function, the bound of a rounded value, and the bits of an integer root. -/
theorem specialFunctions : Obligations.SpecialFunctions := by
  refine ⟨fun s f => ?_, fun t m e neg sat free ht hm hmax => fastResult_withinUlps ht hm hmax neg sat free, intSqrt_spec⟩
  intro p x code random rounded writes
  have hx (h15 : f.t ≠ 15) (k : Nat) : s.operandValue f k = x k := by rw [State.operandValue, elem_eq_elemBits h15]
  have hrounded (h15 : f.t ≠ 15) (r : FVal → FVal) (fast : Nat → W32 → W32) (k : Nat) :
      s.specialValue f r fast k = rounded r fast k := by
    rw [State.specialValue, hx h15, elem_eq_elemBits h15, randomBits_eq]
    rfl
  have hwrites {i : Instr} {o : OpForm} (hform : opForm i = some (f, o)) (htypes : o.types = setVF) {val val' : Nat → Nat}
      (op : Nat) (hexec : exec i s = guarded i f s (s.fastOr f op (s.putLanes f val)))
      (hval : f.t ≠ 15 → ∀ k, val k = val' k) : writes i val' := by
    intro hwf h
    rw [hexec]
    exact ⟨fun hfast => guarded_fastOr_writes op h hfast (hval (ne_bs9_of_wf hform htypes (by decide) hwf)),
      fun him hlevel hmay => guarded_fastOr_traps op h him hlevel hmay _⟩
  exact ⟨hwrites rfl rfl 0x208 rfl fun h15 k => by rw [hx h15], hwrites rfl rfl 0x209 rfl fun h15 k => by rw [hx h15],
    hwrites rfl rfl 0x20A rfl fun h15 => hrounded h15 _ _, hwrites rfl rfl 0x20B rfl fun h15 => hrounded h15 _ _,
    hwrites rfl rfl 0x20C rfl fun h15 => hrounded h15 _ _⟩

end Sys2Proof.Machine

/-! What the bookkeeping on the cores leaves alone: whatever is not of the cores, and the fields of a core that it does not
touch. -/

namespace Sys2Proof.Machine

/-! ### Views of the state that do not look at the cores -/

/-- A view of the state that does not look at the cores. -/
def CoreBlind {β : Type} (π : State → β) : Prop := ∀ s c, π (s.setCore c) = π s

section
variable {β : Type} {π : State → β} (h : CoreBlind π)
include h

theorem State.leaveArray_blind (s : State) (home : Nat) (r : Running) : π (s.leaveArray home r) = π s := by
  unfold State.leaveArray
  split
  · exact h s _
  · rfl

theorem State.cancel_blind (s : State) (l : Nat) (who : Issuer → Bool) : π (s.cancel l who) = π s :=
  (foldl_keeps π _ _ _ fun s r => State.leaveArray_blind h s l r).trans (h s _)

theorem State.rerateRuns_blind (s : State) (i : Nat) : π (s.rerateRuns i) = π s := by
  unfold State.rerateRuns
  dsimp only
  split
  · rfl
  · exact (h _ _).trans (foldl_keeps π _ _ s fun s _ => h s _)

theorem State.refreshLevel_blind (s : State) (l : Nat) : π (s.refreshLevel l) = π s :=
  (foldl_keeps π _ _ _ fun s _ => State.rerateRuns_blind h s _).trans (h s _)

theorem State.resolveClaims_blind (full : Bool) : ∀ (ks : List Nat) (s : State), π (s.resolveClaims full ks) = π s
  | [], _ => rfl
  | k :: ks, s => by
    rw [State.resolveClaims, State.resolveClaims_blind full ks]
    split
    · exact h s _
    · rfl

variable (hhelper : ∀ s l w f, π (State.onHelper s l w f) = π s) (hwriter : ∀ s id, π (State.forgetWriter s id) = π s)
include hhelper hwriter

theorem State.discardWork_blind (s : State) (w : BoltWork) : π (s.discardWork w) = π s :=
  (hwriter _ _).trans ((hhelper _ _ _ _).trans ((hhelper _ _ _ _).trans ((State.resolveClaims_blind h true _ _).trans (h s _))))

end

/-! ### Fields of a core -/

/-- A field of a core that does not concern its array's windows (R225, R230). -/
def WindowBlind {γ : Type} (ρ : Core → γ) : Prop :=
  ∀ c clocks parts idle, ρ { c with winClocks := clocks, winParts := parts, idle } = ρ c

/-- A field of a core that concerns neither its array's windows nor its rates (R229). -/
def ArrayBlind {γ : Type} (ρ : Core → γ) : Prop :=
  WindowBlind ρ ∧ ∀ c run phases thrLvl, ρ { c with run, phases, thrLvl } = ρ c

theorem core_lcore (s : State) (l : Nat) : (s.core l).lcore = l := rfl

section
variable {γ : Type} {ρ : Core → γ}

/-- A core put back with a field as it was. -/
theorem State.setCore_keeps {s : State} {c : Core} (h : ρ c = ρ (s.core c.lcore)) (l : Nat) :
    ρ ((s.setCore c).core l) = ρ (s.core l) := by
  rw [core_setCore]
  by_cases hl : l = c.lcore
  · rw [if_pos hl, hl]
    exact h
  · rw [if_neg hl]

theorem State.leaveArray_core (h : WindowBlind ρ) (s : State) (home : Nat) (r : Running) (l : Nat) :
    ρ ((s.leaveArray home r).core l) = ρ (s.core l) := by
  unfold State.leaveArray
  split
  · exact State.setCore_keeps (h _ _ _ _) l
  · rfl

/-- A cancellation changes, apart from windows of arrays, the core it names alone. -/
theorem State.cancel_core (h : WindowBlind ρ) (s : State) (l : Nat) (who : Issuer → Bool) (k : Nat) :
    ρ ((s.cancel l who).core k) = ρ ((s.setCore ((s.core l).cancel s.dcc who)).core k) :=
  foldl_keeps (fun t => ρ (t.core k)) _ _ _ fun s r => State.leaveArray_core h s l r k

theorem State.rerateRuns_core (h : ArrayBlind ρ) (s : State) (i l : Nat) : ρ ((s.rerateRuns i).core l) = ρ (s.core l) := by
  unfold State.rerateRuns
  dsimp only
  split
  · rfl
  · refine (State.setCore_keeps (h.2 _ _ _ _) l).trans (foldl_keeps (fun t => ρ (t.core l)) _ _ s fun s r => ?_)
    exact State.setCore_keeps (h.1 _ _ _ _) l

theorem State.refreshLevel_core (h : ArrayBlind ρ) (s : State) (i l : Nat) : ρ ((s.refreshLevel i).core l) = ρ (s.core l) := by
  refine (foldl_keeps (fun t => ρ (t.core l)) _ _ _ fun s _ => State.rerateRuns_core h s _ l).trans ?_
  exact State.setCore_keeps (h.2 _ _ _ _) l

end

theorem Core.unlend_eq (ps : List Nat) (c : Core) : ∃ lends, c.unlend ps = { c with lends } := by
  induction ps generalizing c with
  | nil => exact ⟨c.lends, rfl⟩
  | cons p ps ih => exact ih (c.setLend p (c.lend p - 1))

/-- What a cancellation changes of a core: the commands it names go, and their lend marks (R188). -/
theorem Core.cancel_eq (c : Core) (now : Nat) (who : Issuer → Bool) : ∃ lends, c.cancel now who = { c with
    lends, idle := now
    mq := c.mq.filter (fun x => !who x.who)
    run := c.run.filter (fun x => !who x.cmd.who)
    sq := c.sq.filter (fun x => !who x.who) } := by
  obtain ⟨lends, h⟩ := Core.unlend_eq ((c.mq.filter (fun x => who x.who)).flatMap (·.pages)
    ++ (c.run.filter (fun x => who x.cmd.who)).flatMap (·.cmd.pages)) c
  exact ⟨lends, by rw [Core.cancel, h]⟩

theorem State.core_setCore_of_eq {s : State} {c : Core} {l : Nat} (h : c.lcore = l) : (s.setCore c).core l = c := by
  rw [core_setCore, if_pos h.symm, ← h]

/-- A cancellation leaves on its core none of the commands that it names. -/
theorem State.cancel_orders (s : State) (l : Nat) (who : Issuer → Bool) : let c := (s.cancel l who).core l
    c.mq = (s.core l).mq.filter (fun x => !who x.who) ∧ c.run = (s.core l).run.filter (fun x => !who x.cmd.who) ∧
      c.sq = (s.core l).sq.filter (fun x => !who x.who) := by
  have hkeeps := State.cancel_core (ρ := fun c => (c.mq, c.run, c.sq)) (fun _ _ _ _ => rfl) s l who l
  obtain ⟨lends, hcancel⟩ := (s.core l).cancel_eq s.dcc who
  rw [State.core_setCore_of_eq (by rw [hcancel]; rfl), hcancel] at hkeeps
  simpa only [Prod.mk.injEq] using hkeeps

/-! ### Ports -/

section
variable {β : Type} {π : State → β} (hport : ∀ s k p, π (State.setPort s k p) = π s)
  (hemit : ∀ s o, π (State.emit s o) = π s) (hroute : ∀ (s : State) dev, π { s with dev } = π s)
include hport hemit hroute

theorem State.sendTo_blind (s : State) (pos type : Nat) (payload : List Byte) : π (s.sendTo pos type payload) = π s := by
  unfold State.sendTo State.portSend
  dsimp only
  split
  · split
    · exact hport _ _ _
    · exact (hemit _ _).trans (hport _ _ _)
  · exact hroute _ _

theorem State.sendAll_blind (s : State) (b : Config.PortBody) : π (s.sendAll b) = π s :=
  foldl_keeps π _ _ _ fun _ _ => foldl_keeps π _ _ _ fun s _ => State.sendTo_blind hport hemit hroute s _ _ _

end

@[simp] theorem State.sendAll_nodes (s : State) (b : Config.PortBody) : (s.sendAll b).nodes = s.nodes :=
  State.sendAll_blind (fun _ _ _ => rfl) (fun _ _ => rfl) (fun _ _ => rfl) s b

@[simp] theorem State.sendAll_cores (s : State) (b : Config.PortBody) : (s.sendAll b).cores = s.cores :=
  State.sendAll_blind (fun _ _ _ => rfl) (fun _ _ => rfl) (fun _ _ => rfl) s b

@[simp] theorem State.sendAll_saved (s : State) (b : Config.PortBody) : (s.sendAll b).saved = s.saved :=
  State.sendAll_blind (fun _ _ _ => rfl) (fun _ _ => rfl) (fun _ _ => rfl) s b

end Sys2Proof.Machine

/-! A task that a step finds, and what the step does to it: traps, notices, the end, the budget (R35, R165, R166, R169, R170,
R310, R380). -/

namespace Sys2Proof.Machine

/-! ### Tasks that a step finds -/

theorem mem_of_mem_insertTask {t x : Task} {l : List Task} (h : x ∈ insertTask t l) : x = t ∨ x ∈ l := by
  induction l with
  | nil => exact .inl (List.mem_singleton.1 h)
  | cons u us ih =>
    rw [insertTask] at h
    split at h
    · exact List.mem_cons.1 h
    · rcases List.mem_cons.1 h with rfl | h
      · exact .inr List.mem_cons_self
      · exact (ih h).imp_right (List.mem_cons_of_mem u)

theorem State.mem_liveTasks {s : State} {x : Task} (h : x ∈ s.liveTasks) : x ∈ s.tasks ∧ x.id.live = true := by
  have hsort : ∀ l : List Task, x ∈ l.foldr insertTask [] → x ∈ l := fun l => by
    induction l with
    | nil => exact id
    | cons t l ih => exact fun h => (mem_of_mem_insertTask h).elim (· ▸ List.mem_cons_self) fun h => List.mem_cons_of_mem t (ih h)
  exact List.mem_filter.1 (hsort _ h)

theorem Task.is_ref {t : Task} (h : t.id.live = true) : t.is t.ref = true := by
  simp [Task.is, Task.ref, h]

/-- A task that a step finds is live, has passed the test, and is selected. -/
theorem State.findTask_spec {s u : State} {test : State → Bool} (h : s.findTask test = some u) :
    test u = true ∧ u.task.id.live = true ∧ ∃ r, u = s.select r := by
  obtain ⟨t, ht, hu⟩ := List.mem_map.1 (List.mem_of_find?_eq_some h)
  obtain ⟨hin, hlive⟩ := State.mem_liveTasks ht
  have hfound : (s.taskAt t.ref).isSome = true := List.find?_isSome.2 ⟨t, hin, Task.is_ref hlive⟩
  obtain ⟨x, hx⟩ := Option.isSome_iff_exists.1 hfound
  have hlive' : x.is t.ref = true := by simpa using List.find?_some hx
  refine ⟨List.find?_some h, ?_, _, hu.symm⟩
  rw [← hu, State.select_task hx]
  simp only [Task.is, Bool.and_eq_true] at hlive'
  obtain ⟨⟨hl, -⟩, -⟩ := hlive'
  exact hl

theorem State.onFirst_of_some {s u : State} {test : State → Bool} (h : s.findTask test = some u) (f : State → State) :
    s.onFirst test f = f u := by
  rw [State.onFirst, h]
  rfl

theorem State.onFirst_of_none {s : State} {test : State → Bool} (h : s.findTask test = none) (f : State → State) :
    s.onFirst test f = s := by
  rw [State.onFirst, h]
  rfl

/-! ### Notices (R165, R170) -/

/-- A fold that takes an element for one with a greater key finds one with the least key. -/
theorem foldl_argmin {α : Type} (key : α → Nat) (l : List α) (a : α) :
    let n := l.foldl (fun best x => if key x < key best then x else best) a
    n ∈ a :: l ∧ ∀ m ∈ a :: l, key n ≤ key m := by
  induction l generalizing a with
  | nil => exact ⟨List.mem_cons_self, by simp⟩
  | cons x l ih =>
    rw [List.foldl_cons]
    split
    next hlt =>
      obtain ⟨hin, hall⟩ := ih x
      exact ⟨List.mem_cons_of_mem a hin, List.forall_mem_cons.2 ⟨(hall x List.mem_cons_self).trans hlt.le, hall⟩⟩
    next hle =>
      obtain ⟨hin, hall⟩ := ih a
      obtain ⟨ha, hl⟩ := List.forall_mem_cons.1 hall
      refine ⟨?_, List.forall_mem_cons.2 ⟨ha, List.forall_mem_cons.2 ⟨ha.trans (Nat.not_lt.1 hle), hl⟩⟩⟩
      rcases List.mem_cons.1 hin with h | h
      · rw [h]; exact List.mem_cons_self
      · exact List.mem_cons_of_mem a (List.mem_cons_of_mem x h)

/-- The notice taken first has the lowest class. -/
theorem firstNotice_spec {l : List Notice} (h : l ≠ []) :
    ∃ n ∈ l, firstNotice l = some n ∧ ∀ m ∈ l, n.sclass.toNat ≤ m.sclass.toNat := by
  cases l with
  | nil => exact absurd rfl h
  | cons x l =>
    obtain ⟨hin, hall⟩ := foldl_argmin (fun n : Notice => n.sclass.toNat) l x
    refine ⟨_, hin, ?_, hall⟩
    have hfold (l : List Notice) (a : Notice) : l.foldl (fun acc n => match acc with
        | none => some n
        | some m => if n.sclass.toNat < m.sclass.toNat then some n else some m) (some a) =
        some (l.foldl (fun best x => if x.sclass.toNat < best.sclass.toNat then x else best) a) := by
      induction l generalizing a with
      | nil => rfl
      | cons y l ih =>
        rw [List.foldl_cons, List.foldl_cons]
        refine (congrArg (List.foldl _ · l) ?_).trans (ih _)
        exact (apply_ite some _ _ _).symm
    exact hfold l x

/-- Where a notice may be taken. -/
theorem State.noticeReady_spec {s : State} (h : s.noticeReady = true) : s.task.flow.notices ≠ [] ∧ s.task.bolt.handler = false ∧
    s.runs s.task.id.lcore = true ∧ s.task.bolt.charged = none := by
  simp only [State.noticeReady, State.inRun, Bool.and_eq_true, Bool.not_eq_true', List.isEmpty_eq_false_iff,
    Option.isNone_iff_eq_none] at h
  obtain ⟨⟨⟨⟨hne, hhandler⟩, hruns, hcharged⟩, -⟩, -⟩ := h
  exact ⟨hne, hhandler, hruns, hcharged⟩

/-- A notice taken: the handler is entered for it at the bundle or the repeat that comes next. -/
theorem State.takeNotice_of_first {s : State} {n : Notice} (hfirst : firstNotice s.task.flow.notices = some n)
    (hhandler : s.task.bolt.handler = false) : let t := s.takeNotice
    t.task.bolt.handler = true ∧ t.task.flow.pc = s.task.sys.tvec.toNat ∧
      t.task.flow.notices = s.task.flow.notices.erase n ∧ t.task.flow.wait = none ∧
      t.task.sys = { s.task.sys with synd := n.synd, sclass := n.sclass, epc := offWord (s.task.flow.rep.elim s.task.flow.pc (·.off)) } ∧
      KeepsRegisters s t ∧ KeepsMemory s t ∧ KeepsOutside s t := by
  rw [State.takeNotice, hfirst]
  simp only [hhandler, Bool.false_eq_true, if_false]
  exact ⟨rfl, rfl, rfl, rfl, rfl, keepsRegisters_of_regs (TaskRegs.close_close _), fun _ => rfl, rfl⟩

/-! ### The end of a task (R35, R310) -/

@[simp] theorem State.finishTask_mem (s : State) : s.finishTask.mem = s.mem := by
  have hdiscard : (s.task.bolt.outer.elim s s.discardWork).mem = s.mem := by
    cases s.task.bolt.outer with
    | none => rfl
    | some w => exact s.discardWork_mem w
  unfold State.finishTask
  split
  · rfl
  · split
    · unfold State.surface State.takeTrap
      dsimp only
      split_ifs
      · rfl
      · rw [State.endFaulted_mem]; rfl
      · rfl
    · rw [State.closeTask_mem, State.setCore_mem, hdiscard]


/-! ### What a faulted end leaves on the core and at the node (R169, R310) -/

/-- Granules return to a core. -/
def State.returnGranules (s : State) (l n : Nat) : State := s.setCore { s.core l with freeGran := (s.core l).freeGran + n }

/-- The members of a task's stand learn of its end, on this package and on others (R275, R285). -/
def State.tellEnded (s : State) (r : Releaser) : State :=
  let u := { s with stands := s.stands.map fun (z : Stand) =>
    if z.queue = r.queue ∧ z.seq = r.seq ∧ z.lo ≤ r.tile ∧ r.tile < z.lo + z.n then
      { z with ended := z.ended ++ [z.base + (r.tile - z.lo)] } else z }
  ((u.stands.find? fun (z : Stand) => z.queue == r.queue && z.seq == r.seq && z.level == 4).map fun z =>
    u.sendAll (.ended r.queue r.seq (z.base + r.tile))).getD u

theorem State.leaveCore_eq (s : State) (r : Releaser) (granules : Nat) : s.leaveCore r granules =
    ((((s.returnGranules r.lcore granules).freeLog r).refreshLevel r.lcore).tellEnded r).countTile r.queue r.seq r.lcore := rfl

theorem State.tellEnded_blind {β : Type} {π : State → β} (hstands : ∀ (s : State) stands, π { s with stands } = π s)
    (hsend : ∀ s b, π (State.sendAll s b) = π s) (s : State) (r : Releaser) : π (s.tellEnded r) = π s := by
  unfold State.tellEnded
  dsimp only
  cases List.find? _ _ with
  | none => exact hstands _ _
  | some z => exact (hsend _ _).trans (hstands _ _)

@[simp] theorem State.counted_cores (s : State) (q seq : Nat) (f : Node → Node) : (s.counted q seq f).cores = s.cores := by
  unfold State.counted; dsimp only; split <;> rfl

theorem State.core_of_cores {s t : State} (h : t.cores = s.cores) (l : Nat) : t.core l = s.core l := by
  rw [State.core, State.core, h]

/-- A task that leaves its core returns granules to it, and changes no other field that its array does not concern. -/
theorem State.leaveCore_core {γ : Type} {ρ : Core → γ} (h : ArrayBlind ρ) (s : State) (r : Releaser) (granules l : Nat) :
    ρ ((s.leaveCore r granules).core l) = ρ ((s.returnGranules r.lcore granules).core l) := by
  have htold (u : State) : (u.tellEnded r).cores = u.cores :=
    State.tellEnded_blind (fun _ _ => rfl) State.sendAll_cores u r
  rw [State.leaveCore_eq, State.countTile, State.core_of_cores (State.counted_cores _ _ _ _), State.core_of_cores (htold _),
    State.refreshLevel_core h]
  rfl

theorem State.closeTask_sq (s : State) (l : Nat) : (s.closeTask.core l).sq = (s.core l).sq := by
  rw [State.closeTask]
  refine (State.leaveCore_core (ρ := Core.sq) ⟨fun _ _ _ _ => rfl, fun _ _ _ _ => rfl⟩ _ _ _ l).trans ?_
  rw [State.returnGranules, State.setCore_keeps (ρ := Core.sq) (by rfl)]
  rfl

theorem State.abandon_cores (s : State) : ∃ u : State,
    s.abandon.cores = (u.cancel s.task.id.lcore fun w => w.part == s.task.id.part).cores := ⟨_, rfl⟩

/-- The commands of a task that stops go. -/
theorem State.abandon_sq (s : State) : ∀ c ∈ (s.abandon.core s.task.id.lcore).sq, c.who.part ≠ s.task.id.part := by
  intro c hc
  obtain ⟨u, hcores⟩ := s.abandon_cores
  obtain ⟨-, -, hsq⟩ := u.cancel_orders s.task.id.lcore fun w => w.part == s.task.id.part
  rw [State.core_of_cores hcores, hsq] at hc
  simpa using (List.mem_filter.1 hc).2

/-- The commands of a task that ends as faulted go. -/
theorem State.endFaulted_sq (s : State) (cls cause det : Nat) :
    ∀ c ∈ ((s.endFaulted cls cause det).core s.task.id.lcore).sq, c.who.part ≠ s.task.id.part := by
  rw [State.endFaulted, State.core_of_cores (State.event_cores _ _ _ _), State.closeTask_sq]
  exact s.abandon_sq

theorem State.abandon_nodes (s : State) : s.abandon.nodes = s.nodes := by
  have hdiscard (u : State) (w : BoltWork) : (u.discardWork w).nodes = u.nodes :=
    State.discardWork_blind (π := State.nodes) (fun _ _ => rfl) (fun _ _ _ _ => by unfold State.onHelper; split_ifs <;> rfl)
      (fun _ _ => rfl) u w
  have houter : (s.task.bolt.outer.elim (s.discardWork s.task.bolt.work) (s.discardWork s.task.bolt.work).discardWork).nodes = s.nodes := by
    cases s.task.bolt.outer with
    | none => exact hdiscard _ _
    | some w => exact (hdiscard _ _).trans (hdiscard _ _)
  exact (State.cancel_blind (π := State.nodes) (fun _ _ => rfl) _ _ _).trans houter

/-- Counting tiles changes the counters of a node alone. -/
theorem Node.count_keeps (n : Node) (l k : Nat) : let m := n.count l k
    m.queue = n.queue ∧ m.seq = n.seq ∧ m.failed = n.failed ∧ m.fault = n.fault := by
  unfold Node.count
  dsimp only
  split_ifs <;> exact ⟨rfl, rfl, rfl, rfl⟩

theorem State.counted_nodes (s : State) (q seq : Nat) (f : Node → Node) : (s.counted q seq f).nodes = (s.onNode q seq f).nodes := by
  unfold State.counted; dsimp only; split <;> rfl

theorem State.onNode_of_nodes {s t : State} (h : t.nodes = s.nodes) (q seq : Nat) (f : Node → Node) :
    (t.onNode q seq f).nodes = (s.onNode q seq f).nodes := congrArg (List.map _) h

theorem State.leaveCore_nodes (s : State) (r : Releaser) (granules : Nat) :
    (s.leaveCore r granules).nodes = (s.onNode r.queue r.seq (·.count r.lcore 1)).nodes := by
  rw [State.leaveCore_eq]
  refine (State.counted_nodes _ _ _ _).trans (State.onNode_of_nodes ?_ _ _ _)
  rw [State.tellEnded_blind (fun _ _ => rfl) State.sendAll_nodes, State.refreshLevel_blind (π := State.nodes) fun _ _ => rfl]
  rfl

theorem State.nodeAt_of_nodes {s t : State} (h : t.nodes = s.nodes) (q seq : Nat) : t.nodeAt q seq = s.nodeAt q seq := by
  rw [State.nodeAt, State.nodeAt, h]

/-- A task that stops changes its bolt alone. -/
theorem State.abandon_task (s : State) : ∃ bolt, s.abandon.task = { s.task with bolt } := by
  have hdiscard : (s.task.bolt.outer.elim (s.discardWork s.task.bolt.work)
      (s.discardWork s.task.bolt.work).discardWork).task = s.task := by
    cases s.task.bolt.outer with
    | none => exact task_of_aside (s.discardWork_aside _)
    | some w => exact task_of_aside ((State.discardWork_aside _ w).trans (s.discardWork_aside _))
  have hcancel := task_of_aside (State.cancel_aside (State.setCore (s.task.bolt.outer.elim (s.discardWork s.task.bolt.work)
    (s.discardWork s.task.bolt.work).discardWork) ((State.myCore (s.task.bolt.outer.elim (s.discardWork s.task.bolt.work)
    (s.discardWork s.task.bolt.work).discardWork)).settleStreams (s.task.bolt.returned ++ (s.task.bolt.outer.elim [] (·.reserved)) ++
      s.task.bolt.work.reserved) true)) s.task.id.lcore fun w => w.part == s.task.id.part)
  exact ⟨_, congrArg (fun t : Task => { t with bolt := s.abandon.task.bolt }) (hcancel.trans hdiscard)⟩

/-- The sums of a task that ends go to its node (R312). -/
def Node.addSums (t : Task) (n : Node) : Node := { n with
  ubrst := n.ubrst + t.phase.uburst.toNat
  repl := n.repl + t.bolt.replays
  degr := n.degr ||| t.bolt.degr }

theorem State.closeTask_nodes (s : State) : let i := s.task.id
    s.closeTask.nodes = ((s.onNode i.queue i.seq (·.addSums s.task)).onNode i.queue i.seq (·.count i.lcore 1)).nodes := by
  exact State.leaveCore_nodes _ _ _

theorem State.closeTask_node {s : State} {q seq : Nat} {n : Node} (hq : s.task.id.queue = q) (hseq : s.task.id.seq = seq)
    (h : s.nodeAt q seq = some n) : ∃ m, s.closeTask.nodeAt q seq = some m ∧ m.failed = n.failed ∧ m.fault = n.fault := by
  subst hq hseq
  obtain ⟨-, -, hfailed, hfault⟩ := (n.addSums s.task).count_keeps s.task.id.lcore 1
  refine ⟨(n.addSums s.task).count s.task.id.lcore 1, ?_, hfailed, hfault⟩
  rw [State.nodeAt_of_nodes s.closeTask_nodes,
    State.nodeAt_onNode _ _ _ (fun m => (m.count_keeps _ _).1) fun m => (m.count_keeps _ _).2.1,
    State.nodeAt_onNode (f := (·.addSums s.task)) _ _ _ (fun _ => rfl) fun _ => rfl, h]
  rfl

theorem State.failNode_node {s : State} {q seq : Nat} {n : Node} (h : s.nodeAt q seq = some n) (x : FaultInfo) :
    (s.failNode q seq x).nodeAt q seq = some (n.withFault x) := by
  rw [State.failNode, State.nodeAt_onNode (f := (·.withFault x)) _ _ _ (fun _ => rfl) fun _ => rfl, h]
  rfl

/-- The node of a task that ends as faulted has failed, with the task's fault where it is the first (R310, R312). -/
theorem State.endFaulted_node {s : State} {n : Node} (h : s.nodeAt s.task.id.queue s.task.id.seq = some n) (cls cause det : Nat) :
    ∃ m, (s.endFaulted cls cause det).nodeAt s.task.id.queue s.task.id.seq = some m ∧ m.failed = true ∧
      m.fault = (n.withFault ⟨s.dcc, s.task.id.tile, det, cause, cls⟩).fault := by
  obtain ⟨bolt, htask⟩ := s.abandon_task
  have hid : s.abandon.task.id = s.task.id := by rw [htask]
  have hfail := State.failNode_node ((State.nodeAt_of_nodes s.abandon_nodes _ _).trans h) ⟨s.dcc, s.task.id.tile, det, cause, cls⟩
  obtain ⟨m, hm, hfailed, hfault⟩ := State.closeTask_node (s := s.abandon.failNode _ _ _)
    (congrArg TaskId.queue hid) (congrArg TaskId.seq hid) hfail
  refine ⟨m, ?_, hfailed, hfault⟩
  rw [State.endFaulted, State.nodeAt_of_nodes (State.event_nodes _ _ _ _), hm]

/-- A task over its budget has been resident for its ticks. -/
theorem State.overBudget_spec {s : State} (h : s.overBudget = true) :
    s.task.id.budget ≠ 0 ∧ s.task.id.started + 4096 * s.task.id.budget ≤ s.dcc := by
  simp only [State.overBudget, Bool.and_eq_true, bne_iff_ne, ne_eq, decide_eq_true_eq] at h
  obtain ⟨⟨hbudget, -⟩, hticks⟩ := h
  exact ⟨hbudget, by omega⟩

/-! ### The steps -/

theorem execTrapEntry_of_live {s : State} (h : s.task.id.live = true) (r : TrapRec) :
    exec (.trapEntry r) s = .next (s.takeTrap r) := congrArg Host.Outcome.next (if_pos h)

theorem execTrapEntry_of_not_live {s : State} (h : s.task.id.live = false) (r : TrapRec) :
    exec (.trapEntry r) s = .next s := congrArg Host.Outcome.next (if_neg (by rw [h]; decide))

/-- A task whose END is due seals, and finishes (R35). -/
theorem execTaskEndComplete_of_found {s u : State} (h : s.findTask State.endDue = some u) (hseal : u.sealable) :
    exec .taskEndComplete s = .next (u.afterQuiet.sealNow u.task.flow.off).finishTask :=
  congrArg Host.Outcome.next ((State.onFirst_of_some h _).trans (State.sealThen_of_sealable hseal _ _))

/-- Settles O46: entry and double trap, the notice of the lowest class, END once its seal is through, the budget fault with its
node, and brumation. -/
theorem tasksAreInterrupted : Obligations.TasksAreInterrupted := by
  refine fun s => ⟨fun r hlive hcharged => ?_, fun r hlive => execTrapEntry_of_not_live hlive r, fun u hu => ?_,
    fun h => congrArg Host.Outcome.next (State.onFirst_of_none h _), fun u hu hseal => ?_,
    fun h => congrArg Host.Outcome.next (State.onFirst_of_none h _), fun u hu => ?_,
    fun h => congrArg Host.Outcome.next (State.onFirst_of_none h _), rfl⟩
  · refine ⟨_, execTrapEntry_of_live hlive r, ?_⟩
    cases hhandler : s.task.bolt.handler with
    | true =>
      rw [takeTrap_of_handler hcharged hhandler]
      exact ⟨by rw [State.endFaulted_mem]; rfl, fun _ => State.endFaulted_not_live _ _ _ _, fun h => nomatch h⟩
    | false =>
      rw [takeTrap_of_mayTrap ⟨hcharged, hhandler⟩]
      refine ⟨rfl, fun h => (nomatch h), fun _ => ⟨rfl, rfl, rfl, rfl, rfl,
        keepsRegisters_of_regs (TaskRegs.close_close _), rfl⟩⟩
  · obtain ⟨hready, -, -⟩ := State.findTask_spec hu
    obtain ⟨hne, hhandler, hruns, hcharged⟩ := State.noticeReady_spec hready
    obtain ⟨n, hn, hfirst, hleast⟩ := firstNotice_spec hne
    refine ⟨hhandler, hruns, hcharged, n, hn, hleast, _, ?_, State.takeNotice_of_first hfirst hhandler⟩
    exact congrArg Host.Outcome.next (State.onFirst_of_some hu _)
  · intro v hdone hfault
    exact ⟨_, execTaskEndComplete_of_found hu hseal, State.finishTask_not_live hdone hfault, State.finishTask_mem _⟩
  · obtain ⟨hover, -, -⟩ := State.findTask_spec hu
    obtain ⟨hbudget, hticks⟩ := State.overBudget_spec hover
    refine ⟨hbudget, hticks, _, congrArg Host.Outcome.next (State.onFirst_of_some hu _), State.endFaulted_not_live _ _ _ _,
      State.endFaulted_sys _ _ _ _, State.endFaulted_mem _ _ _ _, State.endFaulted_sq u 0 0x20 0, fun n hn => ?_⟩
    obtain ⟨m, hm, hfailed, hfault⟩ := State.endFaulted_node hn 0 0x20 0
    refine ⟨m, hm, hfailed, fun hnone => ?_⟩
    rw [hfault, Node.withFault, hnone]

end Sys2Proof.Machine

/-! Pre-emption, resumption and the switch of a shared host (R195 to R197, R295, R309). -/

namespace Sys2Proof.Machine

/-! ### What a seal leaves of the context regions (R309) -/

/-- The saved tasks, and what tells whose die pad holds them (R309, R366). -/
def State.region (s : State) : List SavedTask × Nat × BitVec 2 := (s.saved, s.pkg.state, s.pkg.failed)

theorem State.saved_of_region {s t : State} (h : t.region = s.region) : t.saved = s.saved := congrArg Prod.fst h

theorem State.padDie_of_region {s t : State} (h : t.region = s.region) (l : Nat) : t.padDie l = s.padDie l := by
  simp only [State.region, Prod.mk.injEq] at h
  obtain ⟨-, hstate, hfailed⟩ := h
  rw [State.padDie, State.padDie, hstate, hfailed]

theorem State.show_region (s : State) (cells : List Host.Cell) : (s.show cells).region = s.region := by
  have hold : (s.keepOldCode cells).region = s.region := by unfold State.keepOldCode; split <;> rfl
  have hfill : ∀ (gs : List (Nat × Nat)) (u : State), (u.fillGranules gs).region = u.region := fun gs => by
    induction gs with
    | nil => exact fun _ => rfl
    | cons g gs ih => exact fun u => (ih _).trans rfl
  have htouch (u : State) (ks : List Nat) : (u.touch ks).region = u.region := foldl_keeps State.region _ _ u fun _ _ => rfl
  refine (htouch _ _).trans ?_
  exact (hfill _ ((s.keepOldCode cells).setMem (s.mem.writeCells cells))).trans hold

theorem State.showOpen_region (s : State) (l fn : Nat) (cells : List Host.Cell) : (s.showOpen l fn cells).region = s.region := by
  refine (State.show_region _ _).trans ?_
  unfold State.chargeKeys
  dsimp only
  split <;> rfl

theorem State.onTask_region (s : State) (r : TaskRef) (f : Task → Task) : (s.onTask r f).region = s.region := by
  unfold State.onTask; split <;> rfl

theorem State.releaseItem_region (s : State) (r : Releaser) (i : HoldItem) : (s.releaseItem r i).region = s.region := by
  cases i with
  | store cells | moved cells => exact s.showOpen_region _ _ _
  | pxfer plot st ow =>
    unfold State.releaseItem State.transferPlot
    dsimp only
    split <;> rfl
  | opreq rail op =>
    unfold State.releaseItem State.flagCapped
    dsimp only
    split <;> rfl
  | zenter | zleave => exact s.onTask_region _ _
  | push | post | launch | spec | decide | cord | skqset | skchn | mail => rfl

theorem State.releaseAll_region {r : Releaser} {out : State → HoldItem → State} (hout : ∀ s i, (out s i).region = s.region) :
    ∀ (items : List HoldItem) (no : Nat) (s : State), (s.releaseAll r out no items).region = s.region
  | [], _, _ => rfl
  | i :: is, no, s => by
    rw [State.releaseAll]
    refine (State.releaseAll_region hout is (no + 1) _).trans ?_
    split
    · cases i <;> rfl
    · exact hout s i

theorem State.onHelper_region (s : State) (l w : Nat) (f : Helper → Helper) : (s.onHelper l w f).region = s.region := by
  unfold State.onHelper; split_ifs <;> rfl

theorem State.onHelpers_region (s : State) (l : Nat) (f : Helper → Helper) : (s.onHelpers l f).region = s.region :=
  (State.onHelper_region _ l 1 f).trans (s.onHelper_region l 0 f)

/-- A seal leaves the saved tasks where they are. -/
theorem State.sealNow_region (s : State) (next : Nat) : (s.sealNow next).region = s.region := by
  obtain ⟨stand, snap, hstart⟩ := s.resolved.startBolt_eq s.task next
  have hhold : s.afterHold.region = s.region := State.releaseAll_region (fun u i => by
    unfold State.outlet
    split
    · rfl
    · exact u.releaseItem_region _ i) _ _ _
  rw [State.sealNow_eq, hstart]
  refine (State.onHelpers_region _ _ _).trans ((State.resolveClaims_blind (π := State.region) (fun _ _ => rfl) _ _ _).trans ?_)
  exact hhold

/-! ### Pre-emption (R195, R196) -/

theorem State.giveUp_region (s : State) : s.giveUp.region = s.region := by
  unfold State.giveUp
  dsimp only
  split <;> rfl

/-- What a task gives up is registers beyond its limit, and granules. -/
theorem State.giveUp_task (s : State) : ∃ regs flow, s.giveUp.task = { s.task with regs, flow } ∧ flow.pc = s.task.flow.pc ∧
    flow.wait = s.task.flow.wait := by
  unfold State.giveUp
  dsimp only
  split
  · exact ⟨_, _, rfl, rfl, rfl⟩
  · exact ⟨_, _, rfl, rfl, rfl⟩

/-- The state that pre-emption saves: sealed, its results final, its lease and its declaration over. -/
def State.toSave (s : State) : State :=
  let u := s.giveUp.sealNow s.giveUp.task.flow.pc
  u.setTask u.task.suspended

theorem State.preemptNow_eq (s : State) : s.preemptNow =
    s.toSave.saveContext (s.giveUp.dcc - (s.giveUp.sealNow s.giveUp.task.flow.pc).task.id.started) := rfl

theorem TaskLease.ended_lvl (x : TaskLease) (last : Nat) : (x.ended last).lvl = 0 := by
  unfold TaskLease.ended
  split
  next h => exact h
  next => rfl

theorem State.setTask_region (s : State) (t : Task) : (s.setTask t).region = s.region := rfl

theorem State.toSave_region (s : State) : s.toSave.region = s.region := by
  rw [State.toSave, State.setTask_region, State.sealNow_region, State.giveUp_region]

theorem Task.suspended_sealed (t : Task) (next : Nat) (stand : TaskStand) (snap : BoltSnap) (degr : BitVec 16) :
    let y := (t.sealed next stand snap degr).suspended
    y.id = t.id ∧ y.flow.pc = t.flow.pc ∧ y.flow.wait = t.flow.wait ∧ y.bolt.work.hold = [] ∧ y.regs = t.regs.close ∧
      y.sys = t.sys ∧ y.lease.lvl = 0 :=
  ⟨rfl, rfl, rfl, rfl, rfl, rfl, TaskLease.ended_lvl _ _⟩

/-- The task that pre-emption saves. -/
theorem State.toSave_task (s : State) : let v := s.toSave
    v.task.id = s.task.id ∧ v.task.flow.pc = s.task.flow.pc ∧ v.task.flow.wait = s.task.flow.wait ∧ v.task.bolt.work.hold = [] ∧
      v.task.regs = s.giveUp.task.regs.close ∧ v.task.sys = s.task.sys ∧ v.task.lease.lvl = 0 := by
  obtain ⟨regs, flow, hgive, hpc, hwait⟩ := s.giveUp_task
  obtain ⟨stand, snap, degr, hseal⟩ := s.giveUp.sealNow_task s.giveUp.task.flow.pc
  have htask : s.toSave.task = (s.giveUp.task.sealed s.giveUp.task.flow.pc stand snap degr).suspended := by
    rw [State.toSave, State.setTask_task, hseal]
  have hspec := s.giveUp.task.suspended_sealed s.giveUp.task.flow.pc stand snap degr
  rw [← htask] at hspec
  obtain ⟨hid, hpc', hwait', hhold, hregs, hsys, hlvl⟩ := hspec
  refine ⟨hid.trans ?_, hpc'.trans ?_, hwait'.trans ?_, hhold, hregs, hsys.trans ?_, hlvl⟩
  all_goals rw [hgive]
  · exact hpc
  · exact hwait

/-- Where the block of the selected task goes in the context region, and what stays of the task beside it (R196, R309). -/
def State.savedTask (s : State) (resident : Nat) : SavedTask where
  off := (contextRoom s.task.blockSize (s.contextUsed (s.padDie s.task.id.lcore))).getD 0
  task := { s.task with id := { s.task.id with started := resident } }
  tiles := ((List.range 4).filter fun k => s.task.id.abind.getLsbD k).map fun k => (k, s.myCore.tiles.getD k .reset)
  nests := ((List.range 8).filter fun k => s.task.id.nbind.getLsbD k).map fun k => (k, s.myCore.nest k)

/-- The block stands in the context region, and the task has left its partition. -/
def State.stored (s : State) (x : SavedTask) : State :=
  let s1 := s.setMem (s.mem.writeCells (cellsAt (keyDiePad (s.padDie s.task.id.lcore) (0x8000000 + x.off)) s.contextBlock))
  { s1 with saved := s1.saved ++ [x] }.setId { s.task.id with live := false }

theorem State.stored_mem (s : State) (x : SavedTask) : (s.stored x).mem = s.mem.writeCells
    (cellsAt (keyDiePad (s.padDie s.task.id.lcore) (0x8000000 + x.off)) s.contextBlock) := by
  rw [State.stored, State.setId_mem, State.setMem]

theorem State.stored_saved (s : State) (x : SavedTask) : (s.stored x).saved = s.saved ++ [x] := by
  rw [State.stored, State.setId_saved, State.setMem]

theorem State.saveContext_eq (s : State) (resident : Nat) : s.saveContext resident =
    let u := s.stored (s.savedTask resident)
    (u.setCore { u.core s.task.id.lcore with freeGran := s.myCore.freeGran + s.task.id.vgran }).refreshLevel s.task.id.lcore := rfl

/-- A context that is saved: the task has left, its block stands in the die pad, and its granules are free (R196, R309). -/
theorem State.saveContext_spec (s : State) (resident : Nat) : let t := s.saveContext resident
    let x := s.savedTask resident
    let l := s.task.id.lcore
    t.task.id.live = false ∧ t.saved = s.saved ++ [x] ∧
      t.mem.Holds (keyDiePad (s.padDie l) (0x8000000 + x.off)) s.contextBlock ∧
      (t.core l).freeGran = (s.core l).freeGran + s.task.id.vgran := by
  rw [State.saveContext_eq]
  refine ⟨?_, ?_, ?_, ?_⟩
  · rw [task_of_aside (State.refreshLevel_aside _ _)]
    rfl
  · rw [State.refreshLevel_blind (π := State.saved) fun _ _ => rfl, State.setCore_saved, State.stored_saved]
  · rw [State.refreshLevel_mem, State.setCore_mem, State.stored_mem]
    exact Memory.holds_writeCells _ _ _
  · refine (State.refreshLevel_core (ρ := Core.freeGran) ⟨fun _ _ _ _ => rfl, fun _ _ _ _ => rfl⟩ _ _ _).trans ?_
    rw [State.core_setCore_of_eq (by rfl)]
    rfl

/-- What pre-emption leaves: the task is saved as its seal and the end of its lease have made it (R195, R196). -/
theorem State.preemptNow_spec (s : State) : ∃ x : SavedTask, let t := s.preemptNow
    let v := s.toSave
    let l := s.task.id.lcore
    t.task.id.live = false ∧ t.saved = s.saved ++ [x] ∧
      x.task = { v.task with id := { v.task.id with started := s.dcc - s.task.id.started } } ∧
      t.mem.Holds (keyDiePad (s.padDie l) (0x8000000 + x.off)) v.contextBlock ∧
      (t.core l).freeGran = (v.core l).freeGran + s.task.id.vgran := by
  have hid := s.toSave_task.1
  have hdcc : s.giveUp.dcc = s.dcc := by unfold State.giveUp; dsimp only; split <;> rfl
  have hstarted : (s.giveUp.sealNow s.giveUp.task.flow.pc).task.id.started = s.task.id.started := congrArg TaskId.started hid
  obtain ⟨hlive, hsaved, hblock, hgran⟩ := s.toSave.saveContext_spec (s.dcc - s.task.id.started)
  rw [State.saved_of_region s.toSave_region] at hsaved
  rw [State.padDie_of_region s.toSave_region, hid] at hblock
  rw [hid] at hgran
  rw [State.preemptNow_eq, hdcc, hstarted]
  exact ⟨_, hlive, hsaved, rfl, hblock, hgran⟩

theorem State.preemptReady_spec {s : State} (h : s.preemptReady = true) : s.task.flow.preempt = true ∧ s.task.flow.safe = true ∧
    s.task.bolt.handler = false ∧ s.sealReady = true := by
  simp only [State.preemptReady, Bool.and_eq_true, Bool.not_eq_true'] at h
  obtain ⟨⟨⟨⟨hpreempt, hsafe⟩, hhandler⟩, -⟩, hseal⟩ := h
  exact ⟨hpreempt, hsafe, hhandler, hseal⟩

theorem Memory.Holds.read_getElem? {m : Memory} {key : Nat} {bs : List Byte} (h : m.Holds key bs) {i : Nat} {b : Byte}
    (hi : bs[i]? = some b) : m.read (key + i) = b := by
  obtain ⟨hlt, rfl⟩ := List.getElem?_eq_some_iff.1 hi
  exact h.read hlt

/-! ### Resumption (R197) -/

theorem State.makeResident_saved {s t : State} {l func base : Nat} {k : Kernel} (h : s.makeResident l func k = some (t, base)) :
    t.saved = s.saved := by
  have hpads (u : State) : (u.writePads l k).saved = u.saved := foldl_keeps State.saved _ _ u fun u x => by
    have hfill : ∀ (gs : List (Nat × Nat)) (u : State), (u.fillGranules gs).saved = u.saved := fun gs => by
      induction gs with
      | nil => exact fun _ => rfl
      | cons g gs ih => exact fun u => (ih _).trans rfl
    exact (hfill _ _).trans rfl
  have hhelper (u : State) (w : Nat) (image : Option (List Byte)) : (u.writeHelper l w func image).saved = u.saved := by
    cases image with
    | none => rfl
    | some bs => exact (saved_of_region (State.onHelper_region _ _ _ _)).trans rfl
  obtain ⟨⟨b, rs⟩, -, hplace⟩ := Option.map_eq_some_iff.1 h
  dsimp only at hplace
  split at hplace
  · cases hplace; rfl
  · cases hplace
    rw [hhelper, hhelper, hpads]
    rfl

/-- The tiles and nest slots of a resumed task are those that were saved. -/
def State.restoreUnits (s : State) (l : Nat) (x : SavedTask) : State :=
  x.nests.foldl (fun acc (j, y) => acc.setCore ((acc.core l).setNest j y))
    (x.tiles.foldl (fun acc (j, y) => let d := acc.core l; acc.setCore { d with tiles := d.tiles.set j y.restored }) s)

theorem State.restoreUnits_saved (s : State) (l : Nat) (x : SavedTask) : (s.restoreUnits l x).saved = s.saved := by
  refine (foldl_keeps State.saved _ _ _ fun _ _ => ?_).trans (foldl_keeps State.saved _ _ _ fun _ _ => ?_)
  all_goals rfl

theorem State.restoreUnits_freeGran (s : State) (l : Nat) (x : SavedTask) (i : Nat) :
    ((s.restoreUnits l x).core i).freeGran = (s.core i).freeGran := by
  refine (foldl_keeps (fun t : State => (t.core i).freeGran) _ _ _ fun _ _ => State.setCore_keeps (ρ := Core.freeGran) rfl i).trans ?_
  exact foldl_keeps (fun t : State => (t.core i).freeGran) _ _ _ fun _ _ => State.setCore_keeps (ρ := Core.freeGran) rfl i

/-- The task of a saved one that resumes in a partition. -/
def SavedTask.resumed (x : SavedTask) (part base now : Nat) : Task :=
  { x.task with id := { x.task.id with live := true, part, dbase := base, started := now - x.task.id.started } }

/-- The resumed task begins a bolt where it was (R197). -/
def State.beginResumed (s : State) (x : SavedTask) (degr : BitVec 16) : State :=
  let u := s.setBolt { s.task.bolt with
    boltpc := s.task.flow.pc, retry := 0, holdb := 0, snap := s.snapshot, degr := s.task.bolt.degr ||| degr }
  { u with saved := u.saved.erase x }

theorem State.beginResumed_saved (s : State) (x : SavedTask) (degr : BitVec 16) :
    (s.beginResumed x degr).saved = s.saved.erase x := rfl

theorem State.beginResumed_cores (s : State) (x : SavedTask) (degr : BitVec 16) : (s.beginResumed x degr).cores = s.cores := rfl

theorem State.addTask_saved (s : State) (t : Task) : (s.addTask t).saved = s.saved := rfl

theorem State.addTask_cores (s : State) (t : Task) : (s.addTask t).cores = s.cores := rfl

theorem State.resumeTask_cases {s t : State} {x : SavedTask} (h : s.resumeTask x = some t) :
    let l := x.task.id.lcore
    let i := x.task.id
    ∃ part k u base, i.vgran ≤ (s.core l).freeGran ∧ s.makeResident l i.func k = some (u, base) ∧
      t = ((((u.setCore { u.core l with freeGran := (s.core l).freeGran - i.vgran }).unspecifyBound l i.abind i.nbind).restoreUnits
        l x).addTask (x.resumed part base s.dcc)).beginResumed x (s.startDegr l) := by
  intro l i
  rw [State.resumeTask] at h
  split at h
  next part k _ _ =>
    dsimp only at h
    split at h
    · cases h
    next hroom =>
      obtain ⟨⟨u, base⟩, hres, rfl⟩ := Option.map_eq_some_iff.1 h
      simp only [Bool.or_eq_true, decide_eq_true_eq, not_or, Nat.not_lt] at hroom
      obtain ⟨⟨⟨-, hgran⟩, -⟩, -⟩ := hroom
      exact ⟨part, k, u, base, hgran, hres, rfl⟩
  · cases h

/-! ### The switch of a shared host (R295) -/

/-- A task with another that stands where it stood: its position, its special registers, its bolt and the values of its
registers are the same. -/
def Task.Stays (x y : Task) : Prop :=
  y.flow.pc = x.flow.pc ∧ y.sys = x.sys ∧ y.bolt = x.bolt ∧ y.regs.close = x.regs.close

theorem Task.Stays.refl (x : Task) : x.Stays x := ⟨rfl, rfl, rfl, rfl⟩

theorem Task.Stays.trans {x y z : Task} : x.Stays y → y.Stays z → x.Stays z := by
  rintro ⟨hpc, hsys, hbolt, hregs⟩ ⟨hpc', hsys', hbolt', hregs'⟩
  exact ⟨hpc'.trans hpc, hsys'.trans hsys, hbolt'.trans hbolt, hregs'.trans hregs⟩

/-- Every task stands where it stood. -/
def State.Stay (s t : State) : Prop := ∀ who x, s.taskAt who = some x → ∃ y, t.taskAt who = some y ∧ x.Stays y

theorem State.Stay.of_tasks {s t : State} (h : t.tasks = s.tasks) : s.Stay t := fun who x hx =>
  ⟨x, by rw [State.taskAt, h]; exact hx, .refl x⟩

theorem State.Stay.trans {s t u : State} (h : s.Stay t) (h' : t.Stay u) : s.Stay u := fun who x hx => by
  obtain ⟨y, hy, hxy⟩ := h who x hx
  obtain ⟨z, hz, hyz⟩ := h' who y hy
  exact ⟨z, hz, hxy.trans hyz⟩

theorem State.Stay.foldl {α : Type} {f : State → α → State} (h : ∀ (s : State) x, s.Stay (f s x)) (l : List α) (s : State) :
    s.Stay (l.foldl f s) := by
  induction l generalizing s with
  | nil => exact .of_tasks rfl
  | cons x l ih => exact (h s x).trans (ih _)

/-- A change that leaves a task in its partition and where it stood. -/
theorem State.Stay.onTask {f : Task → Task} (his : ∀ t r, (f t).is r = t.is r) (hf : ∀ t : Task, t.Stays (f t)) (s : State)
    (r : TaskRef) : s.Stay (s.onTask r f) := by
  intro who x hx
  rw [State.taskAt, State.tasks] at hx ⊢
  have hcons (t : Task) (ts : List Task) (ht : t.is who = s.task.is who) : (t :: ts).find? (·.is who) =
      if s.task.is who then some t else ts.find? (·.is who) := by
    rw [List.find?_cons, ht]
    cases s.task.is who <;> rfl
  rw [hcons _ _ rfl] at hx
  unfold State.onTask
  split
  · rw [hcons _ _ (his _ _)]
    split at hx
    next hwho => cases hx; exact ⟨_, if_pos hwho, hf _⟩
    next hwho => exact ⟨x, (if_neg hwho).trans hx, .refl x⟩
  · rw [hcons _ _ rfl]
    split at hx
    next hwho => cases hx; exact ⟨_, if_pos hwho, .refl _⟩
    next hwho =>
      have hsame : (fun t : Task => (if t.is r then f t else t).is who) = (·.is who) := by
        funext t
        split
        · exact his t who
        · rfl
      refine ⟨if x.is r then f x else x, (if_neg hwho).trans ?_, ?_⟩
      · rw [List.find?_map]
        exact congrArg (Option.map _) ((congrArg (fun p => List.find? p s.parked) hsame).trans hx)
      · split
        · exact hf x
        · exact .refl x

/-- A task that stops: its outstanding writes have ended (R166). -/
def Task.halted (t : Task) : Task :=
  { t with regs := t.regs.close, flow := { t.flow with clk := t.regs.closedAt t.flow.clk } }

theorem State.haltCore_stay (s : State) (l : Nat) : s.Stay (s.haltCore l) := by
  refine State.Stay.trans (State.Stay.foldl (fun (u : State) (x : Task) => ?_) _ s) (.of_tasks rfl)
  exact .onTask (f := Task.halted) (fun _ _ => rfl) (fun t => ⟨rfl, rfl, rfl, t.regs.close_close⟩) u x.ref

/-- The times of a core's tasks that count only while it is resident (R295). -/
def State.shiftTasks (s : State) (l n : Nat) : State :=
  (s.tasks.filter fun t => t.id.live && t.id.lcore == l).foldl (fun acc t => acc.onTask t.ref (·.shift n)) s

theorem State.shiftTasks_stay (s : State) (l n : Nat) : s.Stay (s.shiftTasks l n) :=
  State.Stay.foldl (fun (u : State) (x : Task) =>
    .onTask (f := (·.shift n)) (fun _ _ => rfl) (fun _ => ⟨rfl, rfl, rfl, rfl⟩) u x.ref) _ s

theorem State.shiftCore_stay (s : State) (l n : Nat) : s.Stay (s.shiftCore l n) := by
  have htasks (u : State) (w : Nat) (f : Helper → Helper) : (u.onHelper l w f).tasks = u.tasks := by
    unfold State.onHelper; split_ifs <;> rfl
  have hshift : ∃ c, (s.shiftCore l n).tasks = ((s.setCore c).shiftTasks l n).tasks :=
    ⟨_, foldl_keeps State.tasks _ _ _ fun u w => htasks u w _⟩
  obtain ⟨c, hc⟩ := hshift
  exact (State.Stay.of_tasks (t := s.setCore c) rfl).trans (((s.setCore c).shiftTasks_stay l n).trans (.of_tasks hc))

theorem State.onTask_clusters (s : State) (r : TaskRef) (f : Task → Task) : (s.onTask r f).clusters = s.clusters := by
  unfold State.onTask; split <;> rfl

theorem State.haltCore_clusters (s : State) (l : Nat) : (s.haltCore l).clusters = s.clusters :=
  foldl_keeps State.clusters _ _ s fun u t => u.onTask_clusters t.ref _

theorem State.shiftCore_clusters (s : State) (l n : Nat) : (s.shiftCore l n).clusters = s.clusters := by
  have hhelper (u : State) (w : Nat) (f : Helper → Helper) : (u.onHelper l w f).clusters = u.clusters := by
    unfold State.onHelper; split_ifs <;> rfl
  exact (foldl_keeps State.clusters _ _ _ fun u w => hhelper u w _).trans (foldl_keeps State.clusters _ _ _ fun u t => u.onTask_clusters t.ref _)

theorem nextHosted_mem {ls : List Nat} {l n : Nat} (h : nextHosted ls l = some n) : n ∈ ls := by
  rw [nextHosted, Option.or_eq_some_iff] at h
  rcases h with h | ⟨-, h⟩
  · exact List.mem_of_find?_eq_some h
  · exact List.mem_of_head? h

/-- When a shared host switches: its slice is over, and the commands of the core that leaves are complete (R295). -/
theorem State.switchDue_spec {s : State} {c k l n : Nat} (h : s.switchDue c k = some (l, n)) : 2 ≤ (s.hostedBy c k).length ∧
    n ∈ s.hostedBy c k ∧ (s.core l).run = [] ∧ (s.core l).mq = [] ∧ (s.core l).sq = [] ∧ (s.cluster c).sliceEnd.getD k 0 ≤ s.dcc := by
  unfold State.switchDue at h
  dsimp only at h
  split at h
  · cases h
  next hslice =>
    split at h
    · cases h
    next hidle =>
      obtain ⟨m, hnext, he⟩ := Option.map_eq_some_iff.1 h
      cases he
      simp only [Bool.or_eq_true, Bool.not_eq_true', not_or, Bool.not_eq_false, List.isEmpty_iff] at hidle
      obtain ⟨⟨⟨hmq, hrun⟩, hsq⟩, -⟩ := hidle
      exact ⟨by omega, nextHosted_mem hnext, hrun, hmq, hsq, by omega⟩

theorem getD_set_self {α : Type} {l : List α} {k : Nat} (h : k < l.length) (x d : α) : (l.set k x).getD k d = x := by
  simp [h]

/-- The state in which a switch makes a core resident: the core that leaves has stopped, and the times of the one that comes go on. -/
def State.switched (s : State) (l n : Nat) : State := (s.haltCore l).shiftCore n (s.dcc - ((s.haltCore l).core n).left)

/-- A core is resident on a host for a slice (R295). -/
def State.setResident (s : State) (c k n until_ : Nat) : State :=
  s.setCluster c { s.cluster c with
    resident := (s.cluster c).resident.set k n, sliceEnd := (s.cluster c).sliceEnd.set k until_ }

theorem execTimeShareSwitch_of_due {s : State} {c k l n : Nat} (h : s.switchDue c k = some (l, n)) :
    exec (.timeShareSwitch c k) s = .next ((s.switched l n).setResident c k n (s.dcc + 4194304)) := by
  have hstep : exec (.timeShareSwitch c k) s = execTimeShareSwitch c k s := rfl
  rw [hstep, execTimeShareSwitch, h]
  rfl

theorem State.switched_stay (s : State) (l n : Nat) : s.Stay (s.switched l n) :=
  (s.haltCore_stay l).trans (State.shiftCore_stay _ _ _)

theorem State.setResident_stay (s : State) (c k n until_ : Nat) : s.Stay (s.setResident c k n until_) := .of_tasks rfl

theorem State.switched_cluster (s : State) (l n c : Nat) : (s.switched l n).cluster c = s.cluster c := by
  rw [State.switched, State.cluster, State.shiftCore_clusters, State.haltCore_clusters]
  rfl

theorem State.setResident_cluster (s : State) (c k n until_ : Nat) : (s.setResident c k n until_).cluster c = { s.cluster c with
    resident := (s.cluster c).resident.set k n, sliceEnd := (s.cluster c).sliceEnd.set k until_ } :=
  (cluster_setCluster s c c _).trans (if_pos rfl)

theorem execPreemption_of_found {s u : State} (h : s.findTask State.preemptReady = some u) :
    exec .preemption s = .next u.preemptNow := by
  have hstep : exec .preemption s = .next (((s.findTask State.preemptReady).map State.preemptNow).getD s) := rfl
  rw [hstep, h, Option.map_some, Option.getD_some]

/-- Settles O49: the saved task is the sealed one and its block stands in the region, a resumed task has what was saved, and a switch
only stops and shifts tasks. Where a block lies in the context region is the choice of log 18. -/
theorem tasksLeaveAndReturn : Obligations.TasksLeaveAndReturn := by
  refine ⟨fun s u hu => ?_, fun s h => ?_, fun s t i x hx ht => ?_, fun s i h => ?_, fun s c k => ⟨fun h => ?_, ?_⟩⟩
  · obtain ⟨hready, -, -⟩ := State.findTask_spec hu
    obtain ⟨hpreempt, hsafe, hhandler, hseal⟩ := State.preemptReady_spec hready
    obtain ⟨hid, hpc, hwait, hhold, hregs, hsys, hlvl⟩ := u.toSave_task
    obtain ⟨x, hlive, hsaved, htask, hblock, hgran⟩ := u.preemptNow_spec
    refine ⟨hpreempt, hsafe, hhandler, hseal, u.preemptNow, u.toSave, x, _, execPreemption_of_found hu, hlive, hsaved, htask, hpc,
      hwait, hhold, ?_, keepsRegisters_of_regs ?_, hsys, hlvl, rfl, fun i b hb => hblock.read_getElem? hb, hgran⟩
    · rw [hregs, TaskRegs.close_wins]
    · rw [hregs, TaskRegs.close_close]
  · exact congrArg Host.Outcome.next (by rw [h]; rfl)
  · obtain ⟨part, k, u, base, hgran, hres, rfl⟩ := State.resumeTask_cases ht
    have hexec : exec (.taskResume i) s = .next ((s.saved[i]?.bind s.resumeTask).getD s) := rfl
    refine ⟨?_, rfl, rfl, rfl, rfl, rfl, rfl, rfl, rfl, rfl, rfl, rfl, rfl, ?_, hgran, ?_⟩
    · rw [hexec, hx, Option.bind_some, ht, Option.getD_some]
    · rw [State.beginResumed_saved, State.addTask_saved, State.restoreUnits_saved, State.unspecifyBound, State.setCore_saved,
        State.setCore_saved, State.makeResident_saved hres]
    · rw [State.core_of_cores (State.beginResumed_cores _ _ _), State.core_of_cores (State.addTask_cores _ _),
        State.restoreUnits_freeGran, State.unspecifyBound_freeGran, State.core_setCore_of_eq (by rfl)]
  · exact congrArg Host.Outcome.next (by rw [h]; rfl)
  · exact congrArg Host.Outcome.next (by rw [h])
  · intro l n hdue hres hslice
    obtain ⟨hhosts, hnext, hrun, hmq, hsq, hend⟩ := State.switchDue_spec hdue
    refine ⟨hhosts, hnext, hrun, hmq, hsq, hend, _, execTimeShareSwitch_of_due hdue, ?_, ?_, ?_, fun who x hx => ?_⟩
    · rw [State.setResident, State.setCluster_mem, State.switched, State.shiftCore_mem, State.haltCore_mem]
    · rw [State.setResident_cluster, State.switched_cluster]
      exact getD_set_self hres n 0
    · rw [State.setResident_cluster, State.switched_cluster]
      exact getD_set_self hslice _ 0
    · obtain ⟨y, hy, hpc, hsys, hbolt, hregs⟩ := (s.switched_stay l n).trans (State.setResident_stay _ _ _ _ _) who x hx
      exact ⟨y, hy, hpc, hsys, hbolt, fun j => by rw [hregs], fun j => by rw [hregs]⟩

end Sys2Proof.Machine

/-! The plot table under changes of its entries, and under plots that become bad (R327, R331, R333). -/

namespace Sys2Proof.Machine

theorem Memory.readBytes_congr {m m' : Memory} {k n : Nat} (h : ∀ i, i < n → m'.read (k + i) = m.read (k + i)) :
    m'.readBytes k n = m.readBytes k n := by
  induction n generalizing k with
  | zero => rfl
  | succ n ih =>
    rw [readBytes, readBytes, ih fun i hi => by rw [Nat.add_right_comm, Nat.add_assoc k i 1]; exact h (i + 1) (by omega)]
    exact congrArg (· :: _) (h 0 (Nat.succ_pos n))

theorem State.plotEntry_lt (s : State) (p : Nat) : s.plotEntry p < 2 ^ 64 := by
  have h := natOfBytes_lt (s.mem.readBytes (8 * p) 8)
  rw [Memory.readBytes_length] at h
  exact h

/-- What a change of state and owner makes of an entry: its other bits stay (R327). -/
def plotWord (e state owner : Nat) : Nat := e - e % 8 + state + owner * 256 - bitsOf e 15 8 * 256

theorem State.setPlot_mem_eq (s : State) (p state owner : Nat) : (s.setPlot p state owner).mem =
    s.mem.writeCells (cellsAt (8 * p) (bytesOfNat 8 (plotWord (s.plotEntry p) state owner))) := rfl

theorem State.plotEntry_setPlot (s : State) (p state owner q : Nat) : (s.setPlot p state owner).plotEntry q =
    if q = p then plotWord (s.plotEntry p) state owner % 2 ^ 64 else s.plotEntry q := by
  rw [State.plotEntry, State.setPlot_mem_eq]
  split
  next h =>
    subst h
    exact (Memory.holds_writeCells _ _ _).number
  next h =>
    refine congrArg natOfBytes (Memory.readBytes_congr fun i hi => Memory.read_writeCells_outside _ ?_)
    rw [bytesOfNat_length]
    omega

theorem plotWord_fields {e state owner : Nat} (he : e < 2 ^ 64) (hs : state < 8) (ho : owner < 256) :
    plotWord e state owner % 2 ^ 64 % 8 = state ∧ bitsOf (plotWord e state owner % 2 ^ 64) 15 8 = owner := by
  unfold plotWord bitsOf
  omega

theorem State.plotState_setPlot {s : State} {p state owner : Nat} (hs : state < 8) (ho : owner < 256) (q : Nat) :
    (s.setPlot p state owner).plotState q = if q = p then state else s.plotState q := by
  rw [State.plotState, State.plotEntry_setPlot]
  split
  · exact (plotWord_fields (s.plotEntry_lt p) hs ho).1
  · rfl

theorem State.plotOwner_setPlot {s : State} {p state owner : Nat} (hs : state < 8) (ho : owner < 256) (q : Nat) :
    (s.setPlot p state owner).plotOwner q = if q = p then owner else s.plotOwner q := by
  rw [State.plotOwner, State.plotEntry_setPlot]
  split
  · exact (plotWord_fields (s.plotEntry_lt p) hs ho).2
  · rfl

theorem State.scramble_read (s : State) {k n a : Nat} (h : a < k ∨ k + n ≤ a) : (s.scramble k n).mem.read a = s.mem.read a := by
  refine Memory.read_writeCells_of_not_mem fun hmem => ?_
  simp only [List.map_map, List.mem_map, List.mem_range, Function.comp_apply] at hmem
  obtain ⟨i, hi, rfl⟩ := hmem
  omega

theorem State.scramble_plotState (s : State) {k n p : Nat} (h : 8 * p + 8 ≤ k) : (s.scramble k n).plotState p = s.plotState p := by
  have hbytes : (s.scramble k n).mem.readBytes (8 * p) 8 = s.mem.readBytes (8 * p) 8 :=
    Memory.readBytes_congr fun i hi => s.scramble_read (.inl (by omega))
  simp only [State.plotState, State.plotEntry, Memory.word, hbytes]

theorem State.plotState_of_mem {s t : State} (h : t.mem = s.mem) (p : Nat) : t.plotState p = s.plotState p := by
  rw [State.plotState, State.plotState, State.plotEntry, State.plotEntry, h]

theorem State.markBad_mem_eq (s : State) (q : Nat) : (s.markBad q).mem = State.mem (if q ≠ 0 ∧ q < 131072 then
    (s.setPlot q 4 0).scramble (q * 2 ^ 21) (2 ^ 21) else s.setPlot q 4 0) := rfl

/-- A plot of the main memory that becomes bad has state 4, and its contents touch no entry of the table (R331). -/
theorem State.plotState_markBad (s : State) (q : Nat) {p : Nat} (hp : p < 131072) :
    (s.markBad q).plotState p = if p = q then 4 else s.plotState p := by
  have hset := State.plotState_setPlot (s := s) (p := q) (state := 4) (owner := 0) (by decide) (by decide) p
  rw [← hset, State.plotState_of_mem (s.markBad_mem_eq q)]
  split
  next h => exact State.scramble_plotState _ (by omega)
  next => rfl

/-- Plots that become bad one after the other. -/
theorem State.plotState_foldl_markBad {p : Nat} (hp : p < 131072) : ∀ (l : List Nat) (s : State), p ∈ l ∨ s.plotState p = 4 →
    (l.foldl State.markBad s).plotState p = 4
  | [], _, h => h.resolve_left List.not_mem_nil
  | q :: l, s, h => by
    refine State.plotState_foldl_markBad hp l (s.markBad q) ?_
    rw [State.plotState_markBad s q hp]
    by_cases hq : p = q
    · exact .inr (if_pos hq)
    · rw [if_neg hq]
      exact h.imp_left fun hmem => (List.mem_cons.1 hmem).resolve_left hq

end Sys2Proof.Machine

/-! Lanes, failures of dies and shores, rails, growth rings and the bank (R187, R363, R365, R370 to R373, R381, R382, R386). -/

namespace Sys2Proof.Machine

/-! ### Lane groups (R363, R403) -/

/-- The link of a group or port stands on this package. -/
def State.hasLink (s : State) : LinkRef → Prop
  | .group g => g < s.pkg.groups.length
  | .port p => p < s.ports.length

theorem State.port_setPort (s : State) (k : Nat) (p : PortState) (i : Nat) :
    (s.setPort k p).port i = if i = k ∧ k < s.ports.length then p else s.port i := by
  rw [State.port, State.setPort, List.getD_eq_getElem?_getD, List.getElem?_set, State.port, List.getD_eq_getElem?_getD]
  by_cases hk : k = i
  · subst hk
    by_cases hlt : k < s.ports.length
    · rw [if_pos rfl, if_pos hlt, if_pos ⟨rfl, hlt⟩, Option.getD_some]
    · rw [if_pos rfl, if_neg hlt, if_neg (by simp [hlt]), List.getElem?_eq_none (Nat.not_lt.1 hlt)]
  · rw [if_neg hk, if_neg fun h => hk h.1.symm]

theorem State.laneGroup_setLaneGroup {s : State} {k : LinkRef} (h : s.hasLink k) (x : LaneGroup) :
    (s.setLaneGroup k x).laneGroup k = x := by
  cases k with
  | group g => exact getD_set_self h x _
  | port p => exact congrArg PortState.lanes ((s.port_setPort p _ p).trans (if_pos ⟨rfl, h⟩))

/-- A view of the state that sees neither payloads that are sent or wait, nor what leaves the device. -/
structure TrafficBlind {β : Type} (π : State → β) : Prop where
  port : ∀ s k (p : PortState), p.lanes = (State.port s k).lanes → π (s.setPort k p) = π s
  emit : ∀ s o, π (State.emit s o) = π s
  dev : ∀ (s : State) dev, π { s with dev } = π s

section
variable {β : Type} {π : State → β} (h : TrafficBlind π)
include h

theorem State.portSend_keeps (s : State) (k pos type : Nat) (payload : List Byte) : π (s.portSend k pos type payload) = π s := by
  unfold State.portSend
  dsimp only
  split
  · exact h.port _ _ _ rfl
  · exact (h.emit _ _).trans (h.port _ _ _ rfl)

theorem State.reroute_keeps (s : State) (k : Nat) : π (s.reroute k) = π s := by
  refine (foldl_keeps π _ _ _ fun s x => ?_).trans (h.port _ _ _ rfl)
  unfold State.sendTo
  split
  · exact State.portSend_keeps h s _ _ _ _
  · exact h.dev _ _

theorem State.portResume_keeps (s : State) (k : Nat) : π (s.portResume k) = π s :=
  (foldl_keeps π _ _ _ fun s _ => State.portSend_keeps h s k _ _ _).trans (h.port _ _ _ rfl)

theorem State.leavePort_keeps (s : State) (k : LinkRef) : π (s.leavePort k) = π s := by
  cases k with
  | group g => rfl
  | port p =>
    unfold State.leavePort
    dsimp only
    split
    · exact State.reroute_keeps h s p
    · rfl

end

theorem trafficBlind_laneGroup (k : LinkRef) : TrafficBlind fun s => s.laneGroup k where
  port s i p hp := by
    cases k with
    | group g => rfl
    | port j =>
      simp only [State.laneGroup, State.port_setPort]
      split
      next h => rw [hp, h.1]
      next => rfl
  emit _ _ := rfl
  dev _ _ := rfl

theorem trafficBlind_tasks : TrafficBlind State.tasks := ⟨fun _ _ _ _ => rfl, fun _ _ => rfl, fun _ _ => rfl⟩

theorem trafficBlind_mem : TrafficBlind State.mem := ⟨fun _ _ _ _ => rfl, fun _ _ => rfl, fun _ _ => rfl⟩

theorem trafficBlind_pkg : TrafficBlind State.pkg := ⟨fun _ _ _ _ => rfl, fun _ _ => rfl, fun _ _ => rfl⟩

theorem trafficBlind_dcc : TrafficBlind State.dcc := ⟨fun _ _ _ _ => rfl, fun _ _ => rfl, fun _ _ => rfl⟩

theorem State.setLaneGroup_tasks (s : State) (k : LinkRef) (x : LaneGroup) : (s.setLaneGroup k x).tasks = s.tasks := by
  cases k <;> rfl

theorem State.setLaneGroup_dcc (s : State) (k : LinkRef) (x : LaneGroup) : (s.setLaneGroup k x).dcc = s.dcc := by
  cases k <;> rfl

/-- A splice, but for the device fault that the loss of the last group of the link is (R363). -/
def State.splicedLane (s : State) (k : LinkRef) : State :=
  (s.setLaneGroup k ((s.laneGroup k).splice s.dcc)).leavePort k

theorem State.spliceLane_eq (s : State) (k : LinkRef) : s.spliceLane k = if (s.splicedLane k).linkLost && !s.linkLost then
    ((s.splicedLane k).setPkg { (s.splicedLane k).pkg with cause := 5 }).event 0 0 (.deviceFault 5) else s.splicedLane k := rfl

theorem State.splicedLane_laneGroup {s : State} {k : LinkRef} (h : s.hasLink k) :
    (s.splicedLane k).laneGroup k = (s.laneGroup k).splice s.dcc :=
  (State.leavePort_keeps (trafficBlind_laneGroup k) _ k).trans (State.laneGroup_setLaneGroup h _)

theorem State.splicedLane_tasks (s : State) (k : LinkRef) : (s.splicedLane k).tasks = s.tasks :=
  (State.leavePort_keeps trafficBlind_tasks _ k).trans (s.setLaneGroup_tasks k _)

theorem State.splicedLane_dcc (s : State) (k : LinkRef) : (s.splicedLane k).dcc = s.dcc :=
  (State.leavePort_keeps trafficBlind_dcc _ k).trans (s.setLaneGroup_dcc k _)

theorem State.spliceLane_laneGroup {s : State} {k : LinkRef} (h : s.hasLink k) :
    (s.spliceLane k).laneGroup k = (s.laneGroup k).splice s.dcc := by
  rw [← State.splicedLane_laneGroup h, State.spliceLane_eq]
  split
  · cases k <;> rfl
  · rfl

theorem State.spliceLane_tasks (s : State) (k : LinkRef) : (s.spliceLane k).tasks = s.tasks := by
  rw [← s.splicedLane_tasks k, State.spliceLane_eq]
  split <;> rfl

/-- The loss of the last lane group of the link is a device fault that follows at the decision tick (R363). -/
theorem State.spliceLane_lost {s : State} {k : LinkRef} (hbefore : s.linkLost = false) (hafter : (s.spliceLane k).linkLost = true) :
    (∃ e ∈ (s.spliceLane k).events, e.tick = s.dcc + 512 ∧ e.kind = .deviceFault 5) ∧ (s.spliceLane k).pkg.cause = 5 := by
  rw [State.spliceLane_eq] at hafter ⊢
  split at hafter
  next hlost =>
    rw [if_pos hlost]
    exact ⟨⟨_, List.mem_append_right _ List.mem_cons_self, congrArg (· + 512) (s.splicedLane_dcc k), rfl⟩, rfl⟩
  next hkept => rw [hafter, hbefore] at hkept; exact absurd rfl hkept

/-- A group after a splice: a spare has taken over, and the group retrains (R363). -/
theorem LaneGroup.splice_of_spare {x : LaneGroup} (h : 0 < x.spare) (now : Nat) : let y := x.splice now
    y.spare + 1 = x.spare ∧ y.state = 1 ∧ y.retrained = now + 26400 ∧
      y.splc = if x.splc = BitVec.allOnes 16 then x.splc else x.splc + 1 := by
  rw [LaneGroup.splice, if_neg (by omega)]
  exact ⟨Nat.sub_add_cancel h, rfl, rfl, rfl⟩

theorem LaneGroup.splice_of_none {x : LaneGroup} (h : x.spare = 0) (now : Nat) : let y := x.splice now
    y.state = 2 ∧ y.splc = x.splc := by
  rw [LaneGroup.splice, if_pos h]
  exact ⟨rfl, rfl⟩

/-- The splice that a link's boot stage or a worn lane asks for (R363, R420). -/
theorem State.spliceDue_iff (s : State) (k : LinkRef) : s.spliceDue k = true ↔ (s.laneGroup k).state = 0 ∧
    ((∃ f ∈ (s.laneGroup k).fails, 16 ≤ ((s.laneGroup k).fails.filter fun h => h.1 = f.1 ∧ s.dcc < h.2 + 2 ^ 24).length) ∨
      s.dev.bootstage < match k with | .group _ => 3 | .port _ => 5) := by
  cases k <;> simp [State.spliceDue, LaneGroup.worn]

theorem State.retrainOver_iff (s : State) (k : LinkRef) : s.retrainOver k = true ↔
    (s.laneGroup k).state = 1 ∧ (s.laneGroup k).retrained ≤ s.dcc := by
  simp [State.retrainOver]

/-- A link whose retrain window is over: its state is 0, and its traffic goes on (R402, R403). -/
def State.retrain (s : State) (k : LinkRef) : State :=
  let u := s.setLaneGroup k { s.laneGroup k with state := 0 }
  match k with
  | .group _ => u
  | .port p => u.portResume p

theorem State.retrain_keeps {β : Type} {π : State → β} (h : TrafficBlind π) (s : State) (k : LinkRef) :
    π (s.retrain k) = π (s.setLaneGroup k { s.laneGroup k with state := 0 }) := by
  cases k with
  | group g => rfl
  | port p => exact State.portResume_keeps h _ p

theorem execSpliceRetrainEnd_eq (s : State) (k : LinkRef) : exec (.spliceRetrainEnd k) s =
    .next (if s.retrainOver k then s.retrain k else s) := by cases k <;> rfl

/-! ### Failures (R365, R368, R420) -/

/-- An event arises and is applied at its decision tick (R301). -/
theorem State.event_follows (s : State) (q seq : Nat) (k : EventKind) :
    ∃ e ∈ (s.event q seq k).events, e.tick = s.dcc + 512 ∧ e.kind = k :=
  ⟨_, List.mem_append_right _ List.mem_cons_self, rfl, rfl⟩

theorem getLsbD_or_twoPow {w : Nat} (x : BitVec w) {i : Nat} (hi : i < w) (j : Nat) :
    (x ||| BitVec.twoPow w i).getLsbD j = (x.getLsbD j || decide (j = i)) := by
  rw [BitVec.getLsbD_or, BitVec.getLsbD_twoPow, decide_eq_true hi, Bool.true_and]
  exact congrArg _ (decide_eq_decide.2 eq_comm)

theorem State.failDie_pkg (s : State) (d cause fcl : Nat) : (s.failDie d cause fcl).pkg =
    { s.pkg with failed := s.pkg.failed ||| BitVec.twoPow 2 d, cause, fcl } := by
  unfold State.failDie
  dsimp only
  split <;> rfl

theorem State.failDie_tasks (s : State) (d cause fcl : Nat) : (s.failDie d cause fcl).tasks = s.tasks := by
  unfold State.failDie
  dsimp only
  split <;> rfl

theorem State.failDie_mem_eq (s : State) (d cause fcl : Nat) : (s.failDie d cause fcl).mem = s.mem := by
  unfold State.failDie
  dsimp only
  split <;> rfl

/-- What follows the failure of a die's compute: the other die's adoption of it, or a device fault (R365). -/
def State.failEvent (s : State) (d cause fcl : Nat) : EventKind :=
  if s.pkg.failed = 0 ∧ s.pkg.shore = 0 ∧ s.pkg.adplot.getLsbD 31 = true then .adopt d cause fcl else .deviceFault cause

theorem State.failDie_follows (s : State) (d cause fcl : Nat) :
    ∃ e ∈ (s.failDie d cause fcl).events, e.tick = s.dcc + 512 ∧ e.kind = s.failEvent d cause fcl := by
  unfold State.failDie State.failEvent
  simp only [Bool.and_eq_true, beq_iff_eq, and_assoc]
  split
  all_goals exact State.event_follows (s.setPkg _) 0 0 _

/-- The package records the loss of a shore (R365). -/
def State.loseShore (s : State) (d : Nat) : State := s.setPkg { s.pkg with shore := s.pkg.shore ||| BitVec.twoPow 2 d, cause := 4 }

theorem State.event_tasks (s : State) (q seq : Nat) (k : EventKind) : (s.event q seq k).tasks = s.tasks := rfl

theorem State.loseShore_tasks (s : State) (d : Nat) : (s.loseShore d).tasks = s.tasks := rfl

theorem execShoreLoss_of_present {s : State} {d : Nat} (h : s.pkg.shore.getLsbD d = false) : exec (.shoreLoss d) s =
    .next (((shorePlots d).foldl State.markBad (s.loseShore d)).event 0 0 (.deviceFault 4)) :=
  congrArg Host.Outcome.next (if_neg (by rw [h]; exact Bool.false_ne_true))

/-- A plot that becomes bad changes memory, the record of errors and the device's counters alone (R331). -/
theorem State.markBad_eq (s : State) (p : Nat) : ∃ mem poison dev, s.markBad p = { s with mem, poison, dev } := by
  have hscramble (u : State) (k n : Nat) : ∃ mem, u.scramble k n = { u with mem } := ⟨_, rfl⟩
  unfold State.markBad
  dsimp only
  split
  · obtain ⟨mem, h⟩ := hscramble (s.setPlot p 4 0) (p * 2 ^ 21) (2 ^ 21)
    rw [h]
    exact ⟨_, _, _, rfl⟩
  · exact ⟨_, _, _, rfl⟩

theorem State.foldl_markBad_keeps (l : List Nat) (s : State) : (l.foldl State.markBad s).tasks = s.tasks ∧
    (l.foldl State.markBad s).pkg = s.pkg ∧ (l.foldl State.markBad s).dcc = s.dcc := by
  have h := foldl_keeps (fun t : State => (t.tasks, t.pkg, t.dcc)) State.markBad l s fun u p => by
    obtain ⟨mem, poison, dev, h⟩ := u.markBad_eq p
    rw [h]
    rfl
  simpa only [Prod.mk.injEq] using h

/-! ### Rails (R370 to R372) -/

theorem State.rail_setRail {s : State} {r : Nat} (h : r < s.pkg.rails.length) (x : Rail) (k : Nat) :
    (s.setRail r x).rail k = if k = r then x else s.rail k := by
  rw [State.rail, State.setRail, State.setPkg, List.getD_eq_getElem?_getD, List.getElem?_set, State.rail, List.getD_eq_getElem?_getD]
  by_cases hk : k = r
  · subst hk
    rw [if_pos rfl, if_pos h, if_pos rfl, Option.getD_some]
  · rw [if_neg fun e => hk e.symm, if_neg hk]

theorem State.flagCapped_pkg (s : State) : s.flagCapped.pkg = s.pkg := by
  unfold State.flagCapped
  split <;> rfl

theorem State.onTasks_tasks (s : State) (f : Task → Task) :
    (s.onTasks f).tasks = s.tasks.map fun t => if t.id.live then f t else t := rfl

/-- Every live task is flagged while some rail is capped (R370). -/
theorem State.flagCapped_degr {s : State} (h : s.pkg.capped = true) {u : Task} (hu : u ∈ s.flagCapped.tasks)
    (hlive : u.id.live = true) : u.bolt.degr.getLsbD 2 = true := by
  rw [State.flagCapped, if_pos h, State.onTasks_tasks] at hu
  obtain ⟨t, -, rfl⟩ := List.mem_map.1 hu
  by_cases hl : t.id.live = true
  · rw [if_pos hl]
    simp
  · rw [if_neg hl] at hlive
    exact absurd hlive hl

/-! A step of a rail begins at a boundary, towards the target, and ends with the next step (R372). -/

section
variable {x : Rail}

theorem Rail.step_of_ramp (h : x.ramp = true) (boundary : Nat) : x.step boundary = { x with opc := x.next, ramp := false } :=
  if_pos h

variable {boundary : Nat} (hramp : x.ramp = false)
include hramp

theorem Rail.step_of_same (h : boundary = x.checked) : x.step boundary = x :=
  (if_neg (by rw [hramp]; exact Bool.false_ne_true)).trans (if_pos h)

theorem Rail.step_of_boundary (h : boundary ≠ x.checked) : x.step boundary = if x.opc = x.tgt then { x with checked := boundary }
    else { x with checked := boundary, ramp := true, next := if x.opc.toNat < x.tgt.toNat then x.opc + 1 else x.opc - 1 } :=
  (if_neg (by rw [hramp]; exact Bool.false_ne_true)).trans (if_neg h)

theorem Rail.step_up (h : boundary ≠ x.checked) (hlt : x.opc.toNat < x.tgt.toNat) :
    x.step boundary = { x with checked := boundary, ramp := true, next := x.opc + 1 } := by
  rw [Rail.step_of_boundary hramp h, if_neg fun e => Nat.ne_of_lt hlt (congrArg BitVec.toNat e), if_pos hlt]

theorem Rail.step_down (h : boundary ≠ x.checked) (hlt : x.tgt.toNat < x.opc.toNat) :
    x.step boundary = { x with checked := boundary, ramp := true, next := x.opc - 1 } := by
  rw [Rail.step_of_boundary hramp h, if_neg fun e => Nat.ne_of_gt hlt (congrArg BitVec.toNat e), if_neg (Nat.not_lt.2 hlt.le)]

end

theorem execRailRampStep_of {s : State} {r : Nat} {y : Rail} (hr : r < s.pkg.rails.length)
    (h : (s.rail r).step (s.dcc / 1100) = y) : exec (.railRampStep r) s = .next (if r = 0 ∧ (s.rail r).drive ≠ y.drive
      then (s.setRail r y).rerateAll else s.setRail r y) := by
  have hstep : exec (.railRampStep r) s = .next (if r = 0 ∧ (s.rail r).drive ≠
      ((s.setRail r ((s.rail r).step (s.dcc / 1100))).rail r).drive
    then (s.setRail r ((s.rail r).step (s.dcc / 1100))).rerateAll else s.setRail r ((s.rail r).step (s.dcc / 1100))) := rfl
  rw [hstep, h, State.rail_setRail hr, if_pos rfl]

theorem State.setRail_self (s : State) (r : Nat) : s.setRail r (s.rail r) = s := by
  have hset : s.pkg.rails.set r (s.rail r) = s.pkg.rails := by
    by_cases h : r < s.pkg.rails.length
    · have hrail : s.rail r = s.pkg.rails[r] := List.getD_eq_getElem _ _ h
      rw [hrail, List.set_getElem_self]
    · exact List.set_eq_of_length_le (Nat.not_lt.1 h)
  rw [State.setRail, hset]
  rfl

/-! ### Growth rings (R381, R382) -/

/-- A wear register gets a value. -/
def State.setGrowth (s : State) (r : GrowthReg) (x : Growth) : State :=
  s.setPkg { s.pkg with growth := s.pkg.growth.filter (·.1 ≠ r) ++ [(r, x)] }

theorem State.growth_setGrowth (s : State) (r : GrowthReg) (x : Growth) (k : GrowthReg) :
    (s.setGrowth r x).growth k = if k = r then x else s.growth k := by
  rw [State.growth, State.setGrowth, State.setPkg, List.find?_append]
  by_cases hk : k = r
  · subst hk
    have hnone : (s.pkg.growth.filter (·.1 ≠ k)).find? (·.1 = k) = none := by simp
    rw [hnone, if_pos rfl]
    simp
  · have hkeep : (s.pkg.growth.filter (·.1 ≠ r)).find? (·.1 = k) = s.pkg.growth.find? (·.1 = k) := by
      rw [List.find?_filter]
      refine congrArg (List.find? · s.pkg.growth) (funext fun x => ?_)
      by_cases hx : x.1 = k
      · simp [hx, hk]
      · simp [hx]
    have hlast : [(r, x)].find? (·.1 = k) = none := by simp [Ne.symm hk]
    rw [hkeep, hlast, Option.or_none, if_neg hk]
    rfl

theorem execGrowthRingUpdate_of_due {s : State} {r : GrowthReg} (h : s.dcc / 2 ^ 35 ≠ (s.growth r).slot) (metric rate : Int) :
    exec (.growthRingUpdate r metric rate) s =
      let t := s.setGrowth r (s.grown r metric rate)
      .next (t.emit (.health t.weakest)) :=
  congrArg Host.Outcome.next (if_pos (bne_iff_ne.2 h))

theorem State.weakest_le (s : State) {k : GrowthReg} (h : k ∈ growthRegs) :
    (s.growth s.weakest).life.toNat ≤ (s.growth k).life.toNat :=
  (foldl_argmin (fun r => (s.growth r).life.toNat) growthRegs (.core 0 0)).2 k (List.mem_cons_of_mem _ h)

/-- The life left of a source whose metric rises (R381). -/
theorem lifeOf_of_rising {r : GrowthReg} (h : ∀ k, r ≠ .link k) (metric growth : Int) (hours : Nat) : lifeOf r metric growth hours =
    if growthLimit r - metric ≤ 0 then 0 else if growth ≤ 0 then BitVec.allOnes 24
    else BitVec.ofNat 24 (Nat.min ((growthLimit r - metric) * hours / growth).toNat (2 ^ 24 - 1)) := by
  cases r with
  | link k => exact absurd rfl (h k)
  | core | mem | heat | nand => rfl

/-! ### The steps -/

theorem execDieLinkFlitReceive_of_good {s : State} {g lane : Nat} (h : (s.laneGroup (.group g)).state = 0) :
    exec (.dieLinkFlitReceive g lane true) s = .next (s.setLaneGroup (.group g) { s.laneGroup (.group g) with same := 0 }) :=
  congrArg Host.Outcome.next ((if_neg (by simp [h])).trans (if_pos rfl))

/-- A failing flit counts; the eighth failure in a row is charged to the users of the link (R187, R363). -/
theorem execDieLinkFlitReceive_of_bad {s : State} {g lane : Nat} (h : (s.laneGroup (.group g)).state = 0) :
    exec (.dieLinkFlitReceive g lane false) s =
      let t := s.setLaneGroup (.group g) ((s.laneGroup (.group g)).crcFailure lane s.dcc)
      .next (if (s.laneGroup (.group g)).same = 7 then t.chargeTraffic s.linkUsers else t) := by
  refine congrArg Host.Outcome.next ((if_neg (by simp [h])).trans ((if_neg Bool.false_ne_true).trans ?_))
  exact if_congr (by exact Nat.succ_inj) rfl rfl

/-- Settles O54: the equation of each step, one case for each branch. Which bolts the eighth failure of a flit is charged to, and the
points within the limit, are free (log 14, log 24). -/
theorem linksRailsAndFailures : Obligations.LinksRailsAndFailures := by
  refine ⟨fun s => ⟨fun g lane ok hg => ⟨fun h => congrArg Host.Outcome.next (if_pos h), fun h hok => ?_, fun h hok => ?_⟩, fun k hk => ?_,
      fun d cause hd => ⟨fun h => congrArg Host.Outcome.next (if_pos h), fun h => ?_⟩,
      fun d hd => ⟨fun h => congrArg Host.Outcome.next (if_pos h), fun h => ?_⟩⟩,
    fun s => ⟨fun r amps cap hr => ⟨fun h => congrArg Host.Outcome.next (if_neg (by simp [State.sampleDue, h])), fun h => ?_⟩,
      fun r hr => ?_, fun r metric rate => ⟨fun h => congrArg Host.Outcome.next (if_neg (by rw [State.growthDue, h]; simp)), fun h => ?_⟩,
      fun k hk => s.weakest_le hk, fun r metric growth hours hr hgrowth hlimit hlt => ?_,
      fun r metric growth hours hr hgrowth hlimit => ?_, fun ok => ?_, fun h => ?_, fun h => ?_⟩⟩
  · rw [hok, execDieLinkFlitReceive_of_good h]
  · rw [hok]
    exact ⟨(s.laneGroup (.group g)).crcFailure lane s.dcc, rfl, rfl, rfl, h, List.mem_cons_self,
      fun f hf hrecent => List.mem_cons_of_mem _ (List.mem_filter.2 ⟨hf, decide_eq_true hrecent⟩), execDieLinkFlitReceive_of_bad h⟩
  · have hlink : s.hasLink k := by cases k <;> exact hk
    refine ⟨fun h => congrArg Host.Outcome.next (if_neg (mt (s.spliceDue_iff k).1 h)), fun h => ?_,
      fun h => (execSpliceRetrainEnd_eq s k).trans (congrArg Host.Outcome.next (if_neg (mt (s.retrainOver_iff k).1 h))),
      fun hstate hover => ?_⟩
    · refine ⟨s.spliceLane k, congrArg Host.Outcome.next (if_pos ((s.spliceDue_iff k).2 h)), s.spliceLane_mem k, s.spliceLane_tasks k,
        ⟨fun hspare => ?_, fun hspare => ?_⟩, State.spliceLane_lost⟩
      · rw [State.spliceLane_laneGroup hlink]
        exact LaneGroup.splice_of_spare hspare _
      · rw [State.spliceLane_laneGroup hlink]
        exact LaneGroup.splice_of_none hspare _
    · have hlane := (State.retrain_keeps (trafficBlind_laneGroup k) s k).trans (State.laneGroup_setLaneGroup hlink _)
      refine ⟨s.retrain k, (execSpliceRetrainEnd_eq s k).trans (congrArg Host.Outcome.next (if_pos ((s.retrainOver_iff k).2 ⟨hstate, hover⟩))),
        by rw [hlane], by rw [hlane], ?_, ?_⟩
      · exact (State.retrain_keeps trafficBlind_mem s k).trans (by cases k <;> rfl)
      · exact (State.retrain_keeps trafficBlind_tasks s k).trans (s.setLaneGroup_tasks k _)
  · have hfailed (j : Nat) : (s.failDie d cause.toNat s.pkg.fcl).dieFailed j = (s.dieFailed j || decide (j = d)) := by
      rw [State.dieFailed, State.failDie_pkg]
      exact getLsbD_or_twoPow _ hd j
    refine ⟨_, congrArg Host.Outcome.next (if_neg (by rw [h]; exact Bool.false_ne_true)), ?_, ?_, ?_, State.failDie_mem_eq _ _ _ _,
      State.failDie_tasks _ _ _ _, ?_⟩
    · rw [hfailed, decide_eq_true rfl, Bool.or_true]
    · rw [hfailed, decide_eq_false (by omega), Bool.or_false]
    · rw [State.failDie_pkg]
    · have hfollows := s.failDie_follows d cause.toNat s.pkg.fcl
      unfold State.failEvent at hfollows
      split
      next hadopt => rwa [if_pos hadopt] at hfollows
      next hfault => rwa [if_neg hfault] at hfollows
  · obtain ⟨htasks, hpkg, hdcc⟩ := State.foldl_markBad_keeps (shorePlots d) (s.loseShore d)
    have hfollows := State.event_follows ((shorePlots d).foldl State.markBad (s.loseShore d)) 0 0 (.deviceFault 4)
    rw [hdcc] at hfollows
    refine ⟨_, execShoreLoss_of_present h, ?_, ?_, ?_, hfollows, fun p hp hd' => ?_⟩
    · rw [State.event_pkg, hpkg, State.loseShore, State.setPkg_pkg, getLsbD_or_twoPow _ hd, decide_eq_true rfl, Bool.or_true]
    · rw [State.event_pkg, hpkg]
      rfl
    · rw [State.event_tasks, htasks, State.loseShore_tasks]
    · rw [State.plotState_of_mem (State.event_mem _ _ _ _)]
      exact State.plotState_foldl_markBad hp _ _ (.inl (List.mem_filter.2 ⟨List.mem_range.2 hp, decide_eq_true hd'⟩))
  · refine ⟨_, congrArg Host.Outcome.next (if_pos (bne_iff_ne.2 h)), State.flagCapped_mem _, ?_, fun k hk => ?_, fun hcap u hu hlive => ?_⟩
    · rw [State.rail, State.flagCapped_pkg]
      exact (State.rail_setRail hr _ r).trans (if_pos rfl)
    · rw [State.rail, State.flagCapped_pkg]
      exact (State.rail_setRail hr _ k).trans (if_neg hk)
    · rw [State.flagCapped_pkg] at hcap
      exact State.flagCapped_degr hcap hu hlive
  · refine ⟨fun hramp => execRailRampStep_of hr (Rail.step_of_ramp hramp _), fun hramp hsame => ?_,
      fun hramp hnew hopc => execRailRampStep_of hr ((Rail.step_of_boundary hramp hnew).trans (if_pos hopc)),
      fun hramp hnew hlt => execRailRampStep_of hr (Rail.step_up hramp hnew hlt),
      fun hramp hnew hlt => execRailRampStep_of hr (Rail.step_down hramp hnew hlt)⟩
    rw [execRailRampStep_of hr (Rail.step_of_same hramp hsame), if_neg fun h => h.2 rfl, State.setRail_self]
  · rw [execGrowthRingUpdate_of_due h]
    refine ⟨_, rfl, ?_, fun k hk => (s.growth_setGrowth r _ k).trans (if_neg hk), rfl, rfl, rfl⟩
    refine ((s.growth_setGrowth r _ r).trans (if_pos rfl)).trans ?_
    cases r <;> rfl
  · rw [lifeOf_of_rising hr, if_neg (by omega), if_neg (by omega)]
    rw [BitVec.toNat_ofNat]
    have hle : ((growthLimit r - metric) * hours / growth).toNat ≤ 2 ^ 24 - 1 := by omega
    exact (congrArg (· % 2 ^ 24) (Nat.min_eq_left hle)).trans (Nat.mod_eq_of_lt (by omega))
  · rw [lifeOf_of_rising hr, if_neg (by omega), if_pos hgrowth]
  · refine congrArg Host.Outcome.next (if_congr ?_ rfl rfl)
    simp [State.bankDue]
  · obtain ⟨hdying, hbank, hsaving⟩ := h
    exact congrArg Host.Outcome.next ((if_pos (by simp [hdying, hbank, hsaving])).trans (if_pos hdying))
  · exact congrArg Host.Outcome.next (if_neg (by simpa [and_assoc] using h))

end Sys2Proof.Machine

/-! Errors that are charged to bolts and chains, and the replay of a bolt (R187 to R190, R237, R252). -/

namespace Sys2Proof.Machine

/-! ### Commands that are gone (R188) -/

/-- A core has no command of some issuers. -/
def Core.Without (c : Core) (who : Issuer → Bool) : Prop :=
  (∀ x ∈ c.sq, who x.who = false) ∧ (∀ x ∈ c.mq, who x.who = false) ∧ ∀ x ∈ c.run, who x.cmd.who = false

theorem State.without_of_cancel (s : State) (l : Nat) (who : Issuer → Bool) : ((s.cancel l who).core l).Without who := by
  obtain ⟨hmq, hrun, hsq⟩ := s.cancel_orders l who
  refine ⟨fun x hx => ?_, fun x hx => ?_, fun x hx => ?_⟩
  · rw [hsq] at hx
    simpa using (List.mem_filter.1 hx).2
  · rw [hmq] at hx
    simpa using (List.mem_filter.1 hx).2
  · rw [hrun] at hx
    simpa using (List.mem_filter.1 hx).2

theorem Core.Without.of_orders {c c' : Core} {who : Issuer → Bool} (h : c.Without who)
    (he : (c'.mq, c'.run, c'.sq) = (c.mq, c.run, c.sq)) : c'.Without who := by
  simp only [Prod.mk.injEq] at he
  obtain ⟨hmq, hrun, hsq⟩ := he
  rw [Core.Without, hmq, hrun, hsq]
  exact h

/-- A cancellation brings no command back. -/
theorem State.cancel_without {s : State} {k : Nat} {who : Issuer → Bool} (h : (s.core k).Without who) (l : Nat)
    (other : Issuer → Bool) : ((s.cancel l other).core k).Without who := by
  by_cases hk : k = l
  · subst hk
    obtain ⟨hmq, hrun, hsq⟩ := s.cancel_orders k other
    obtain ⟨hsq', hmq', hrun'⟩ := h
    refine ⟨fun x hx => hsq' x ?_, fun x hx => hmq' x ?_, fun x hx => hrun' x ?_⟩
    · rw [hsq] at hx
      exact (List.mem_filter.1 hx).1
    · rw [hmq] at hx
      exact (List.mem_filter.1 hx).1
    · rw [hrun] at hx
      exact (List.mem_filter.1 hx).1
  · refine h.of_orders ((State.cancel_core (ρ := fun c => (c.mq, c.run, c.sq)) (fun _ _ _ _ => rfl) s l other k).trans ?_)
    obtain ⟨lends, hcancel⟩ := (s.core l).cancel_eq s.dcc other
    rw [core_setCore, if_neg (by rw [hcancel]; exact hk)]

/-! ### Charges (R188) -/

/-- A task to which every error that was charged to it still is. -/
def Task.KeepsCharges (x y : Task) : Prop :=
  (∀ c, x.bolt.charged = some c → y.bolt.charged = some c) ∧ ∀ c, x.bolt.outCharged = some c → y.bolt.outCharged = some c

theorem Task.charge_keepsCharges (t : Task) (num : Nat) (c : Charge) : t.KeepsCharges (t.charge num c) := by
  unfold Task.charge
  dsimp only
  split_ifs
  · exact ⟨fun q h => by rw [h]; rfl, fun _ h => h⟩
  · exact ⟨fun _ h => h, fun q h => by rw [h]; rfl⟩
  · exact ⟨fun _ h => h, fun _ h => h⟩

theorem Task.abandonTrap_charges (t : Task) : t.abandonTrap.bolt.charged = t.bolt.charged ∧
    t.abandonTrap.bolt.outCharged = t.bolt.outCharged := ⟨rfl, rfl⟩

/-- What the charge of a bolt makes of its task: a trap whose entry is under way is abandoned first (R166, R188). -/
def Task.chargeAt (t : Task) (now num : Nat) (c : Charge) : Task :=
  (if t.entering now && t.bolt.outer.any (·.num == num) then t.abandonTrap else t).charge num c

theorem Task.chargeAt_keepsCharges (t : Task) (now num : Nat) (c : Charge) : t.KeepsCharges (t.chargeAt now num c) := by
  unfold Task.chargeAt
  split
  · obtain ⟨hcharged, hout⟩ := t.abandonTrap_charges
    obtain ⟨h, h'⟩ := t.abandonTrap.charge_keepsCharges num c
    exact ⟨fun q hq => h q (hcharged.trans hq), fun q hq => h' q (hout.trans hq)⟩
  · exact t.charge_keepsCharges num c

theorem Task.chargeAt_id (t : Task) (now num : Nat) (c : Charge) : (t.chargeAt now num c).id = t.id := by
  unfold Task.chargeAt
  split <;> rfl

theorem boltId_fields {l part num : Nat} (hpart : part < 18) (hnum : num < 2 ^ 32) :
    let mark := boltId (claimMark l part) num / 2 ^ 32 - 1
    mark / 18 = l ∧ mark % 18 = part ∧ boltId (claimMark l part) num % 2 ^ 32 = num := by
  unfold boltId claimMark
  omega

/-- The commands of a bolt. -/
def ofBolt (part num : Nat) (w : Issuer) : Bool := w.part == part && w.bolt == num

/-- An error charged to the bolt of a task's partition. -/
theorem State.chargeBolt_of_task {l part num : Nat} (hpart : part < 16) (hnum : num < 2 ^ 32) (s : State) (c : Charge) :
    s.chargeBolt (boltId (claimMark l part) num) c =
      (s.cancel l (ofBolt part num)).onTask ⟨l, part⟩ (·.chargeAt s.dcc num c) := by
  obtain ⟨hl, hp, hn⟩ := boltId_fields (l := l) (part := part) (num := num) (by omega) hnum
  rw [State.chargeBolt]
  simp only [hl, hp, hn]
  exact if_pos hpart

theorem State.chargeBolt_cores (s : State) (id : Nat) (c : Charge) : ∃ l who, (s.chargeBolt id c).cores = (s.cancel l who).cores := by
  unfold State.chargeBolt
  dsimp only
  split
  · exact ⟨_, _, State.onTask_cores _ _ _⟩
  · exact ⟨_, _, State.onHelper_cores _ _ _ _⟩

theorem State.chargeBolt_without {s : State} {k : Nat} {who : Issuer → Bool} (h : (s.core k).Without who) (id : Nat) (c : Charge) :
    ((s.chargeBolt id c).core k).Without who := by
  obtain ⟨l, other, hcores⟩ := s.chargeBolt_cores id c
  rw [State.core_of_cores hcores]
  exact State.cancel_without h l other

theorem State.taskAt_of_tasks {s t : State} (h : t.tasks = s.tasks) (r : TaskRef) : t.taskAt r = s.taskAt r := by
  rw [State.taskAt, State.taskAt, h]

theorem State.cancel_tasks (s : State) (l : Nat) (who : Issuer → Bool) : (s.cancel l who).tasks = s.tasks :=
  State.cancel_blind (π := State.tasks) (fun _ _ => rfl) s l who

theorem State.taskAt_charged {s : State} {r : TaskRef} {x : Task} (h : s.taskAt r = some x) (q : TaskRef) (now num : Nat)
    (c : Charge) : (s.onTask q (·.chargeAt now num c)).taskAt r = some (if x.is q then x.chargeAt now num c else x) := by
  rw [taskAt_onTask _ _ _ _ fun t => t.chargeAt_id _ _ _, h]
  rfl

/-- A charge keeps the charges that stand. -/
theorem State.chargeBolt_keepsCharges {s : State} {r : TaskRef} {x : Task} (h : s.taskAt r = some x) (id : Nat) (c : Charge) :
    ∃ y, (s.chargeBolt id c).taskAt r = some y ∧ x.KeepsCharges y := by
  have hsame : x.KeepsCharges x := ⟨fun _ h => h, fun _ h => h⟩
  unfold State.chargeBolt
  dsimp only
  split
  · refine ⟨_, State.taskAt_charged ((State.taskAt_of_tasks (s.cancel_tasks _ _) r).trans h) _ s.dcc _ c, ?_⟩
    split
    · exact x.chargeAt_keepsCharges _ _ _
    · exact hsame
  · refine ⟨x, ?_, hsame⟩
    have hhelper (u : State) (l w : Nat) (f : Helper → Helper) : (u.onHelper l w f).tasks = u.tasks := by
      unfold State.onHelper; split_ifs <;> rfl
    rw [State.taskAt_of_tasks ((hhelper _ _ _ _).trans (State.cancel_tasks _ _ _)), h]

/-- An error charged to a bolt stays charged to it, and brings no command back, as it spreads to the readers of the bolt (R188). -/
theorem State.chargeAll_spec {s : State} {id k : Nat} {c : Charge} {who : Issuer → Bool} {r : TaskRef} {x : Task}
    (hcore : ((s.chargeBolt id c).core k).Without who) (htask : (s.chargeBolt id c).taskAt r = some x) :
    ((s.chargeAll id c).core k).Without who ∧ ∃ y, (s.chargeAll id c).taskAt r = some y ∧ x.KeepsCharges y := by
  refine ⟨List.foldlRecOn (motive := fun t : State => (t.core k).Without who) _ _ hcore fun t ht i _ => State.chargeBolt_without ht i _, ?_⟩
  refine List.foldlRecOn (motive := fun t : State => ∃ y, t.taskAt r = some y ∧ x.KeepsCharges y) _ _
    ⟨x, htask, fun _ h => h, fun _ h => h⟩ fun t ht i _ => ?_
  obtain ⟨y, hy, hkeeps, hkeeps'⟩ := ht
  obtain ⟨z, hz, hyz, hyz'⟩ := State.chargeBolt_keepsCharges hy i ⟨.core, 0, 0⟩
  exact ⟨z, hz, fun q hq => hyz q (hkeeps q hq), fun q hq => hyz' q (hkeeps' q hq)⟩

/-- The error of an operation is charged to the bolt that a partition has at work or that its handler has interrupted. -/
theorem State.chargeAll_of_task {s : State} {r : TaskRef} {num : Nat} {c : Charge} {x : Task} (hpart : r.part < 16)
    (hnum : num < 2 ^ 32) (hx : s.taskAt r = some x) :
    let t := s.chargeAll (boltId (claimMark r.lcore r.part) num) c
    (t.core r.lcore).Without (ofBolt r.part num) ∧ ∃ y, t.taskAt r = some y ∧ (x.chargeAt s.dcc num c).KeepsCharges y := by
  have hcharge := State.chargeBolt_of_task (l := r.lcore) hpart hnum s c
  refine State.chargeAll_spec ?_ ?_
  · rw [hcharge, State.core_of_cores (State.onTask_cores _ _ _)]
    exact s.without_of_cancel _ _
  · have his : x.is r = true := by simpa using List.find?_some hx
    rw [hcharge, State.taskAt_charged ((State.taskAt_of_tasks (s.cancel_tasks _ _) r).trans hx), if_pos his]

theorem not_ofBolt {part num : Nat} {w : Issuer} (h : ofBolt part num w = false) : ¬(w.part = part ∧ w.bolt = num) := by
  simpa [ofBolt] using h

theorem execErrorDetected_of_task {s : State} {who : TaskRef} {x : Task} (hpart : who.part < 16) (hx : s.taskAt who = some x)
    (hentering : x.entering s.dcc = false) (src : ErrSource) (addr : BitVec 48) (pa : Nat) :
    exec (.errorDetected who src addr pa) s =
      .next (s.chargeAll (boltId (claimMark who.lcore who.part) x.bolt.work.num) ⟨src, addr, pa⟩) := by
  have hcurrent : s.currentBolt who = some (boltId (claimMark who.lcore who.part) x.bolt.work.num) := by
    rw [State.currentBolt, if_pos hpart, hx, Option.map_some, hentering]
    rfl
  have hdetect : s.detect who src addr pa = (s.currentBolt who).elim s fun id => s.chargeAll id ⟨src, addr, pa⟩ :=
    if_pos (by omega)
  exact congrArg Host.Outcome.next (hdetect.trans (by rw [hcurrent]; rfl))

theorem execErrorDetected_of_interrupted {s : State} {who : TaskRef} {x : Task} {w : BoltWork} (hlow : 34 ≤ who.part)
    (hhigh : who.part < 50) (hx : s.taskAt ⟨who.lcore, who.part - 34⟩ = some x) (hw : x.bolt.outer = some w) (src : ErrSource)
    (addr : BitVec 48) (pa : Nat) : exec (.errorDetected who src addr pa) s =
      .next (s.chargeAll (boltId (claimMark who.lcore (who.part - 34)) w.num) ⟨src, addr, pa⟩) := by
  have hinterrupted : s.interruptedBolt ⟨who.lcore, who.part - 34⟩ = some (boltId (claimMark who.lcore (who.part - 34)) w.num) := by
    rw [State.interruptedBolt, hx, Option.bind_some, hw]
    rfl
  have hdetect : s.detect who src addr pa =
      (s.interruptedBolt ⟨who.lcore, who.part - 34⟩).elim s fun id => s.chargeAll id ⟨src, addr, pa⟩ :=
    (if_neg (by omega)).trans ((if_neg (by omega)).trans (if_pos hhigh))
  exact congrArg Host.Outcome.next (hdetect.trans (by rw [hinterrupted]; rfl))

theorem Task.chargeAt_of_not_entering {t : Task} {now : Nat} (h : t.entering now = false) (num : Nat) (c : Charge) :
    t.chargeAt now num c = t.charge num c := by
  rw [Task.chargeAt, h]
  rfl

theorem Task.charge_current {t : Task} (h : t.bolt.charged = none) (c : Charge) :
    (t.charge t.bolt.work.num c).bolt.charged = some c := by
  simp [Task.charge, h]

theorem Task.charge_interrupted {t : Task} {w : BoltWork} (hw : t.bolt.outer = some w) (hne : w.num ≠ t.bolt.work.num)
    (h : t.bolt.outCharged = none) (c : Charge) : (t.charge w.num c).bolt.outCharged = some c := by
  simp [Task.charge, h, hw, hne.symm]

/-! ### Chains (R252) -/

theorem State.chain_setChain {s : State} {d ch : Nat} (h : ch < (s.die d).chains.length) (c : Chain) :
    (s.setChain d ch c).chain d ch = c := by
  rw [State.setChain, State.chain, die_setDie, if_pos rfl]
  exact getD_set_self h c _

/-- What a change of the values of a table leaves of them. -/
theorem sget_map_keeps {α β : Type} {g : α → β} {f : Nat → α → α} (hf : ∀ k x, g (f k x) = g x) (d : Nat → α) (l : Sparse α)
    (k : Nat) : g (sget d (l.map fun x => (x.1, f x.1 x.2)) k) = g (sget d l k) := by
  induction l with
  | nil => rfl
  | cons x l ih =>
    rw [List.map_cons, sget, sget]
    by_cases hk : k = x.1
    · rw [if_pos hk, if_pos hk, hf]
    · rw [if_neg hk, if_neg hk, ih]

/-- Visible bytes count in the gauges of the dies, and leave their chains (R349). -/
theorem State.show_chains (s : State) (cells : List Host.Cell) (d : Nat) : ((s.show cells).die d).chains = (s.die d).chains := by
  have hold : (s.keepOldCode cells).dies = s.dies := by unfold State.keepOldCode; split <;> rfl
  have hfill : ∀ (gs : List (Nat × Nat)) (u : State), (u.fillGranules gs).dies = u.dies := fun gs => by
    induction gs with
    | nil => exact fun _ => rfl
    | cons g gs ih => exact fun u => (ih _).trans rfl
  have htouch (u : State) (ks : List Nat) : (u.touch ks).dies = u.dies := foldl_keeps State.dies _ _ u fun _ _ => rfl
  have hcount (u : State) (ks : List Nat) : ((u.countGauges ks).die d).chains = (u.die d).chains :=
    sget_map_keeps (g := Die.chains) (f := fun i x => { x with gauges := x.gauges.map fun (j, b) =>
      (j, if gaugeArmed b then gaugeCount b (ctlGaugeBytes b ks) else b) }) (fun _ _ => rfl) _ u.dies d
  have hdie {u v : State} (h : u.dies = v.dies) : u.die d = v.die d := by rw [State.die, State.die, h]
  unfold State.show
  dsimp only
  rw [hdie (htouch _ _)]
  refine (hcount _ _).trans (congrArg Die.chains (hdie ((hfill _ _).trans hold)))

/-- The status that a failed descriptor gets, where the walking core may write it (R250, R328). -/
def State.writeStatus (s : State) (c : Chain) (outlen code : Nat) : State :=
  match s.chainStatus c with
  | some k => s.show (cellsAt (k + 0x28) (bytesOfNat 5 (code * 2 ^ 32 + outlen % 2 ^ 32)))
  | none => s

theorem State.writeStatus_chains (s : State) (c : Chain) (outlen code d : Nat) :
    ((s.writeStatus c outlen code).die d).chains = (s.die d).chains := by
  unfold State.writeStatus
  split
  · exact s.show_chains _ d
  · rfl

theorem State.failDesc_eq (s : State) (d ch outlen code : Nat) : s.failDesc d ch outlen code =
    ((s.writeStatus (s.chain d ch) outlen code).setChain d ch
      ({ (s.writeStatus (s.chain d ch) outlen code).chain d ch with code }.resume 2)).post 0 0x04 (16 * d + ch)
        (s.chain d ch).cur.toNat code := rfl

/-- A chain whose descriptor fails has its code, and stops unless a head is pending (R250, R252). -/
theorem State.failDesc_chain {s : State} {d ch : Nat} (h : ch < (s.die d).chains.length) (outlen code : Nat) :
    (s.failDesc d ch outlen code).chain d ch = { s.chain d ch with code }.resume 2 := by
  have hchains := s.writeStatus_chains (s.chain d ch) outlen code d
  have hchain : (s.writeStatus (s.chain d ch) outlen code).chain d ch = s.chain d ch := by rw [State.chain, hchains]; rfl
  rw [State.failDesc_eq, hchain]
  exact State.chain_setChain (by rw [hchains]; exact h) _

section
variable {s : State} {who : TaskRef} {x : SkCmd} (hlow : 18 ≤ who.part) (hhigh : who.part < 34)
  (hstate : (s.chain (who.lcore / 96) (who.part - 18)).state = 1)
  (hcmd : (s.chain (who.lcore / 96) (who.part - 18)).cmd = some x)
include hlow hhigh hstate hcmd

/-- A staging error in a chain's data (R252). -/
theorem execErrorDetected_of_chain (addr : BitVec 48) (pa : Nat) : exec (.errorDetected who .core addr pa) s =
    let d := who.lcore / 96
    let ch := who.part - 18
    let c := s.chain d ch
    .next (if 3 ≤ c.tries ∨ s.chainOverlaps c x then s.failDesc d ch c.out 5
      else s.setChain d ch { c with
        tries := c.tries + 1, reps := Nat.min (c.reps + 1) 65535, out := 0
        cmd := some { x with pos := 0, done := false, since := s.dcc } }) := by
  have hdetect : s.detect who .core addr pa = s.chainError (who.lcore / 96) (who.part - 18) .core false pa :=
    (if_neg (by omega)).trans (if_pos hhigh)
  refine congrArg Host.Outcome.next (hdetect.trans ?_)
  simp only [State.chainError, hstate, if_true, hcmd]
  rfl

end

theorem Chain.resume_of_none {c : Chain} (h : c.pend = none) (state : Nat) :
    c.resume state = { c with state, tries := 0, cmd := none, out := 0 } := by
  rw [Chain.resume, h]

/-! ### The replay of a bolt (R188, R189) -/

theorem State.returnPopped_task (s : State) (w : BoltWork) : ∃ eng, (s.returnPopped w).task = { s.task with eng } := by
  refine List.foldlRecOn (motive := fun t : State => ∃ eng, t.task = { s.task with eng }) _ _ ⟨s.task.eng, rfl⟩ fun t ht e _ => ?_
  obtain ⟨eng, heng⟩ := ht
  dsimp only
  split
  · exact ⟨eng, heng⟩
  · unfold State.setElements
    split
    · exact ⟨_, by rw [State.setEng_task, heng]⟩
    · exact ⟨eng, heng⟩

theorem State.reopen_task (s : State) (o : Option OwnBolt) : ∃ stand lease rmwNo,
    (s.reopen o).task = { s.task with stand, lease, bolt := { s.task.bolt with rmwNo } } := by
  cases o with
  | none => exact ⟨_, _, _, rfl⟩
  | some o =>
    unfold State.reopen
    dsimp only
    split <;> exact ⟨_, _, _, rfl⟩

theorem State.restoreNest_task (s : State) (b : BoltSnap) : (s.restoreNest b).task = s.task := by
  unfold State.restoreNest
  split <;> rfl

/-- What a replay discards and takes back, before its task begins the bolt again: the work of the bolt, the elements it popped, its
commands, the position of the loop and the number of its own operation (R189). -/
def State.undone (s : State) : State :=
  let w := s.task.bolt.work
  ((((s.discardWork w).returnPopped w).cancel s.task.id.lcore (ofBolt s.task.id.part w.num)).restoreNest
    (s.task.bolt.own.elim s.task.bolt.snap (·.snap))).reopen s.task.bolt.own

theorem State.undone_task (s : State) : ∃ eng stand lease rmwNo,
    s.undone.task = { s.task with eng, stand, lease, bolt := { s.task.bolt with rmwNo } } := by
  obtain ⟨eng, hpopped⟩ := (s.discardWork s.task.bolt.work).returnPopped_task s.task.bolt.work
  obtain ⟨stand, lease, rmwNo, hreopen⟩ := State.reopen_task
    ((((s.discardWork s.task.bolt.work).returnPopped s.task.bolt.work).cancel s.task.id.lcore
      (ofBolt s.task.id.part s.task.bolt.work.num)).restoreNest (s.task.bolt.own.elim s.task.bolt.snap (·.snap))) s.task.bolt.own
  refine ⟨eng, stand, lease, rmwNo, hreopen.trans ?_⟩
  rw [State.restoreNest_task, task_of_aside (State.cancel_aside _ _ _), hpopped, task_of_aside (State.discardWork_aside _ _)]

section
variable {γ : Type} {ρ : Core → γ}

theorem State.returnPopped_core (h : ∀ c boxes, ρ { c with boxes } = ρ c) (s : State) (w : BoltWork) (l : Nat) :
    ρ ((s.returnPopped w).core l) = ρ (s.core l) := by
  refine foldl_keeps (fun t : State => ρ (t.core l)) _ _ s fun t e => ?_
  dsimp only
  split
  · rfl
  · unfold State.setElements
    split
    · rfl
    · exact State.setCore_keeps (h _ _) l

theorem State.restoreNest_core (h : ∀ c nests, ρ { c with nests } = ρ c) (s : State) (b : BoltSnap) (l : Nat) :
    ρ ((s.restoreNest b).core l) = ρ (s.core l) := by
  unfold State.restoreNest
  split
  · exact State.setCore_keeps (h _ _) l
  · rfl

end

theorem State.reopen_cores (s : State) (o : Option OwnBolt) : (s.reopen o).cores = s.cores := by
  unfold State.reopen
  split
  · rfl
  · split <;> rfl

/-- The commands of the bolt are gone from its core (R188). -/
theorem State.undone_without (s : State) : (s.undone.core s.task.id.lcore).Without (ofBolt s.task.id.part s.task.bolt.work.num) := by
  rw [State.undone, State.core_of_cores (State.reopen_cores _ _)]
  exact (State.without_of_cancel _ _ _).of_orders (State.restoreNest_core (ρ := fun c => (c.mq, c.run, c.sq)) (fun _ _ => rfl) _ _ _)

/-- The full bits and the claims of a core (R186, R258). -/
def Core.marks (c : Core) : Sparse Bool × Sparse Nat := (c.full, c.claims)

theorem State.undone_marks (s : State) (l : Nat) : (s.undone.core l).marks = ((s.discardWork s.task.bolt.work).core l).marks := by
  have hcancel (u : State) (who : Issuer → Bool) : ((u.cancel s.task.id.lcore who).core l).marks = (u.core l).marks := by
    refine (State.cancel_core (ρ := Core.marks) (fun _ _ _ _ => rfl) _ _ _ _).trans (State.setCore_keeps ?_ l)
    obtain ⟨lends, h⟩ := (u.core s.task.id.lcore).cancel_eq u.dcc who
    rw [h]
    rfl
  rw [State.undone, State.core_of_cores (State.reopen_cores _ _), State.restoreNest_core (ρ := Core.marks) fun _ _ => rfl, hcancel,
    State.returnPopped_core (ρ := Core.marks) fun _ _ => rfl]

/-- The granules that the bolt had claimed are full again (R186, R189). -/
theorem State.undone_claims {s : State} {k l off : Nat} (hk : k ∈ s.task.bolt.work.claims) (hpad : corePadOf k = some (l, off)) :
    s.undone.resolvedAt true l (off / 16) := by
  have hdiscard : (s.discardWork s.task.bolt.work).resolvedAt true l (off / 16) := by
    have hresolved := State.resolvedAt_resolveClaims _ (s := s.setCore (s.myCore.dropPushes s.task.bolt.work.hold)) (full := true)
      (.inr ⟨k, hk, off, hpad, rfl⟩)
    rw [State.resolvedAt] at hresolved ⊢
    rwa [State.core_of_cores (show (s.discardWork s.task.bolt.work).cores = _ from State.onHelpers_cores _ _ _)]
  have hsame := s.undone_marks l
  simp only [Core.marks, Prod.mk.injEq] at hsame
  obtain ⟨hfull, hclaims⟩ := hsame
  rw [State.resolvedAt, Core.claim, Core.isFull] at hdiscard ⊢
  rwa [hfull, hclaims]

/-- The task of a bolt that begins again (R188, R189). -/
def Task.again (u t : Task) (pc : Nat) : Task :=
  let w := t.bolt.work
  let snap := t.bolt.own.elim t.bolt.snap (·.snap)
  { u with
    eng := { u.eng.dropBolt w.num with fq := snap.fq, marks := 0 }
    regs := u.regs.close
    flow := { u.flow with
      pc, nextPc := pc, wait := none, fate := .retired, rep := none, repix := 0, safe := false, redo := true
      loop := snap.loop, stage := snap.stage, iter := snap.iter
      clk := t.regs.closedAt t.flow.clk }
    bolt := { u.bolt with
      holdb := if t.bolt.handler then t.bolt.shadow.elim 0 (·.2.2) else 0
      work := { BoltWork.fresh w.num with replayed := true, pushed := w.pushed && t.bolt.own.isSome }
      returned := w.reserved ++ t.bolt.returned
      boltpc := pc, snap
      retry := t.bolt.retry + 1
      replays := t.bolt.replays + 1
      charged := none, own := none } }

/-- The rest of a replay, once the bolt is undone: the flow stands at its first bundle again. -/
def State.startAgain (v : State) (t : Task) (pc : Nat) : State :=
  let w := t.bolt.work
  let snap := t.bolt.own.elim t.bolt.snap (·.snap)
  let s4 := v.setEng { v.task.eng.dropBolt w.num with fq := snap.fq, marks := 0 }
  let s5 := s4.setRegs s4.task.regs.close
  let s6 := s5.setFlow { s5.task.flow with
    pc, nextPc := pc, wait := none, fate := .retired, rep := none, repix := 0, safe := false, redo := true
    loop := snap.loop, stage := snap.stage, iter := snap.iter
    clk := t.regs.closedAt t.flow.clk }
  s6.setBolt { s6.task.bolt with
    holdb := if t.bolt.handler then t.bolt.shadow.elim 0 (·.2.2) else 0
    work := { BoltWork.fresh w.num with replayed := true, pushed := w.pushed && t.bolt.own.isSome }
    returned := w.reserved ++ t.bolt.returned
    boltpc := pc, snap
    retry := t.bolt.retry + 1
    replays := t.bolt.replays + 1
    charged := none, own := none }

theorem State.startAgain_eq (v : State) (t : Task) (pc : Nat) : v.startAgain t pc = v.setTask (v.task.again t pc) := rfl

theorem State.replayNow_eq (s : State) : s.replayNow = s.undone.startAgain s.task s.replayPc := rfl

/-- The task after a replay: it stands at the first bundle of its bolt, which holds and claims nothing (R189). -/
theorem State.replayNow_task (s : State) : let t := s.replayNow
    let b := s.task.bolt
    t.task.flow.pc = s.replayPc ∧ t.task.bolt.boltpc = s.replayPc ∧ t.task.flow.wait = none ∧ t.task.flow.rep = none ∧
      t.task.bolt.retry = b.retry + 1 ∧ t.task.bolt.replays = b.replays + 1 ∧ t.task.bolt.charged = none ∧
      t.task.bolt.handler = b.handler ∧ t.task.bolt.work.hold = [] ∧ t.task.bolt.work.claims = [] ∧
      t.task.bolt.work.num = b.work.num ∧ t.task.regs = s.task.regs.close ∧ t.task.sys = s.task.sys ∧ t.task.id = s.task.id := by
  obtain ⟨eng, stand, lease, rmwNo, htask⟩ := s.undone_task
  have hagain : s.replayNow.task = s.undone.task.again s.task s.replayPc := by
    rw [State.replayNow_eq, State.startAgain_eq, State.setTask_task]
  dsimp only
  rw [hagain, htask]
  exact ⟨rfl, rfl, rfl, rfl, rfl, rfl, rfl, rfl, rfl, rfl, rfl, rfl, rfl, rfl⟩

theorem State.replayNow_core (s : State) (l : Nat) : s.replayNow.core l = s.undone.core l := by
  rw [State.replayNow_eq, State.startAgain_eq]
  rfl

theorem execBoltReplay_of_charged {s u : State} {c : Charge}
    (hu : s.findTask (fun t => t.task.bolt.charged.isSome) = some u) (hc : u.task.bolt.charged = some c) :
    exec .boltReplay s = .next (if u.replayNow.task.bolt.retry ≤ u.replayNow.task.sys.rlim.toNat then u.replayNow
      else u.replayNow.escalate c) := by
  have hreplay : u.replayCharged = if u.replayNow.task.bolt.retry ≤ u.replayNow.task.sys.rlim.toNat then u.replayNow
      else u.replayNow.escalate c := by rw [State.replayCharged, hc]
  exact congrArg Host.Outcome.next ((State.onFirst_of_some hu _).trans hreplay)

/-! ### Escalation of a memory error (R190, R192) -/

section
variable (cause source limit addr : Nat)

/-- The number that the syndrome of a hardware error encodes. -/
def hardNat : Nat := cause % 256 * 2 ^ 56 + source % 16 * 2 ^ 52 + limit % 16 * 2 ^ 48 + addr % 2 ^ 48

theorem hardNat_lt : hardNat cause source limit addr < 2 ^ 64 := by
  unfold hardNat; omega

theorem syndHard_cause : (syndHard cause source limit addr).extractLsb' 56 8 = BitVec.ofNat 8 cause := by
  refine (extract_ofNat (hardNat_lt cause source limit addr) (x := cause % 256) ?_).trans ?_
  · unfold hardNat; omega
  · exact BitVec.eq_of_toNat_eq (by simp)

theorem syndHard_source : (syndHard cause source limit addr).extractLsb' 52 4 = BitVec.ofNat 4 source := by
  refine (extract_ofNat (hardNat_lt cause source limit addr) (x := source % 16) ?_).trans ?_
  · unfold hardNat; omega
  · exact BitVec.eq_of_toNat_eq (by simp)

theorem syndHard_addr : (syndHard cause source limit addr).extractLsb' 0 48 = BitVec.ofNat 48 addr := by
  refine (extract_ofNat (hardNat_lt cause source limit addr) (x := addr % 2 ^ 48) ?_).trans ?_
  · unfold hardNat; omega
  · exact BitVec.eq_of_toNat_eq (by simp)

end

/-- A memory error that has no plot of the main memory escalates to the hardware-error trap (R190). -/
theorem State.escalate_memory {s : State} {c : Charge} (hsrc : c.src = .memory) (hpa : 2 ^ 38 ≤ c.pa) (hmay : s.mayTrap) :
    s.escalate c = s.enterHandler ⟨4, syndHard 1 2 s.task.sys.rlim.toNat c.addr.toNat, offWord s.task.bolt.boltpc⟩ := by
  have htrap : s.escalate c = s.trapHardware 1 2 c.addr.toNat := by
    rw [State.escalate, hsrc]
    dsimp only
    rw [if_neg (Nat.not_lt.2 hpa)]
  rw [htrap, State.trapHardware, takeTrap_of_mayTrap hmay]

theorem State.escalate_core {s : State} {c : Charge} (hsrc : c.src = .core) :
    s.escalate c = s.shedCore (s.hostOf s.task.id.lcore).1 (s.hostOf s.task.id.lcore).2 := by
  rw [State.escalate, hsrc]

/-- Settles O47: the charge of the bolt it names, the repetition or the failure of a chain's descriptor, and the replay with its
escalations. The partition numbers are the choice of log 20, and the replay at a barrier's ZSYNC is the reading of log 28. -/
theorem errorsReplayBolts : Obligations.ErrorsReplayBolts := by
  refine ⟨fun s who src addr pa x hpart hx hentering hnum hcharged => ?_,
    fun s who src addr pa x w hlow hhigh => ?_, fun s who addr pa x hlow hhigh => ?_,
    fun s => ⟨fun h => congrArg Host.Outcome.next (State.onFirst_of_none h _), fun u c hu hc => ?_⟩⟩
  · obtain ⟨⟨hsq, hmq, hrun⟩, y, hy, hkeeps, -⟩ := State.chargeAll_of_task (c := ⟨src, addr, pa⟩) hpart hnum hx
    rw [Task.chargeAt_of_not_entering hentering] at hkeeps
    refine ⟨_, execErrorDetected_of_task hpart hx hentering src addr pa, State.chargeAll_mem _ _ _, ?_,
      fun z hz => not_ofBolt (hsq z hz), fun z hz => not_ofBolt (hmq z hz), fun z hz => not_ofBolt (hrun z hz)⟩
    rw [hy, Option.map_some, hkeeps _ (Task.charge_current hcharged _)]
  · intro ref hx hw hentering hnum hne hcharged
    obtain ⟨⟨hsq, hmq, -⟩, y, hy, -, hkeeps⟩ := State.chargeAll_of_task (r := ref) (c := ⟨src, addr, pa⟩)
      (show who.part - 34 < 16 by omega) hnum hx
    rw [Task.chargeAt_of_not_entering hentering] at hkeeps
    refine ⟨_, execErrorDetected_of_interrupted hlow hhigh hx hw src addr pa, State.chargeAll_mem _ _ _, ?_,
      fun z hz => not_ofBolt (hsq z hz), fun z hz => not_ofBolt (hmq z hz)⟩
    rw [hy, Option.map_some, hkeeps _ (Task.charge_interrupted hw hne hcharged _)]
  · intro d ch c hch hstate hcmd again
    refine ⟨fun hagain => ?_, fun hagain hpend => ?_⟩
    · refine ⟨_, (execErrorDetected_of_chain hlow hhigh hstate hcmd addr pa).trans (congrArg Host.Outcome.next (if_neg ?_)),
        State.setChain_mem _ _ _ _, State.chain_setChain hch _⟩
      exact not_or.2 ⟨Nat.not_le.2 hagain.1, by rw [hagain.2]; exact Bool.false_ne_true⟩
    · have hchain := (State.failDesc_chain hch c.out 5).trans (Chain.resume_of_none (c := { c with code := 5 }) hpend 2)
      refine ⟨_, (execErrorDetected_of_chain hlow hhigh hstate hcmd addr pa).trans (congrArg Host.Outcome.next (if_pos ?_)),
        by rw [hchain], by rw [hchain], by rw [hchain], by rw [hchain]⟩
      by_contra hnot
      rw [not_or, Nat.not_le, Bool.not_eq_true] at hnot
      exact hagain hnot
  · intro b pc
    obtain ⟨hpc, hboltpc, hwait, hrep, hretry, hreplays, hnone, hhandler, hhold, hclaims, hnum, hregs, hsys, hid⟩ := u.replayNow_task
    have hexec := execBoltReplay_of_charged hu hc
    rw [hretry, hsys] at hexec
    have hkeeps : KeepsRegisters u u.replayNow := keepsRegisters_of_regs (by rw [hregs, TaskRegs.close_close])
    refine ⟨fun hlt => ⟨u.replayNow, hexec.trans (congrArg Host.Outcome.next (if_pos hlt)), hpc, hboltpc, hwait, hrep, hretry, hreplays, hnone,
        hhold, hclaims, hnum, by rw [hregs, TaskRegs.close_wins], hkeeps, hsys, hid, State.replayNow_mem u, fun k hk l o hpad => ?_,
        fun w hw => ?_⟩, fun hle hsrc hout hpa => ?_, fun hle hsrc => ?_⟩
    · rw [u.replayNow_core]
      exact (State.undone_claims hk hpad).symm
    · rw [u.replayNow_core] at hw
      exact not_ofBolt (u.undone_without.1 w hw)
    · have hescalate := State.escalate_memory (s := u.replayNow) hsrc hpa ⟨hnone, hhandler.trans hout⟩
      refine ⟨_, hexec.trans (congrArg Host.Outcome.next ((if_neg (Nat.not_le.2 (Nat.lt_succ_of_le hle))).trans hescalate)), rfl, ?_, rfl, ?_, syndHard_cause _ _ _ _,
        syndHard_source _ _ _ _, (syndHard_addr _ _ _ _).trans ((BitVec.ofNat_toNat _ _).trans (BitVec.setWidth_eq _)), State.replayNow_mem u, ?_⟩
      · exact congrArg (fun y : TaskSys => y.tvec.toNat) hsys
      · exact congrArg offWord hboltpc
      · exact keepsRegisters_of_regs ((TaskRegs.close_close _).trans (by rw [hregs, TaskRegs.close_close]))
    · rw [hexec, if_neg (Nat.not_le.2 (Nat.lt_succ_of_le hle)), State.escalate_core hsrc]

end Sys2Proof.Machine

/-! Operations whose effect a bolt holds, and what a held effect does when it is released (R182 to R184, R248, R251, R280, R316 to
R320, R332, R333, R373). -/

namespace Sys2Proof.Machine

/-! ### Fields of the other syndromes (R175, R357, R379) -/

/-- The field of a number that a word encodes, where the number writes the field as its remainder. -/
theorem extract_field {n lo w x : Nat} (hn : n < 2 ^ 64) (h : n / 2 ^ lo % 2 ^ w = x % 2 ^ w) :
    (BitVec.ofNat 64 n).extractLsb' lo w = BitVec.ofNat w x :=
  (extract_ofNat hn h).trans (BitVec.eq_of_toNat_eq (by simp))

section
variable (cause slot : Nat)

theorem syndObj_lt (obj : Nat) : cause % 256 * 2 ^ 56 + slot % 4 * 2 ^ 54 + obj % 2 ^ 48 < 2 ^ 64 := by omega

theorem syndObj_cause (obj : Nat) : (syndObj cause slot obj).extractLsb' 56 8 = BitVec.ofNat 8 cause :=
  extract_field (syndObj_lt cause slot obj) (by omega)

theorem syndObj_object (obj : Nat) : (syndObj cause slot obj).extractLsb' 0 48 = BitVec.ofNat 48 obj :=
  extract_field (syndObj_lt cause slot obj) (by omega)

theorem syndPower_cause (lvl melt ticks : Nat) : (syndPower cause slot lvl melt ticks).extractLsb' 56 8 = BitVec.ofNat 8 cause := by
  have h : Nat.min ticks (2 ^ 32 - 1) < 2 ^ 32 := Nat.lt_of_le_of_lt (Nat.min_le_right _ _) (by decide)
  exact extract_field (by omega) (by omega)

end

theorem syndMem_cause (e : MemFault) (slot acc : Nat) : (syndMem e slot acc).extractLsb' 56 8 = BitVec.ofNat 8 e.cause := by
  have h := e.addr.isLt
  exact extract_field (by omega) (by omega)

theorem syndMem_reason (e : MemFault) (slot acc : Nat) : (syndMem e slot acc).extractLsb' 48 4 = BitVec.ofNat 4 e.reason := by
  have h := e.addr.isLt
  exact extract_field (by omega) (by omega)

/-! ### Reads of an image change nothing but what the bolt has read (R353) -/

theorem State.noteReads_task (s : State) (ks : List Nat) : ∃ ids, (s.noteReads ks).task =
    { s.task with bolt := { s.task.bolt with work := { s.task.bolt.work with reads := ids } } } := by
  unfold State.noteReads
  dsimp only
  split
  · exact ⟨s.task.bolt.work.reads, s.touch_task ks⟩
  · rw [State.setWork, State.setBolt, s.touch_task]
    exact ⟨_, rfl⟩

/-- What a view of the state reads outside the selected task and the time of the last touch stays. -/
theorem State.noteReads_keeps {α : Type} {g : State → α} (hcore : ∀ (u : State) (l n : Nat), g (u.setCore { u.core l with touched := n }) = g u)
    (hwork : ∀ (u : State) (w : BoltWork), g (u.setWork w) = g u) (s : State) (ks : List Nat) : g (s.noteReads ks) = g s := by
  have htouch : g (s.touch ks) = g s := foldl_keeps g _ _ s fun u l => hcore u l _
  unfold State.noteReads
  dsimp only
  split
  · exact htouch
  · exact (hwork _ _).trans htouch

theorem State.noteReads_rest (s : State) (ks : List Nat) (l : Nat) : ((s.noteReads ks).core l).rest = (s.core l).rest :=
  State.noteReads_keeps (g := fun u => (u.core l).rest) (fun _ _ _ => State.setCore_keeps (ρ := Core.rest) rfl l)
    (fun _ _ => rfl) s ks

theorem State.noteReads_padImage (s : State) (ks : List Nat) : (s.noteReads ks).padImage = s.padImage :=
  State.noteReads_keeps (g := State.padImage) (fun _ _ _ => rfl) (fun _ _ => rfl) s ks

/-! ### Pads at rest (R233) -/

theorem sget_of_all {α : Type} {d : Nat → α} {p : α → Prop} (hd : ∀ k, p (d k)) {l : Sparse α} (h : ∀ x ∈ l, p x.2) (k : Nat) :
    p (sget d l k) := by
  induction l with
  | nil => exact hd k
  | cons x l ih =>
    unfold sget
    split
    · exact h x List.mem_cons_self
    · exact ih fun y hy => h y (List.mem_cons_of_mem _ hy)

/-- No pad of the keys is at rest. -/
theorem State.asleep_eq_none_iff {s : State} {ks : List Nat} :
    s.asleep ks = none ↔ ∀ k ∈ ks, ∀ l o, corePadOf k = some (l, o) → (s.core l).awake s.dcc = true := by
  unfold State.asleep
  split
  next h =>
    refine ⟨fun _ k _ l o _ => ?_, fun _ => rfl⟩
    exact sget_of_all (p := fun c : Core => c.awake s.dcc = true) (fun _ => rfl) (fun x hx => List.all_eq_true.1 h x hx) l
  next =>
    rw [List.find?_eq_none]
    refine ⟨fun h k hk l o hpad => ?_, fun h l hl => ?_⟩
    · have hmem : l ∈ ks.filterMap fun k => (corePadOf k).map (·.1) := List.mem_filterMap.2 ⟨k, hk, by rw [hpad]; rfl⟩
      simpa using h l hmem
    · obtain ⟨k, hk, hpad⟩ := List.mem_filterMap.1 hl
      obtain ⟨⟨j, o⟩, hpad', rfl⟩ := Option.map_eq_some_iff.1 hpad
      simp [h k hk j o hpad']

theorem State.noteReads_asleep {s : State} {ks : List Nat} (js : List Nat) (h : s.asleep ks = none) : (s.noteReads js).asleep ks = none := by
  have hdcc : (s.noteReads js).dcc = s.dcc := State.noteReads_keeps (g := State.dcc) (fun _ _ _ => rfl) (fun _ _ => rfl) s js
  refine State.asleep_eq_none_iff.2 fun k hk l o hpad => ?_
  rw [Core.awake, s.noteReads_rest js l, hdcc]
  exact State.asleep_eq_none_iff.1 h k hk l o hpad

/-! ### Images (R316) -/

theorem State.padImage_length {s : State} {ptr : W64} {n : Nat} {ks : List Nat} (h : s.padImage ptr n = .ok ks) : ks.length = n := by
  unfold State.padImage at h
  dsimp only at h
  split at h
  · cases h
  · split at h
    · cases h
    · split at h
      next => obtain rfl := Except.ok.inj h; rw [List.length_map, List.length_range]
      next => obtain rfl := Except.ok.inj h; rw [State.clusterKeys, List.length_map, List.length_range]
      next => obtain rfl := Except.ok.inj h; rw [List.length_map, List.length_range]
      next => cases h

theorem State.withImage_rests {s : State} {ptr : W64} {n l : Nat} {ks : List Nat} (h : s.padImage ptr n = .ok ks)
    (hrest : s.asleep ks = some l) (k : State → List Byte → State) : s.withImage ptr n k = s.waitFor (.pad l) := by
  simp only [State.withImage, h, hrest]

theorem State.withImage_reads {s : State} {ptr : W64} {n : Nat} {ks : List Nat} (h : s.padImage ptr n = .ok ks)
    (hawake : s.asleep ks = none) (k : State → List Byte → State) :
    s.withImage ptr n k = k (s.noteReads ks) (ks.map s.mem.read) := by
  simp only [State.withImage, h, hawake]

/-! ### What an operation does that holds its effect, or traps -/

section
variable (s : State) (f : Slot) (u : State) (i : Instr)

/-- An operation that goes enters the handler from `u`, where a trap may be taken: its class, CAUSE and what its syndrome says
(R165, R166). -/
def State.TrapsFrom (sclass cause : BitVec 8) (info : W64 → Prop) : Prop :=
  s.goes i f → s.mayTrap → ∃ t x, exec i s = .next t ∧ Trapped u t sclass x ∧ t.task.bolt.outer = some u.task.bolt.work ∧
    x.extractLsb' 56 8 = cause ∧ info x

/-- An operation that goes adds its effect to the hold, or traps when the hold would pass its limit (R182, R183). -/
def State.HoldsFrom (n : Nat) (item : HoldItem) : Prop :=
  (s.goes i f → s.task.bolt.holdb + n ≤ 65536 → exec i s = .next (u.setBolt { u.task.bolt with
    work := { u.task.bolt.work with hold := s.task.bolt.work.hold ++ [item] }, holdb := s.task.bolt.holdb + n })) ∧
  (65536 < s.task.bolt.holdb + n → s.TrapsFrom f u i 5 0x19 fun x => x.extractLsb' 0 32 = BitVec.ofNat 32 n)

end

section
variable {s : State} {f : Slot} {u : State} {i : Instr}

theorem State.trapsFrom_of_exec {sclass : Nat} {cause : BitVec 8} {info : W64 → Prop} {synd : W64}
    (hexec : s.goes i f → exec i s = .next (u.trap sclass synd)) (hmay : s.mayTrap → u.mayTrap)
    (hcause : synd.extractLsb' 56 8 = cause) (hinfo : info synd) : s.TrapsFrom f u i (BitVec.ofNat 8 sclass) cause info := by
  intro hgo htrap
  refine ⟨_, synd, hexec hgo, trapped_of_mayTrap (hmay htrap) sclass synd, ?_, hcause, hinfo⟩
  rw [State.trap, takeTrap_of_mayTrap (hmay htrap)]
  rfl

/-- The states from which an operation holds its effect: the bolt's hold and its charge are the issuing state's, and a trap that
the issuing state may take may still be taken. -/
def State.SameHold (s u : State) : Prop :=
  u.task.bolt.work.hold = s.task.bolt.work.hold ∧ u.task.bolt.holdb = s.task.bolt.holdb ∧ (s.mayTrap → u.mayTrap)

theorem State.sameHold_refl (s : State) : s.SameHold s := ⟨rfl, rfl, id⟩

theorem State.SameHold.noteReads (h : s.SameHold u) (ks : List Nat) : s.SameHold (u.noteReads ks) := by
  obtain ⟨ids, htask⟩ := u.noteReads_task ks
  obtain ⟨hhold, hbytes, hmay⟩ := h
  refine ⟨?_, ?_, fun htrap => ?_⟩
  · rw [htask]; exact hhold
  · rw [htask]; exact hbytes
  · rw [State.mayTrap, htask]; exact hmay htrap

theorem State.holdsFrom_of_exec {op n : Nat} {item : HoldItem} (hsame : s.SameHold u)
    (hexec : s.goes i f → exec i s = .next (u.holdOrTrap op n item)) : s.HoldsFrom f u i n item := by
  obtain ⟨hhold, hbytes, hmay⟩ := hsame
  refine ⟨fun hgo hroom => ?_, fun hfull => ?_⟩
  · have hover : u.overHold n = false := decide_eq_false (by rw [hbytes]; exact Nat.not_lt.2 hroom)
    rw [hexec hgo, State.holdOrTrap, if_neg (Bool.eq_false_iff.1 hover), State.hold, hhold, hbytes]
  · have hover : u.overHold n = true := decide_eq_true (by rw [hbytes]; exact hfull)
    refine State.trapsFrom_of_exec (sclass := 5) (synd := syndWord 0x19 u.slotNo op 0 n) (fun hgo => ?_) hmay
      (syndWord_cause ..) (syndWord_info ..)
    rw [hexec hgo, State.holdOrTrap, if_pos hover]
    rfl

end

/-! ### The operations -/

section
variable (s : State) (f : Slot)

/-- An operation that goes and whose effect is held at once. -/
theorem State.holds_of_guarded {i : Instr} {op n : Nat} {item : HoldItem} {effect : State} (hexec : exec i s = guarded i f s effect)
    (heffect : effect = s.holdOrTrap op n item) : s.HoldsFrom f s i n item :=
  State.holdsFrom_of_exec s.sameHold_refl fun hgo => hexec.trans ((guarded_goes hgo).trans (congrArg Host.Outcome.next heffect))

theorem State.traps_of_guarded {i : Instr} {sclass : Nat} {cause : BitVec 8} {info : W64 → Prop} {synd : W64} {effect : State}
    (hexec : exec i s = guarded i f s effect) (heffect : effect = s.trap sclass synd)
    (hcause : synd.extractLsb' 56 8 = cause) (hinfo : info synd) : s.TrapsFrom f s i (BitVec.ofNat 8 sclass) cause info :=
  State.trapsFrom_of_exec (fun hgo => hexec.trans ((guarded_goes hgo).trans (congrArg Host.Outcome.next heffect))) id hcause hinfo

variable {s} {f}

/-- An operation that reads one image. -/
theorem State.image_holds {i : Instr} {op n : Nat} {ptr : W64} {p : List Nat} {item : List Byte → HoldItem}
    (hexec : exec i s = guarded i f s (s.withImage ptr n fun t bs => t.holdOrTrap op n (item bs))) (hp : s.padImage ptr n = .ok p)
    (hawake : s.asleep p = none) : s.HoldsFrom f (s.noteReads p) i n (item (p.map s.mem.read)) :=
  State.holdsFrom_of_exec (s.sameHold_refl.noteReads p) fun hgo =>
    hexec.trans ((guarded_goes hgo).trans (congrArg Host.Outcome.next (State.withImage_reads hp hawake _)))

theorem State.image_rests {i : Instr} {n l : Nat} {ptr : W64} {p : List Nat} {k : State → List Byte → State}
    (hexec : exec i s = guarded i f s (s.withImage ptr n k)) (hp : s.padImage ptr n = .ok p) (hrest : s.asleep p = some l)
    (hgo : s.goes i f) : exec i s = .next (s.waitFor (.pad l)) :=
  hexec.trans ((guarded_goes hgo).trans (congrArg Host.Outcome.next (State.withImage_rests hp hrest _)))

/-- SPEC reads two images (R318). -/
theorem State.spec_holds {p q : List Nat} (hp : s.padImage (s.g f.a.toNat) 128 = .ok p) (hq : s.padImage (s.g f.b.toNat) 128 = .ok q)
    (hpawake : s.asleep p = none) (hqawake : s.asleep q = none) :
    s.HoldsFrom f ((s.noteReads p).noteReads q) (.spec f) 256
      (.spec (f.imm.toNat / 256 % 16) (f.imm.toNat % 64) (p.map s.mem.read) (q.map s.mem.read)) := by
  refine State.holdsFrom_of_exec (op := 0x321) ((s.sameHold_refl.noteReads p).noteReads q) fun hgo => ?_
  have hq' : (s.noteReads p).padImage (s.g f.b.toNat) 128 = .ok q := by rw [s.noteReads_padImage p, hq]
  refine (guarded_goes hgo).trans (congrArg Host.Outcome.next ((State.withImage_reads hp hpawake _).trans ?_))
  rw [State.withImage_reads hq' (State.noteReads_asleep p hqawake), State.noteReads_mem]

end


/-! ### The target word and the entry of a plot (R327, R332, R333) -/

theorem toNat_extract (x : W64) (lo n : Nat) : (x.extractLsb' lo n).toNat = x.toNat / 2 ^ lo % 2 ^ n := by
  rw [BitVec.extractLsb'_toNat, Nat.shiftRight_eq_div_pow]

theorem extract_eq_zero_iff (x : W64) (lo n : Nat) : x.extractLsb' lo n = 0 ↔ x.toNat / 2 ^ lo % 2 ^ n = 0 := by
  rw [← toNat_extract, ← BitVec.toNat_inj]
  simp

/-- The layout that a target word of PXFER keeps, field by field. -/
theorem targetOk_iff (w : W64) : targetOk w.toNat = true ↔ w.extractLsb' 11 53 = (0 : BitVec 53) ∧ (w.extractLsb' 8 3).toNat ≤ 2 ∧
    (w.extractLsb' 0 8).toNat ≤ 191 ∧ ((w.extractLsb' 8 3).toNat ≠ 1 → w.extractLsb' 0 8 = (0 : BitVec 8)) := by
  have h := w.isLt
  rw [targetOk, decide_eq_true_eq, extract_eq_zero_iff w 11 53, extract_eq_zero_iff w 0 8, toNat_extract, toNat_extract]
  omega

theorem target_state {w : W64} (h : w.extractLsb' 11 53 = (0 : BitVec 53)) : w.toNat / 256 = (w.extractLsb' 8 3).toNat := by
  have hw := w.isLt
  rw [extract_eq_zero_iff w 11 53] at h
  rw [toNat_extract]
  omega

theorem target_owner (w : W64) : w.toNat % 256 = (w.extractLsb' 0 8).toNat := by
  rw [toNat_extract, Nat.pow_zero, Nat.div_one]
  rfl

theorem State.entry_state (s : State) (p : Nat) : ((BitVec.ofNat 64 (s.plotEntry p)).extractLsb' 0 3).toNat = s.plotState p := by
  rw [toNat_extract, BitVec.toNat_ofNat, Nat.mod_eq_of_lt (s.plotEntry_lt p), Nat.pow_zero, Nat.div_one]
  rfl

theorem State.entry_owner (s : State) (p : Nat) : ((BitVec.ofNat 64 (s.plotEntry p)).extractLsb' 8 8).toNat = s.plotOwner p := by
  rw [toNat_extract, BitVec.toNat_ofNat, Nat.mod_eq_of_lt (s.plotEntry_lt p)]
  rfl

/-- The issuing task's core owns the plot. -/
theorem State.entry_mine_iff (s : State) (p l : Nat) :
    ((BitVec.ofNat 64 (s.plotEntry p)).extractLsb' 0 3 = (1 : BitVec 3) ∧ ((BitVec.ofNat 64 (s.plotEntry p)).extractLsb' 8 8).toNat = l) ↔
      s.plotState p = 1 ∧ s.plotOwner p = l := by
  rw [s.entry_owner, ← s.entry_state, ← BitVec.toNat_inj]
  rfl

section
variable {s : State} {f : Slot} {pa : Nat} (haddr : s.plotAddress (s.g f.a.toNat) = .ok pa)
include haddr

/-- What PXFER does with a plot that its address names. -/
theorem State.exec_pxfer : exec (.pxfer f) s = guarded (.pxfer f) f s
    (if targetOk (s.g f.b.toNat).toNat = false then s.trapMem ⟨9, 15, (s.g f.a.toNat).setWidth 48⟩ 3
     else if ¬(s.plotState (pa / 2 ^ 21) = 1 ∧ s.plotOwner (pa / 2 ^ 21) = s.task.id.lcore) then
       s.trapMem ⟨5, plotReason (s.plotState (pa / 2 ^ 21)), (s.g f.a.toNat).setWidth 48⟩ 3
     else s.holdOrTrap 0x328 16 (.pxfer (pa / 2 ^ 21) ((s.g f.b.toNat).toNat / 256) ((s.g f.b.toNat).toNat % 256))) := by
  change execPxfer f s = _
  simp only [execPxfer, haddr, Bool.not_eq_true', not_and_or, ne_eq]

end

/-! ### The operations' cases -/

section
variable (s : State) (f : Slot)

theorem State.opreq_cases :
    ((s.g f.a.toNat).toNat < 8 → s.HoldsFrom f s (.opreq f) 16 (.opreq (f.imm.toNat % 4) ((s.g f.a.toNat).setWidth 3))) ∧
    (8 ≤ (s.g f.a.toNat).toNat → s.TrapsFrom f s (.opreq f) 7 0x11 fun _ => True) :=
  ⟨fun h => s.holds_of_guarded (op := 0x332) f rfl (if_neg (Nat.not_le.2 h)),
    fun h => s.traps_of_guarded (sclass := 7) f rfl (if_pos h) (syndPower_cause ..) trivial⟩

theorem State.levels_cases :
    let z := s.task.stand
    let level := f.imm.toNat % 8
    let act := (pendingStand z s.task.bolt.work.hold).act
    (z.level ≠ 0 → level < act → s.HoldsFrom f s (.zenter f) 16 (.zenter level)) ∧
    (z.level ≠ 0 → act ≤ level → s.TrapsFrom f s (.zenter f) 6 0x12 fun x => x.extractLsb' 0 48 = BitVec.ofNat 48 level) ∧
    (z.level ≠ 0 → act ≠ z.level → s.HoldsFrom f s (.zleave f) 16 .zleave) ∧
    (z.level ≠ 0 → act = z.level → s.TrapsFrom f s (.zleave f) 6 0x12 fun _ => True) ∧
    (z.level = 0 → s.TrapsFrom f s (.zenter f) 6 0x11 (fun _ => True) ∧ s.TrapsFrom f s (.zleave f) 6 0x11 fun _ => True) := by
  intro z level act
  refine ⟨fun hz h => ?_, fun hz h => ?_, fun hz h => ?_, fun hz h => ?_, fun hz => ⟨?_, ?_⟩⟩
  · exact s.holds_of_guarded (op := 0x318) f rfl ((if_neg hz).trans (if_pos h))
  · exact s.traps_of_guarded (sclass := 6) f rfl ((if_neg hz).trans (if_neg (Nat.not_lt.2 h))) (syndObj_cause ..) (syndObj_object ..)
  · exact s.holds_of_guarded (op := 0x31B) f rfl ((if_neg hz).trans (if_pos h))
  · exact s.traps_of_guarded (sclass := 6) f rfl ((if_neg hz).trans (if_neg (not_not.2 h))) (syndObj_cause ..) trivial
  · exact s.traps_of_guarded (sclass := 6) f rfl (if_pos hz) (syndObj_cause ..) trivial
  · exact s.traps_of_guarded (sclass := 6) f rfl (if_pos hz) (syndObj_cause ..) trivial

theorem State.traps_mem_of_guarded {i : Instr} {effect : State} {e : MemFault} {acc : Nat} (hexec : exec i s = guarded i f s effect)
    (heffect : effect = s.trapMem e acc) :
    s.TrapsFrom f s i 1 (BitVec.ofNat 8 e.cause) fun x => x.extractLsb' 48 4 = BitVec.ofNat 4 e.reason :=
  s.traps_of_guarded (sclass := 1) f hexec heffect (syndMem_cause ..) (syndMem_reason ..)

theorem State.pxfer_cases {pa : Nat} (haddr : s.plotAddress (s.g f.a.toNat) = .ok pa) :
    let w := s.g f.b.toNat
    let e : W64 := BitVec.ofNat 64 (s.plotEntry (pa / 2 ^ 21))
    let nstate := (w.extractLsb' 8 3).toNat
    let fits := w.extractLsb' 11 53 = (0 : BitVec 53) ∧ nstate ≤ 2 ∧ (w.extractLsb' 0 8).toNat ≤ 191 ∧
      (nstate ≠ 1 → w.extractLsb' 0 8 = (0 : BitVec 8))
    let mine := e.extractLsb' 0 3 = (1 : BitVec 3) ∧ (e.extractLsb' 8 8).toNat = s.task.id.lcore
    (fits → mine → s.HoldsFrom f s (.pxfer f) 16 (.pxfer (pa / 2 ^ 21) nstate (w.extractLsb' 0 8).toNat)) ∧
    (¬fits → s.TrapsFrom f s (.pxfer f) 1 9 fun x => x.extractLsb' 48 4 = (15 : BitVec 4)) ∧
    (fits → ¬mine → s.TrapsFrom f s (.pxfer f) 1 5 fun x =>
      x.extractLsb' 48 4 = BitVec.ofNat 4 (plotReason (e.extractLsb' 0 3).toNat)) := by
  intro w e nstate fits mine
  have hfits : fits ↔ targetOk w.toNat = true := (targetOk_iff w).symm
  have hmine : mine ↔ s.plotState (pa / 2 ^ 21) = 1 ∧ s.plotOwner (pa / 2 ^ 21) = s.task.id.lcore := s.entry_mine_iff _ _
  have hexec := State.exec_pxfer haddr
  refine ⟨fun hf hm => ?_, fun hf => ?_, fun hf hm => ?_⟩
  · refine s.holds_of_guarded (op := 0x328) f hexec ?_
    rw [if_neg (by rw [hfits.1 hf]; decide), if_neg (not_not.2 (hmine.1 hm)), target_state hf.1, target_owner]
  · rw [if_pos (Bool.eq_false_iff.2 (mt hfits.2 hf))] at hexec
    exact s.traps_mem_of_guarded (e := ⟨9, 15, (s.g f.a.toNat).setWidth 48⟩) (acc := 3) f hexec rfl
  · rw [if_neg (Bool.eq_false_iff.not.2 (not_not.2 (hfits.1 hf))), if_pos (mt hmine.2 hm)] at hexec
    have hstate : (e.extractLsb' 0 3).toNat = s.plotState (pa / 2 ^ 21) := s.entry_state _
    rw [hstate]
    generalize s.plotState (pa / 2 ^ 21) = st at hexec
    exact s.traps_mem_of_guarded (e := ⟨5, plotReason st, (s.g f.a.toNat).setWidth 48⟩) (acc := 3) f hexec rfl

end


/-! ### What a released effect does -/

/-- Held bytes that become visible change what is still open to the releasing core (R333, log 26). -/
theorem State.showOpen_mem (s : State) (l fn : Nat) (cells : List Host.Cell) :
    (s.showOpen l fn cells).mem = s.mem.writeCells (cells.filter fun c => s.stillOpen l c.1) := by
  unfold State.showOpen
  dsimp only
  rw [show_mem, State.bus_mem, State.chargeKeys_mem]

/-- Only main memory has plots: a byte of a core pad stays open. -/
theorem State.stillOpen_of_corePad (s : State) (l : Nat) {k : Nat} {x : Nat × Nat} (h : corePadOf k = some x) : s.stillOpen l k = true := by
  have hk : 2 ^ 39 ≤ k := by
    unfold corePadOf at h
    split at h
    next hlo => exact Nat.le_trans (by decide) hlo.1
    next => cases h
  rw [State.stillOpen, decide_eq_true hk, Bool.true_or, Bool.true_or, Bool.true_or]

theorem mem_granulesOf {ks : List Nat} {k l o : Nat} (hk : k ∈ ks) (hpad : corePadOf k = some (l, o)) : (l, o / 16) ∈ granulesOf ks :=
  List.mem_dedup.2 (List.mem_filterMap.2 ⟨k, hk, by rw [hpad]; rfl⟩)

theorem State.fillGranules_isFull (gs : List (Nat × Nat)) (s : State) {l g : Nat} (h : (l, g) ∈ gs ∨ (s.core l).isFull g = true) :
    ((s.fillGranules gs).core l).isFull g = true := by
  induction gs generalizing s with
  | nil => exact h.resolve_left List.not_mem_nil
  | cons x gs ih =>
    refine ih _ ?_
    have hset : ((s.setCore ((s.core x.1).setFull x.2 true)).core l).isFull g =
        if l = x.1 ∧ g = x.2 then true else (s.core l).isFull g := by
      rw [core_setCore]
      by_cases hl : l = x.1
      · subst hl
        exact (congrArg (fun c : Core => c.isFull g) (if_pos rfl)).trans ((isFull_setFull _ x.2 g true).trans (by simp))
      · rw [if_neg (show ¬ l = ((s.core x.1).setFull x.2 true).lcore from hl), if_neg fun h => hl h.1]
    rw [hset]
    rcases h with hmem | hfull
    · rcases List.mem_cons.1 hmem with rfl | hmem
      · exact .inr (if_pos ⟨rfl, rfl⟩)
      · exact .inl hmem
    · exact .inr (by rw [hfull, ite_self])

/-- Every granule that visible bytes touch is full (R258). -/
theorem State.show_isFull (s : State) (cells : List Host.Cell) {k l o : Nat} (hk : k ∈ cells.map Prod.fst)
    (hpad : corePadOf k = some (l, o)) : ((s.show cells).core l).isFull (o / 16) = true := by
  rw [State.show, State.touch_isFull]
  exact State.fillGranules_isFull _ _ (.inl (mem_granulesOf hk hpad))

theorem State.showOpen_isFull (s : State) (lcore fn : Nat) {cells : List Host.Cell} {k l o : Nat} (hk : k ∈ cells.map Prod.fst)
    (hpad : corePadOf k = some (l, o)) : ((s.showOpen lcore fn cells).core l).isFull (o / 16) = true := by
  obtain ⟨c, hc, rfl⟩ := List.mem_map.1 hk
  exact State.show_isFull _ _ (List.mem_map.2 ⟨c, List.mem_filter.2 ⟨hc, s.stillOpen_of_corePad lcore hpad⟩, rfl⟩) hpad

/-- Stream bytes that a bolt holds arrive behind the others, and wait no longer (R153). -/
theorem State.release_push (s : State) (r : Releaser) {i : Nat} {bs : List Byte} (h : i < (s.core r.lcore).streams.length) :
    let x := (s.core r.lcore).stream i
    let y := ((s.releaseItem r (.push i bs)).core r.lcore).stream i
    y.bytes.map Prod.snd = x.bytes.map Prod.snd ++ bs ∧ y.pending = x.pending - bs.length ∧ y.reserved = x.reserved := by
  intro x y
  have hy : y = { x.append bs with pending := x.pending - bs.length } := by
    change ((s.setCore ((s.core r.lcore).setStream i { x.append bs with pending := x.pending - bs.length })).core r.lcore).stream i = _
    rw [core_setCore]
    exact (congrArg (fun c : Core => c.stream i) (if_pos rfl)).trans (getD_set_self h _ _)
  rw [hy]
  refine ⟨?_, rfl, rfl⟩
  change (x.bytes ++ bs.zipIdx.map fun b => (x.next + b.2, b.1)).map Prod.snd = _
  rw [List.map_append, List.map_map]
  exact congrArg (x.bytes.map Prod.snd ++ ·) (List.zipIdx_map_fst ..)

/-- The fields of a record that EVPOST posts (R313, R320). -/
theorem recordBody_fields {w1 w2 w3 kind : Nat} (hkind : kind < 2 ^ 8) :
    (recordBody kind w1 w2 w3).extractLsb' 56 8 = BitVec.ofNat 8 kind ∧
    (recordBody kind w1 w2 w3).extractLsb' 128 64 = BitVec.ofNat 64 w3 ∧
    (recordBody kind w1 w2 w3).extractLsb' 96 16 = BitVec.ofNat 16 (w2 / 2 ^ 32) := by
  refine ⟨?_, ?_, ?_⟩ <;>
  · apply BitVec.eq_of_toNat_eq
    rw [BitVec.extractLsb'_toNat, recordBody, BitVec.toNat_ofNat, Nat.shiftRight_eq_div_pow, BitVec.toNat_ofNat]
    omega

/-- A quantum of zero leaves the old one (R248). -/
theorem quantaOf_getD (old : List Nat) (q : W64) {i : Nat} (hi : i < 4) : (quantaOf old q).getD i 0 =
    if q.extractLsb' (16 * i) 16 = 0 then old.getD i 0 else 64 * (q.extractLsb' (16 * i) 16).toNat := by
  have hfield : (q.extractLsb' (16 * i) 16).toNat = bitsOf q.toNat (16 * i + 15) (16 * i) := by
    rw [toNat_extract, bitsOf]
    congr 2
    omega
  have hzero : (q.extractLsb' (16 * i) 16 = 0) ↔ bitsOf q.toNat (16 * i + 15) (16 * i) = 0 := by
    rw [← hfield, ← BitVec.toNat_inj]; rfl
  rw [hfield, quantaOf, List.getD_eq_getElem?_getD, List.getElem?_map, List.getElem?_range hi]
  simp only [hzero]
  rfl

theorem getD_modify_self {α : Type} {l : List α} {i : Nat} (h : i < l.length) (f : α → α) (d : α) :
    (l.modify i f).getD i d = f (l.getD i d) := by
  simp [h]

/-- A released head goes to its chain (R251). -/
theorem State.release_skchn (s : State) (r : Releaser) {ch : Nat} (head : W64) (cls : Nat)
    (h : ch < (s.die (r.lcore / 96)).chains.length) :
    (s.releaseItem r (.skchn ch head cls)).chain (r.lcore / 96) ch = (s.chain (r.lcore / 96) ch).head head cls r.lcore r.func := by
  change (State.setDie s _ _).chain _ _ = _
  rw [State.chain, die_setDie, if_pos rfl]
  exact getD_modify_self h _ _

theorem State.transferPlot_owned {s : State} {l plot st ow : Nat} (h : s.plotState plot = 1 ∧ s.plotOwner plot = l) (hst : st < 8)
    (how : ow < 256) : (s.transferPlot l plot st ow).plotState plot = st ∧ (s.transferPlot l plot st ow).plotOwner plot = ow := by
  rw [State.transferPlot, if_pos h, State.plotState_setPlot hst how, State.plotOwner_setPlot hst how, if_pos rfl, if_pos rfl]
  exact ⟨rfl, rfl⟩

theorem State.transferPlot_other {s : State} {l plot st ow : Nat} (h : ¬(s.plotState plot = 1 ∧ s.plotOwner plot = l)) :
    s.transferPlot l plot st ow = s := if_neg h

/-- A released point becomes the rail's request, and no byte changes (R373). -/
theorem State.release_opreq (s : State) (r : Releaser) {rail : Nat} (op : BitVec 3) (h : rail < s.pkg.rails.length) :
    ((s.releaseItem r (.opreq rail op)).pkg.rails.getD rail .reset).req = op ∧ (s.releaseItem r (.opreq rail op)).mem = s.mem := by
  constructor
  · change ((State.flagCapped _).pkg.rails.getD rail .reset).req = op
    rw [State.flagCapped_pkg]
    exact congrArg Rail.req (getD_modify_self h _ _)
  · change (State.flagCapped _).mem = s.mem
    unfold State.flagCapped
    split <;> rfl

/-! ### Levels (R280) -/

theorem TaskStand.enter_ent {z : TaskStand} {level : Nat} (h : 1 ≤ level) (h4 : level ≤ 4) :
    (z.enter level).ent.getLsbD (level - 1) = true := by
  change (z.ent ||| BitVec.twoPow 4 (level - 1)).getLsbD (level - 1) = true
  rw [getLsbD_or_twoPow z.ent (by omega), decide_eq_true rfl, Bool.or_true]

/-- The lowest level set, level by level. -/
theorem lowestLevel_spec : ∀ ent : BitVec 4, ent ≠ 0 → 1 ≤ lowestLevel ent ∧ ent.getLsbD (lowestLevel ent - 1) = true ∧
    ∀ k, k < lowestLevel ent - 1 → ent.getLsbD k = false := by decide

theorem TaskStand.leave_ent (z : TaskStand) : z.leave.ent.getLsbD (z.act - 1) = false := by
  change (z.ent &&& ~~~BitVec.twoPow 4 (z.act - 1)).getLsbD (z.act - 1) = false
  simp

/-- A change of the stand of the releasing task reaches that task. -/
theorem State.release_stand {s : State} {r : Releaser} {t : Task} (h : s.taskAt ⟨r.lcore, r.part⟩ = some t) (hof : r.of t = true)
    (g : TaskStand → TaskStand) :
    (s.onTask ⟨r.lcore, r.part⟩ fun t => if r.of t then { t with stand := g t.stand } else t).taskAt ⟨r.lcore, r.part⟩ =
      some { t with stand := g t.stand } := by
  have his : t.is ⟨r.lcore, r.part⟩ = true := List.find?_some (p := fun x : Task => x.is ⟨r.lcore, r.part⟩) h
  rw [taskAt_onTask s _ _ _ fun t => by split <;> rfl, h]
  simp [his, hof]

/-! ### The obligation -/

/-- Settles O38: each operation by what its issue answers, each held effect by what its release changes. Bytes whose plot has
become foreign are left out (log 26); LAUNCH, SPEC, DECIDE, EVPOST and CORD become events under the queue and sequence number of
the node that issued them (log 31). -/
theorem heldEffects : Obligations.HeldEffects := by
  unfold Obligations.HeldEffects
  refine ⟨?_, ?_⟩
  · intro s f bolt a imm z trapsFrom holdsFrom traps holds rests act
    refine ⟨s.holds_of_guarded (op := 0x30B) f rfl rfl, s.holds_of_guarded (op := 0x30C) f rfl rfl, ?_, ?_,
      s.holds_of_guarded (op := 0x322) f rfl rfl, s.holds_of_guarded (op := 0x323) f rfl rfl, ?_,
      (s.opreq_cases f).1, (s.opreq_cases f).2, (s.levels_cases f).1, (s.levels_cases f).2.1, (s.levels_cases f).2.2.1,
      (s.levels_cases f).2.2.2.1, (s.levels_cases f).2.2.2.2, fun pa haddr => s.pxfer_cases f haddr⟩
    · exact fun p hp => ⟨State.padImage_length hp, fun l hl hgo => State.image_rests rfl hp hl hgo,
        fun hawake => State.image_holds (op := 0x320) rfl hp hawake⟩
    · exact fun p q hp hq => ⟨fun l hl hgo => State.image_rests rfl hp hl hgo, fun hpa hqa => State.spec_holds hp hq hpa hqa⟩
    · exact fun b hb => ⟨fun l hl hgo => State.image_rests rfl hb hl hgo, fun hawake => State.image_holds (op := 0x324)
        (item := fun bs => .cord (f.imm.setWidth 16) (BitVec.ofNat 256 (natOfBytes bs))) rfl hb hawake⟩
  · intro s r rel event
    refine ⟨fun cells => ⟨rfl, s.showOpen_mem r.lcore r.func cells, fun k hk l o hpad => s.showOpen_isFull _ _ hk hpad⟩,
      fun i bs h => s.release_push r h, fun _ _ => rfl, fun _ _ _ _ => rfl, fun _ _ => rfl, fun _ _ => rfl, ?_, ?_, ?_, ?_,
      fun rail op h => s.release_opreq r op h, ?_, ?_⟩
    · intro code payload htile
      obtain ⟨hkind, hpayload, hcode⟩ := recordBody_fields (w1 := r.queue * 2 ^ 46 + r.slot * 2 ^ 32 + r.seq)
        (w2 := code.toNat * 2 ^ 32 + r.tile) (w3 := payload.toNat) (kind := 0x02) (by decide)
      refine ⟨_, rfl, hkind, hpayload.trans ((BitVec.ofNat_toNat ..).trans (BitVec.setWidth_eq _)), hcode.trans ?_⟩
      rw [show (code.toNat * 2 ^ 32 + r.tile) / 2 ^ 32 = code.toNat by omega]
      exact (BitVec.ofNat_toNat ..).trans (BitVec.setWidth_eq _)
    · intro q i hi
      change ((s.setCore { s.core r.lcore with quanta := quantaOf (s.core r.lcore).quanta q }).core r.lcore).quanta.getD i 0 = _
      rw [core_setCore]
      exact (congrArg (fun c : Core => c.quanta.getD i 0) (if_pos rfl)).trans (quantaOf_getD _ q hi)
    · intro ch head cls h c d
      have hd : d = c.head head cls r.lcore r.func := s.release_skchn r head cls h
      rw [hd, Chain.head]
      split
      · rfl
      · exact ⟨rfl, rfl, rfl, rfl, rfl, rfl, rfl⟩
    · exact fun plot st ow hst how => ⟨fun h => State.transferPlot_owned h hst how, State.transferPlot_other⟩
    · exact fun level t ht hof h1 h4 => ⟨_, State.release_stand ht hof fun z => z.enter level, rfl, TaskStand.enter_ent h1 h4⟩
    · exact fun t ht hof _ _ => ⟨_, State.release_stand ht hof TaskStand.leave, t.stand.leave_ent, lowestLevel_spec _⟩

end Sys2Proof.Machine

/-! Skidder commands: how they enter their queue, what their chunks move, and how they end (R184, R235, R238 to R247, R249). -/

namespace Sys2Proof.Machine

/-! ### Ranges at issue (R241) -/

theorem State.skRangeOk_iff {s : State} {p : W64} {k : Nat} : s.skRangeOk p k = true ↔ k = 0 ∨ ∃ x, s.place p k = .ok x := by
  unfold State.skRangeOk
  cases s.place p k <;> simp

theorem State.ownRange_iff {s : State} {p : W64} {k : Nat} :
    s.ownRange p k = true ↔ k = 0 ∨ ∃ l off, s.place p k = .ok (.corePad l off false) := by
  unfold State.ownRange
  cases s.place p k with
  | error e => simp
  | ok x => cases x <;> simp

/-- The bytes that a write is charged with, where it may reach beyond the own core pad (R184). -/
theorem charge_eq {own : Bool} {p : Prop} {charge k : Nat} (hown : own = true ↔ p) (h : p ∧ charge = 0 ∨ ¬p ∧ charge = k) :
    (if own = true then 0 else k) = charge := by
  rcases h with ⟨hp, rfl⟩ | ⟨hp, rfl⟩
  · exact if_pos (hown.2 hp)
  · exact if_neg (mt hown.1 hp)

/-! ### Entry (R238) -/

section
variable (s : State) (f : Slot) (u : State) (i : Instr)

/-- A skidder instruction enters its queue from `u`, charged with `charge` bytes, with a command that captures the operands; with 16
commands outstanding it stalls. -/
def State.EntersFrom (op path charge : Nat) (is : SkCmd → Prop) : Prop :=
  s.goes i f → s.task.bolt.holdb + charge ≤ 65536 → ∃ c : SkCmd, is c ∧ c.op = op ∧ c.path = path ∧
    c.cls = (f.qual.extractLsb' 0 2).toNat ∧
    c.who = ⟨s.task.id.part, s.task.bolt.work.num, s.task.eng.order, BitVec.ofNat 32 s.task.flow.off, s.dcc⟩ ∧ c.pos = 0 ∧
    c.done = false ∧ c.res = f.res ∧ c.con = f.con ∧ c.func = s.task.id.func ∧
    exec i s = .next (if (s.myCore.sq.filter fun x => x.who.part = s.task.id.part).length < 16
      then ((u.setCore { u.myCore with sq := s.myCore.sq ++ [c] }).setEng { s.task.eng with order := s.task.eng.order + 1 }).setBolt
        { u.task.bolt with holdb := s.task.bolt.holdb + charge }
      else u.waitFor .stall)

/-- The bolt's charge, the engine state and the skidder's queue are the issuing state's. -/
def State.SameQueue : Prop :=
  u.task.bolt.holdb = s.task.bolt.holdb ∧ u.task.eng = s.task.eng ∧ u.myCore.sq = s.myCore.sq

end

section
variable {s : State} {f : Slot} {u : State} {i : Instr}

theorem State.sameQueue_refl (s : State) : s.SameQueue s := ⟨rfl, rfl, rfl⟩

theorem State.sameQueue_noteReads (s : State) (ks : List Nat) : s.SameQueue (s.noteReads ks) := by
  obtain ⟨ids, htask⟩ := s.noteReads_task ks
  have hsq (l : Nat) : ((s.noteReads ks).core l).sq = (s.core l).sq :=
    State.noteReads_keeps (g := fun u => (u.core l).sq) (fun _ _ _ => State.setCore_keeps (ρ := Core.sq) rfl l)
      (fun _ _ => rfl) s ks
  refine ⟨by rw [htask], by rw [htask], ?_⟩
  rw [State.myCore, hsq, htask]
  rfl

theorem State.skEnqueue_of_room (hsame : s.SameQueue u) {c : SkCmd} {charge : Nat} (hroom : s.task.bolt.holdb + charge ≤ 65536) :
    u.skEnqueue c charge = if (s.myCore.sq.filter fun x => x.who.part = c.who.part).length < 16
      then ((u.setCore { u.myCore with sq := s.myCore.sq ++ [c] }).setEng { s.task.eng with order := s.task.eng.order + 1 }).setBolt
        { u.task.bolt with holdb := s.task.bolt.holdb + charge }
      else u.waitFor .stall := by
  obtain ⟨hbytes, heng, hsq⟩ := hsame
  have hover : u.overHold charge = false := decide_eq_false (by rw [hbytes]; exact Nat.not_lt.2 hroom)
  rw [State.skEnqueue, if_neg (Bool.eq_false_iff.1 hover), hsq, ← hbytes, ← heng]
  split
  next h => rw [if_neg (Nat.not_lt.2 h)]
  next h => rw [if_pos (Nat.not_le.1 h)]; rfl

/-- An instruction whose effect is the entry of a command, which captures what its kind says. -/
theorem State.entersFrom_of_exec {op path charge len : Nat} {kind : SkKind} {src dst : W64} {effect : State}
    (hsame : s.SameQueue u) (hexec : exec i s = guarded i f s effect)
    (heffect : ∃ sib, effect = u.skEnqueue { s.skCommand f op path kind src dst len with sib } charge) :
    s.EntersFrom f u i op path charge fun c => c.kind = kind ∧ c.src = src ∧ c.dst = dst ∧ c.len = len := by
  intro hgo hroom
  obtain ⟨sib, heffect⟩ := heffect
  refine ⟨{ s.skCommand f op path kind src dst len with sib }, ⟨rfl, rfl, rfl, rfl⟩, rfl, rfl, ?_, rfl, rfl, rfl, rfl, rfl, rfl, ?_⟩
  · exact (BitVec.extractLsb'_toNat ..).symm
  · rw [hexec, guarded_goes hgo, heffect, State.skEnqueue_of_room hsame hroom]
    rfl

/-- A trap for an operand of a skidder instruction: its CAUSE and its DETAIL (R232, R253). -/
def State.TrapsOperand (s : State) (f : Slot) (i : Instr) (detail : Nat) : Prop :=
  s.goes i f → s.mayTrap → ∃ t x, exec i s = .next t ∧ Trapped s t 3 x ∧
    x.extractLsb' 56 8 = (0x22 : BitVec 8) ∧ x.extractLsb' 32 10 = BitVec.ofNat 10 detail

theorem syndEngine_cause (cause slot op tile detail cpos : Nat) :
    (syndEngine cause slot op tile detail cpos).extractLsb' 56 8 = BitVec.ofNat 8 cause :=
  extract_field (by omega) (by omega)

theorem syndEngine_detail (cause slot op tile detail cpos : Nat) :
    (syndEngine cause slot op tile detail cpos).extractLsb' 32 10 = BitVec.ofNat 10 detail :=
  extract_field (by omega) (by omega)

theorem State.trapsOperand_of_exec {op detail : Nat} {effect : State} (hexec : exec i s = guarded i f s effect)
    (heffect : effect = s.trapSk op detail) : s.TrapsOperand f i detail := by
  intro hgo hmay
  refine ⟨_, syndEngine 0x22 1 op 0 detail s.task.flow.off, ?_, trapped_of_mayTrap hmay 3 _, syndEngine_cause .., syndEngine_detail ..⟩
  rw [hexec, guarded_goes hgo, heffect]
  rfl

end

/-! ### SKMOV, TMOV and FEOP (R244, R246, R247) -/

theorem not_bnot {x : Bool} (h : x = true) : ¬(!x) = true := by simp [h]

theorem bnot_of_not {x : Bool} (h : ¬x = true) : (!x) = true := by simpa using h

section
variable (s : State) (f : Slot)

/-- SKMOV of a row of bytes. -/
theorem State.skmov_cases :
    let a := s.g f.a.toNat
    let b := s.g f.b.toNat
    let n := (s.g f.c.toNat).toNat
    (∀ charge, n < 2 ^ 32 → s.skRangeOk a n = true → s.skRangeOk b n = true → (if s.ownRange a n = true then 0 else n) = charge →
      s.EntersFrom f s (.skmov f) 0x308 1 charge fun c => c.kind = .mov ∧ c.src = b ∧ c.dst = a ∧ c.len = n) ∧
    (2 ^ 32 ≤ n → s.TrapsOperand f (.skmov f) 3) ∧ (n < 2 ^ 32 → ¬s.skRangeOk a n = true → s.TrapsOperand f (.skmov f) 1) ∧
    (n < 2 ^ 32 → s.skRangeOk a n = true → ¬s.skRangeOk b n = true → s.TrapsOperand f (.skmov f) 2) := by
  intro a b n
  refine ⟨fun charge hn ha hb hc => ?_, fun hn => ?_, fun hn ha => ?_, fun hn ha hb => ?_⟩
  · refine State.entersFrom_of_exec s.sameQueue_refl (effect := s.moveBytes f) rfl ⟨s.sibRange a n || s.sibRange b n, ?_⟩
    rw [State.moveBytes, if_neg (Nat.not_le.2 hn), if_neg (not_bnot ha), if_neg (not_bnot hb), hc]
  · exact State.trapsOperand_of_exec (op := 0x308) (effect := s.moveBytes f) rfl (if_pos hn)
  · refine State.trapsOperand_of_exec (op := 0x308) (effect := s.moveBytes f) rfl ?_
    rw [State.moveBytes, if_neg (Nat.not_le.2 hn), if_pos (bnot_of_not ha)]
  · refine State.trapsOperand_of_exec (op := 0x308) (effect := s.moveBytes f) rfl ?_
    rw [State.moveBytes, if_neg (Nat.not_le.2 hn), if_neg (not_bnot ha), if_pos (bnot_of_not hb)]

theorem State.tmov_enters {charge : Nat} :
    let a := s.g f.a.toNat
    let b := s.g f.b.toNat
    let n := (s.g f.c.toNat).toNat
    n % 16 = 0 → n ≤ 2 ^ 21 → b.toNat % 16 = 0 → s.ownRange b n = true → s.skRangeOk a n = true →
    (if s.ownRange a n = true then 0 else n) = charge →
      s.EntersFrom f s (.tmov f) 0x30D 1 charge fun c => c.kind = .tmov ∧ c.src = b ∧ c.dst = a ∧ c.len = n := by
  intro a b n h16 hn hb hown ha hc
  refine State.entersFrom_of_exec s.sameQueue_refl (effect := s.moveTokens f) rfl ⟨s.sibRange a n, ?_⟩
  rw [State.moveTokens, if_neg (not_or.2 ⟨not_not.2 h16, Nat.not_lt.2 hn⟩), if_neg (not_or.2 ⟨not_not.2 hb, not_bnot hown⟩),
    if_neg (not_bnot ha), hc]

theorem State.feop_enters {i : Instr} {fop : Nat} (hexec : exec i s = guarded i f s (s.fullOp f fop)) :
    let a := s.g f.a.toNat
    let n := (s.g f.b.toNat).toNat
    a.toNat % 16 = 0 → n % 16 = 0 → n ≤ 2 ^ 21 → s.ownRange a n = true →
      s.EntersFrom f s i 0x310 1 0 fun c => c.kind = .feop fop ∧ c.src = a ∧ c.dst = a ∧ c.len = n := by
  intro a n ha h16 hn hown
  refine State.entersFrom_of_exec s.sameQueue_refl hexec ⟨false, ?_⟩
  rw [State.fullOp, if_neg (not_not.2 ha), if_neg (not_or.2 ⟨not_not.2 h16, Nat.not_lt.2 hn⟩), if_neg (not_bnot hown)]
  rfl

/-- SKMOV over a nest slot, which is captured as it stands. -/
theorem State.skmovNest_enters {charge : Nat} :
    let a := s.g f.a.toNat
    let b := s.g f.b.toNat
    let nest := s.myCore.nest f.c.toNat
    let run := f.imm.toNat % 2 ^ 24
    let total := nest.points * run
    let lo := fun (stream : Nat) => (nest.extent stream).1
    let span := fun (stream : Nat) => if total = 0 then 0 else ((nest.extent stream).2 - lo stream).toNat + run
    s.skRangeOk (a + BitVec.ofInt 64 (lo 1)) (span 1) = true → s.skRangeOk (b + BitVec.ofInt 64 (lo 0)) (span 0) = true →
    (if s.ownRange (a + BitVec.ofInt 64 (lo 1)) (span 1) = true then 0 else total) = charge →
      s.EntersFrom f s (.skmovNest f) 0x308 1 charge fun c => c.kind = .nest nest run ∧ c.src = b ∧ c.dst = a ∧ c.len = total := by
  intro a b nest run total lo span ha hb hc
  refine State.entersFrom_of_exec s.sameQueue_refl (effect := s.moveNest f) rfl
    ⟨s.sibRange (a + BitVec.ofInt 64 (lo 1)) (span 1) || s.sibRange (b + BitVec.ofInt 64 (lo 0)) (span 0), ?_⟩
  refine (if_neg (not_bnot ha)).trans ((if_neg (not_bnot hb)).trans ?_)
  exact congrArg (s.skEnqueue _) hc

end

/-! ### SKGAT and SKSCT (R245) -/

theorem rowsOf_map (a b : W64) (l : Nat) (scatter : Bool) (n : Nat) (ix : Nat → Nat) :
    rowsOf a b l scatter ((List.range n).map ix) = (List.range n).map fun j =>
      if scatter then (b + BitVec.ofNat 64 (j * l), a + BitVec.ofNat 64 (ix j * l))
      else (b + BitVec.ofNat 64 (ix j * l), a + BitVec.ofNat 64 (j * l)) := by
  unfold rowsOf
  rw [List.length_map, List.length_range]
  refine List.map_congr_left fun j hj => ?_
  rw [List.getD_eq_getElem?_getD, List.getElem?_map, List.getElem?_range (List.mem_range.1 hj)]
  rfl

/-- A gather or scatter whose rows run from `src j` to `dst j`: it enters with every row in a window, or traps with the first that
is not. -/
theorem State.moveRows_cases {s : State} {f : Slot} {i : Instr} {op : Nat} {scatter : Bool} {src dst : Nat → W64} {kind : SkKind}
    (hexec : exec i s = guarded i f s (s.moveRows f op scatter)) :
    let l := f.imm.toNat % 2 ^ 16 + 1
    let rows := f.q 8 4 + 1
    let idx := (List.range rows).map (elemBits 32 (s.v f.c.toNat))
    rowsOf (s.g f.a.toNat) (s.g f.b.toNat) l scatter idx = (List.range rows).map (fun j => (src j, dst j)) →
    (if scatter then SkKind.scatter idx l else SkKind.gather idx l) = kind →
    let fits := fun j => s.skRangeOk (src j) l = true ∧ s.skRangeOk (dst j) l = true
    (∀ charge, (∀ j, j < rows → fits j) →
      (if ((List.range rows).all fun j => s.ownRange (dst j) l) = true then 0 else rows * l) = charge →
      s.EntersFrom f s i op 2 charge fun c => c.kind = kind ∧ c.src = s.g f.b.toNat ∧ c.dst = s.g f.a.toNat ∧ c.len = rows * l) ∧
    ∀ j, j < rows → ¬fits j → (∀ k, k < j → fits k) → s.TrapsOperand f i (4 + j) := by
  intro l rows idx hrows hkind fits
  have hlen : idx.length = rows := by rw [List.length_map, List.length_range]
  refine ⟨fun charge hall hc => ?_, fun j hj hbad hbefore => ?_⟩
  · refine State.entersFrom_of_exec s.sameQueue_refl hexec ⟨(rowsOf (s.g f.a.toNat) (s.g f.b.toNat) l scatter idx).any fun r =>
      s.sibRange r.1 l || s.sibRange r.2 l, ?_⟩
    have hnone : (rowsOf (s.g f.a.toNat) (s.g f.b.toNat) l scatter idx).findIdx?
        (fun r => !(s.skRangeOk r.1 l && s.skRangeOk r.2 l)) = none := by
      rw [hrows, List.findIdx?_eq_none_iff]
      intro r hr
      obtain ⟨j, hj, rfl⟩ := List.mem_map.1 hr
      obtain ⟨hsrc, hdst⟩ := hall j (List.mem_range.1 hj)
      simp [hsrc, hdst]
    have hown : (rowsOf (s.g f.a.toNat) (s.g f.b.toNat) l scatter idx).all (fun r => s.ownRange r.2 l) =
        (List.range rows).all fun j => s.ownRange (dst j) l := by rw [hrows, List.all_map]; rfl
    unfold State.moveRows
    dsimp only
    split
    next k hk => exact absurd (hk.symm.trans hnone) nofun
    next =>
      rw [← hc, ← hown, ← hkind, ← hlen]
  · refine State.trapsOperand_of_exec (op := op) hexec ?_
    have hsome : (rowsOf (s.g f.a.toNat) (s.g f.b.toNat) l scatter idx).findIdx?
        (fun r => !(s.skRangeOk r.1 l && s.skRangeOk r.2 l)) = some j := by
      rw [hrows, List.findIdx?_eq_some_iff_getElem]
      refine ⟨by simpa using hj, by simpa [fits, -not_and, not_and_or] using hbad, fun k hk => ?_⟩
      obtain ⟨hsrc, hdst⟩ := hbefore k hk
      simp [hsrc, hdst]
    unfold State.moveRows
    dsimp only
    split
    next k hk => rw [Option.some.inj (hk.symm.trans hsome)]
    next hk => exact absurd (hk.symm.trans hsome) nofun

/-! ### ENQ of a move (R235, R249) -/

section
variable {s : State} {f : Slot} {key : Nat} (hkey : s.padRange true (s.g f.a.toNat) 64 64 = some key)
include hkey

theorem State.descKeys_of_padRange : s.descKeys (s.g f.a.toNat) = some ((List.range 64).map fun i => s.padKey (key + i)) := by
  rw [State.descKeys, hkey]
  rfl

theorem State.enqMove_rests {l : Nat} (hrest : s.asleep ((List.range 64).map fun i => s.padKey (key + i)) = some l)
    (hgo : s.goes (.enqMove f) f) : exec (.enqMove f) s = .next (s.waitFor (.pad l)) := by
  refine (guarded_goes (effect := s.enqueueMove f) hgo).trans (congrArg Host.Outcome.next ?_)
  simp only [State.enqueueMove, State.descKeys_of_padRange hkey, hrest]

theorem State.enqMove_enters {charge : Nat} :
    let ks := (List.range 64).map fun i => s.padKey (key + i)
    let d := moveDesc (ks.map s.mem.read)
    s.asleep ks = none → s.skRangeOk d.src d.len = true → s.skRangeOk d.dst d.room = true →
    (if s.ownRange d.dst d.room = true then 0 else d.room) = charge →
    s.EntersFrom f (s.noteReads ks) (.enqMove f) 0x300 1 charge fun c =>
      c.kind = d.kind s.task.id.detlvl ∧ c.src = d.src ∧ c.dst = d.dst ∧ c.len = d.len := by
  intro ks d hawake hsrc hdst hc
  refine State.entersFrom_of_exec (s.sameQueue_noteReads ks) (effect := s.enqueueMove f) rfl
    ⟨s.sibRange d.src d.len || s.sibRange d.dst d.room, ?_⟩
  rw [← hc]
  unfold State.enqueueMove
  rw [State.descKeys_of_padRange hkey]
  dsimp only
  rw [hawake]
  exact (if_neg (not_bnot hsrc)).trans (if_neg (not_bnot hdst))

end

theorem rowCount_eq (f : Slot) : f.q 8 4 + 1 = (f.qual.extractLsb' 4 5).toNat + 1 := by
  rw [BitVec.extractLsb'_toNat]
  rfl


/-! ### What the bookkeeping of a chunk leaves alone -/

/-- A view of the state that a chunk's charges, reads, claims and visible writes do not reach: it sees of a core neither its full
bits nor its claims, and of a bolt only its number and its hold. -/
structure ChunkBlind {β : Type} (π : State → β) : Prop where
  core : ∀ s l full claims touched, π (s.setCore { State.core s l with full, claims, touched }) = π s
  rest : ∀ (s : State) clusters dies outputs writers oldCode mem, π { s with clusters, dies, outputs, writers, oldCode, mem } = π s
  issuer : ∀ s l who (f : BoltWork → BoltWork), (∀ w, (f w).num = w.num ∧ (f w).hold = w.hold) → π (State.onIssuer s l who f) = π s

section
variable {β : Type} {π : State → β} (h : ChunkBlind π)
include h

theorem State.chargeKeys_chunk (s : State) (c : Nat) (ks : List Nat) : π (s.chargeKeys c ks) = π s := by
  unfold State.chargeKeys
  dsimp only
  split
  · rfl
  · exact h.rest s _ _ _ _ _ _

theorem State.bus_chunk (s : State) (fn : Nat) (write : Bool) (ks : List Nat) : π (s.bus fn write ks) = π s :=
  h.rest s _ _ _ _ _ _

theorem State.touch_chunk (s : State) (ks : List Nat) : π (s.touch ks) = π s := foldl_keeps π _ _ s fun u l => h.core u l _ _ _

theorem State.fillGranules_chunk (gs : List (Nat × Nat)) (s : State) : π (s.fillGranules gs) = π s := by
  induction gs generalizing s with
  | nil => rfl
  | cons g gs ih => exact (ih _).trans (h.core s g.1 _ _ _)

theorem State.show_chunk (s : State) (cells : List Host.Cell) : π (s.show cells) = π s := by
  have hold : π (s.keepOldCode cells) = π s := by
    unfold State.keepOldCode
    split
    · rfl
    · exact h.rest s _ _ _ _ _ _
  refine (State.touch_chunk h _ _).trans ((h.rest _ _ _ _ _ _ _).trans ((h.rest _ _ _ _ _ _ _).trans ?_))
  exact (State.fillGranules_chunk h _ _).trans ((h.rest _ _ _ _ _ _ _).trans hold)

theorem State.showOf_chunk (s : State) (id : Nat) (cells : List Host.Cell) : π (s.showOf id cells) = π s :=
  (h.rest _ _ _ _ _ _ _).trans (State.show_chunk h s cells)

theorem State.skReads_chunk (s : State) (l : Nat) (c : SkCmd) (ks : List Nat) : π (s.skReads l c ks) = π s := by
  have hread (ids : List Nat) : π (if ids.isEmpty then s.touch ks else (s.touch ks).onIssuer l c.who (·.sawWriters ids)) = π s := by
    split
    · exact State.touch_chunk h s ks
    · exact (h.issuer _ l c.who (·.sawWriters ids) fun _ => ⟨rfl, rfl⟩).trans (State.touch_chunk h s ks)
  exact hread _

theorem State.skClaim_chunk (s : State) (l : Nat) (c : SkCmd) (ks : List Nat) : π (s.skClaim l c ks) = π s := by
  have hclaims (x : Core) : ∃ claims, ks.foldl (fun (x : Core) k => x.setClaim (k % 2 ^ 21 / 16) (c.mark l)) x = { x with claims } := by
    induction ks generalizing x with
    | nil => exact ⟨_, rfl⟩
    | cons k ks ih =>
      obtain ⟨claims, hx⟩ := ih (x.setClaim (k % 2 ^ 21 / 16) (c.mark l))
      exact ⟨claims, hx⟩
  obtain ⟨claims, hx⟩ := hclaims (s.core l)
  refine (h.issuer _ l c.who (fun w => { w with claims := w.claims ++ ks }) fun _ => ⟨rfl, rfl⟩).trans ?_
  rw [hx]
  exact h.core s l _ _ _

end

/-- A chunk writes its cells in a state whose bookkeeping alone has changed. -/
theorem State.skEffect_writes (s : State) (l : Nat) (c : SkCmd) (p : SkPlan) : ∃ v : State, s.skEffect l c p = v.skWrite l c p.cells ∧
    v.mem = s.mem ∧ ∀ {β : Type} (π : State → β), ChunkBlind π → π v = π s := by
  refine ⟨_, rfl, by simp, fun π h => ?_⟩
  refine (State.fillGranules_chunk h _ _).trans ((State.skClaim_chunk h _ l c _).trans ((State.skReads_chunk h _ l c _).trans ?_))
  exact (State.bus_chunk h _ _ _ _).trans (State.chargeKeys_chunk h s _ _)

/-! ### The two views: a skidder's queue, and what a task's bolt holds -/

theorem State.onIssuer_cores (s : State) (l : Nat) (who : Issuer) (f : BoltWork → BoltWork) : (s.onIssuer l who f).cores = s.cores := by
  unfold State.onIssuer
  dsimp only
  split
  · exact State.onTask_cores _ _ _
  · exact State.onHelper_cores _ _ _ _

theorem State.sq_chunkBlind (l : Nat) : ChunkBlind fun s => (State.core s l).sq where
  core _ _ _ _ _ := State.setCore_keeps (ρ := Core.sq) rfl l
  rest _ _ _ _ _ _ _ := rfl
  issuer s k who f _ := by rw [State.core_of_cores (s.onIssuer_cores k who f)]

/-- The number and the hold of the bolt of the task at a partition. -/
def State.holdAt (s : State) (r : TaskRef) : Option (Nat × List HoldItem) :=
  (s.taskAt r).map fun t => (t.bolt.work.num, t.bolt.work.hold)

/-- What a change of the issuing bolt makes of the hold at the issuing partition. -/
theorem State.holdAt_onIssuer (s : State) {l : Nat} {who : Issuer} (hpart : who.part < 16) (f : BoltWork → BoltWork) (r : TaskRef) :
    (s.onIssuer l who f).holdAt r = (s.taskAt r).map fun t =>
      let w := if t.is ⟨l, who.part⟩ = true ∧ t.bolt.work.num = who.bolt then f t.bolt.work else t.bolt.work
      (w.num, w.hold) := by
  unfold State.onIssuer State.holdAt
  dsimp only
  rw [if_pos hpart, taskAt_onTask, Option.map_map]
  case hf => exact fun _ => rfl
  congr 1
  funext t
  by_cases his : t.is ⟨l, who.part⟩ = true <;> by_cases hnum : t.bolt.work.num = who.bolt <;> simp [his, hnum]

theorem State.holdAt_chunkBlind (r : TaskRef) : ChunkBlind fun s => State.holdAt s r where
  core _ _ _ _ _ := rfl
  rest _ _ _ _ _ _ _ := rfl
  issuer s l who f hf := by
    by_cases hpart : who.part < 16
    · rw [State.holdAt_onIssuer s hpart]
      refine congrArg (fun g => (s.taskAt r).map g) (funext fun t => ?_)
      dsimp only
      split
      · rw [(hf _).1, (hf _).2]
      · rfl
    · unfold State.onIssuer
      dsimp only
      rw [if_neg hpart]
      have hwork := State.onHelper_work s l (who.part - 16) fun h =>
        { h with work := if h.work.num = who.bolt then f h.work else h.work }
      exact congrArg (fun w : Task × List Task × List Node => ((w.1 :: w.2.1).find? (·.is r)).map fun t =>
        (t.bolt.work.num, t.bolt.work.hold)) hwork

/-! ### Keys of a range (R241) -/

theorem State.skPages_length {s : State} {x : SkCtx} {write : Bool} {fuel va n : Nat} {ks : List Nat}
    (h : s.skPages x write fuel va n = (ks, none)) (hfuel : n ≤ fuel * 65536 - va % 65536) : ks.length = n := by
  induction fuel generalizing va n ks with
  | zero =>
    obtain rfl : [] = ks := congrArg Prod.fst h
    simp at hfuel
    exact hfuel.symm
  | succ fuel ih =>
    unfold State.skPages at h
    split at h
    next hn =>
      obtain rfl : [] = ks := congrArg Prod.fst h
      exact hn.symm
    next hn =>
      split at h
      · cases h
      next pa _ =>
        dsimp only at h
        generalize hrest : s.skPages x write fuel _ _ = p at h
        obtain ⟨ks', e⟩ := p
        cases h
        have hmin : Nat.min n (65536 - va % 65536) = min n (65536 - va % 65536) := rfl
        have hmod := Nat.mod_lt va (show 0 < 65536 by decide)
        rw [List.length_append, List.length_map, List.length_range, ih hrest (by rw [hmin]; omega), hmin]
        omega

/-- A range without a fault has a key for each byte. -/
theorem State.skKeys_length {s : State} {x : SkCtx} {write : Bool} {a : W64} {n : Nat} {ks : List Nat}
    (h : s.skKeys x write a n = (ks, none)) : ks.length = n := by
  unfold State.skKeys at h
  split at h
  next hn =>
    obtain rfl : [] = ks := congrArg Prod.fst h
    exact hn.symm
  next =>
    split at h
    · cases h
    · exact State.skPages_length h (by omega)
    all_goals cases h; simp [State.clusterKeys]

/-- The cores do not matter to where a range lies. -/
theorem State.skKeys_setCore (s : State) (c : Core) (x : SkCtx) (write : Bool) (a : W64) (n : Nat) :
    (s.setCore c).skKeys x write a n = s.skKeys x write a n := by
  have hpages : ∀ fuel va n, (s.setCore c).skPages x write fuel va n = s.skPages x write fuel va n := by
    intro fuel
    induction fuel with
    | zero => exact fun _ _ => rfl
    | succ fuel ih =>
      intro va n
      unfold State.skPages
      simp only [ih]
      rfl
  unfold State.skKeys
  simp only [hpages]
  rfl

/-! ### The plan of a plain move -/

section
variable {s : State} {l : Nat} {c : SkCmd} (hkind : c.kind = .mov)
include hkind

theorem Core.skSize_mov (x : Core) : x.skSize c = Nat.min 2048 (c.len - c.pos) := by
  unfold Core.skSize
  rw [hkind]

theorem SkCmd.pieces_mov {fuel n : Nat} (hn : n ≤ c.len - c.pos) : c.pieces (fuel + 1) c.pos n =
    if n = 0 then [] else [(c.src + BitVec.ofNat 64 c.pos, c.dst + BitVec.ofNat 64 c.pos, n)] := by
  unfold SkCmd.pieces
  split
  · rfl
  · have hat : c.at c.pos = (c.src + BitVec.ofNat 64 c.pos, c.dst + BitVec.ofNat 64 c.pos, c.len - c.pos) := by
      unfold SkCmd.at
      rw [hkind]
    rw [hat]
    dsimp only
    rw [show Nat.min (c.len - c.pos) n = n from Nat.min_eq_right hn, Nat.sub_self]
    cases fuel <;> rfl

/-- A chunk of a plain move writes the source's bytes at the destination's keys. -/
theorem State.skPlan_mov {src dst : List Nat} (hsrc : s.skKeys (c.ctx l) false (c.src + BitVec.ofNat 64 c.pos)
      (Nat.min 2048 (c.len - c.pos)) = (src, none))
    (hdst : s.skKeys (c.ctx l) true (c.dst + BitVec.ofNat 64 c.pos) (Nat.min 2048 (c.len - c.pos)) = (dst, none)) :
    s.skPlan l c = ⟨Nat.min 2048 (c.len - c.pos), [], [], dst.zip (src.map s.mem.read), none⟩ := by
  have hsize := Core.skSize_mov hkind (s.core l)
  unfold State.skPlan
  dsimp only
  rw [hsize]
  generalize hn : Nat.min 2048 (c.len - c.pos) = n at hsrc hdst
  have hle : n ≤ c.len - c.pos := hn ▸ Nat.min_le_right _ _
  rw [SkCmd.pieces_mov hkind hle, hkind]
  dsimp only
  by_cases hzero : n = 0
  · subst hzero
    obtain rfl := List.length_eq_zero_iff.1 (State.skKeys_length hdst)
    rw [if_pos rfl]
    rfl
  · have hread : s.skRead (c.ctx l) (c.src + BitVec.ofNat 64 c.pos) n = .ok (src.map s.mem.read) := by
      unfold State.skRead
      rw [hsrc]
    have hlen : (src.map s.mem.read).length = n := by rw [List.length_map, State.skKeys_length hsrc]
    have hsources : s.skSources (c.ctx l) [(c.src + BitVec.ofNat 64 c.pos, c.dst + BitVec.ofNat 64 c.pos, n)] =
        .ok [(c.dst + BitVec.ofNat 64 c.pos, src.map s.mem.read)] := by
      rw [State.skSources, hread]
      rfl
    have hcells : s.skCells (c.ctx l) [(c.dst + BitVec.ofNat 64 c.pos, src.map s.mem.read)] =
        (dst.zip (src.map s.mem.read), none) := by
      rw [State.skCells, hlen, hdst]
      exact congrArg (·, none) (List.append_nil _)
    rw [if_neg hzero, hsources]
    dsimp only
    rw [hcells]

end
/-! ### Which command's chunk comes next (R239) -/

/-- Deficit round-robin picks one of the ready commands and changes of the core its visits alone. -/
theorem Core.drr_spec {info : List (SkCmd × Nat)} {all : List SkCmd} {fuel : Nat} {x y : Core} {c : SkCmd} {n : Nat}
    (h : Core.drr info all fuel x = some (y, c, n)) :
    (c, n) ∈ info ∧ ∃ deficit visit arrived, y = { x with deficit, visit, arrived } := by
  induction fuel generalizing x with
  | zero => cases h
  | succ fuel ih =>
    unfold Core.drr at h
    dsimp only at h
    split at h
    next =>
      obtain ⟨hmem, d, v, a, hy⟩ := ih h
      exact ⟨hmem, d, v, a, hy⟩
    next c' n' hfind =>
      generalize (if x.arrived = true then _ else _ : Nat) = d' at h
      split at h
      next =>
        cases h
        exact ⟨List.mem_of_find?_eq_some hfind, _, _, _, rfl⟩
      next =>
        obtain ⟨hmem, d, v, a, hy⟩ := ih h
        exact ⟨hmem, d, v, a, hy⟩

theorem State.skNext_spec {s : State} {l n : Nat} {x : Core} {c : SkCmd} (h : s.skNext l = some (x, c, n)) :
    n = (s.core l).skSize c ∧ s.skReady l c = true ∧ ∃ deficit visit arrived, x = { s.core l with deficit, visit, arrived } := by
  unfold State.skNext at h
  dsimp only at h
  split at h
  · cases h
  · obtain ⟨hmem, hx⟩ := Core.drr_spec h
    obtain ⟨c', hc', heq⟩ := List.mem_map.1 hmem
    cases heq
    exact ⟨rfl, (List.mem_filter.1 hc').2, hx⟩

/-! ### Moving the chunk (R239, R240) -/

theorem State.skIdle_eq (s : State) (l : Nat) : s.skIdle l = s ∨
    s.skIdle l = s.setCore { s.core l with deficit := [0, 0, 0, 0], visit := 0, arrived := false } := by
  unfold State.skIdle
  split
  · exact .inr rfl
  · exact .inl rfl

theorem State.skIdle_sq (s : State) (l k : Nat) : ((s.skIdle l).core k).sq = (s.core k).sq := by
  rcases s.skIdle_eq l with h | h <;> rw [h]
  exact State.setCore_keeps (ρ := Core.sq) rfl k

theorem State.skIdle_holdAt (s : State) (l : Nat) (r : TaskRef) : (s.skIdle l).holdAt r = s.holdAt r := by
  rcases s.skIdle_eq l with h | h <;> rw [h]
  rfl

section
variable {s : State} {l : Nat} {c : SkCmd}

/-- The command as it is behind a chunk of a plain move. -/
def SkCmd.moved (c : SkCmd) (n now : Nat) : SkCmd :=
  { c with pos := c.pos + n, since := now, done := decide (c.pos + n = c.len), conDone := c.conDone || (c.pos + n == c.len) }

theorem State.skMove_mov {n : Nat} {cells : List Host.Cell} (hkind : c.kind = .mov) (hcon : c.con = false)
    (hplan : s.skPlan l c = ⟨n, [], [], cells, none⟩) : ∃ u : State, s.skEffect l c ⟨n, [], [], cells, none⟩ = u ∧
      s.skMove l c = u.setCore { u.core l with sq := (u.core l).sq.map fun y => if y = c then c.moved n s.dcc else y } := by
  refine ⟨_, rfl, ?_⟩
  unfold State.skMove
  dsimp only
  rw [hplan]
  dsimp only
  split
  next hfeop => rw [hkind] at hfeop; cases hfeop
  next =>
    rw [if_neg (by rw [hcon, Bool.and_false, Bool.false_and]; exact Bool.false_ne_true)]
    rfl

variable {v : State} {cells : List Host.Cell}

theorem State.skWrite_sq (hchain : c.ofChain = false) (k : Nat) : ((v.skWrite l c cells).core k).sq = (v.core k).sq := by
  unfold State.skWrite
  rw [if_neg (Bool.eq_false_iff.1 hchain)]
  generalize cells.filter (fun x => (corePadOf x.1).any (·.1 == l)) = mine
  generalize cells.filter (fun x => !(corePadOf x.1).any (·.1 == l)) = others
  have hmine : ((if mine.isEmpty then v else v.showOf (boltId (c.mark l) c.who.bolt) mine).core k).sq = (v.core k).sq := by
    split
    · rfl
    · exact State.showOf_chunk (State.sq_chunkBlind k) v _ _
  dsimp only
  split
  · exact hmine
  · rw [State.core_of_cores (State.onIssuer_cores _ l c.who _)]
    exact hmine

/-- Bytes of the own core pad are written at once (R240). -/
theorem State.skWrite_own (hchain : c.ofChain = false) (hown : ∀ x ∈ cells, (corePadOf x.1).any (·.1 == l) = true) :
    (v.skWrite l c cells).mem = v.mem.writeCells cells := by
  have hmine : cells.filter (fun x => (corePadOf x.1).any (·.1 == l)) = cells := List.filter_eq_self.2 hown
  have hrest : cells.filter (fun x => !(corePadOf x.1).any (·.1 == l)) = [] :=
    List.filter_eq_nil_iff.2 fun x hx => by rw [hown x hx]; decide
  unfold State.skWrite
  rw [if_neg (Bool.eq_false_iff.1 hchain), hmine, hrest]
  dsimp only
  rw [if_pos (show ([] : List Host.Cell).isEmpty = true from rfl)]
  split
  next h => rw [List.isEmpty_iff.1 h]; rfl
  next => exact State.showOf_mem v _ cells

/-- The others go into the hold of the issuing bolt (R240). -/
theorem State.skWrite_foreign (hchain : c.ofChain = false) (hforeign : ∀ x ∈ cells, (corePadOf x.1).any (·.1 == l) = false) :
    v.skWrite l c cells = if cells.isEmpty then v else v.onIssuer l c.who fun w => { w with hold := w.hold ++ [.moved cells] } := by
  have hrest : cells.filter (fun x => !(corePadOf x.1).any (·.1 == l)) = cells :=
    List.filter_eq_self.2 fun x hx => by rw [hforeign x hx]; rfl
  have hmine : cells.filter (fun x => (corePadOf x.1).any (·.1 == l)) = [] :=
    List.filter_eq_nil_iff.2 fun x hx => by rw [hforeign x hx]; exact Bool.false_ne_true
  unfold State.skWrite
  rw [if_neg (Bool.eq_false_iff.1 hchain), hmine, hrest]
  rfl

end

/-- What is read back of bytes written at distinct keys. -/
theorem Memory.read_writeCells_zip (m : Memory) {ks : List Nat} {bs : List Byte} (hnodup : ks.Nodup) {i : Nat} (hk : i < ks.length)
    (hb : i < bs.length) : (m.writeCells (ks.zip bs)).read ks[i] = bs[i] := by
  induction ks generalizing m bs i with
  | nil => cases hk
  | cons k ks ih =>
    obtain ⟨hnew, hrest⟩ := List.nodup_cons.1 hnodup
    cases bs with
    | nil => cases hb
    | cons b bs =>
      cases i with
      | zero =>
        change ((m.write k b).writeCells (ks.zip bs)).read k = b
        refine (Memory.read_writeCells_of_not_mem fun hmem => ?_).trans (Memory.read_write.trans (if_pos rfl))
        obtain ⟨c, hc, rfl⟩ := List.mem_map.1 hmem
        exact hnew (List.of_mem_zip hc).1
      | succ i => exact ih _ hrest (Nat.lt_of_succ_lt_succ hk) (Nat.lt_of_succ_lt_succ hb)

/-- The next chunk of a plain move of a task or a helper: the queue, the bytes at once, or the hold (R239, R240). -/
theorem State.chunk_of_move {s : State} {l n : Nat} {x : Core} {c : SkCmd} {src dst : List Nat} (hnext : s.skNext l = some (x, c, n))
    (hkind : c.kind = .mov) (hpart : c.who.part < 18) (hcon : c.con = false)
    (hsrc : s.skKeys (c.ctx l) false (c.src + BitVec.ofNat 64 c.pos) n = (src, none))
    (hdst : s.skKeys (c.ctx l) true (c.dst + BitVec.ofNat 64 c.pos) n = (dst, none)) : ∃ t v : State,
    exec (.skidderChunkMove l) s = .next t ∧ v.mem = s.mem ∧ (∀ r, v.holdAt r = s.holdAt r) ∧
      (t.core l).sq = (s.core l).sq.map (fun y => if y = c then c.moved n s.dcc else y) ∧
      t.mem = (v.skWrite l c (dst.zip (src.map s.mem.read))).mem ∧
      ∀ r, t.holdAt r = (v.skWrite l c (dst.zip (src.map s.mem.read))).holdAt r := by
  obtain ⟨rfl, -, deficit, visit, arrived, rfl⟩ := State.skNext_spec hnext
  rw [Core.skSize_mov hkind] at hsrc hdst ⊢
  have hchain : c.ofChain = false := decide_eq_false (Nat.not_le.2 hpart)
  let s1 := s.setCore { s.core l with deficit, visit, arrived }
  have hplan : s1.skPlan l c = ⟨Nat.min 2048 (c.len - c.pos), [], [], dst.zip (src.map s.mem.read), none⟩ :=
    State.skPlan_mov hkind ((State.skKeys_setCore ..).trans hsrc) ((State.skKeys_setCore ..).trans hdst)
  obtain ⟨u, heffect, hmove⟩ := State.skMove_mov hkind hcon hplan
  obtain ⟨v, hwrite, hmem, hblind⟩ := s1.skEffect_writes l c ⟨Nat.min 2048 (c.len - c.pos), [], [], dst.zip (src.map s.mem.read), none⟩
  rw [heffect] at hwrite
  have hsq : (u.core l).sq = (s.core l).sq := by
    rw [hwrite, State.skWrite_sq hchain]
    exact (hblind _ (State.sq_chunkBlind l)).trans (State.setCore_keeps (ρ := Core.sq) rfl l)
  have hexec : exec (.skidderChunkMove l) s = .next ((s1.skMove l c).skIdle l) := by
    change execSkidderChunkMove l s = _
    rw [execSkidderChunkMove, hnext]
    dsimp only
    rw [hchain]
    rfl
  refine ⟨_, v, hexec, hmem, fun r => (hblind _ (State.holdAt_chunkBlind r)).trans rfl, ?_, ?_, fun r => ?_⟩
  · rw [State.skIdle_sq, hmove, core_setCore, ← hsq]
    exact congrArg Core.sq (if_pos rfl)
  · rw [State.skIdle_mem, hmove, ← hwrite]
    rfl
  · rw [State.skIdle_holdAt, hmove, ← hwrite]
    rfl

/-- An effect that the issuing bolt holds comes behind the others. -/
theorem State.holdAt_hold {v : State} {l : Nat} {who : Issuer} {items : List HoldItem} (hpart : who.part < 16)
    (h : v.holdAt ⟨l, who.part⟩ = some (who.bolt, items)) (i : HoldItem) :
    (v.onIssuer l who fun w => { w with hold := w.hold ++ [i] }).holdAt ⟨l, who.part⟩ = some (who.bolt, items ++ [i]) := by
  obtain ⟨t, ht, hw⟩ := Option.map_eq_some_iff.1 h
  have his : t.is ⟨l, who.part⟩ = true := List.find?_some (p := fun x : Task => x.is ⟨l, who.part⟩) ht
  obtain ⟨hnum, hhold⟩ := Prod.mk.inj hw
  rw [State.holdAt_onIssuer v hpart, ht]
  simp [his, hnum, hhold]

section
variable {m : Memory} {src dst : List Nat} {n : Nat} (hs : src.length = n) (hd : dst.length = n)
include hs hd

/-- A copy to distinct keys changes nothing else, and every key gets its byte. -/
theorem Memory.copied {m' : Memory} (hnodup : dst.Nodup) : (∀ a, a ∉ dst → (m'.writeCells (dst.zip (src.map m.read))).read a = m'.read a) ∧
    ∀ i, i < n → (m'.writeCells (dst.zip (src.map m.read))).read (dst.getD i 0) = m.read (src.getD i 0) := by
  have hlen : (src.map m.read).length = n := by rw [List.length_map, hs]
  refine ⟨fun a ha => Memory.read_writeCells_of_not_mem ?_, fun i hi => ?_⟩
  · rwa [List.map_fst_zip (by rw [hd, hlen])]
  · have hkey : dst.getD i 0 = dst[i]'(by rw [hd]; exact hi) := by simp [hd, hi]
    have hbyte : m.read (src.getD i 0) = (src.map m.read)[i]'(by rw [hlen]; exact hi) := by simp [hs, hi]
    rw [hkey, hbyte]
    exact Memory.read_writeCells_zip m' hnodup _ _

end

/-! ### The end of a command (R242, R246) -/

theorem toNat_append_eq {m n : Nat} (x : BitVec m) (y : BitVec n) : (x ++ y).toNat = x.toNat * 2 ^ n + y.toNat := by
  rw [BitVec.toNat_append, ← Nat.shiftLeft_add_eq_or_of_lt y.isLt, Nat.shiftLeft_eq]

/-- The element of a command that has completed (R211). -/
theorem elemWord_complete (op : Nat) (cpos : W32) :
    elemWord 2 0 op cpos.toNat = (2 : BitVec 4) ++ (0 : BitVec 2) ++ BitVec.ofNat 10 op ++ (0 : BitVec 16) ++ cpos := by
  have h := cpos.isLt
  apply BitVec.eq_of_toNat_eq
  rw [elemWord, BitVec.toNat_ofNat]
  simp only [toNat_append_eq, BitVec.ofNat_eq_ofNat, BitVec.toNat_ofNat]
  omega

theorem State.skRemove_length {s : State} {l : Nat} {c : SkCmd} (h : c ∈ (s.core l).sq) :
    ((s.skRemove l c).core l).sq.length + 1 = (s.core l).sq.length := by
  have hsq : ((s.skRemove l c).core l).sq.length = ((s.core l).sq.erase c).length := by
    unfold State.skRemove
    rw [core_setCore]
    exact (congrArg (fun x : Core => x.sq.length) (if_pos rfl)).trans (List.length_map _)
  have hpos : 0 < (s.core l).sq.length := List.length_pos_of_mem h
  rw [hsq, List.length_erase_of_mem h]
  omega

theorem State.taskAt_change {s : State} {r : TaskRef} {t : Task} (h : s.taskAt r = some t) {f : Task → Task} (hf : ∀ t, (f t).id = t.id) :
    (s.onTask r f).taskAt r = some (f t) := by
  have his : t.is r = true := List.find?_some (p := fun x : Task => x.is r) h
  rw [taskAt_onTask s r r f hf, h]
  simp [his]

theorem firstCommands_subset {seen : List SkCmd} {cs : List SkCmd} {c : SkCmd} (h : c ∈ firstCommands seen cs) : c ∈ cs := by
  induction cs generalizing seen with
  | nil => cases h
  | cons x cs ih =>
    unfold firstCommands at h
    split at h
    · exact List.mem_cons_of_mem _ (ih h)
    · split at h
      · exact List.mem_cons_of_mem _ (ih h)
      · rcases List.mem_cons.1 h with rfl | h
        · exact List.mem_cons_self
        · exact List.mem_cons_of_mem _ (ih h)

theorem State.skRemove_taskAt (s : State) (l : Nat) (c : SkCmd) (r : TaskRef) : (s.skRemove l c).taskAt r = s.taskAt r := rfl

/-- A command that has moved every byte leaves, with its element where it asked for one (R211, R242). -/
theorem State.command_ends {s : State} {l : Nat} {c : SkCmd} (h : (s.core l).sq.find? (·.done) = some c) : ∃ t,
    exec (.skidderCommandComplete l) s = .next t ∧ t.mem = s.mem ∧ (t.core l).sq.length + 1 = (s.core l).sq.length ∧
      (c.who.part < 16 → c.path = 1 → ∀ x, s.taskAt ⟨l, c.who.part⟩ = some x →
        (t.taskAt ⟨l, c.who.part⟩).map (·.eng.fifo1) = some (x.eng.fifo1 ++ if c.res then
          [⟨(2 : BitVec 4) ++ (0 : BitVec 2) ++ BitVec.ofNat 10 c.op ++ (0 : BitVec 16) ++ c.who.cpos, c.who.bolt⟩] else [])) := by
  have hexec : exec (.skidderCommandComplete l) s = .next ((if c.res then s.skElem l c 2 else s).skRemove l c) := by
    change execSkidderCommandComplete l s = _
    rw [execSkidderCommandComplete, State.endedMove, h]
  have hcores : (if c.res then s.skElem l c 2 else s).cores = s.cores := by
    split
    · unfold State.skElem
      split
      · exact State.onTask_cores _ _ _
      · exact State.onHelper_cores _ _ _ _
    · rfl
  have hsq : ((if c.res then s.skElem l c 2 else s).core l).sq = (s.core l).sq := by rw [State.core_of_cores hcores]
  refine ⟨_, hexec, ?_, ?_, fun hpart hpath x hx => ?_⟩
  · rw [State.skRemove_mem]
    split
    · exact State.skElem_mem s l c 2
    · rfl
  · rw [State.skRemove_length (by rw [hsq]; exact List.mem_of_find?_eq_some h), hsq]
  · rw [State.skRemove_taskAt]
    split
    · rw [State.skElem, if_pos hpart, State.taskAt_change hx, hpath, elemWord_complete]
      · rfl
      · exact fun _ => rfl
    · rw [hx, List.append_nil]
      rfl

/-- A TMOV that waits too long for one granule is abandoned with a deferred fault (R246). -/
theorem State.source_late {s : State} {l : Nat} {c : SkCmd} (h : s.lateSource l = some c) :
    c.kind = .tmov ∧ c.since + 2 ^ 24 ≤ s.dcc ∧ ∃ t,
      exec (.sourceWatchdog l) s = .next t ∧ t.mem = s.mem ∧ (t.core l).sq.length + 1 = (s.core l).sq.length ∧
        (c.who.part < 16 → ∀ x, s.taskAt ⟨l, c.who.part⟩ = some x → (t.taskAt ⟨l, c.who.part⟩).map (·.eng.faults) =
          some (x.eng.faults ++ [⟨c.path, c.who.bolt, c.who.order, 3, syndEngine 0x24 2 c.op 0 0 c.who.cpos.toNat⟩])) := by
  have hmem : c ∈ (s.core l).sq := firstCommands_subset (List.mem_of_find?_eq_some h)
  have hlate := List.find?_some h
  simp only [Bool.and_eq_true, beq_iff_eq, decide_eq_true_eq] at hlate
  obtain ⟨⟨⟨⟨hkind, -⟩, -⟩, -⟩, hsince⟩ := hlate
  have hexec : exec (.sourceWatchdog l) s = .next (s.skFail l c (.engine 0x24 0)) := by
    change execSourceWatchdog l s = _
    rw [execSourceWatchdog, h]
  have hcores : (s.skFail l c (.engine 0x24 0)).cores = (s.skRemove l c).cores := by
    unfold State.skFail
    dsimp only
    split
    · exact State.onTask_cores _ _ _
    · exact State.onHelper_cores _ _ _ _
  refine ⟨hkind, hsince, _, hexec, State.skFail_mem .., ?_, fun hpart x hx => ?_⟩
  · rw [State.core_of_cores hcores, State.skRemove_length hmem]
  · rw [State.skFail]
    dsimp only
    rw [if_pos hpart, State.taskAt_change (s := s.skRemove l c) hx]
    · rfl
    · exact fun _ => rfl

/-! ### The obligation -/

/-- Settles O36: each instruction by the command that it queues, a chunk of a plain move by deficit round-robin's choice and the plan of
what it copies, and the end of a command by its element or its watchdog. -/
theorem skidderCommands : Obligations.SkidderCommands := by
  unfold Obligations.SkidderCommands
  refine ⟨?_, ?_⟩
  · intro s f core bolt a b n ok own charges entersFrom enters traps l rows idx near moves nest run total lo span full
    have hok (p : W64) (k : Nat) : ok p k ↔ s.skRangeOk p k = true := State.skRangeOk_iff.symm
    have hown (p : W64) (k : Nat) : s.ownRange p k = true ↔ own p k := State.ownRange_iff
    have hmoves {i : Instr} {op : Nat} {scatter : Bool} {kind : List Nat → SkKind} {src dst : Nat → W64}
        (hexec : exec i s = guarded i f s (s.moveRows f op scatter))
        (hkind : (if scatter then SkKind.scatter ((List.range rows).map idx) l else SkKind.gather ((List.range rows).map idx) l) =
          kind ((List.range rows).map idx))
        (hrows : rowsOf a b l scatter ((List.range rows).map idx) = (List.range rows).map fun j => (src j, dst j)) :
        moves i op kind src dst := by
      have hcases := State.moveRows_cases (src := src) (dst := dst) (kind := kind ((List.range rows).map idx)) hexec
      rw [rowCount_eq f] at hcases
      obtain ⟨henters, htraps⟩ := hcases hrows hkind
      refine ⟨fun charge hall hc => ?_, fun j hj hbad hbefore => ?_⟩
      · refine henters charge (fun j hj => ⟨(hok _ _).1 (hall j hj).1, (hok _ _).1 (hall j hj).2⟩) (charge_eq ?_ hc)
        rw [List.all_eq_true]
        exact ⟨fun h j hj => (hown _ _).1 (h j (List.mem_range.2 hj)), fun h j hj => (hown _ _).2 (h j (List.mem_range.1 hj))⟩
      · exact htraps j hj (fun h => hbad ⟨(hok _ _).2 h.1, (hok _ _).2 h.2⟩)
          fun k hk => ⟨(hok _ _).1 (hbefore k hk).1, (hok _ _).1 (hbefore k hk).2⟩
    obtain ⟨hmov, hlong, hdst, hsrc⟩ := s.skmov_cases f
    refine ⟨fun charge hn ha hb hc => hmov charge hn ((hok _ _).1 ha) ((hok _ _).1 hb) (charge_eq (hown _ _) hc), hlong,
      fun hn ha => hdst hn (mt (hok _ _).2 ha), fun hn ha hb => hsrc hn ((hok _ _).1 ha) (mt (hok _ _).2 hb),
      fun charge ha hb hc => s.skmovNest_enters f ((hok _ _).1 ha) ((hok _ _).1 hb) (charge_eq (hown _ _) hc),
      hmoves (i := .skgat f) (op := 0x309) (scatter := false) (kind := fun ix => .gather ix l) (src := fun j => near b (idx j)) (dst := near a) rfl rfl (rowsOf_map ..),
      hmoves (i := .sksct f) (op := 0x30A) (scatter := true) (kind := fun ix => .scatter ix l) (src := near b) (dst := fun j => near a (idx j)) rfl rfl (rowsOf_map ..),
      fun charge h16 hn hb16 hb ha hc => s.tmov_enters f h16 hn hb16 ((hown _ _).2 hb) ((hok _ _).1 ha) (charge_eq (hown _ _) hc),
      fun ha h16 hn ho => s.feop_enters f rfl ha h16 hn ((hown _ _).2 ho),
      fun ha h16 hn ho => s.feop_enters f rfl ha h16 hn ((hown _ _).2 ho),
      fun ha h16 hn ho => s.feop_enters f rfl ha h16 hn ((hown _ _).2 ho), fun key charge hkey => ?_⟩
    exact ⟨fun x hx hgo => State.enqMove_rests hkey hx hgo, fun hawake hs hd hc =>
      State.enqMove_enters hkey hawake ((hok _ _).1 hs) ((hok _ _).1 hd) (charge_eq (hown _ _) hc)⟩
  · refine ⟨?_, fun s l c h => State.command_ends h, fun s l c h => State.source_late h⟩
    intro s l n x c hnext hkind hpart src dst hsrc hdst hnodup hcon
    obtain ⟨hsize, hready, -⟩ := State.skNext_spec hnext
    obtain ⟨t, v, hexec, hmem, hhold, hsq, hbytes, hholds⟩ := State.chunk_of_move hnext hkind hpart hcon hsrc hdst
    have hchain : c.ofChain = false := decide_eq_false (Nat.not_le.2 hpart)
    have hs : src.length = n := State.skKeys_length hsrc
    have hd : dst.length = n := State.skKeys_length hdst
    have hkeys {y : Host.Cell} (hy : y ∈ dst.zip (src.map s.mem.read)) : y.1 ∈ dst := (List.of_mem_zip hy).1
    refine ⟨hsize.trans (Core.skSize_mov hkind _), hready, t, hexec, hsq, fun hown => ?_, fun hforeign => ?_⟩
    · rw [hbytes, State.skWrite_own hchain fun y hy => hown _ (hkeys hy), hmem]
      exact Memory.copied hs hd hnodup
    · have hwrite := State.skWrite_foreign (v := v) hchain fun y hy => hforeign _ (hkeys hy)
      refine ⟨?_, fun hn hpart16 y hy hnum => ?_⟩
      · rw [hbytes, hwrite, ← hmem]
        split
        · rfl
        · exact State.onIssuer_mem ..
      · have hcells : ¬(dst.zip (src.map s.mem.read)).isEmpty = true := by
          rw [List.isEmpty_iff_length_eq_zero, List.length_zip, List.length_map, hs, hd, Nat.min_self]
          exact hn
        have hbefore : v.holdAt ⟨l, c.who.part⟩ = some (c.who.bolt, y.bolt.work.hold) := by
          rw [hhold, State.holdAt, hy, Option.map_some, hnum]
        have hafter := hholds ⟨l, c.who.part⟩
        rw [hwrite, if_neg hcells, State.holdAt_hold hpart16 hbefore] at hafter
        obtain ⟨z, hz, hzhold⟩ := Option.map_eq_some_iff.1 hafter
        rw [hz]
        exact congrArg some (Prod.mk.inj hzhold).2

end Sys2Proof.Machine

/-! Format descriptors, and tile commands as they enter the engine, stall or trap (R57, R199, R203, R204, R207 to R209, R212 to R214,
R218 to R222, R259). -/

namespace Sys2Proof.Machine

/-! ### Fields -/

theorem Slot.q_eq (f : Slot) {hi lo w : Nat} (hw : hi - lo + 1 = w) : f.q hi lo = (f.qual.extractLsb' lo w).toNat := by
  rw [Slot.q, hw, BitVec.extractLsb'_toNat]

theorem recSize_planes (d : Desc) (side : Bool) :
    recSize (Desc.planes d side) = ((d.extractLsb' (if side then 39 else 30) 4).toNat + 5) * 1024 + 256 := by
  cases side
  · rw [recSize, Desc.planes, if_neg Bool.false_ne_true, descField_eq d (show 33 - 30 + 1 = 4 from rfl)]
    rfl
  · rw [recSize, Desc.planes, if_pos rfl, descField_eq d (show 42 - 39 + 1 = 4 from rfl)]
    rfl

theorem descBit_eq (d : Desc) (lo : Nat) : ((d.extractLsb' lo 1).toNat == 1) = d.getLsbD lo := by
  rw [BitVec.extractLsb'_toNat, BitVec.getLsbD, Nat.shiftRight_eq_div_pow, Nat.testBit_eq_decide_div_mod_eq]
  rfl

theorem descLsbe_eq (d : Desc) : Desc.lsbe d = (d.extractLsb' 55 9).toInt := by
  rw [Desc.lsbe, descField_eq d (show 63 - 55 + 1 = 9 from rfl), intOf_true_eq_toInt (by decide), BitVec.ofNat_toNat,
    BitVec.setWidth_eq]

theorem descTy_eq (d : Desc) (side : Bool) : Desc.ty d side = (d.extractLsb' (if side then 34 else 25) 5).toNat := by
  cases side
  · exact descField_eq d (show 29 - 25 + 1 = 5 from rfl)
  · exact descField_eq d (show 38 - 34 + 1 = 5 from rfl)

theorem descScaled_eq (d : Desc) (side : Bool) : Desc.scaled d side = ((d.extractLsb' (if side then 44 else 43) 1).toNat == 1) := by
  cases side
  · exact congrArg (· == 1) (descField_eq d (show 43 - 43 + 1 = 1 from rfl))
  · exact congrArg (· == 1) (descField_eq d (show 44 - 44 + 1 = 1 from rfl))

/-! ### The queue of descriptors (R203, R204) -/

theorem takeUse_cons (d : Desc) (ds : List Desc) :
    takeUse (d :: ds) = some (d, if d.extractLsb' 0 8 = 0 then ds else (d - 1) :: ds) := by
  have huses : Desc.uses d = (d.extractLsb' 0 8).toNat := descField_eq d (show 7 - 0 + 1 = 8 from rfl)
  rw [takeUse, huses]
  by_cases hzero : d.extractLsb' 0 8 = 0
  · rw [if_pos hzero, if_pos (by rw [hzero]; rfl)]
  · have hne : (d.extractLsb' 0 8).toNat ≠ 0 := fun h => hzero (BitVec.eq_of_toNat_eq h)
    have hpos : 0 < d.toNat := by
      refine Nat.pos_of_ne_zero fun h => hne ?_
      rw [BitVec.extractLsb'_toNat, h]
      rfl
    rw [if_neg hzero, if_neg hne]
    have hless : BitVec.ofNat 128 (d.toNat - 1) = d - 1 := by
      have hlt := d.isLt
      apply BitVec.eq_of_toNat_eq
      rw [BitVec.toNat_ofNat, BitVec.toNat_sub]
      simp
      omega
    rw [hless]

/-- What R203 asks of one operand of a descriptor: its type, its plane count, and its block-scale bit. -/
def SideGood (ty p bs : Nat) : Prop := ty ∈ [1, 2, 5, 6, 9, 10, 11, 12, 13, 14, 17, 18] ∧
  (ty = 14 → p = 5 ∧ bs = 1) ∧ (ty ∈ [17, 18] → p = 4) ∧ (ty ∈ [1, 5] → p = 8) ∧ (ty ∈ [2, 6] → p = 16) ∧
  (ty ∈ [9, 10, 11, 12, 13] → 2 ≤ p) ∧ (bs = 1 → ty ∈ [12, 13, 14])

theorem sideGood_iff {ty p bs : Nat} (hp : p ≤ 16) :
    SideGood ty p bs ↔ matrixTypes.contains ty = true ∧ planesOk ty p = true ∧ scaledOk ty (bs == 1) = true := by
  by_cases hty : ty ∈ [1, 2, 5, 6, 9, 10, 11, 12, 13, 14, 17, 18]
  · by_cases hbs : bs = 1
    all_goals
      simp only [List.mem_cons, List.not_mem_nil, or_false] at hty
      rcases hty with rfl | rfl | rfl | rfl | rfl | rfl | rfl | rfl | rfl | rfl | rfl | rfl
      all_goals simp [SideGood, matrixTypes, planesOk, scaledOk, hbs, hp]
  · exact iff_of_false (fun h => hty h.1) fun h => hty (List.contains_iff_mem.1 h.1)

theorem ite_some_eq_none {c : Prop} [Decidable c] {k : Nat} {e : Option Nat} :
    (if c then some k else e) = none ↔ ¬c ∧ e = none := by
  by_cases h : c <;> simp [h]

/-- A descriptor has no defect when its reserved bits, its operands, its readout type and its L keep the rules (R203). -/
theorem defect_eq_none_iff (d : Desc) : Desc.defect d = none ↔ d.extractLsb' 8 17 = (0 : BitVec 17) ∧
    SideGood (d.extractLsb' 25 5).toNat ((d.extractLsb' 30 4).toNat + 1) (d.extractLsb' 43 1).toNat ∧
    SideGood (d.extractLsb' 34 5).toNat ((d.extractLsb' 39 4).toNat + 1) (d.extractLsb' 44 1).toNat ∧
    (d.extractLsb' 50 5).toNat ∈ [1, 2, 3, 5, 6, 7, 9, 10, 11, 12, 13] ∧
    -160 ≤ (d.extractLsb' 55 9).toInt ∧ (d.extractLsb' 55 9).toInt ≤ 63 := by
  have hplanes (lo : Nat) : (d.extractLsb' lo 4).toNat + 1 ≤ 16 := (d.extractLsb' lo 4).isLt
  have hreserved : Desc.field d 24 8 = 0 ↔ d.extractLsb' 8 17 = (0 : BitVec 17) := by
    rw [descField_eq d (show 24 - 8 + 1 = 17 from rfl)]
    exact ⟨fun h => BitVec.eq_of_toNat_eq h, fun h => by rw [h]; rfl⟩
  have hreadout : (setReadout.contains (Desc.field d 54 50) && Desc.field d 54 50 != 0) = true ↔
      (d.extractLsb' 50 5).toNat ∈ [1, 2, 3, 5, 6, 7, 9, 10, 11, 12, 13] := by
    rw [descField_eq d (show 54 - 50 + 1 = 5 from rfl)]
    generalize d.extractLsb' 50 5 = t
    revert t
    decide
  have hpa : Desc.planes d false = (d.extractLsb' 30 4).toNat + 1 := congrArg (· + 1) (descField_eq d (show 33 - 30 + 1 = 4 from rfl))
  have hpb : Desc.planes d true = (d.extractLsb' 39 4).toNat + 1 := congrArg (· + 1) (descField_eq d (show 42 - 39 + 1 = 4 from rfl))
  rw [sideGood_iff (hplanes 30), sideGood_iff (hplanes 39), Desc.defect]
  simp only [ite_some_eq_none, hreserved, Bool.not_eq_true', Bool.not_eq_false, hreadout, descTy_eq, descScaled_eq, descLsbe_eq,
    hpa, hpb, not_not, not_or, not_lt, if_true, Bool.false_eq_true, if_false, and_true]
  constructor
  · rintro ⟨h0, hat, hap, hbt, hbp, has, hbs, hr, hl⟩
    exact ⟨h0, ⟨hat, hap, has⟩, ⟨hbt, hbp, hbs⟩, hr, hl⟩
  · rintro ⟨h0, ⟨hat, hap, has⟩, ⟨hbt, hbp, hbs⟩, hr, hl⟩
    exact ⟨h0, hat, hap, hbt, hbp, has, hbs, hr, hl⟩

/-! ### Precise engine faults (R232) -/

section
variable (cause slot op tile detail cpos : Nat)

theorem syndEngine_slot : (syndEngine cause slot op tile detail cpos).extractLsb' 54 2 = BitVec.ofNat 2 slot :=
  extract_field (by omega) (by omega)

theorem syndEngine_tile : (syndEngine cause slot op tile detail cpos).extractLsb' 42 2 = BitVec.ofNat 2 tile :=
  extract_field (by omega) (by omega)

theorem syndEngine_cpos : (syndEngine cause slot op tile detail cpos).extractLsb' 0 32 = BitVec.ofNat 32 cpos :=
  extract_field (by omega) (by omega)

end

/-- An operation that goes raises a precise engine fault, which changes nothing of the task's engine state. -/
theorem State.trapsEngine_of_exec {s : State} {f : Slot} {i : Instr} {effect : State} {op cause tile detail : Nat} (hgo : s.goes i f)
    (hmay : s.mayTrap) (hexec : exec i s = guarded i f s effect) (heffect : effect = s.trapEngine op cause tile detail) :
    ∃ t, exec i s = .next t ∧ Trapped s t 3 (syndEngine cause 1 op tile detail s.task.flow.off) ∧ t.task.eng = s.task.eng := by
  refine ⟨_, hexec.trans ((guarded_goes hgo).trans (congrArg Host.Outcome.next heffect)), trapped_of_mayTrap hmay 3 _, ?_⟩
  rw [State.trapEngine, State.trap, takeTrap_of_mayTrap hmay, enterHandler_eng]

/-! ### Entering the queue (R199, R204, R259) -/

theorem State.withDesc_of_take {s : State} {d : Desc} {fq : List Desc} (htake : takeUse s.task.eng.fq = some (d, fq)) (op tile : Nat)
    (k : Desc → List Desc → State) : s.withDesc op tile k = k d fq := by
  rw [State.withDesc, htake]

/-- The mark and the L that a command sets which initialises its tile (R213, R218). -/
def initIf (sets : Bool) (tile : Nat) (l : Int) : TaskEng → TaskEng := if sets then initTile tile l else id

section
variable (s : State) (f : Slot) (d : Desc) (fq : List Desc) (i : Instr)

/-- A tile command enters the queue with the descriptor `d` that it takes: it sets the mark and the L of its tile if it initialises
it, lends its pages and counts the bytes it will hold; without an entry or a lend the bundle stalls. -/
def State.EntersTile (op held : Nat) (sets : Bool) (is : MCmd → Prop) : Prop :=
  let dest := f.d.toNat % 4
  s.goes i f → s.task.bolt.holdb + held ≤ 65536 → ∃ c : MCmd, is c ∧ c.op = op ∧ c.desc = d ∧
    c.who = ⟨s.task.id.part, s.task.bolt.work.num, s.task.eng.order, BitVec.ofNat 32 s.task.flow.off, s.dcc⟩ ∧
    exec i s = .next (if (s.myCore.mq.filter fun x => x.who.part = s.task.id.part).length < 16 ∧ ∀ p ∈ c.pages, s.myCore.lend p < 3
      then ((s.setCore { s.myCore.lendPages c.pages with mq := s.myCore.mq ++ [c] }).setEng { s.task.eng with
        fq, order := s.task.eng.order + 1, marks := if sets then s.task.eng.marks ||| BitVec.twoPow 4 dest else s.task.eng.marks
        tileL := if sets then s.task.eng.tileL.set dest (d.extractLsb' 55 9).toInt else s.task.eng.tileL }).setBolt
          { s.task.bolt with holdb := s.task.bolt.holdb + held }
      else s.waitFor .stall)

end

section
variable {s : State} {f : Slot} {d : Desc} {fq : List Desc} {i : Instr}

theorem State.enqueueTile_of_room {c : MCmd} {held : Nat} (hroom : s.task.bolt.holdb + held ≤ 65536) (marks : TaskEng → TaskEng) :
    s.enqueueTile fq c held marks =
      if (s.myCore.mq.filter fun x => x.who.part = s.task.id.part).length < 16 ∧ ∀ p ∈ c.pages, s.myCore.lend p < 3 then
        let s2 := (s.setCore { s.myCore.lendPages c.pages with mq := s.myCore.mq ++ [c] }).setEng (marks { s.task.eng with fq })
        (s2.setBolt { s.task.bolt with holdb := s.task.bolt.holdb + held }).countCommand
      else s.waitFor .stall := by
  have hover : s.overHold held = false := decide_eq_false (Nat.not_lt.2 hroom)
  have hfull : (16 ≤ (s.myCore.mq.filter fun x => x.who.part = s.task.id.part).length ∨
      c.pages.any (fun p => decide (3 ≤ s.myCore.lend p)) = true) ↔
      ¬((s.myCore.mq.filter fun x => x.who.part = s.task.id.part).length < 16 ∧ ∀ p ∈ c.pages, s.myCore.lend p < 3) := by
    simp [-not_and, not_and_or]
  rw [State.enqueueTile, hover]
  simp only [hfull, Bool.false_eq_true, if_false, ite_not]
  rfl

/-- An instruction whose effect is the entry of a command. -/
theorem State.entersTile_of_exec {op held : Nat} {sets : Bool} {is : MCmd → Prop} {effect : State} (c : MCmd)
    (hexec : exec i s = guarded i f s effect)
    (heffect : effect = s.enqueueTile fq c held (initIf sets (f.d.toNat % 4) (Desc.lsbe d)))
    (his : is c) (hop : c.op = op := by rfl) (hdesc : c.desc = d := by rfl) (hwho : c.who = s.issuer := by rfl) :
    s.EntersTile f d fq i op held sets is := by
  intro hgo hroom
  refine ⟨c, his, hop, hdesc, hwho, ?_⟩
  rw [hexec, guarded_goes hgo, heffect, State.enqueueTile_of_room hroom, descLsbe_eq]
  cases sets <;> rfl

end

/-! ### The commands of the tile port (R219, R220, R222) -/

theorem tileBytes_eq (t : BitVec 5) : tileBytes t.toNat = if t = 16 then 262144 else 65536 := by
  unfold tileBytes
  by_cases h : t = 16
  · rw [if_pos h, h]
    rfl
  · rw [if_neg h, if_neg (fun e : t.toNat = 16 => h (BitVec.eq_of_toNat_eq e))]

section
variable {s : State} {f : Slot} {d : Desc} {fq : List Desc} (htake : takeUse s.task.eng.fq = some (d, fq))
include htake

theorem State.mclr_enters : s.EntersTile f d fq (.mclr f) 0x28A 0 true fun c => c.tile = f.d.toNat % 4 ∧ c.pages = [] :=
  State.entersTile_of_exec (s.command f 0x28A d (f.d.toNat % 4)) rfl (State.withDesc_of_take htake _ _ _) ⟨rfl, rfl⟩

theorem State.mlda_enters {a : Nat} (ha : s.padRange true (s.g f.a.toNat) (tileBytes f.t.toNat) 16 = some a) :
    s.EntersTile f d fq (.mlda f) 0x28B 0 true fun c =>
      c.tile = f.d.toNat % 4 ∧ c.a = a ∧ c.ty = f.t.toNat ∧ c.pages = pagesOf a (tileBytes f.t.toNat) := by
  refine State.entersTile_of_exec { s.command f 0x28B d (f.d.toNat % 4) with a, pages := pagesOf a (tileBytes f.t.toNat) } rfl
    ((State.withDesc_of_take htake _ _ _).trans ?_) ⟨rfl, rfl, rfl, rfl⟩
  rw [ha]
  rfl

theorem State.mst_enters {b : Nat} (hb : s.padRange true (s.g f.b.toNat) (2048 * (f.imm.toNat / 256 % 128 + 1)) 16 = some b) :
    s.EntersTile f d fq (.mst f) 0x291 (if s.ownPad b then 0 else 2048 * (f.imm.toNat / 256 % 128 + 1)) false fun c =>
      c.tile = f.a.toNat % 4 ∧ c.b = b ∧ c.row = f.imm.toNat % 128 ∧ c.rows = f.imm.toNat / 256 % 128 + 1 ∧ c.pages = [] := by
  refine State.entersTile_of_exec { s.command f 0x291 d (f.a.toNat % 4) with
    b, row := f.imm.toNat % 128, rows := f.imm.toNat / 256 % 128 + 1 } rfl ((State.withDesc_of_take htake _ _ _).trans ?_)
    ⟨rfl, rfl, rfl, rfl, rfl⟩
  rw [hb]
  rfl

end

/-! ### MMA and MMAG (R212 to R214, R218) -/

section
variable (s : State) (f : Slot) (d : Desc) (grouped : Bool)

/-- The key of the A records of a product. -/
def State.aKey : Option Nat := s.padRange false (s.g f.a.toNat + BitVec.ofInt 64 (s.nestOffset f 0))
  ((f.q 6 0 + 1) * recSize (Desc.planes d false)) 256

/-- The bytes at field B of a product that are read to begin with: its B records, or the count of its group table (R214). -/
def bLength : Nat := if grouped then 8 else (f.q 6 0 + 1) * recSize (Desc.planes d true)

/-- The key of the B records or of the group table of a product. -/
def State.bKey : Option Nat :=
  if grouped then s.padRange false (s.g f.b.toNat) (bLength f d grouped) 16
  else s.padRange false (s.g f.b.toNat + BitVec.ofInt 64 (s.nestOffset f 1)) (bLength f d grouped) 256

/-- The command of a product. -/
def State.productCmd (op a b : Nat) : MCmd :=
  { s.command f op d (f.d.toNat % 4) with
    a, b, k := f.q 6 0 + 1, acc := f.qual.getLsbD 7, c := patternOf 64 (s.nestOffset f 1), smode := f.q 9 8, stamp := f.imm.toNat
    pages := (pagesOf a ((f.q 6 0 + 1) * recSize (Desc.planes d false)) ++ pagesOf b (bLength f d grouped)).dedup }

end

section
variable {s : State} {f : Slot} {d : Desc} {fq : List Desc} (htake : takeUse s.task.eng.fq = some (d, fq)) {grouped : Bool} {op : Nat}
include htake

theorem State.multiply_of_no_a (ha : s.aKey f d = none) :
    s.multiply f op grouped = s.trapEngine op 0x06 (f.d.toNat % 4) 1 := by
  refine (State.withDesc_of_take htake _ _ _).trans ?_
  rw [State.aKey] at ha
  dsimp only
  rw [ha]

theorem State.multiply_of_no_b {a : Nat} (ha : s.aKey f d = some a) (hb : s.bKey f d grouped = none) :
    s.multiply f op grouped = s.trapEngine op 0x06 (f.d.toNat % 4) 2 := by
  refine (State.withDesc_of_take htake _ _ _).trans ?_
  rw [State.aKey] at ha
  rw [State.bKey, bLength] at hb
  dsimp only
  rw [ha]
  dsimp only
  rw [hb]

variable {a b : Nat} (ha : s.aKey f d = some a) (hb : s.bKey f d grouped = some b)
include ha hb

/-- A product whose records lie where they may: the checks of an accumulation, then the queue. -/
theorem State.multiply_of_keys : s.multiply f op grouped =
    if f.qual.getLsbD 7 && !s.task.eng.marks.getLsbD (f.d.toNat % 4) then s.trapEngine op 0x04 (f.d.toNat % 4) 0
    else if f.qual.getLsbD 7 && Desc.lsbe d != s.task.eng.tileL.getD (f.d.toNat % 4) 0 then
      s.trapEngine op 0x05 (f.d.toNat % 4) (patternOf 9 (s.task.eng.tileL.getD (f.d.toNat % 4) 0))
    else s.enqueueTile fq (s.productCmd f d grouped op a b) 0
      (if f.qual.getLsbD 7 then id else initTile (f.d.toNat % 4) (Desc.lsbe d)) := by
  refine (State.withDesc_of_take htake _ _ _).trans ?_
  rw [State.aKey] at ha
  rw [State.bKey, bLength] at hb
  dsimp only
  rw [ha]
  dsimp only
  rw [hb]
  rfl

theorem State.multiply_unmarked (hacc : f.qual.getLsbD 7 = true) (hmark : s.task.eng.marks.getLsbD (f.d.toNat % 4) = false) :
    s.multiply f op grouped = s.trapEngine op 0x04 (f.d.toNat % 4) 0 := by
  rw [State.multiply_of_keys htake ha hb, if_pos (by rw [hacc, hmark]; rfl)]

theorem State.multiply_mismatch (hacc : f.qual.getLsbD 7 = true) (hmark : s.task.eng.marks.getLsbD (f.d.toNat % 4) = true)
    (hl : Desc.lsbe d ≠ s.task.eng.tileL.getD (f.d.toNat % 4) 0) : s.multiply f op grouped =
      s.trapEngine op 0x05 (f.d.toNat % 4) (patternOf 9 (s.task.eng.tileL.getD (f.d.toNat % 4) 0)) := by
  rw [State.multiply_of_keys htake ha hb, if_neg (by rw [hacc, hmark]; exact Bool.false_ne_true),
    if_pos (by rw [hacc, bne_iff_ne.2 hl]; rfl)]

theorem State.product_enters {i : Instr} (hexec : exec i s = guarded i f s (s.multiply f op grouped))
    (hacc : f.qual.getLsbD 7 = true → s.task.eng.marks.getLsbD (f.d.toNat % 4) = true ∧
      Desc.lsbe d = s.task.eng.tileL.getD (f.d.toNat % 4) 0) :
    s.EntersTile f d fq i op 0 (!f.qual.getLsbD 7) fun c => c.a = a ∧ c.b = b ∧ c.k = f.q 6 0 + 1 ∧ c.acc = f.qual.getLsbD 7 ∧
      c.tile = f.d.toNat % 4 ∧ c.smode = f.q 9 8 ∧ c.stamp = f.imm.toNat ∧
      ∀ p, p ∈ c.pages ↔ p ∈ pagesOf a ((f.q 6 0 + 1) * recSize (Desc.planes d false)) ∨ p ∈ pagesOf b (bLength f d grouped) := by
  refine State.entersTile_of_exec (s.productCmd f d grouped op a b) hexec ?_
    ⟨rfl, rfl, rfl, rfl, rfl, rfl, rfl, fun p => List.mem_dedup.trans List.mem_append⟩
  rw [State.multiply_of_keys htake ha hb]
  cases h : f.qual.getLsbD 7 with
  | false => rfl
  | true =>
    obtain ⟨hmark, hl⟩ := hacc h
    rw [hmark, hl, bne_self_eq_false]
    rfl

end

/-! ### PLANE (R207) -/

theorem mem_pages_sourceRuns {a pitch w k p : Nat} {tr : Bool} : p ∈ (sourceRuns a tr pitch w k).flatMap (fun r => pagesOf r.1 r.2) ↔
    ∃ j, j < (if tr then 64 * k else 128) ∧ p ∈ pagesOf (a + j * pitch) (if tr then 128 * w / 8 else 64 * k * w / 8) := by
  cases tr <;> simp [sourceRuns]

section
variable (s : State) (f : Slot) (d : Desc)

/-- The side of a PLANE, the width of its source elements, and whether it reads a scale array. -/
def planeSide : Bool := f.qual.getLsbD 0
def planeWidth : Nat := typeWidth (BitVec.ofNat 5 (Desc.ty d (planeSide f)))
def planeScales : Bool := Desc.scaled d (planeSide f)

/-- The command of a PLANE. -/
def State.planeCmd (a b c : Nat) : MCmd :=
  let k := f.q 8 2 + 1
  let pitch := f.imm.toNat % 2 ^ 24
  { s.command f 0x281 d 0 with
    a, b, c, k, side := planeSide f, tr := f.qual.getLsbD 1, pitch, rnd := effRnd0 s (BitVec.ofNat 3 (Desc.field d 49 47))
    pages := ((sourceRuns a (f.qual.getLsbD 1) pitch (planeWidth f d) k).flatMap (fun r => pagesOf r.1 r.2)
      ++ (if planeScales f d then pagesOf c (8 * ((512 * k + 6) / 7)) else [])).dedup }

end

section
variable {s : State} {f : Slot} {d : Desc} {fq : List Desc} (htake : takeUse s.task.eng.fq = some (d, fq))
include htake

theorem State.plane_enters {a b c' : Nat}
    (ha : s.padRange true (s.g f.a.toNat) (sourceExtent (f.qual.getLsbD 1) (f.imm.toNat % 2 ^ 24) (planeWidth f d) (f.q 8 2 + 1))
      (Nat.max 1 (planeWidth f d / 8)) = some a)
    (hb : s.padRange false (s.g f.b.toNat) ((f.q 8 2 + 1) * recSize (Desc.planes d (planeSide f))) 256 = some b)
    (hc : planeScales f d = true → s.padRange true (s.g f.c.toNat) (8 * ((512 * (f.q 8 2 + 1) + 6) / 7)) 8 = some c') :
    s.EntersTile f d fq (.plane f) 0x281 0 false fun c => c.a = a ∧ c.b = b ∧ (planeScales f d = true → c.c = c') ∧ c.k = f.q 8 2 + 1 ∧
      c.side = planeSide f ∧ c.tr = f.qual.getLsbD 1 ∧ c.pitch = f.imm.toNat % 2 ^ 24 ∧
      ∀ p, p ∈ c.pages ↔ (∃ j, j < (if f.qual.getLsbD 1 then 64 * (f.q 8 2 + 1) else 128) ∧
          p ∈ pagesOf (a + j * (f.imm.toNat % 2 ^ 24)) (if f.qual.getLsbD 1 then 128 * planeWidth f d / 8
            else 64 * (f.q 8 2 + 1) * planeWidth f d / 8)) ∨
        planeScales f d = true ∧ p ∈ pagesOf c' (8 * ((512 * (f.q 8 2 + 1) + 6) / 7)) := by
  have hscale : (if planeScales f d then s.padRange true (s.g f.c.toNat) (8 * ((512 * (f.q 8 2 + 1) + 6) / 7)) 8 else some 0) =
      some (if planeScales f d then c' else 0) := by
    by_cases h : planeScales f d = true
    · rw [if_pos h, if_pos h, hc h]
    · rw [if_neg h, if_neg h]
  refine State.entersTile_of_exec (s.planeCmd f d a b (if planeScales f d then c' else 0)) rfl
    ((State.withDesc_of_take htake _ _ _).trans ?_) ⟨rfl, rfl, fun h => if_pos h, rfl, rfl, rfl, rfl, fun p => ?_⟩
  · unfold planeWidth planeSide at ha
    unfold planeSide at hb
    unfold planeScales planeSide at hscale
    dsimp only
    rw [ha]
    dsimp only
    rw [hscale]
    dsimp only
    rw [hb]
    rfl
  · refine List.mem_dedup.trans (List.mem_append.trans (or_congr mem_pages_sourceRuns ?_))
    by_cases h : planeScales f d = true <;> simp [h]

end

/-! ### FPUSH, and a tile command without a descriptor (R203, R204) -/

theorem State.withDesc_of_empty {s : State} (h : s.task.eng.fq = []) (op tile : Nat) (k : Desc → List Desc → State) :
    s.withDesc op tile k = s.trapEngine op 0x01 tile 0 := by
  rw [State.withDesc, h]
  rfl

/-- The effect of FPUSH. -/
def State.pushDesc (s : State) (f : Slot) : State :=
  if 8 ≤ s.task.eng.fq.length then s.trapEngine 0x280 0x02 0 0
  else match Desc.defect (s.g f.b.toNat ++ s.g f.a.toNat) with
    | some bit => s.trapEngine 0x280 0x03 0 bit
    | none => s.setEng { s.task.eng with fq := s.task.eng.fq ++ [s.g f.b.toNat ++ s.g f.a.toNat] }

theorem execFpush_eq (s : State) (f : Slot) : exec (.fpush f) s = guarded (.fpush f) f s (s.pushDesc f) := rfl

section
variable {s : State} {f : Slot} (hroom : s.task.eng.fq.length < 8)
include hroom

theorem State.pushDesc_of_good (h : Desc.defect (s.g f.b.toNat ++ s.g f.a.toNat) = none) :
    s.pushDesc f = s.setEng { s.task.eng with fq := s.task.eng.fq ++ [s.g f.b.toNat ++ s.g f.a.toNat] } := by
  rw [State.pushDesc, if_neg (Nat.not_le.2 hroom), h]

theorem State.pushDesc_of_bad (h : Desc.defect (s.g f.b.toNat ++ s.g f.a.toNat) ≠ none) :
    ∃ bit, s.pushDesc f = s.trapEngine 0x280 0x03 0 bit := by
  obtain ⟨bit, hbit⟩ := Option.ne_none_iff_exists'.1 h
  exact ⟨bit, by rw [State.pushDesc, if_neg (Nat.not_le.2 hroom), hbit]⟩

end

/-! ### The statement -/

section
variable (s : State) (f : Slot) (d : Desc)

theorem stepCount_eq : f.q 6 0 + 1 = (f.qual.extractLsb' 0 7).toNat + 1 := congrArg (· + 1) (Slot.q_eq f rfl)

theorem State.aKey_eq : s.aKey f d = s.padRange false (s.g f.a.toNat + BitVec.ofInt 64 (s.nestOffset f 0))
    (((f.qual.extractLsb' 0 7).toNat + 1) * (((d.extractLsb' 30 4).toNat + 5) * 1024 + 256)) 256 := by
  rw [State.aKey, stepCount_eq, recSize_planes]
  rfl

theorem bLength_ungrouped : bLength f d false =
    ((f.qual.extractLsb' 0 7).toNat + 1) * (((d.extractLsb' 39 4).toNat + 5) * 1024 + 256) := by
  rw [bLength, stepCount_eq, recSize_planes]
  rfl

theorem State.bKey_ungrouped : s.bKey f d false = s.padRange false (s.g f.b.toNat + BitVec.ofInt 64 (s.nestOffset f 1))
    (((f.qual.extractLsb' 0 7).toNat + 1) * (((d.extractLsb' 39 4).toNat + 5) * 1024 + 256)) 256 := by
  rw [State.bKey, bLength_ungrouped]
  rfl

end

theorem planeScales_eq (f : Slot) (d : Desc) : planeScales f d = d.getLsbD (if f.qual.getLsbD 0 then 44 else 43) := by
  rw [planeScales, descScaled_eq, descBit_eq]
  rfl

theorem planeWidth_eq (f : Slot) (d : Desc) :
    planeWidth f d = typeWidth (d.extractLsb' (if f.qual.getLsbD 0 then 34 else 25) 5) := by
  rw [planeWidth, descTy_eq, BitVec.ofNat_toNat, BitVec.setWidth_eq]
  rfl

theorem ofNat_tile (n : Nat) : BitVec.ofNat 2 (n % 4) = BitVec.ofNat 2 n := BitVec.eq_of_toNat_eq (by simp)

/-- DETAIL of an exponent mismatch: the tile's L in nine bits (R232). -/
theorem ofNat_pattern_nine (l : Int) : BitVec.ofNat 10 (patternOf 9 l) = (BitVec.ofInt 9 l).setWidth 10 := by
  have hlt := patternOf_lt 9 l
  rw [← ofNat_patternOf 9 l]
  apply BitVec.eq_of_toNat_eq
  simp only [BitVec.toNat_ofNat, BitVec.toNat_setWidth]
  omega

/-- Settles O30: FPUSH by the defects of a descriptor; every tile command by its ranges, which let it enter with its command or name
the trap. -/
theorem tileCommandsEnter : Obligations.TileCommandsEnter := by
  unfold Obligations.TileCommandsEnter
  refine ⟨⟨takeUse_cons, ?_⟩, ?_, ?_⟩
  · intro s f d q side good traps
    have htraps {i : Instr} {effect : State} {op tile detail : Nat} (cause : Nat) (hexec : exec i s = guarded i f s effect)
        (heffect : effect = s.trapEngine op cause tile detail) : traps i (BitVec.ofNat 8 cause) := fun hgo hmay => by
      obtain ⟨t, ht, htrapped, heng⟩ := State.trapsEngine_of_exec hgo hmay hexec heffect
      exact ⟨t, _, ht, htrapped, heng, syndEngine_cause .., syndEngine_slot .., syndEngine_cpos ..⟩
    have hgood : Desc.defect d = none ↔ good := defect_eq_none_iff d
    refine ⟨fun hgo hroom h => ?_, fun hfull => htraps 2 (execFpush_eq s f) (if_pos hfull), fun hroom h => ?_, fun hempty => ?_⟩
    · rw [execFpush_eq, guarded_goes hgo, State.pushDesc_of_good hroom (hgood.2 h)]
    · obtain ⟨bit, hbit⟩ := State.pushDesc_of_bad hroom (mt hgood.1 h)
      exact htraps 3 (execFpush_eq s f) hbit
    · have hnone {op tile : Nat} (k : Desc → List Desc → State) := State.withDesc_of_empty hempty op tile k
      exact ⟨htraps 1 rfl (hnone _), htraps 1 rfl (hnone _), htraps 1 rfl (hnone _), htraps 1 rfl (hnone _), htraps 1 rfl (hnone _),
        htraps 1 rfl (hnone _), htraps 1 rfl (hnone _)⟩
  · intro s f d fq htake e bolt core dest record lsb enters k acc off product
    have hproduct {i : Instr} {op b bLen : Nat} {grouped : Bool} (hexec : exec i s = guarded i f s (s.multiply f op grouped))
        (hlen : bLength f d grouped = bLen) (hb : s.bKey f d grouped = some b) : product i op b bLen := by
      intro a ha hacc
      have henters := State.product_enters htake ((s.aKey_eq f d).trans ha) hb hexec fun h => (descLsbe_eq d).symm ▸ hacc h
      rwa [hlen, stepCount_eq, recSize_planes, Slot.q_eq f (show 9 - 8 + 1 = 2 from rfl)] at henters
    refine ⟨fun b hb => hproduct (grouped := false) rfl (bLength_ungrouped f d) ((s.bKey_ungrouped f d).trans hb),
      fun b hb => hproduct (grouped := true) rfl rfl hb, State.mclr_enters htake, ?_, ?_, ?_⟩
    · intro n a ha
      have henters := State.mlda_enters htake (f := f) (a := a)
      rw [tileBytes_eq] at henters
      exact henters ha
    · exact fun b hb => State.mst_enters htake hb
    · intro side w steps pitch tr extent scales words a b c' ha hb hc
      have hsteps : f.q 8 2 + 1 = steps := congrArg (· + 1) (Slot.q_eq f rfl)
      have henters := State.plane_enters htake (f := f) (a := a) (b := b) (c' := c')
      rw [hsteps, planeWidth_eq, planeScales_eq, recSize_planes] at henters
      exact henters ha hb hc
  · intro s f d fq htake hmay dest traps rows k record off aKey bKey
    have htraps {i : Instr} {effect : State} {op : Nat} (cause tile detail : Nat) (hexec : exec i s = guarded i f s effect)
        (heffect : effect = s.trapEngine op cause tile detail) :
        traps i (BitVec.ofNat 8 cause) (BitVec.ofNat 2 tile) (BitVec.ofNat 10 detail) := fun hgo => by
      obtain ⟨t, ht, htrapped, heng⟩ := State.trapsEngine_of_exec hgo hmay hexec heffect
      exact ⟨t, _, ht, htrapped, heng, syndEngine_cause .., syndEngine_tile .., syndEngine_detail ..⟩
    have haKey : s.aKey f d = aKey := s.aKey_eq f d
    have hbKey : s.bKey f d false = bKey := s.bKey_ungrouped f d
    rw [← haKey, ← hbKey]
    refine ⟨fun ha => ?_, fun hb => ?_, fun ha => ?_, fun ha hb => ?_, fun ha hb hacc => ?_⟩
    · refine htraps (op := 0x28B) 6 dest 1 rfl ((State.withDesc_of_take htake _ _ _).trans ?_)
      rw [tileBytes_eq, ha]
    · rw [← ofNat_tile]
      refine htraps (op := 0x291) 6 _ 4 rfl ((State.withDesc_of_take htake _ _ _).trans ?_)
      dsimp only
      rw [hb]
    · exact ⟨htraps 6 dest 1 rfl (State.multiply_of_no_a htake ha), htraps 6 dest 1 rfl (State.multiply_of_no_a htake ha)⟩
    · obtain ⟨a, ha⟩ := Option.isSome_iff_exists.1 ha
      exact htraps 6 dest 2 rfl (State.multiply_of_no_b htake ha hb)
    · obtain ⟨a, ha⟩ := Option.isSome_iff_exists.1 ha
      obtain ⟨b, hb⟩ := Option.isSome_iff_exists.1 hb
      rw [← descLsbe_eq]
      refine ⟨fun hmark => htraps 4 dest 0 rfl (State.multiply_unmarked htake ha hb hacc hmark), fun hmark hl => ?_⟩
      rw [← ofNat_pattern_nine]
      exact htraps 5 dest _ rfl (State.multiply_mismatch htake ha hb hacc hmark hl)

end Sys2Proof.Machine

/-! PHASE and the steps of a declaration (R228, R229, R231). -/

namespace Sys2Proof.Machine

/-! ### The declared level (R229) -/

/-- A field of a core that the present rates of its commands do not concern (R229, R230). -/
def RateBlind {γ : Type} (ρ : Core → γ) : Prop := ∀ c run winClocks, ρ { c with run, winClocks } = ρ c

section
variable {γ : Type} {ρ : Core → γ} (h : RateBlind ρ)
include h

theorem State.rerateRuns_keeps (s : State) (i l : Nat) : ρ ((s.rerateRuns i).core l) = ρ (s.core l) := by
  unfold State.rerateRuns
  dsimp only
  split
  · rfl
  · refine (State.setCore_keeps (h _ _ _) l).trans (foldl_keeps (fun t => ρ (t.core l)) _ _ s fun s r => ?_)
    exact State.setCore_keeps (h _ _ _) l

theorem State.rerate_keeps (s : State) (i l : Nat) : ρ ((s.rerate i).core l) = ρ (s.core l) :=
  foldl_keeps (fun t => ρ (t.core l)) _ _ s fun s _ => State.rerateRuns_keeps h s _ l

end

/-- The sum of the INT values of the active declarations on a core, at most 8 (R229). -/
def State.activeInts (s : State) (l : Nat) : Nat := Nat.min 8 ((s.tasks.filter fun x =>
  x.id.live && x.id.lcore == l && x.phase.act).map fun x => Nat.min 8 x.phase.int).sum

/-- The declared level of a core is the sum of its active INT values (R229). -/
def State.LevelSet (s : State) (l : Nat) : Prop := (s.core l).phases = s.activeInts l

theorem State.refreshLevel_tasks (s : State) (l : Nat) : (s.refreshLevel l).tasks = s.tasks :=
  State.refreshLevel_blind (π := State.tasks) (fun _ _ => rfl) s l

theorem State.refreshLevel_levelSet (s : State) (l : Nat) : (s.refreshLevel l).LevelSet l := by
  have hlevel : ((s.refreshLevel l).core l).phases = s.activeInts l :=
    (State.rerate_keeps (ρ := Core.phases) (fun _ _ _ => rfl) _ l l).trans
      (congrArg Core.phases (State.core_setCore_of_eq rfl))
  rw [State.LevelSet, hlevel, State.activeInts, State.activeInts, State.refreshLevel_tasks]

/-! ### PHASE (R228) -/

theorem bitsOf_eq (x : W64) {hi lo w : Nat} (hw : hi - lo + 1 = w) : bitsOf x.toNat hi lo = (x.extractLsb' lo w).toNat := by
  rw [bitsOf, hw, BitVec.extractLsb'_toNat, Nat.shiftRight_eq_div_pow]

/-- The declaration that a PHASE operand makes (R228). -/
theorem TaskPhase.declare_eq (p : TaskPhase) (x : W64) (t0 : Nat) :
    let int := (x.extractLsb' 36 4).toNat
    let len := (x.extractLsb' 20 16).toNat
    let onset := (x.extractLsb' 0 20).toNat
    let on := decide (int ≠ 0 ∧ len ≠ 0)
    p.declare x t0 = ⟨int, len, onset, t0, on && decide (64 * onset < 4400), false, on, 8, false, p.uburst⟩ := by
  rw [TaskPhase.declare, bitsOf_eq x (show 39 - 36 + 1 = 4 from rfl), bitsOf_eq x (show 35 - 20 + 1 = 16 from rfl),
    bitsOf_eq x (show 19 - 0 + 1 = 20 from rfl)]
  rfl

/-! ### The steps of a declaration (R228, R229) -/

section
variable {s : State} {p : TaskPhase}

theorem State.prepositionDue_iff : s.prepositionDue p = true ↔ p.pend = true ∧ p.asked = false ∧ p.onsetTick ≤ s.dcc + 4400 := by
  simp [State.prepositionDue, and_assoc]

theorem State.onsetDue_iff : s.onsetDue p = true ↔ p.pend = true ∧ p.onsetTick ≤ s.dcc := by simp [State.onsetDue]

theorem State.rampDue_iff : s.rampDue p = true ↔
    p.act = true ∧ p.ramp = true ∧ p.level < 8 ∧ p.onsetTick + 256 * (p.level - 1) ≤ s.dcc := by
  simp [State.rampDue, and_assoc]

theorem State.phaseOver_iff : s.phaseOver p = true ↔ p.act = true ∧ p.onsetTick + 1024 * p.len ≤ s.dcc := by simp [State.phaseOver]

end

section
variable {s : State} {who : TaskRef} {x : Task} (hx : s.taskAt who = some x)
include hx

/-- A step that changes a declaration in its time changes that task, and its core's level follows. -/
theorem State.onPhase_spec {test : TaskPhase → Bool} (hdue : test x.phase = true) (f : TaskPhase → TaskPhase) :
    (s.onPhase who test f).taskAt who = some { x with phase := f x.phase } ∧ (s.onPhase who test f).LevelSet who.lcore ∧
      (s.onPhase who test f).mem = s.mem ∧ (s.onPhase who test f).dcc = s.dcc := by
  have heq : s.onPhase who test f = (s.onTask who fun t => { t with phase := f t.phase }).refreshLevel who.lcore := by
    rw [State.onPhase, hx, if_pos (by exact hdue)]
  rw [heq]
  refine ⟨?_, State.refreshLevel_levelSet _ _, ?_, ?_⟩
  · rw [State.taskAt_of_tasks (State.refreshLevel_tasks _ _)]
    exact State.taskAt_change hx fun _ => rfl
  · rw [State.refreshLevel_mem, State.onTask_mem]
  · rw [State.refreshLevel_blind (π := State.dcc) fun _ _ => rfl, State.onTask]
    split <;> rfl

theorem execPhaseOnset_of_due (hdue : s.onsetDue x.phase = true) : exec (.phaseOnset who) s = .next
    ((s.setCore { s.core who.lcore with stagger := some x.phase.onsetTick }).onPhase who (fun _ => true) fun p =>
      { p with pend := false, act := true, level := if p.ramp then 2 else 8 }) := by
  change execPhaseOnset who s = _
  rw [execPhaseOnset, hx]
  exact congrArg Host.Outcome.next (if_pos hdue)

/-- The first unstamped array start after an onset is staggered (R229). -/
theorem State.onset_stagger (f : TaskPhase → TaskPhase) : ((State.onPhase
    (s.setCore { s.core who.lcore with stagger := some x.phase.onsetTick }) who (fun _ => true) f).core who.lcore).stagger =
      some x.phase.onsetTick := by
  rw [State.onPhase, show State.taskAt (s.setCore _) who = some x from hx, if_pos (by rfl),
    State.refreshLevel_core (ρ := Core.stagger) ⟨fun _ _ _ _ => rfl, fun _ _ _ _ => rfl⟩,
    State.core_of_cores (State.onTask_cores _ _ _)]
  exact congrArg Core.stagger (State.core_setCore_of_eq rfl)

end

/-! ### The statement -/

/-- Settles O33: PHASE by the declaration that its operand makes, each step by the task that it changes; the level follows every
change of a declaration. -/
theorem phaseDeclarations : Obligations.PhaseDeclarations := by
  unfold Obligations.PhaseDeclarations
  intro level
  refine ⟨fun s f h => ?_, fun s who x hx => ?_⟩
  · intro operand int len onset on
    have hblind {β : Type} (π : State → β) (hπ : CoreBlind π) :=
      State.refreshLevel_blind hπ (s.setPhase (s.task.phase.declare operand s.dcc)) s.task.id.lcore
    refine ⟨_, guarded_goes h, hblind (fun t => { t with task := s.task, cores := s.cores }) fun _ _ => rfl,
      State.refreshLevel_levelSet _ _, ?_⟩
    rw [← TaskPhase.declare_eq]
    exact hblind State.task fun _ _ => rfl
  · intro p start becomes
    refine ⟨?_, ?_, ?_, ?_, ?_⟩
    · exact fun hdue => ⟨_, rfl, State.onPhase_spec hx (State.prepositionDue_iff.2 hdue) _⟩
    · exact fun hdue => ⟨_, execPhaseOnset_of_due hx (State.onsetDue_iff.2 hdue), State.onPhase_spec (s := s.setCore _) hx rfl _⟩
    · exact fun hpend hstart => ⟨_, execPhaseOnset_of_due hx (State.onsetDue_iff.2 ⟨hpend, hstart⟩), State.onset_stagger hx _⟩
    · exact fun hdue => ⟨_, rfl, State.onPhase_spec hx (State.rampDue_iff.2 hdue) _⟩
    · exact fun hdue => ⟨_, rfl, State.onPhase_spec hx (State.phaseOver_iff.2 hdue) _⟩

end Sys2Proof.Machine

/-! Tile commands from their queue to their unit: which one is next, when it starts, and how it leaves (R198 to R201, R210, R214, R216,
R225, R232). -/

namespace Sys2Proof.Machine

/-! ### The oldest commands (R199, R210, R214, R216) -/

/-- An oldest command stands in the queue behind commands of other partitions. -/
theorem oldestOf_split {seen : List Nat} {cs : List MCmd} {c : MCmd} (h : c ∈ oldestOf seen cs) : seen.contains c.who.part = false ∧
    ∃ pre post, cs = pre ++ c :: post ∧ ∀ x ∈ pre, x.who.part ≠ c.who.part := by
  induction cs generalizing seen with
  | nil => cases h
  | cons y cs ih =>
    rw [oldestOf] at h
    split at h
    next hseen =>
      obtain ⟨hc, pre, post, rfl, hpre⟩ := ih h
      refine ⟨hc, y :: pre, post, rfl, List.forall_mem_cons.2 ⟨fun e => ?_, hpre⟩⟩
      rw [e, hc] at hseen
      cases hseen
    next hseen =>
      rcases List.mem_cons.1 h with rfl | h
      · exact ⟨Bool.eq_false_iff.2 hseen, [], cs, rfl, fun x hx => nomatch hx⟩
      · obtain ⟨hc, pre, post, rfl, hpre⟩ := ih h
        rw [List.contains_cons, Bool.or_eq_false_iff, beq_eq_false_iff_ne] at hc
        exact ⟨hc.2, y :: pre, post, rfl, List.forall_mem_cons.2 ⟨hc.1.symm, hpre⟩⟩

theorem foldl_fixed {α : Type} {f : State → α → State} {l : List α} {s : State} (h : ∀ x ∈ l, f s x = s) : l.foldl f s = s := by
  induction l with
  | nil => rfl
  | cons x l ih =>
    obtain ⟨hx, hl⟩ := List.forall_mem_cons.1 h
    rw [List.foldl_cons, hx, ih hl]

/-- Where no oldest command has anything to settle, settling changes nothing. -/
theorem State.settleOldest_of_settled {s : State} {l : Nat} (h : s.unsettled l = false) : s.settleOldest l = s := by
  have hcmd := List.any_eq_false.1 h
  have holdest : (s.core l).oldest.foldl (fun acc c => acc.becomesOldest l c) s = s := by
    refine foldl_fixed fun c hc => if_pos (Option.isSome_iff_ne_none.2 fun hnone => hcmd c hc ?_)
    rw [hnone]
    rfl
  rw [State.settleOldest, holdest]
  refine foldl_fixed fun c hc => ?_
  have hsettled := (Bool.or_eq_false_iff.1 (Bool.eq_false_iff.2 (hcmd c hc))).2
  unfold State.readTable
  split
  · rfl
  next hread =>
    obtain ⟨hop, hgroups⟩ := not_or.1 hread
    rw [not_not] at hop
    rw [Bool.not_eq_true, Option.isSome_eq_false_iff] at hgroups
    rw [hop, Option.isNone_iff_eq_none.1 hgroups] at hsettled
    split
    next => rfl
    next d htable => simp [htable] at hsettled
    next gs htable =>
      refine if_pos ?_
      rw [htable] at hsettled
      simpa using hsettled

/-! ### The command that a unit takes next (R198, R200) -/

theorem foldl_least {α : Type} {key : α → Nat} {f : Option α → α → Option α} (hnone : ∀ c, f none c = some c)
    (hsome : ∀ d c, f (some d) c = if key c < key d then some c else some d) {l : List α} {m : α} (h : l.foldl f none = some m) :
    m ∈ l ∧ ∀ x ∈ l, key m ≤ key x := by
  have hfold (l : List α) (a : α) : l.foldl f (some a) = some (l.foldl (fun best x => if key x < key best then x else best) a) := by
    induction l generalizing a with
    | nil => rfl
    | cons y l ih => rw [List.foldl_cons, List.foldl_cons, hsome, ← apply_ite some, ih]
  cases l with
  | nil => cases h
  | cons a l =>
    rw [List.foldl_cons, hnone, hfold] at h
    obtain rfl := Option.some.inj h
    exact foldl_argmin key l a

/-- How far a partition is from the one that a unit has served last (R200). -/
def Core.turnAt (c : Core) (u : EngUnit) (x : MCmd) : Nat := turnOf (c.served.getD (unitIndex u) 15) x.who.part

section
variable {s : State} {l : Nat} {u : EngUnit} {c : MCmd} (h : s.nextCmd l u = some c)
include h

/-- What a unit takes next is the ready oldest command of the partition next in turn, and the unit is free. -/
theorem State.nextCmd_spec : s.unitFree l u = true ∧ c ∈ (s.core l).oldest ∧ s.cmdReady l c = true ∧
    ∀ x ∈ (s.core l).oldest, unitTakes u x.op = true → s.cmdReady l x = true → (s.core l).turnAt u c ≤ (s.core l).turnAt u x := by
  unfold State.nextCmd at h
  dsimp only at h
  split at h
  · cases h
  next hfree =>
    obtain ⟨hfold, -⟩ := Option.filter_eq_some_iff.1 h
    obtain ⟨hin, hleast⟩ := foldl_least (key := (s.core l).turnAt u) (fun _ => rfl) (fun _ _ => rfl) hfold
    obtain ⟨hoc, hready⟩ := List.mem_filter.1 hin
    refine ⟨?_, hoc, (of_decide_eq_true hready).2, fun x hx htakes hxready => hleast x (List.mem_filter.2 ⟨hx, ?_⟩)⟩
    · rw [Bool.or_eq_true, not_or, Bool.not_eq_true', Bool.not_eq_false] at hfree
      exact hfree.1
    · exact decide_eq_true ⟨htakes, hxready⟩

end

theorem State.unitFree_spec {s : State} {l : Nat} {u : EngUnit} (h : s.unitFree l u = true) :
    (∀ r ∈ (s.core l).run, unitTakes u r.cmd.op = true → r.cmd.away ≠ none) ∧ (u = .array → s.guest l = false) := by
  simp only [State.unitFree, Bool.and_eq_true, Bool.not_eq_true', List.any_eq_false, not_and, Bool.or_eq_true, bne_iff_ne,
    Option.isNone_iff_eq_none] at h
  obtain ⟨hrun, hguest⟩ := h
  exact ⟨hrun, fun hu => hguest.resolve_left (not_not.2 hu)⟩

theorem State.operandsFull_of_ready {s : State} {l : Nat} {c : MCmd} (h : s.cmdReady l c = true) :
    s.operandsFull l c = true ∧ c.smode = 0 := by
  simp only [State.cmdReady, Bool.and_eq_true, beq_iff_eq] at h
  exact ⟨h.1.1.1.2, h.1.1.1.1.2⟩

/-! ### Starts (R201, R216, R219) -/

theorem Core.freshWindow_eq (c : Core) (now : Nat) :
    ∃ window excess winParts, c.freshWindow now = { c with window, excess, winParts } := by
  unfold Core.freshWindow
  split
  · exact ⟨_, _, _, rfl⟩
  · exact ⟨c.window, c.excess, c.winParts, rfl⟩

/-- A field of a core that has been put back. -/
theorem State.setCore_field {γ : Type} (ρ : Core → γ) {s : State} {c : Core} {l : Nat} (h : c.lcore = l) :
    ρ ((s.setCore c).core l) = ρ c := congrArg ρ (State.core_setCore_of_eq h)

/-- A command that starts leaves the queue for its unit. -/
theorem State.startCmd_orders (s : State) (l : Nat) (u : EngUnit) (c : MCmd) : ((s.startCmd l u c).core l).mq = (s.core l).mq.erase c ∧
    ((s.startCmd l u c).core l).run = (s.core l).run ++ [s.started l c] := by
  obtain ⟨window, excess, winParts, hfresh⟩ := (s.core l).freshWindow_eq s.dcc
  have hl : ((s.core l).freshWindow s.dcc).lcore = l := by rw [hfresh]; rfl
  have hmq : ((s.core l).freshWindow s.dcc).mq = (s.core l).mq := by rw [hfresh]
  have hrun : ((s.core l).freshWindow s.dcc).run = (s.core l).run := by rw [hfresh]
  exact ⟨(State.setCore_field Core.mq (by exact hl)).trans (congrArg (·.erase c) hmq),
    (State.setCore_field Core.run (by exact hl)).trans (congrArg (· ++ [s.started l c]) hrun)⟩

theorem execTileCommandStart_of_next {s : State} {l : Nat} {u : EngUnit} {c : MCmd} (hsettled : s.unsettled l = false)
    (h : s.nextCmd l u = some c) : exec (.tileCommandStart l u) s = .next ((s.startCmd l u c).settleOldest l) := by
  change execTileCommandStart l u s = _
  rw [execTileCommandStart, State.settleOldest_of_settled hsettled, h]

/-- At the fullest clock the ticks of a run are its clocks (R201). -/
theorem Running.ends_of_full_rate {r : Running} (h : r.rate = 352) : r.ends = r.since + r.left + r.tail := by
  rw [Running.ends, h]
  omega

section
variable {s : State} (hclock : s.matrixClock = 44) {l : Nat} {c : MCmd}
include hclock

theorem State.matrixTicks_of_full (clocks : Nat) : s.matrixTicks clocks = clocks := by
  rw [State.matrixTicks, hclock]
  omega

/-- An MMA takes 8 clocks to begin, one for each pair of planes and K step, and 12 to end (R201). -/
theorem State.product_ends (hop : c.op = 0x288) (hrate : s.arrayRate (c.away.getD l) = 352) : (s.started l c).ends = s.dcc + 8 +
    ((c.desc.extractLsb' 30 4).toNat + 1) * ((c.desc.extractLsb' 39 4).toNat + 1) * c.k + 12 := by
  have harray : arrayOp c.op = true := by rw [hop]; rfl
  have hstarted : s.started l c = ⟨c, s.dcc + s.matrixTicks 8, c.work, 352, s.matrixTicks 12⟩ := by
    rw [State.started, if_pos harray, State.unitRate, if_pos harray, hrate]
  have hwork : c.work = ((c.desc.extractLsb' 30 4).toNat + 1) * ((c.desc.extractLsb' 39 4).toNat + 1) * c.k := by
    rw [MCmd.work, hop, if_neg (by decide), Nat.mul_one, Desc.planes, Desc.planes, if_neg Bool.false_ne_true, if_pos rfl,
      descField_eq c.desc (show 33 - 30 + 1 = 4 from rfl), descField_eq c.desc (show 42 - 39 + 1 = 4 from rfl)]
  rw [hstarted, Running.ends_of_full_rate rfl, State.matrixTicks_of_full hclock, State.matrixTicks_of_full hclock, hwork]

/-- An MCLR takes 64 clocks (R219). -/
theorem State.clear_ends (hop : c.op = 0x28A) : (s.started l c).ends = s.dcc + 64 := by
  have harray : ¬arrayOp c.op = true := by rw [hop]; decide
  have hrate : s.unitRate l c = 352 := by rw [State.unitRate, if_neg harray, hclock]
  rw [State.started, if_neg harray, if_pos hop, Running.ends_of_full_rate hrate]
  rfl

end

/-! ### Stamps (R216) -/

section
variable {s : State} {l : Nat} {c : MCmd} (hsettled : s.unsettled l = false) (h : s.nextStamped l = some c)
include hsettled h

theorem execStampedCommandStart_of_start (hmiss : s.missOf l c = none) :
    exec (.stampedCommandStart l) s = .next ((s.startCmd l .array c).settleOldest l) := by
  change execStampedCommandStart l s = _
  simp only [execStampedCommandStart, State.settleOldest_of_settled hsettled, h, hmiss]

theorem execStampedCommandStart_of_miss {d : Nat} (hmiss : s.missOf l c = some d) :
    exec (.stampedCommandStart l) s = .next ((s.engineFault l c 0x10 d).settleOldest l) := by
  change execStampedCommandStart l s = _
  simp only [execStampedCommandStart, State.settleOldest_of_settled hsettled, h, hmiss]

end

section
variable {s : State} {l : Nat} {c : MCmd}

theorem State.missOf_passed (h : c.passed = true ∨ s.resident l = false) : s.missOf l c = some 1 :=
  if_pos (by simpa using h)

theorem State.missOf_empty (hpassed : c.passed = false) (hresident : s.resident l = true) (hop : c.op = 0x288)
    (hfull : (s.core l).rangesFull (claimMark l c.who.part) c.reads = false) : s.missOf l c = some 2 := by
  have hne : ¬(c.op = 0x289 ∧ c.groups = none) := by rw [hop]; exact fun h => absurd h.1 (by decide)
  have hoperands : s.operandsFull l c = false := by
    rw [State.operandsFull, State.withTable, if_neg hne, if_neg hne, List.append_nil, hfull]
  rw [State.missOf, hpassed, hresident, hoperands]
  rfl

end

/-! ### Commands that leave (R199, R232) -/

/-- A field of a core that a command which leaves does not touch (R225, R230, R259). -/
def CommandBlind {γ : Type} (ρ : Core → γ) : Prop :=
  ∀ c lends mq run winClocks winParts idle, ρ { c with lends, mq, run, winClocks, winParts, idle } = ρ c

theorem State.dropCmd_eq (s : State) (l : Nat) (c : MCmd) : ∃ lends, s.dropCmd l c =
    ((s.core l).run.filter (·.cmd = c)).foldl (fun acc r => acc.leaveArray l r) (s.setCore { s.core l with
      lends, mq := (s.core l).mq.erase c, run := (s.core l).run.filter (·.cmd ≠ c), idle := s.dcc }) := by
  obtain ⟨lends, h⟩ := Core.unlend_eq c.pages (s.core l)
  exact ⟨lends, by rw [State.dropCmd, h]⟩

theorem State.dropCmd_orders (s : State) (l : Nat) (c : MCmd) : ((s.dropCmd l c).core l).mq = (s.core l).mq.erase c ∧
    ((s.dropCmd l c).core l).run = (s.core l).run.filter (·.cmd ≠ c) := by
  obtain ⟨lends, h⟩ := s.dropCmd_eq l c
  have horders := foldl_keeps (fun t : State => ((t.core l).mq, (t.core l).run)) (fun acc r => acc.leaveArray l r)
    ((s.core l).run.filter (·.cmd = c)) (s.setCore { s.core l with
      lends, mq := (s.core l).mq.erase c, run := (s.core l).run.filter (·.cmd ≠ c), idle := s.dcc })
    fun s r => State.leaveArray_core (ρ := fun c => (c.mq, c.run)) (fun _ _ _ _ => rfl) s l r l
  rw [← h] at horders
  exact Prod.mk.inj (horders.trans (State.setCore_field (fun c : Core => (c.mq, c.run)) rfl))

theorem State.dropCmd_core {γ : Type} {ρ : Core → γ} (hρ : CommandBlind ρ) (s : State) (l : Nat) (c : MCmd) (k : Nat) :
    ρ ((s.dropCmd l c).core k) = ρ (s.core k) := by
  obtain ⟨lends, h⟩ := s.dropCmd_eq l c
  rw [h]
  refine (foldl_keeps (fun t => ρ (t.core k)) _ _ _ fun s r =>
    State.leaveArray_core (fun c => hρ c c.lends c.mq c.run) s l r k).trans ?_
  exact State.setCore_keeps (hρ _ _ _ _ _ _ _) k

theorem State.dropCmd_blind {β : Type} {π : State → β} (hπ : CoreBlind π) (s : State) (l : Nat) (c : MCmd) :
    π (s.dropCmd l c) = π s :=
  (foldl_keeps π _ _ _ fun s r => State.leaveArray_blind hπ s l r).trans (hπ _ _)

theorem State.dropCmd_tasks (s : State) (l : Nat) (c : MCmd) : (s.dropCmd l c).tasks = s.tasks :=
  State.dropCmd_blind (π := State.tasks) (fun _ _ => rfl) s l c

/-- A command that is abandoned leaves its tile as it is, and a deferred fault at its task (R232). -/
theorem State.engineFault_spec {s : State} {l : Nat} {c : MCmd} {x : Task} (hx : s.taskAt ⟨l, c.who.part⟩ = some x)
    (cause detail : Nat) :
    let t := s.engineFault l c cause detail
    (t.core l).mq = (s.core l).mq.erase c ∧ (t.core l).run = (s.core l).run.filter (·.cmd ≠ c) ∧ t.mem = s.mem ∧
      (t.core l).tiles = (s.core l).tiles ∧ t.taskAt ⟨l, c.who.part⟩ = some { x with eng := { x.eng with
        faults := x.eng.faults ++ [⟨0, c.who.bolt, c.who.order, 3, syndEngine cause 2 c.op c.tile detail c.who.cpos.toNat⟩] } } := by
  obtain ⟨hmq, hrun⟩ := s.dropCmd_orders l c
  have hcore : (s.engineFault l c cause detail).core l = (s.dropCmd l c).core l := State.core_of_cores (State.onTask_cores _ _ _) l
  refine ⟨by rw [hcore, hmq], by rw [hcore, hrun], State.engineFault_mem .., ?_, ?_⟩
  · rw [hcore, State.dropCmd_core (ρ := Core.tiles) fun _ _ _ _ _ _ _ => rfl]
  · exact State.taskAt_change ((State.taskAt_of_tasks (s.dropCmd_tasks l c) _).trans hx) fun _ => rfl

theorem execOperandWatchdog_of_late {s : State} {l part : Nat} {c : MCmd} (h : s.lateOperands l part = some c) :
    exec (.operandWatchdog l part) s = .next ((s.engineFault l c 0x11 0).settleOldest l) := by
  change execOperandWatchdog l part s = _
  rw [execOperandWatchdog, h]

end Sys2Proof.Machine

/-! The elements of a tile: of one that is filled, of a product, and of one that a partial has joined (R48, R59 to R61, R205, R213, R214,
R226). -/

namespace Sys2Proof.Machine

/-! ### Filled tiles (R48) -/

theorem getD_map_range {α : Type} (g : Nat → α) {k n : Nat} (h : n < k) (d : α) : ((List.range k).map g).toArray.getD n d = g n := by
  simp [Array.getD, h]

theorem sget_filterMap {α : Type} [DecidableEq α] {d g : Nat → α} {z : α} {ks : List Nat} {n : Nat} (hn : n ∈ ks) :
    sget d (ks.filterMap fun k => if g k = z then none else some (k, g k)) n = if g n = z then d n else g n := by
  have hout {ks : List Nat} (h : n ∉ ks ∨ g n = z) :
      sget d (ks.filterMap fun k => if g k = z then none else some (k, g k)) n = d n := by
    induction ks with
    | nil => rfl
    | cons k ks ih =>
      rw [List.mem_cons, not_or] at h
      rw [List.filterMap_cons]
      split
      next => exact ih (h.imp_left And.right)
      next x hx =>
        by_cases hk : g k = z
        · rw [if_pos hk] at hx
          cases hx
        · rw [if_neg hk] at hx
          cases hx
          rw [sget, if_neg, ih (h.imp_left And.right)]
          rintro rfl
          exact h.elim (fun h => h.1 rfl) hk
  by_cases hz : g n = z
  · rw [hout (.inr hz), if_pos hz]
  · rw [if_neg hz]
    induction ks with
    | nil => cases hn
    | cons k ks ih =>
      rw [List.filterMap_cons]
      by_cases hk : n = k
      · subst hk
        rw [if_neg hz]
        exact if_pos rfl
      · have hrest := ih ((List.mem_cons.1 hn).resolve_left hk)
        split
        next => exact hrest
        next x hx =>
          split at hx
          · cases hx
          · cases hx
            rw [sget, if_neg hk, hrest]

theorem Tile.filled_elem (t : Tile) (g : Nat → AElem) {n : Nat} (hn : n < 16384) : (t.filled g).elem n = g n := by
  rw [Tile.elem, Tile.filled, sget_filterMap (List.mem_range.2 hn)]
  split
  next h => exact h.symm
  next => rfl

theorem Tile.elem_accsat (t : Tile) (b : Bool) : ({ t with accsat := b } : Tile).elem = t.elem := rfl

/-- A partial joins a tile element by element (R226). -/
theorem Tile.merge_elem (t p : Tile) {n : Nat} (hn : n < 16384) :
    (t.merge p).elem n = ((t.elem n).add (p.elem n).tag (p.elem n).q).1 := by
  rw [Tile.merge, Tile.elem_accsat, Tile.filled_elem _ _ hn, getD_map_range _ hn]

/-! ### Products (R205, R213, R214) -/

/-- Line `i` of K step `st` of an operand, as the array reads it (R205). -/
def MCmd.line (c : MCmd) (m : Memory) (side : Bool) (key st i : Nat) : RecLine :=
  readLine m (key + st * (((c.desc.extractLsb' (if side then 39 else 30) 4).toNat + 5) * 1024 + 256)) (Desc.planes c.desc side)
    ((intFmt (Desc.ty c.desc side)).any fun x => !x.2) i

theorem lineAt_operand (c : MCmd) (m : Memory) (side : Bool) (key : Nat) {st i : Nat} (hst : st < c.k) (hi : i < 128) :
    lineAt (c.operand m side key) st i = c.line m side key st i := by
  rw [lineAt, MCmd.operand, getD_map_range _ hst, getD_map_range _ hi, recSize_planes]
  rfl

/-- The sum of the products of a row and a column over every K step (R59, R60, R213). -/
def MCmd.rowSum (c : MCmd) (m : Memory) (l : Int) (key i j : Nat) (x : AElem) : AElem × Bool :=
  (List.range c.k).foldl (fun acc st => addLines l c.rnd (c.line m false c.a st i) (c.line m true key st j) acc) (x, false)

theorem bandOf_lt {bs : List (Nat × Nat)} {i g : Nat} (h : bandOf bs i = some g) : g < bs.length := by
  induction bs generalizing i g with
  | nil => cases h
  | cons b bs ih =>
    rw [bandOf] at h
    split at h
    · cases h
      exact Nat.succ_pos _
    · obtain ⟨g', hg, rfl⟩ := Option.map_eq_some_iff.1 h
      exact Nat.succ_lt_succ (ih hg)

section
variable {c : MCmd} {m : Memory} {base : Tile} {n : Nat} (hn : n < 16384)
include hn

/-- Rows outside every band keep their elements (R214). -/
theorem MCmd.product_elem_outside (h : bandOf c.bands (n / 128) = none) : (c.product m base).elem n = base.elem n := by
  rw [MCmd.product, Tile.elem_accsat, Tile.filled_elem _ _ hn, getD_map_range _ hn, h]

theorem MCmd.product_elem {g : Nat} (h : bandOf c.bands (n / 128) = some g) : (c.product m base).elem n =
    (c.rowSum m base.l (c.bands.getD g (0, 0)).2 (n / 128) (n % 128) (base.elem n)).1 := by
  have hg : g < c.bands.length := bandOf_lt h
  have hkey : (c.bands.map fun x => c.operand m true x.2).toArray.getD g #[] = c.operand m true (c.bands.getD g (0, 0)).2 := by
    simp [Array.getD, hg]
  rw [MCmd.product, Tile.elem_accsat, Tile.filled_elem _ _ hn, getD_map_range _ hn, h]
  refine congrArg Prod.fst (List.foldl_ext _ _ _ fun acc st hst => ?_)
  have hst : st < c.k := List.mem_range.1 hst
  rw [hkey, lineAt_operand c m false c.a hst (by omega), lineAt_operand c m true _ hst (by omega)]

end

/-- The one band of an MMA holds every row (R213). -/
theorem MCmd.product_elem_mma {c : MCmd} (hop : c.op = 0x288) (m : Memory) (base : Tile) {i j : Nat} (hi : i < 128) (hj : j < 128) :
    (c.product m base).elem (128 * i + j) = (c.rowSum m base.l c.b i j (base.elem (128 * i + j))).1 := by
  have hrow : (128 * i + j) / 128 = i := by omega
  have hcol : (128 * i + j) % 128 = j := by omega
  have hbands : c.bands = [(128, c.b)] := if_pos hop
  have hband : bandOf c.bands ((128 * i + j) / 128) = some 0 := by
    rw [hbands, hrow]
    exact if_pos hi
  rw [MCmd.product_elem (by omega) hband, hbands, hrow, hcol]
  rfl

end Sys2Proof.Machine

/-! What a tile command leaves when it completes (R205, R207, R211, R213, R214, R219, R220, R222). -/

namespace Sys2Proof.Machine

/-! ### Leaving the engine (R199, R211) -/

/-- The element of a kind that a command delivers (R211). -/
def MCmd.element (c : MCmd) (kind : BitVec 4) : W64 :=
  kind ++ BitVec.ofNat 2 (if c.op = 0x281 then 0 else c.tile) ++ BitVec.ofNat 10 c.op ++ (0 : BitVec 16) ++ c.who.cpos

theorem elemWord_eq (kind : BitVec 4) (tile op : Nat) (cpos : W32) :
    elemWord kind.toNat tile op cpos.toNat = kind ++ BitVec.ofNat 2 tile ++ BitVec.ofNat 10 op ++ (0 : BitVec 16) ++ cpos := by
  have hkind := kind.isLt
  have hcpos := cpos.isLt
  apply BitVec.eq_of_toNat_eq
  rw [elemWord, BitVec.toNat_ofNat]
  simp only [toNat_append_eq, BitVec.ofNat_eq_ofNat, BitVec.toNat_ofNat]
  omega

/-- The queue and the units of a core, and the elements that a task has not popped. -/
def State.cmdView (s : State) (l : Nat) (r : TaskRef) : List MCmd × List Running × Option (List Elem) :=
  ((s.core l).mq, (s.core l).run, (s.taskAt r).map (·.eng.fifo0))

/-- In `t`, the command has left the queue and the units of `s`, and its elements have come behind the others (R211). -/
def State.Leaves (s : State) (l : Nat) (c : MCmd) (t : State) : Prop :=
  (t.core l).mq = (s.core l).mq.erase c ∧ (t.core l).run = (s.core l).run.filter (·.cmd ≠ c) ∧
    ∀ x, s.taskAt ⟨l, c.who.part⟩ = some x → (t.taskAt ⟨l, c.who.part⟩).map (·.eng.fifo0) = some (x.eng.fifo0 ++
      (if c.con then [⟨c.element 1, c.who.bolt⟩] else []) ++ if c.res then [⟨c.element 2, c.who.bolt⟩] else [])

/-- A change of a task that leaves its elements alone. -/
theorem State.onTask_cmdView (s : State) {q : TaskRef} {f : Task → Task} (hid : ∀ t, (f t).id = t.id)
    (hfifo : ∀ t, (f t).eng.fifo0 = t.eng.fifo0) (l : Nat) (r : TaskRef) : (s.onTask q f).cmdView l r = s.cmdView l r := by
  rw [State.cmdView, State.cmdView, State.core_of_cores (State.onTask_cores _ _ _), taskAt_onTask s q r f hid, Option.map_map]
  congr 3
  funext t
  by_cases h : t.is q = true <;> simp [h, hfifo]

theorem State.onIssuer_cmdView (s : State) (k : Nat) (who : Issuer) (f : BoltWork → BoltWork) (l : Nat) (r : TaskRef) :
    (s.onIssuer k who f).cmdView l r = s.cmdView l r := by
  unfold State.onIssuer
  dsimp only
  split
  · exact State.onTask_cmdView s (by exact fun _ => rfl) (by exact fun _ => rfl) l r
  · have hwork := State.onHelper_work s k (who.part - 16) fun h =>
      { h with work := if h.work.num = who.bolt then f h.work else h.work }
    have htask := congrArg (fun w : Task × List Task × List Node => ((w.1 :: w.2.1).find? (·.is r)).map (·.eng.fifo0)) hwork
    exact congrArg₂ (fun (x : Core) y => (x.mq, x.run, y)) (State.core_of_cores (State.onHelper_cores _ _ _ _) l) htask

theorem State.cmdView_chunkBlind (l : Nat) (r : TaskRef) : ChunkBlind fun s => State.cmdView s l r where
  core s _ _ _ _ := congrArg (fun x : List MCmd × List Running => (x.1, x.2, (s.taskAt r).map (·.eng.fifo0)))
    (State.setCore_keeps (ρ := fun c => (c.mq, c.run)) rfl l)
  rest _ _ _ _ _ _ _ := rfl
  issuer s _ who f _ := State.onIssuer_cmdView s _ who f l r

theorem State.tiles_chunkBlind (l : Nat) : ChunkBlind fun s => (State.core s l).tiles where
  core _ _ _ _ _ := State.setCore_keeps (ρ := Core.tiles) rfl l
  rest _ _ _ _ _ _ _ := rfl
  issuer s _ who f _ := by rw [State.core_of_cores (s.onIssuer_cores _ who f)]

theorem State.engineReads_chunk {β : Type} {π : State → β} (h : ChunkBlind π) (s : State) (l : Nat) (c : MCmd) :
    π (s.engineReads l c) = π s := by
  have hread (ids : List Nat) : π (if ids.isEmpty then s.setCore { s.core l with touched := s.dcc }
      else (s.setCore { s.core l with touched := s.dcc }).onIssuer l c.who (·.sawWriters ids)) = π s := by
    split
    · exact h.core s l _ _ _
    · exact (h.issuer _ l c.who (·.sawWriters ids) fun _ => ⟨rfl, rfl⟩).trans (h.core s l _ _ _)
  exact hread _

theorem State.noteCap_if (s : State) (l : Nat) (c : MCmd) (b : Bool) : let t := if b then s.noteCap l c else s
    t.mem = s.mem ∧ t.cores = s.cores ∧ ∀ r, t.cmdView l r = s.cmdView l r := by
  cases b with
  | false => exact ⟨rfl, rfl, fun _ => rfl⟩
  | true => exact ⟨State.noteCap_mem s l c, State.onTask_cores _ _ _, State.onTask_cmdView s (by exact fun _ => rfl) (by exact fun _ => rfl) l⟩

section
variable {s u : State} {l : Nat} {c : MCmd}

theorem State.finishCmd_core {γ : Type} {ρ : Core → γ} (hρ : CommandBlind ρ) (k : Nat) : ρ ((u.finishCmd l c).core k) = ρ (u.core k) := by
  rw [State.finishCmd, State.core_of_cores (State.onTask_cores _ _ _), State.dropCmd_core hρ]

/-- The elements of a command enter its partition's FIFO, the consumed one first (R211). -/
theorem State.finishCmd_fifo {x : Task} (hx : u.taskAt ⟨l, c.who.part⟩ = some x) :
    ((u.finishCmd l c).taskAt ⟨l, c.who.part⟩).map (·.eng.fifo0) = some (x.eng.fifo0 ++
      (if c.con then [⟨c.element 1, c.who.bolt⟩] else []) ++ if c.res then [⟨c.element 2, c.who.bolt⟩] else []) := by
  rw [State.finishCmd, State.taskAt_change ((State.taskAt_of_tasks (u.dropCmd_tasks l c) _).trans hx) (by exact fun _ => rfl),
    Option.map_some, MCmd.element, MCmd.element, ← elemWord_eq, ← elemWord_eq]
  cases c.con <;> cases c.res <;> simp [TaskEng.addElem]

theorem State.finishCmd_holdAt (r : TaskRef) : (u.finishCmd l c).holdAt r = u.holdAt r := by
  rw [State.finishCmd, State.holdAt, taskAt_onTask _ _ _ _ (by exact fun _ => rfl), Option.map_map,
    State.taskAt_of_tasks (u.dropCmd_tasks l c)]
  refine congrArg (fun g => (u.taskAt r).map g) (funext fun t => ?_)
  dsimp only [Function.comp]
  split <;> rfl

theorem State.finishCmd_leaves (hview : u.cmdView l ⟨l, c.who.part⟩ = s.cmdView l ⟨l, c.who.part⟩) :
    s.Leaves l c (u.finishCmd l c) := by
  simp only [State.cmdView, Prod.mk.injEq] at hview
  obtain ⟨hmq, hrun, hfifo⟩ := hview
  obtain ⟨hmq', hrun'⟩ := u.dropCmd_orders l c
  have hcore : (u.finishCmd l c).core l = (u.dropCmd l c).core l := State.core_of_cores (State.onTask_cores _ _ _) l
  refine ⟨by rw [hcore, hmq', hmq], by rw [hcore, hrun', hrun], fun x hx => ?_⟩
  rw [hx, Option.map_some] at hfifo
  obtain ⟨y, hy, hyfifo⟩ := Option.map_eq_some_iff.1 hfifo
  rw [State.finishCmd_fifo hy, hyfifo]

end

/-! ### Commands that write a tile (R213, R219, R220) -/

theorem Core.tile_setTile {c : Core} {k : Nat} (hk : k < c.tiles.length) (x : Tile) (j : Nat) :
    (c.setTile k x).tile j = if j = k then x else c.tile j := by
  rw [Core.tile, Core.setTile, List.getD_eq_getElem?_getD, List.getElem?_set]
  by_cases hj : j = k
  · rw [if_pos hj.symm, if_pos hk, if_pos hj]
    rfl
  · rw [if_neg (Ne.symm hj), if_neg hj, Core.tile, List.getD_eq_getElem?_getD]

/-- A tile of a core is replaced. -/
def State.putTile (s : State) (l k : Nat) (x : Tile) : State := s.setCore ((s.core l).setTile k x)

/-- In `t`, a command of `s` has replaced its tile by `x`, and nothing of the other tiles and of memory has changed. -/
def State.Replaces (s : State) (l : Nat) (c : MCmd) (x : Tile) (t : State) : Prop :=
  (t.mem = s.mem ∧ ∀ k, k ≠ c.tile → (t.core l).tile k = (s.core l).tile k) ∧ (t.core l).tile c.tile = x

section
variable {s u v : State} {l : Nat} {c : MCmd}

theorem State.putTile_cmdView (k : Nat) (x : Tile) (r : TaskRef) : (u.putTile l k x).cmdView l r = u.cmdView l r :=
  congrArg (fun x : List MCmd × List Running => (x.1, x.2, (u.taskAt r).map (·.eng.fifo0)))
    (State.setCore_keeps (ρ := fun c => (c.mq, c.run)) rfl l)

/-- A command that has replaced its tile completes. -/
theorem State.finishCmd_replaces (htile : c.tile < (s.core l).tiles.length) {x : Tile} (hmem : u.mem = s.mem)
    (htiles : (u.core l).tiles = (s.core l).tiles) (hv : v.cores = (u.putTile l c.tile x).cores) (hvmem : v.mem = u.mem) :
    s.Replaces l c x (v.finishCmd l c) := by
  have hput (k : Nat) : ((v.finishCmd l c).core l).tile k = if k = c.tile then x else (s.core l).tile k := by
    rw [State.finishCmd_core (ρ := fun c => c.tile k) fun _ _ _ _ _ _ _ => rfl, State.core_of_cores hv]
    refine (State.setCore_field (fun c : Core => c.tile k) rfl).trans ((Core.tile_setTile (htiles ▸ htile) x k).trans ?_)
    rw [Core.tile, htiles]
    rfl
  refine ⟨⟨by rw [State.finishCmd_mem, hvmem, hmem], fun k hk => ?_⟩, ?_⟩
  · rw [hput, if_neg hk]
  · rw [hput, if_pos rfl]

end

section
variable {s : State} {l : Nat} {c : MCmd} (htile : c.tile < (s.core l).tiles.length)
include htile

/-- MCLR (R219). -/
theorem State.clear_completes : let t := (s.putTile l c.tile (Tile.cleared (Desc.lsbe c.desc))).finishCmd l c
    s.Replaces l c (Tile.cleared (Desc.lsbe c.desc)) t ∧ s.Leaves l c t :=
  ⟨State.finishCmd_replaces htile rfl rfl rfl rfl, State.finishCmd_leaves (State.putTile_cmdView _ _ _)⟩

/-- MLDA of a sound image (R220). -/
theorem State.load_completes {x : Tile} (hload : s.loadedTile c = .ok x) :
    s.Replaces l c x (s.finishLoad l c) ∧ s.Leaves l c (s.finishLoad l c) := by
  have hfinish : s.finishLoad l c = ((s.engineReads l c).putTile l c.tile x).finishCmd l c := by
    rw [State.finishLoad, hload]
    rfl
  rw [hfinish]
  exact ⟨State.finishCmd_replaces htile (s.engineReads_mem l c) (State.engineReads_chunk (State.tiles_chunkBlind l) s l c) rfl rfl,
    State.finishCmd_leaves ((State.putTile_cmdView _ _ _).trans (State.engineReads_chunk (State.cmdView_chunkBlind l _) s l c))⟩

/-- A product whose comparison passes: the tile has the elements that `t` makes of it (R213, R224). -/
theorem State.multiply_completes (hchecked : c.checked s.mem = true) (t : Tile → Tile) : ∃ x : Tile,
    x.elem = (t ((s.core l).tile c.tile)).elem ∧ s.Replaces l c x (s.finishMultiply l c t) ∧ s.Leaves l c (s.finishMultiply l c t) := by
  let cap := s.capsPlanes l c && (c.cappable false || c.cappable true)
  let y := t ((s.core l).tile c.tile)
  let x : Tile := if cap then { y with capd := true } else y
  let u := (s.engineReads l c).putTile l c.tile x
  have htiles : ((s.engineReads l c).core l).tiles = (s.core l).tiles := State.engineReads_chunk (State.tiles_chunkBlind l) s l c
  have hsame : ((s.engineReads l c).core l).tile c.tile = (s.core l).tile c.tile := congrArg (·.getD c.tile .reset) htiles
  have hfinish : s.finishMultiply l c t = (if cap then u.noteCap l c else u).finishCmd l c := by
    rw [State.finishMultiply, if_pos hchecked]
    dsimp only
    rw [hsame]
    rfl
  obtain ⟨hmem, hcores, hview⟩ := u.noteCap_if l c cap
  refine ⟨x, by dsimp only [x]; split <;> rfl, ?_⟩
  rw [hfinish]
  refine ⟨State.finishCmd_replaces htile (s.engineReads_mem l c) htiles hcores hmem, State.finishCmd_leaves ((hview _).trans ?_)⟩
  exact (State.putTile_cmdView _ _ _).trans (State.engineReads_chunk (State.cmdView_chunkBlind l _) s l c)

end

/-! ### Commands that write bytes (R205, R207, R222) -/

/-- Bytes written in a row. -/
theorem Memory.read_writeCells_row (m : Memory) (k : Nat) (bs : List Byte) (a : Nat) :
    (m.writeCells (cellsAt k bs)).read a = if k ≤ a ∧ a < k + bs.length then bs.getD (a - k) 0 else m.read a := by
  split
  next h =>
    have hi : a - k < bs.length := by omega
    have hread := (Memory.holds_writeCells m k bs).read hi
    rw [Nat.add_sub_cancel' h.1] at hread
    rw [hread, List.getD_eq_getElem _ _ hi]
  next h => exact Memory.read_writeCells_outside m (by omega)

/-- In `t`, the bytes `bs` stand at a command's destination, whose granules are full, and the rest of memory is as in `s`. -/
def State.Wrote (s : State) (c : MCmd) (bs : List Byte) (t : State) : Prop :=
  (∀ a, t.mem.read a = if c.b ≤ a ∧ a < c.b + bs.length then bs.getD (a - c.b) 0 else s.mem.read a) ∧
    ∀ i l' o, i < bs.length → corePadOf (c.b + i) = some (l', o) → (t.core l').isFull (o / 16) = true

section
variable {s : State} {l : Nat} {c : MCmd}

theorem State.finishCmd_wrote {u v : State} {bs : List Byte} (hu : u.mem = s.mem) (hmem : v.mem = (u.engineWrite l c bs).mem)
    (hfull : ∀ k, (v.core k).full = ((u.engineWrite l c bs).core k).full) : s.Wrote c bs (v.finishCmd l c) := by
  refine ⟨fun a => ?_, fun i l' o hi hpad => ?_⟩
  · rw [State.finishCmd_mem, hmem, State.engineWrite, State.showOf_mem, hu, Memory.read_writeCells_row]
  · rw [State.finishCmd_core (ρ := fun c => c.isFull (o / 16)) fun _ _ _ _ _ _ _ => rfl, Core.isFull, hfull]
    exact u.show_isFull _ (by rw [cellsAt_keys, List.mem_range'_1]; omega) hpad

/-- The rows that MST writes, as images (R49, R222). -/
def State.rowImages (s : State) (l : Nat) (c : MCmd) : List Byte :=
  ((List.range (128 * c.rows)).map fun n => (((s.core l).tile c.tile).elem (128 * c.row + n)).image).flatten

/-- MST into a core pad writes at once (R222). -/
theorem State.store_completes (hpad : (corePadOf c.b).isSome = true) : s.Wrote c (s.rowImages l c) (s.finishStore l c) ∧
    ((s.finishStore l c).core l).tiles = (s.core l).tiles ∧ s.Leaves l c (s.finishStore l c) := by
  have hfinish : s.finishStore l c = (s.engineWrite l c (s.rowImages l c)).finishCmd l c := by
    rw [State.finishStore, if_pos hpad]
    rfl
  rw [hfinish]
  refine ⟨State.finishCmd_wrote rfl rfl fun _ => rfl, ?_, State.finishCmd_leaves (State.showOf_chunk (State.cmdView_chunkBlind l _) s _ _)⟩
  rw [State.finishCmd_core (ρ := Core.tiles) fun _ _ _ _ _ _ _ => rfl]
  exact State.showOf_chunk (State.tiles_chunkBlind l) s _ _

/-- The bytes that an MST outside the core pads leaves in the hold (R182, R222). -/
def State.heldRows (s : State) (l : Nat) (c : MCmd) : HoldItem :=
  .moved ((cellsAt c.b (s.rowImages l c)).map fun y => (s.padKey y.1, y.2))

/-- MST elsewhere: the issuing bolt holds the bytes (R182, R222). -/
theorem State.store_holds (hpad : corePadOf c.b = none) : (s.finishStore l c).mem = s.mem ∧
    (∀ x, s.taskAt ⟨l, c.who.part⟩ = some x → x.bolt.work.num = c.who.bolt → c.who.part < 16 →
      ((s.finishStore l c).taskAt ⟨l, c.who.part⟩).map (·.bolt.work.hold) = some (x.bolt.work.hold ++ [s.heldRows l c])) ∧
    s.Leaves l c (s.finishStore l c) := by
  have hfinish : s.finishStore l c =
      (s.onIssuer l c.who fun w => { w with hold := w.hold ++ [s.heldRows l c] }).finishCmd l c := by
    rw [State.finishStore, if_neg (by rw [hpad]; exact Bool.false_ne_true)]
    rfl
  rw [hfinish]
  refine ⟨by rw [State.finishCmd_mem, State.onIssuer_mem], fun x hx hnum hpart => ?_, State.finishCmd_leaves ?_⟩
  · have hx' : s.holdAt ⟨l, c.who.part⟩ = some (c.who.bolt, x.bolt.work.hold) := by rw [State.holdAt, hx, ← hnum]; rfl
    have hheld := (State.finishCmd_holdAt (l := l) (c := c) _).trans (State.holdAt_hold hpart hx' (s.heldRows l c))
    obtain ⟨y, hy, hyhold⟩ := Option.map_eq_some_iff.1 hheld
    rw [hy, Option.map_some, (Prod.mk.inj hyhold).2]
  · exact s.onIssuer_cmdView _ _ _ _ _

/-- PLANE of a sound source (R207). -/
theorem State.plane_completes {bs : List Byte} {clamp : Bool} (hplane : s.planeOut l c = .ok (bs, clamp)) :
    s.Wrote c bs (s.finishPlane l c) ∧ s.Leaves l c (s.finishPlane l c) := by
  let cap := s.capsPlanes l c && c.cappable c.side
  let u := (s.engineReads l c).engineWrite l c bs
  let bound := (u.taskAt ⟨l, c.who.part⟩).elim 0 (·.id.abind)
  let mark (k : Nat) : Tile := if clamp && bound.getLsbD k then { (u.core l).tile k with clamp := true } else (u.core l).tile k
  let v := u.setCore { u.core l with tiles := (List.range 4).map mark }
  have hfinish : s.finishPlane l c = (if cap then v.noteCap l c else v).finishCmd l c := by
    rw [State.finishPlane, hplane]
  obtain ⟨hmem, hcores, hview⟩ := v.noteCap_if l c cap
  rw [hfinish]
  refine ⟨State.finishCmd_wrote (s.engineReads_mem l c) hmem fun k => ?_, State.finishCmd_leaves ((hview _).trans ?_)⟩
  · rw [State.core_of_cores hcores]
    exact State.setCore_keeps (ρ := Core.full) rfl k
  · have hv : v.cmdView l ⟨l, c.who.part⟩ = u.cmdView l ⟨l, c.who.part⟩ :=
      congrArg (fun x : List MCmd × List Running => (x.1, x.2, (u.taskAt ⟨l, c.who.part⟩).map (·.eng.fifo0)))
        (State.setCore_keeps (ρ := fun c => (c.mq, c.run)) rfl l)
    rw [hv]
    exact (State.showOf_chunk (State.cmdView_chunkBlind l _) _ _ _).trans (State.engineReads_chunk (State.cmdView_chunkBlind l _) s l c)

end

/-! ### The unit of a command (R198) -/

section
variable {s : State} {l : Nat} {c : MCmd}

theorem execTileCommandComplete_of_ending {u : EngUnit} (h : s.endingCmd l u = some c) :
    exec (.tileCommandComplete l u) s = .next (s.finish l c) := by
  change execTileCommandComplete l u s = _
  rw [execTileCommandComplete, h]

theorem State.finish_plane (hop : c.op = 0x281) : s.finish l c = s.finishPlane l c := if_pos hop

theorem State.finish_product (hop : arrayOp c.op = true) :
    s.finish l c = s.finishMultiply l c fun t => c.product s.mem (c.base t) := by
  have hne : c.op ≠ 0x281 := by
    rintro e
    rw [e] at hop
    exact absurd hop (by decide)
  rw [State.finish, if_neg hne, if_pos hop]

theorem State.finish_clear (hop : c.op = 0x28A) :
    s.finish l c = (s.putTile l c.tile (Tile.cleared (Desc.lsbe c.desc))).finishCmd l c := by
  rw [State.finish, hop]
  rfl

theorem State.finish_load (hop : c.op = 0x28B) : s.finish l c = s.finishLoad l c := by
  rw [State.finish, hop]
  rfl

theorem State.finish_store (hop : c.op = 0x291) : s.finish l c = s.finishStore l c := by
  rw [State.finish, hop]
  rfl

theorem State.finishPlane_of_bad {w : Nat} (h : s.planeOut l c = .error w) :
    s.finishPlane l c = s.engineFault l c 0x12 (w % 1024) := by
  rw [State.finishPlane, h]

theorem State.finishLoad_of_bad {row : Nat} (h : s.loadedTile c = .error row) : s.finishLoad l c = s.engineFault l c 0x13 row := by
  rw [State.finishLoad, h]

theorem State.finishMultiply_of_failed (h : c.checked s.mem = false) (t : Tile → Tile) :
    s.finishMultiply l c t = s.chargeAll (boltId (claimMark l c.who.part) c.who.bolt) ⟨.core, 0, 0⟩ :=
  if_neg (by rw [h]; exact Bool.false_ne_true)

end

end Sys2Proof.Machine

/-! Tile commands on a neighbour's array, excess activity and the rest of a pad (R225 to R227, R230, R233). -/

namespace Sys2Proof.Machine

/-! ### Migration (R225 to R227) -/

section
variable {s : State} {l : Nat}

theorem State.hostsGuest_empty {nb : Nat} (h : s.hostsGuest nb = true) : (s.core nb).mq = [] ∧ (s.core nb).run = [] := by
  simp only [State.hostsGuest, Bool.and_eq_true, List.isEmpty_iff] at h
  obtain ⟨⟨⟨hqueues, -⟩, -⟩, -⟩ := h
  exact hqueues

/-- A command migrates to the idle array of a ring neighbour, and only one that accumulates, may migrate and has no stamp. -/
theorem State.migrant_spec {part nb : Nat} {c : MCmd} (h : s.migrant l part = some (c, nb)) :
    (nb = l / 12 * 12 + (l + 11) % 12 ∨ nb = l / 12 * 12 + (l + 1) % 12) ∧ (s.core nb).mq = [] ∧ (s.core nb).run = [] ∧
      c.acc = true ∧ c.desc.getLsbD 45 = true ∧ c.smode = 0 := by
  unfold State.migrant at h
  dsimp only at h
  split at h
  · cases h
  next c' _ =>
    split at h
    next hmay =>
      obtain ⟨nb', hfind, he⟩ := Option.map_eq_some_iff.1 h
      obtain ⟨rfl, rfl⟩ := Prod.mk.inj he
      simp only [Bool.and_eq_true] at hmay
      obtain ⟨⟨⟨⟨⟨-, hacc⟩, hbit⟩, -⟩, -⟩, hready⟩ := hmay
      rw [descField_eq c'.desc (show 45 - 45 + 1 = 1 from rfl), descBit_eq] at hbit
      obtain ⟨hmq, hrun⟩ := State.hostsGuest_empty (List.find?_some hfind)
      have hnb : nb' ∈ [l / 12 * 12 + (l + 11) % 12, l / 12 * 12 + (l + 1) % 12] := List.mem_of_find?_eq_some hfind
      exact ⟨by simpa using hnb, hmq, hrun, hacc, hbit, (State.operandsFull_of_ready hready).2⟩
    · cases h

theorem execCommandMigration_of_migrant {part nb : Nat} {c : MCmd} (h : s.migrant l part = some (c, nb)) :
    let s1 := s.setCore ((s.core nb).freshWindow s.dcc)
    exec (.commandMigration l part) s = .next ((s1.setCore { s1.core l with
      mq := (s1.core l).mq.erase c
      run := (s1.core l).run ++ [s1.started l { c with away := some nb }] }).settleOldest l) := by
  change execCommandMigration l part s = _
  rw [execCommandMigration, h]

/-- The commands that come back stand before the others, and have left the neighbour's array (R227). -/
theorem State.recallFrom_spec {nb : Nat} (h : ((s.core l).run.filter fun r => r.cmd.away = some nb) ≠ []) :
    ((s.recallFrom l nb).core l).mq =
        (((s.core l).run.filter fun r => r.cmd.away = some nb).map fun r => { r.cmd with away := none }) ++ (s.core l).mq ∧
      ((s.recallFrom l nb).core l).run = ((s.core l).run.filter fun r => r.cmd.away ≠ some nb) ∧
      ((s.recallFrom l nb).core l).tiles = (s.core l).tiles := by
  have hblind : WindowBlind fun c => (c.mq, c.run, c.tiles) := fun _ _ _ _ => rfl
  have hcore := (foldl_keeps (fun t : State => ((t.core l).mq, (t.core l).run, (t.core l).tiles)) (fun acc r => acc.leaveArray l r)
    ((s.core l).run.filter fun r => r.cmd.away = some nb) (s.setCore ((s.core l).recall nb))
    fun s r => State.leaveArray_core hblind s l r l).trans (State.setCore_field (fun c : Core => (c.mq, c.run, c.tiles)) rfl)
  rw [State.recallFrom, if_neg (by rwa [List.isEmpty_iff])]
  obtain ⟨hmq, hrest⟩ := Prod.mk.inj hcore
  obtain ⟨hrun, htiles⟩ := Prod.mk.inj hrest
  exact ⟨hmq, hrun, htiles⟩

theorem State.returning_away {nb : Nat} {c : MCmd} {b : Bool} (h : s.returning l = some (c, nb, b)) :
    ((s.core l).run.filter fun r => r.cmd.away = some nb) ≠ [] := by
  obtain ⟨r, hr, hback⟩ := List.exists_of_findSome?_eq_some h
  refine List.ne_nil_of_mem (List.mem_filter.2 ⟨hr, decide_eq_true ?_⟩)
  split at hback
  · cases hback
  next k haway =>
    have hk : k = nb := by
      split at hback
      · cases hback
        rfl
      · split at hback
        · cases hback
          rfl
        · cases hback
    rw [haway, hk]

theorem execMigratedPartialAdd_of_recall {nb : Nat} {c : MCmd} (h : s.returning l = some (c, nb, false)) :
    exec (.migratedPartialAdd l) s = .next (s.recallFrom l nb) := by
  change execMigratedPartialAdd l s = _
  rw [execMigratedPartialAdd, h]

theorem execMigratedPartialAdd_of_end {nb : Nat} {c : MCmd} (h : s.returning l = some (c, nb, true)) :
    exec (.migratedPartialAdd l) s = .next (s.finishMultiply l c fun t => t.merge (c.product s.mem (Tile.cleared t.l))) := by
  change execMigratedPartialAdd l s = _
  rw [execMigratedPartialAdd, h]

end

/-! ### Undeclared bursts (R230) -/

theorem Task.ref_of_is {x : Task} {r who : TaskRef} (hr : x.is r = true) (hwho : x.is who = true) : r = who := by
  simp only [Task.is, Bool.and_eq_true, beq_iff_eq] at hr hwho
  obtain ⟨⟨-, hcore⟩, hpart⟩ := hr
  obtain ⟨⟨-, hcore'⟩, hpart'⟩ := hwho
  cases r
  cases who
  exact congrArg₂ TaskRef.mk (hcore.symm.trans hcore') (hpart.symm.trans hpart')

/-- A change of every listed task reaches each of them once. -/
theorem taskAt_foldl_onTask {f : Task → Task} (hid : ∀ t, (f t).id = t.id) {rs : List TaskRef} (hnodup : rs.Nodup) {s : State}
    {who : TaskRef} {x : Task} (hx : s.taskAt who = some x) :
    (rs.foldl (fun acc r => acc.onTask r f) s).taskAt who = some (if who ∈ rs then f x else x) := by
  induction rs generalizing s x with
  | nil => exact hx
  | cons r rs ih =>
    obtain ⟨hr, hnodup⟩ := List.nodup_cons.1 hnodup
    have his : x.is who = true := List.find?_some (p := fun t : Task => t.is who) hx
    by_cases he : r = who
    · subst he
      rw [List.foldl_cons, ih hnodup (State.taskAt_change hx hid), if_neg hr, if_pos List.mem_cons_self]
    · have hsame : (s.onTask r f).taskAt who = some x := by
        rw [taskAt_onTask s r who f hid, hx, Option.map_some, if_neg fun h => he (Task.ref_of_is h his)]
      rw [List.foldl_cons, ih hnodup hsame]
      simp [Ne.symm he]

/-- UBURST counts a burst, up to its largest value (R230). -/
def Task.burst (t : Task) : Task :=
  { t with phase := { t.phase with
    uburst := if t.phase.uburst = BitVec.allOnes 32 then t.phase.uburst else t.phase.uburst + 1 } }

theorem Task.burst_toNat (t : Task) : t.burst.phase.uburst.toNat = Nat.min (t.phase.uburst.toNat + 1) (2 ^ 32 - 1) := by
  change BitVec.toNat (if t.phase.uburst = BitVec.allOnes 32 then t.phase.uburst else t.phase.uburst + 1) = _
  have hmin (n : Nat) : Nat.min (n + 1) (2 ^ 32 - 1) = if n = 2 ^ 32 - 1 then 2 ^ 32 - 1 else Nat.min (n + 1) (2 ^ 32 - 1) := by
    split
    next h => rw [h]; rfl
    next => rfl
  split
  next h => rw [h]; rfl
  next h =>
    have hne : t.phase.uburst.toNat ≠ 2 ^ 32 - 1 := fun e => h (BitVec.eq_of_toNat_eq (e.trans (by decide)))
    have hlt := t.phase.uburst.isLt
    rw [BitVec.toNat_add_of_lt (by simp; omega)]
    exact (Nat.min_eq_left (by simp; omega)).symm

section
variable {s : State} {l : Nat}

/-- The windows in excess so far, with the one that ends (R230). -/
def State.excessNow (s : State) (l : Nat) : Nat :=
  if (s.core l).burstLimit < (s.windowClocks l + 7) / 8 then (s.core l).excess + 1 else 0

/-- The next window begins. -/
def State.nextWindow (s : State) (l : Nat) : State :=
  s.setCore { s.core l with window := (s.core l).window + 64, winClocks := 0, winParts := [], excess := s.excessNow l }

/-- The array of a core is throttled to its declared level, or to 2 (R230). -/
def State.throttle (s : State) (l : Nat) : State :=
  (s.setCore { s.core l with thrt := true, thrLvl := if (s.core l).phases = 0 then 2 else (s.core l).phases, excess := 0 }).rerate l

/-- The partitions whose commands ran in the window that ends (R230). -/
def State.windowParts (s : State) (l : Nat) : List TaskRef := ((s.core l).winParts ++ (s.arrayRuns l).map (·.1)).dedup

theorem State.throttle_core {γ : Type} {ρ : Core → γ} (hρ : RateBlind ρ) : ρ ((s.throttle l).core l) = ρ { s.core l with
    thrt := true, thrLvl := if (s.core l).phases = 0 then 2 else (s.core l).phases, excess := 0 } :=
  (State.rerate_keeps hρ _ l l).trans (congrArg ρ (State.core_setCore_of_eq rfl))

theorem State.throttle_blind {β : Type} {π : State → β} (hπ : CoreBlind π) : π (s.throttle l) = π s :=
  (foldl_keeps π _ _ _ fun s _ => State.rerateRuns_blind hπ s _).trans (hπ _ _)

theorem execUndeclaredBurst_of_due (hdue : s.windowDue l = true) : exec (.undeclaredBurst l) s = .next (
    if s.excessNow l < 5 then s.nextWindow l
    else (s.windowParts l).foldl (fun acc r => acc.onTask r Task.burst) ((s.nextWindow l).throttle l)) := by
  have hphases : ((s.nextWindow l).core l).phases = (s.core l).phases := State.setCore_field Core.phases rfl
  have hexcess : (if decide ((s.core l).burstLimit < (s.windowClocks l + 7) / 8) then (s.core l).excess + 1 else 0) = s.excessNow l := by
    rw [State.excessNow]
    simp only [decide_eq_true_eq]
  change execUndeclaredBurst l s = _
  rw [execUndeclaredBurst, hdue]
  dsimp only
  rw [hexcess, State.throttle, hphases]
  rfl

/-- What UNDECLARED_BURST makes of the array's window and throttle, and of the tasks whose commands ran in it (R230). -/
def State.Closes (s : State) (l : Nat) (t : State) : Prop :=
  t.mem = s.mem ∧ (t.core l).window = (s.core l).window + 64 ∧
    (t.core l).excess = (if s.excessNow l < 5 then s.excessNow l else 0) ∧
    (t.core l).thrt = ((s.core l).thrt || decide (5 ≤ s.excessNow l)) ∧
    (t.core l).thrLvl = (if s.excessNow l < 5 then (s.core l).thrLvl else if (s.core l).phases = 0 then 2 else (s.core l).phases) ∧
    ∀ who ∈ (s.core l).winParts ++ (s.arrayRuns l).map (·.1), ∀ x, s.taskAt who = some x → ∃ y, t.taskAt who = some y ∧
      y.phase.uburst.toNat =
        if s.excessNow l < 5 then x.phase.uburst.toNat else Nat.min (x.phase.uburst.toNat + 1) (2 ^ 32 - 1)

theorem State.nextWindow_closes (h : s.excessNow l < 5) : s.Closes l (s.nextWindow l) := by
  have hcore := State.setCore_field (s := s) (fun c : Core => (c.window, c.excess, c.thrt, c.thrLvl))
    (show ({ s.core l with window := (s.core l).window + 64, winClocks := 0, winParts := [], excess := s.excessNow l } : Core).lcore = l
      from rfl)
  simp only [Prod.mk.injEq] at hcore
  obtain ⟨hwindow, hexcess, hthrt, hlevel⟩ := hcore
  refine ⟨rfl, hwindow, ?_, ?_, ?_, fun who _ x hx => ⟨x, hx, (if_pos h).symm⟩⟩
  · rw [if_pos h]
    exact hexcess
  · rw [decide_eq_false (Nat.not_le.2 h), Bool.or_false]
    exact hthrt
  · rw [if_pos h]
    exact hlevel

/-- The fifth window in excess throttles the array and counts for every partition that ran in it. -/
theorem State.throttle_closes (h : ¬s.excessNow l < 5) :
    s.Closes l ((s.windowParts l).foldl (fun acc r => acc.onTask r Task.burst) ((s.nextWindow l).throttle l)) := by
  have hnext : (s.nextWindow l).core l =
      { s.core l with window := (s.core l).window + 64, winClocks := 0, winParts := [], excess := s.excessNow l } :=
    State.core_setCore_of_eq rfl
  have hcore := (s.nextWindow l).throttle_core (l := l) (ρ := fun c => (c.window, c.excess, c.thrt, c.thrLvl)) fun _ _ _ => rfl
  have hfold := foldl_keeps State.cores _ (s.windowParts l) ((s.nextWindow l).throttle l)
    fun t r => State.onTask_cores t r Task.burst
  rw [← State.core_of_cores hfold, hnext] at hcore
  simp only [Prod.mk.injEq] at hcore
  obtain ⟨hwindow, hexcess, hthrt, hlevel⟩ := hcore
  refine ⟨?_, hwindow, ?_, ?_, ?_, fun who hwho x hx => ⟨x.burst, ?_, ?_⟩⟩
  · rw [foldl_keeps State.mem _ _ _ fun t r => State.onTask_mem t r _]
    exact State.throttle_blind (π := State.mem) fun _ _ => rfl
  · rw [if_neg h, hexcess]
  · rw [hthrt, decide_eq_true (Nat.not_lt.1 h), Bool.or_true]
  · rw [if_neg h, hlevel]
  · have hx' : ((s.nextWindow l).throttle l).taskAt who = some x :=
      (State.taskAt_of_tasks (State.throttle_blind (π := State.tasks) fun _ _ => rfl) who).trans hx
    rw [State.windowParts, taskAt_foldl_onTask (by exact fun _ => rfl) (List.nodup_dedup _) hx', if_pos (List.mem_dedup.2 hwho)]
  · rw [if_neg h, Task.burst_toNat]

theorem execUndeclaredBurst_spec (hdue : s.windowDue l = true) : ∃ t, exec (.undeclaredBurst l) s = .next t ∧ s.Closes l t := by
  refine ⟨_, execUndeclaredBurst_of_due hdue, ?_⟩
  split
  next h => exact State.nextWindow_closes h
  next h => exact State.throttle_closes h

/-! ### Retention (R233) -/

theorem execRetentionEntry_of_due (h : s.retentionDue l = true) :
    exec (.retentionEntry l) s = .next (s.setCore { s.core l with rest := .entering (s.dcc + s.sramTicks 4096) }) :=
  congrArg Host.Outcome.next (if_pos h)

theorem execRetentionExit_of_due (h : s.wakeDue l = true) : exec (.retentionExit l) s = .next (s.setCore { s.core l with
    rest := .leaving (s.dcc + s.sramTicks 4608), touched := s.dcc + s.sramTicks 4608 }) :=
  congrArg Host.Outcome.next (if_pos h)

end

end Sys2Proof.Machine

/-! Settles the statement that tile commands start, migrate, are watched and complete. -/

namespace Sys2Proof.Machine

/-- What MMA and MMAG leave, element by element (R213, R214). -/
theorem State.product_completes {s : State} {l : Nat} {c : MCmd} (htile : c.tile < (s.core l).tiles.length)
    (harray : arrayOp c.op = true) (hchecked : c.checked s.mem = true) : ∃ x : Tile,
    x.elem = (c.product s.mem (c.base ((s.core l).tile c.tile))).elem ∧ s.Replaces l c x (s.finish l c) ∧
      s.Leaves l c (s.finish l c) := by
  rw [State.finish_product harray]
  exact State.multiply_completes htile hchecked fun t => c.product s.mem (c.base t)

theorem MCmd.base_eq (c : MCmd) (t : Tile) : c.base t = if c.acc then t else Tile.cleared (c.desc.extractLsb' 55 9).toInt := by
  rw [MCmd.base, descLsbe_eq]

/-- Settles O35. A unit's choice is the least in turn of the ready oldest commands, and every completion is one of four shapes: a tile
replaced, bytes written, bytes held, or a command abandoned. DETAIL 1 of a missed stamp while the core is not resident is log 24's
choice, and that operands are read and results written in the completing step is log 19's. -/
theorem tileCommandsRun : Obligations.TileCommandsRun := by
  unfold Obligations.TileCommandsRun
  refine ⟨⟨?_, ?_, ?_, ?_, ?_, ?_, ?_, ?_, ?_⟩, ?_⟩
  · intro s l u c hsettled hnext core away t
    obtain ⟨hfree, holdest, hready, hleast⟩ := State.nextCmd_spec hnext
    obtain ⟨hrun, hguest⟩ := State.unitFree_spec hfree
    obtain ⟨hmq, hrun'⟩ := s.startCmd_orders l u c
    exact ⟨(oldestOf_split holdest).2, (State.operandsFull_of_ready hready).1, hrun, hguest, hleast,
      execTileCommandStart_of_next hsettled hnext, by rw [State.settleOldest_mem, State.startCmd_mem], hmq, hrun'⟩
  · exact fun s l c hclock => ⟨State.product_ends hclock, State.clear_ends hclock⟩
  · intro s l c hsettled hnext
    refine ⟨?_, fun h => State.missOf_passed (.inl h), fun h => State.missOf_passed (.inr h), State.missOf_empty⟩
    cases hmiss : s.missOf l c with
    | none => exact execStampedCommandStart_of_start hsettled hnext hmiss
    | some d => exact execStampedCommandStart_of_miss hsettled hnext hmiss
  · exact fun s l cause detail c x hx => State.engineFault_spec hx cause detail
  · exact fun s l part c hlate => execOperandWatchdog_of_late hlate
  · intro s l part nb c hmigrant
    obtain ⟨hnb, hmq, hrun, hacc, hbit, hmode⟩ := State.migrant_spec hmigrant
    exact ⟨hnb, hmq, hrun, hacc, hbit, hmode, execCommandMigration_of_migrant hmigrant⟩
  · intro s l nb c
    refine ⟨fun h => ?_, fun h hchecked htile => ?_⟩
    · exact ⟨_, execMigratedPartialAdd_of_recall h, s.recallFrom_mem l nb, State.recallFrom_spec (State.returning_away h)⟩
    · obtain ⟨x, hx, ⟨⟨hmem, -⟩, hreplaced⟩, -⟩ := State.multiply_completes htile hchecked
        fun t => t.merge (c.product s.mem (Tile.cleared t.l))
      refine ⟨_, execMigratedPartialAdd_of_end h, hmem, fun n hn => ?_⟩
      rw [hreplaced, hx, Tile.merge_elem _ _ hn]
  · exact fun s l hdue => execUndeclaredBurst_spec hdue
  · exact fun s l => ⟨execRetentionEntry_of_due, execRetentionExit_of_due⟩
  · intro s l u c hending htile home lsb word completes writes others image unsigned rec_
    have hexec := execTileCommandComplete_of_ending hending
    have hcompletes {p : State → Prop} (hp : p (s.finish l c)) (h : s.Leaves l c (s.finish l c)) : completes p :=
      ⟨_, hexec, hp, h⟩
    refine ⟨fun hop => ?_, fun hop x hload => ?_, fun hop row hbad => ?_, fun hop hpad => ?_, fun hop hpad => ?_,
      fun hop bs clamp hplane => ?_, fun hop w hbad => ?_, fun hop hchecked => ?_, fun hop hchecked => ?_, fun hop hchecked => ?_⟩
    · obtain ⟨hreplaced, hleaves⟩ := State.clear_completes htile
      rw [← State.finish_clear hop] at hreplaced hleaves
      refine hcompletes ?_ hleaves
      rwa [descLsbe_eq] at hreplaced
    · obtain ⟨hreplaced, hleaves⟩ := State.load_completes htile hload
      rw [← State.finish_load hop] at hreplaced hleaves
      exact hcompletes hreplaced hleaves
    · rw [hexec, State.finish_load hop, State.finishLoad_of_bad hbad]
    · obtain ⟨hwrote, htiles, hleaves⟩ := State.store_completes hpad
      rw [← State.finish_store hop] at hwrote htiles hleaves
      exact hcompletes ⟨hwrote, htiles⟩ hleaves
    · obtain ⟨hmem, hheld, hleaves⟩ := State.store_holds hpad
      rw [← State.finish_store hop] at hmem hheld hleaves
      exact hcompletes ⟨hmem, hheld⟩ hleaves
    · obtain ⟨hwrote, hleaves⟩ := State.plane_completes hplane
      rw [← State.finish_plane hop] at hwrote hleaves
      exact hcompletes hwrote hleaves
    · rw [hexec, State.finish_plane hop, State.finishPlane_of_bad hbad]
    · obtain ⟨x, hx, ⟨hothers, hreplaced⟩, hleaves⟩ := State.product_completes htile (by rw [hop]; rfl) hchecked
      refine hcompletes ⟨hothers, fun i j hi hj => ?_⟩ hleaves
      rw [hreplaced, hx, MCmd.product_elem_mma hop _ _ hi hj, MCmd.base_eq]
      rfl
    · obtain ⟨x, hx, ⟨hothers, hreplaced⟩, hleaves⟩ := State.product_completes htile (by rw [hop]; rfl) hchecked
      refine hcompletes ⟨hothers, fun n hn => ?_⟩ hleaves
      have hbands : c.bands = c.groups.getD [] := if_neg (by rw [hop]; decide)
      rw [hreplaced, hx, ← hbands]
      cases hband : bandOf c.bands (n / 128) with
      | none =>
        rw [MCmd.product_elem_outside hn hband, MCmd.base_eq]
      | some g =>
        rw [MCmd.product_elem hn hband, MCmd.base_eq]
        rfl
    · rw [hexec, State.finish_product hop, State.finishMultiply_of_failed hchecked]

end Sys2Proof.Machine

/-! What a step takes: an input, an instruction of the test port, a stage of the boot, an event that is due, a helper's turn (R261, R380,
R386, R389, R420, log 2). -/

namespace Sys2Proof.Machine

/-! ### Inputs (R389, R420) -/

theorem State.perform_of_next {s t : State} {i : Instr} (h : exec i s = .next t) : s.perform i = .next (s.later t) := by
  rw [State.perform, h, Out.andThen_next]

/-- A step that the outside world causes is performed when every function that asks for it is enabled. -/
theorem State.performFor_of_enabled {s t : State} {i : Instr} (henabled : ∀ fn, hostFunction i = some fn → fn ≤ s.dev.vfs)
    (ht : exec i s = .next t) : s.performFor i = .next (s.later t) := by
  have hall : (hostFunction i).all s.enabledFn = true := by
    simpa [Option.all_eq_true, State.enabledFn] using henabled
  rw [State.performFor, if_pos hall, State.perform_of_next ht]

theorem State.performFor_of_disabled {s : State} {i : Instr} {fn : Nat} (hfn : hostFunction i = some fn) (hlt : s.dev.vfs < fn) :
    s.performFor i = .next (s.later s) := by
  have hall : (hostFunction i).all s.enabledFn = false := by simp [hfn, State.enabledFn, hlt]
  rw [State.performFor, hall, if_neg Bool.false_ne_true]

theorem step_of_input {s : State} {x : Input} {rest : List Input} (h : s.firstInput s.inputs = some (x, rest)) :
    step s = State.takeInput { s with inputs := rest } x := by
  rw [step, State.oneStep, h]

theorem step_of_no_input {s : State} (h : s.firstInput s.inputs = none) :
    step s = if s.pkg.powered then s.ownStep else .fault .poweredDown := by
  rw [step, State.oneStep, h]

theorem step_of_powered {s : State} (h : s.firstInput s.inputs = none ∧ s.pkg.powered = true) : step s = s.ownStep := by
  rw [step_of_no_input h.1, if_pos h.2]

/-! ### What the device does by itself (R380, R386, R420) -/

section
variable {s : State} (hpending : s.tap.pending = none)
include hpending

theorem State.ownStep_of_stopped (h : s.tap.stopped = true) : s.ownStep = .next s := by
  rw [State.ownStep, hpending, h, if_pos rfl]

section
variable (hstopped : s.tap.stopped = false)
include hstopped

/-- The next stage of the boot, whose outcome is free (R420). -/
theorem State.ownStep_of_booting (h : s.booting = true) : s.ownStep = s.perform (.bootStage ((s.measured 6 1).getLsbD 0)) := by
  simp only [State.ownStep, hpending, hstopped, h, Bool.false_eq_true, if_false, if_true]

variable (hbooting : s.booting = false)
include hbooting

theorem State.ownStep_of_early (h : s.dev.bootstage < 3) : s.ownStep = .next (s.later s) := by
  simp only [State.ownStep, hpending, hstopped, hbooting, h, Bool.false_eq_true, if_false, if_true]

variable (hstage : 3 ≤ s.dev.bootstage)
include hstage

theorem State.ownStep_of_due {i : Instr} (h : s.due = some i) : s.ownStep = s.perform i := by
  simp only [State.ownStep, hpending, hstopped, hbooting, Nat.not_lt.2 hstage, h, Bool.false_eq_true, if_false]

theorem State.ownStep_of_none_due (h : s.due = none) : s.ownStep = s.issueNext := by
  simp only [State.ownStep, hpending, hstopped, hbooting, Nat.not_lt.2 hstage, h, Bool.false_eq_true, if_false]

end

end

/-- With nothing else to be run, a step in a helper's turn is what the selected helper does. -/
theorem step_of_issueHelper {s t : State} (hidle : s.idle) (hturn : s.turn = .helper) (h : s.issueHelper = .next t) :
    step s = .next (s.later t.rotate) := by
  obtain ⟨hin, hpow, htap, hstop, hboot, hstage, hdue⟩ := hidle
  rw [step_of_powered ⟨hin, hpow⟩, State.ownStep_of_none_due htap hstop hboot hstage hdue]
  simp only [State.issueNext, hturn, h, Out.andThen_next]

theorem State.issueHelper_of_instruction {s : State} (hmode : s.hlp.mode = .running) (hruns : s.runs s.hlp.lcore = true)
    (hcharged : s.hlp.charged = none) (hfetch : s.hFetchFault = none) :
    s.issueHelper = exec (decodeHelper s.helperWord) s := by
  simp [State.issueHelper, hmode, hruns, hcharged, hfetch]

/-! ### The statement -/

/-- Settles O5: the branch of a step that each thing to be run takes. -/
theorem stepRunsOtherWork : Obligations.StepRunsOtherWork := by
  intro s asked quiet
  refine ⟨fun i rest t hin hfn ht => ?_, fun i rest fn hin hfn hlt => ?_, fun fn off n v rest t hin hfn ht => ?_,
    fun fn off n rest hin hle => ?_, fun c t hq hc ht => ?_, fun hq hc hs hb => ⟨(s.measured 6 1).getLsbD 0, fun t ht => ?_⟩,
    fun hq hc hs hb hlt => ?_, fun i t hq hc hs hb hle hdue ht => ?_,
    fun t hidle hturn hmode hruns hcharged hfetch ht => ?_, fun hq hc hs => ?_, fun hin hpow => ?_⟩
  · exact (step_of_input hin).trans (State.performFor_of_enabled hfn ht)
  · exact (step_of_input hin).trans (State.performFor_of_disabled hfn hlt)
  · exact (step_of_input hin).trans (State.performFor_of_enabled hfn ht)
  · rw [step_of_input hin, State.takeInput, if_pos (by simpa [State.enabledFn] using hle)]
    rfl
  · rw [step_of_powered hq, State.ownStep, hc]
    exact State.perform_of_next ht
  · rw [step_of_powered hq, State.ownStep_of_booting hc hs hb, State.perform_of_next ht]
  · rw [step_of_powered hq, State.ownStep_of_early hc hs hb hlt]
  · rw [step_of_powered hq, State.ownStep_of_due hc hs hb hle hdue, State.perform_of_next ht]
  · exact step_of_issueHelper hidle hturn ((State.issueHelper_of_instruction hmode hruns hcharged hfetch).trans ht)
  · rw [step_of_powered hq, State.ownStep_of_stopped hc hs]
  · rw [step_of_no_input hin, hpow, if_neg Bool.false_ne_true]

end Sys2Proof.Machine

/-! Nest slots: their index points in order, and the image from which NSET loads one (R254 to R256). -/

namespace Sys2Proof.Machine

/-! ### The place of an index point (R255) -/

/-- The number that indices spell under their bounds, the first index counting fastest. -/
def placeOfPoint : List Nat → List Nat → Nat
  | b :: bs, i :: is => i + b * placeOfPoint bs is
  | _, _ => 0

/-- Every index lies below its bound. -/
def IndicesBelow (bs is : List Nat) : Prop := ∀ d, d < bs.length → is.getD d 0 < bs.getD d 0

theorem indicesBelow_cons {b i : Nat} {bs is : List Nat} : IndicesBelow (b :: bs) (i :: is) ↔ i < b ∧ IndicesBelow bs is := by
  refine ⟨fun h => ⟨h 0 (Nat.succ_pos _), fun d hd => h (d + 1) (Nat.succ_lt_succ hd)⟩, fun ⟨hi, his⟩ d hd => ?_⟩
  cases d with
  | zero => exact hi
  | succ d => exact his d (Nat.lt_of_succ_lt_succ hd)

theorem not_indicesBelow_nil {b : Nat} {bs : List Nat} (hlen : (b :: bs).length ≤ ([] : List Nat).length) : False :=
  Nat.not_succ_le_zero _ hlen

theorem placeOfPoint_lt {bs is : List Nat} (hlen : bs.length ≤ is.length) (h : IndicesBelow bs is) : placeOfPoint bs is < bs.prod := by
  induction bs generalizing is with
  | nil => exact Nat.zero_lt_one
  | cons b bs ih =>
    cases is with
    | nil => exact (not_indicesBelow_nil hlen).elim
    | cons i is =>
      obtain ⟨hi, his⟩ := indicesBelow_cons.1 h
      have hrest := ih (Nat.le_of_succ_le_succ hlen) his
      calc i + b * placeOfPoint bs is < b + b * placeOfPoint bs is := Nat.add_lt_add_right hi _
        _ = b * (placeOfPoint bs is + 1) := by ring
        _ ≤ b * bs.prod := Nat.mul_le_mul_left b hrest
        _ = (b :: bs).prod := List.prod_cons.symm

/-- A step of the indices is the next place, and the first one behind the last. -/
theorem stepIndices_spec {bs is : List Nat} (hlen : bs.length ≤ is.length) (h : IndicesBelow bs is) :
    (stepIndices bs is).1.length = is.length ∧ IndicesBelow bs (stepIndices bs is).1 ∧
      placeOfPoint bs (stepIndices bs is).1 = (placeOfPoint bs is + 1) % bs.prod ∧
      (stepIndices bs is).2 = decide (placeOfPoint bs is + 1 = bs.prod) := by
  induction bs generalizing is with
  | nil => exact ⟨rfl, h, (Nat.mod_one _).symm, rfl⟩
  | cons b bs ih =>
    cases is with
    | nil => exact (not_indicesBelow_nil hlen).elim
    | cons i is =>
      obtain ⟨hi, his⟩ := indicesBelow_cons.1 h
      have hbelow := placeOfPoint_lt hlen h
      obtain ⟨hlength, hindices, hplace, hwrap⟩ := ih (Nat.le_of_succ_le_succ hlen) his
      rw [stepIndices]
      rw [placeOfPoint, List.prod_cons] at *
      by_cases hnext : i + 1 < b
      · have hrest : b * (placeOfPoint bs is + 1) ≤ b * bs.prod :=
          Nat.mul_le_mul_left b (placeOfPoint_lt (Nat.le_of_succ_le_succ hlen) his)
        rw [Nat.mul_succ] at hrest
        rw [if_pos hnext, placeOfPoint]
        refine ⟨rfl, indicesBelow_cons.2 ⟨hnext, his⟩, ?_, ?_⟩
        · rw [Nat.mod_eq_of_lt (by omega)]
          omega
        · exact (decide_eq_false (by omega)).symm
      · have hlast : i + b * placeOfPoint bs is + 1 = b * (placeOfPoint bs is + 1) := by
          rw [Nat.mul_succ]
          omega
        rw [if_neg hnext, hlast]
        refine ⟨congrArg Nat.succ hlength, indicesBelow_cons.2 ⟨by omega, hindices⟩, ?_, ?_⟩
        · rw [placeOfPoint, hplace, Nat.zero_add, Nat.mul_mod_mul_left]
        · rw [hwrap, decide_eq_decide]
          exact (Nat.mul_right_inj (by omega)).symm

/-! ### The place as the sum over the dimensions -/

theorem prod_range_getD (bs : List Nat) : ∏ e ∈ Finset.range bs.length, bs.getD e 0 = bs.prod := by
  induction bs with
  | nil => rfl
  | cons b bs ih =>
    rw [List.length_cons, Finset.prod_range_succ', List.prod_cons, ← ih, Nat.mul_comm]
    rfl

theorem sum_place (bs is : List Nat) :
    ∑ d ∈ Finset.range bs.length, is.getD d 0 * ∏ e ∈ Finset.range d, bs.getD e 0 = placeOfPoint bs is := by
  induction bs generalizing is with
  | nil => rfl
  | cons b bs ih =>
    cases is with
    | nil => exact Finset.sum_eq_zero fun d _ => Nat.zero_mul _
    | cons i is =>
      rw [List.length_cons, Finset.sum_range_succ', placeOfPoint, ← ih is, Finset.mul_sum, Nat.add_comm]
      refine congrArg₂ _ (Nat.mul_one _) (Finset.sum_congr rfl fun d _ => ?_)
      rw [Finset.prod_range_succ']
      change is.getD d 0 * ((∏ e ∈ Finset.range d, bs.getD e 0) * b) = _
      ring

theorem foldl_add_eq_sum (g : Nat → Int) (n : Nat) : (List.range n).foldl (fun acc d => acc + g d) 0 = ∑ d ∈ Finset.range n, g d := by
  induction n with
  | zero => rfl
  | succ n ih => rw [List.range_succ, List.foldl_append, ih, Finset.sum_range_succ]; rfl

namespace NestSlot

/-- The bounds of the dimensions in use. -/
def bounds (n : NestSlot) : List Nat := n.bound.take n.nd

/-- The slot stands at an index point. -/
structure Fits (n : NestSlot) : Prop where
  nd : n.nd ≤ 6
  bound : n.bound.length = 6
  idx : n.idx.length = 6
  below : ∀ d, d < n.nd → n.idx.getD d 0 < n.bound.getD d 0

variable {n : NestSlot}

theorem getD_bounds {d : Nat} (h : d < n.nd) : n.bounds.getD d 0 = n.bound.getD d 0 := by
  simp only [bounds, List.getD_eq_getElem?_getD, List.getElem?_take, if_pos h]

theorem bounds_length (h : n.Fits) : n.bounds.length = n.nd := by
  have hnd := h.nd
  rw [bounds, List.length_take, h.bound]
  omega

theorem points_eq_prod (n : NestSlot) : n.points = n.bounds.prod := List.prod_eq_foldl.symm

theorem points_eq (h : n.Fits) : n.points = ∏ d ∈ Finset.range n.nd, n.bound.getD d 0 := by
  rw [points_eq_prod, ← prod_range_getD, bounds_length h]
  exact Finset.prod_congr rfl fun d hd => getD_bounds (Finset.mem_range.1 hd)

/-- The place of the present point (R255). -/
theorem place_eq (h : n.Fits) (is : List Nat) :
    ∑ d ∈ Finset.range n.nd, is.getD d 0 * ∏ e ∈ Finset.range d, n.bound.getD e 0 = placeOfPoint n.bounds is := by
  rw [← sum_place, bounds_length h]
  refine Finset.sum_congr rfl fun d hd => congrArg _ (Finset.prod_congr rfl fun e he => ?_)
  exact (getD_bounds ((Finset.mem_range.1 he).trans (Finset.mem_range.1 hd))).symm

theorem indicesBelow (h : n.Fits) : IndicesBelow n.bounds n.idx := fun d hd => by
  rw [bounds_length h] at hd
  rw [getD_bounds hd]
  exact h.below d hd

theorem bounds_le (h : n.Fits) : n.bounds.length ≤ n.idx.length := by
  rw [bounds_length h, h.idx]
  exact h.nd

theorem step_of_fits (h : n.Fits) : n.step =
    { n with idx := (stepIndices n.bounds n.idx).1, wrap := n.wrap || (stepIndices n.bounds n.idx).2 } := by
  have hpos : n.points ≠ 0 := by
    rw [points_eq_prod]
    exact Nat.ne_of_gt (Nat.zero_lt_of_lt (placeOfPoint_lt (bounds_le h) (indicesBelow h)))
  rw [step, if_neg hpos]
  rfl

theorem fits_step (h : n.Fits) : n.step.Fits := by
  obtain ⟨hlength, hindices, -, -⟩ := stepIndices_spec (bounds_le h) (indicesBelow h)
  rw [step_of_fits h]
  refine ⟨h.nd, h.bound, hlength.trans h.idx, fun d hd => ?_⟩
  exact (hindices d (by rwa [bounds_length h])).trans_eq (getD_bounds hd)

end NestSlot

/-! ### The image of a slot (R254) -/

theorem drop_bytesOfNat (n x j : Nat) : (bytesOfNat n x).drop j = bytesOfNat (n - j) (x / 256 ^ j) := by
  induction j generalizing n x with
  | zero => rw [Nat.pow_zero, Nat.div_one]; rfl
  | succ j ih =>
    cases n with
    | zero => rw [Nat.zero_sub]; rfl
    | succ n => rw [bytesOfNat, List.drop_succ_cons, ih, Nat.succ_sub_succ, Nat.div_div_eq_div_mul, ← Nat.pow_succ']

theorem take_bytesOfNat {n k : Nat} (h : k ≤ n) (x : Nat) : (bytesOfNat n x).take k = bytesOfNat k x := by
  induction k generalizing n x with
  | zero => rfl
  | succ k ih =>
    obtain ⟨n, rfl⟩ : ∃ m, n = m + 1 := ⟨n - 1, by omega⟩
    rw [bytesOfNat, bytesOfNat, List.take_succ_cons, ih (Nat.le_of_succ_le_succ h)]

/-- A part of a number's bytes. -/
theorem natOfBytes_part {n j k : Nat} (h : j + k ≤ n) (x : Nat) :
    natOfBytes (((bytesOfNat n x).drop j).take k) = x / 256 ^ j % 256 ^ k := by
  rw [drop_bytesOfNat, take_bytesOfNat (by omega), natOfBytes_bytesOfNat]

/-- A part of a row in a table of rows. -/
theorem take_drop_flatMap {α : Type} {g : α → List Byte} {n : Nat} {l : List α} (hlen : ∀ a ∈ l, (g a).length = n) (rest : List Byte)
    {i j k : Nat} (hi : i < l.length) (hjk : j + k ≤ n) :
    ((l.flatMap g ++ rest).drop (n * i + j)).take k = ((g l[i]).drop j).take k := by
  induction l generalizing i with
  | nil => cases hi
  | cons a l ih =>
    have ha := hlen a List.mem_cons_self
    rw [List.flatMap_cons, List.append_assoc]
    cases i with
    | zero =>
      rw [Nat.mul_zero, Nat.zero_add, List.drop_append_of_le_length (by omega), List.take_append_of_le_length]
      · rfl
      · rw [List.length_drop]; omega
    | succ i =>
      rw [show n * (i + 1) + j = (g a).length + (n * i + j) by rw [ha]; ring, ← List.drop_drop, List.drop_left]
      exact ih (fun x hx => hlen x (List.mem_cons_of_mem a hx)) (Nat.lt_of_succ_lt_succ hi)

theorem map_getD_range {α : Type} {l : List α} {n : Nat} (h : l.length = n) (d : α) : (List.range n).map (fun i => l.getD i d) = l := by
  subst h
  refine List.ext_getElem (by simp) fun i hi _ => ?_
  rw [List.length_map, List.length_range] at hi
  simp [hi]

namespace NestSlot

/-- The slot has an image that R254 permits. -/
structure Valid (n : NestSlot) : Prop where
  nd : n.nd ≤ 6
  bound : n.bound.length = 6
  idx : n.idx.length = 6
  stride : n.stride.length = 18
  dims : ∀ d, d < 6 → n.bound.getD d 0 < 2 ^ 24 ∧
    if d < n.nd then n.idx.getD d 0 < n.bound.getD d 0 ∨ n.idx.getD d 0 = 0 else n.bound.getD d 0 = 0 ∧ n.idx.getD d 0 = 0
  strides : ∀ i, i < 18 → -(2 ^ 31) ≤ n.stride.getD i 0 ∧ n.stride.getD i 0 < 2 ^ 31 ∧ (n.nd ≤ i / 3 → n.stride.getD i 0 = 0)

/-- The rows of an image: the dimensions, and the strides. -/
def dimRows (n : NestSlot) : List Byte := (List.range 6).flatMap fun d => bytesOfNat 8 (n.bound.getD d 0 + n.idx.getD d 0 * 2 ^ 24)
def strideRows (n : NestSlot) : List Byte := (List.range 18).flatMap fun i => bytesOfNat 4 (patternOf 32 (n.stride.getD i 0))

theorem image_eq (n : NestSlot) : n.image = bytesOfNat 8 (n.nd + if n.wrap then 8 else 0) ++ (n.dimRows ++ n.strideRows) :=
  List.append_assoc ..

variable (n : NestSlot)

theorem image_word : natOfBytes ((n.image.drop 0).take 8) = (n.nd + if n.wrap then 8 else 0) % 256 ^ 8 := by
  rw [List.drop_zero, image_eq, List.take_append_of_le_length (by rw [bytesOfNat_length]), List.take_of_length_le (by rw [bytesOfNat_length]),
    natOfBytes_bytesOfNat]

theorem image_dimPart {d j k : Nat} (hd : d < 6) (hjk : j + k ≤ 8) : natOfBytes ((n.image.drop (8 + 8 * d + j)).take k) =
    (n.bound.getD d 0 + n.idx.getD d 0 * 2 ^ 24) / 256 ^ j % 256 ^ k := by
  have hdrop : n.image.drop (8 + 8 * d + j) = (n.dimRows ++ n.strideRows).drop (8 * d + j) := by
    rw [image_eq, Nat.add_assoc, ← List.drop_drop, List.drop_left' (bytesOfNat_length ..)]
  rw [hdrop, dimRows, take_drop_flatMap (n := 8) (fun d _ => bytesOfNat_length ..) _ (by simpa using hd) hjk, natOfBytes_part hjk,
    List.getElem_range]

theorem image_stride {i : Nat} (hi : i < 18) :
    natOfBytes ((n.image.drop (56 + 4 * i)).take 4) = patternOf 32 (n.stride.getD i 0) := by
  have hlen : (bytesOfNat 8 (n.nd + if n.wrap then 8 else 0) ++ n.dimRows).length = 56 := by
    rw [List.length_append, bytesOfNat_length, dimRows, flatMap_length (n := 8) fun d _ => bytesOfNat_length ..]
    rfl
  have hdrop : n.image.drop (56 + 4 * i) = (n.strideRows ++ []).drop (4 * i + 0) := by
    rw [image_eq, ← List.append_assoc, ← List.drop_drop, List.drop_left' hlen, List.append_nil]
    rfl
  rw [hdrop, strideRows, take_drop_flatMap (n := 4) (fun d _ => bytesOfNat_length ..) _ (by simpa using hi) (by decide),
    natOfBytes_part (by decide), List.getElem_range]
  rw [Nat.pow_zero, Nat.div_one]
  exact Nat.mod_eq_of_lt (patternOf_lt 32 _)

variable {n}

theorem Valid.idx_lt (h : n.Valid) {d : Nat} (hd : d < 6) : n.idx.getD d 0 < 2 ^ 24 := by
  obtain ⟨hbound, hdim⟩ := h.dims d hd
  split at hdim <;> omega

theorem ext {m n : NestSlot} (hnd : m.nd = n.nd) (hwrap : m.wrap = n.wrap) (hbound : m.bound = n.bound) (hidx : m.idx = n.idx)
    (hstride : m.stride = n.stride) : m = n := by
  cases m
  cases n
  simp_all

theorem Valid.image_head (h : n.Valid) : natOfBytes ((n.image.drop 0).take 8) = n.nd + if n.wrap then 8 else 0 := by
  have hnd := h.nd
  exact n.image_word.trans (Nat.mod_eq_of_lt (by split <;> omega))

/-- The word of a dimension (R254). -/
theorem Valid.image_dim (h : n.Valid) {d : Nat} (hd : d < 6) :
    natOfBytes ((n.image.drop (8 + 8 * d)).take 8) = n.bound.getD d 0 + n.idx.getD d 0 * 2 ^ 24 := by
  have hidx := h.idx_lt hd
  have hbound := (h.dims d hd).1
  refine (n.image_dimPart (j := 0) (k := 8) hd (by decide)).trans ?_
  omega

/-- A valid slot is read back from its image. -/
theorem nestFields_image (h : n.Valid) : nestFields n.image = n := by
  refine ext ?_ ?_ ((List.map_congr_left fun d hd => ?_).trans (map_getD_range h.bound 0))
    ((List.map_congr_left fun d hd => ?_).trans (map_getD_range h.idx 0))
    ((List.map_congr_left fun i hi => ?_).trans (map_getD_range h.stride 0))
  case refine_1 =>
    have hnd := h.nd
    refine (congrArg (· % 8) h.image_head).trans ?_
    cases n.wrap <;> simp <;> omega
  case refine_2 =>
    have hnd := h.nd
    refine (congrArg (fun x => bitsOf x 3 3 == 1) h.image_head).trans ?_
    have h0 : n.nd / 8 = 0 := by omega
    cases n.wrap <;> simp [bitsOf, h0]
  case refine_3 =>
    have hbound := (h.dims d (List.mem_range.1 hd)).1
    dsimp only
    rw [h.image_dim (List.mem_range.1 hd), bitsOf]
    omega
  case refine_4 =>
    have hbound := (h.dims d (List.mem_range.1 hd)).1
    have hidx := h.idx_lt (List.mem_range.1 hd)
    dsimp only
    rw [h.image_dim (List.mem_range.1 hd), bitsOf]
    omega
  case refine_5 =>
    obtain ⟨hlo, hhi, -⟩ := h.strides i (List.mem_range.1 hi)
    dsimp only
    rw [n.image_stride (List.mem_range.1 hi)]
    exact intOf_patternOf (by decide) (by simpa [intMin] using hlo) (by simp only [intMax, if_true]; omega)

/-- A valid slot's image has no defect. -/
theorem nestDefect_image (h : n.Valid) : nestDefect n.image = none := by
  have hnd := h.nd
  have hhead : ¬(6 < n.nd ∨ 16 ≤ natOfBytes ((n.image.drop 0).take 8)) := by
    rw [h.image_head]
    split <;> omega
  unfold nestDefect
  rw [nestFields_image h]
  dsimp only
  rw [if_neg hhead, List.findSome?_eq_none_iff.2 fun d hd => ?dims, List.findSome?_eq_none_iff.2 fun i hi => ?strides]
  case dims =>
    have hd6 := List.mem_range.1 hd
    have hidx := h.idx_lt hd6
    obtain ⟨hbound, hdim⟩ := h.dims d hd6
    have htop : natOfBytes ((n.image.drop (8 + 8 * d + 6)).take 2) = 0 := by
      rw [n.image_dimPart hd6 (by decide)]
      omega
    rw [if_neg (by split at hdim <;> omega), if_neg (by split at hdim <;> omega), if_neg (not_not.2 htop)]
  case strides =>
    obtain ⟨-, -, hzero⟩ := h.strides i (List.mem_range.1 hi)
    exact if_neg fun hbad => hbad.2 (hzero hbad.1)

end NestSlot

/-! ### NSET (R256) -/

/-- A read of the own pad leaves the nest slots. -/
theorem State.noteReads_nests (s : State) (ks : List Nat) : (s.noteReads ks).myCore.nests = s.myCore.nests := by
  obtain ⟨ids, htask⟩ := s.noteReads_task ks
  rw [State.myCore, htask]
  exact State.noteReads_keeps (g := fun u => (u.core s.task.id.lcore).nests)
    (fun _ _ _ => State.setCore_keeps (ρ := Core.nests) rfl s.task.id.lcore) (fun _ _ => rfl) s ks

/-- NSET of a valid image in the own pad. -/
theorem execNset_of_image {s : State} {f : Slot} {l off : Nat} {n : NestSlot} (h : s.goes (.nset f) f)
    (hplace : s.place (s.g f.a.toNat) 128 = .ok (.corePad l off false)) (halign : (s.g f.a.toNat).toNat % 16 = 0)
    (himage : ((List.range 128).map fun i => s.loadByte (keyCorePad l off + i)) = n.image) (hvalid : n.Valid)
    (hawake : s.myCore.awake s.dcc = true) :
    let u := s.noteReads ((List.range 128).map (keyCorePad l off + ·))
    exec (.nset f) s = .next (u.setCore (u.myCore.setNest f.c.toNat n)) := by
  refine (guarded_goes h).trans (congrArg _ ?_)
  simp only [hplace, halign, hawake, himage, NestSlot.nestDefect_image hvalid, NestSlot.nestFields_image hvalid]
  rfl

/-! ### The statement -/

/-- Settles O34: the steps of indices as the places of their points, the offset as its sum, and the slot that an image gives back. -/
theorem nestSlots : Obligations.NestSlots := by
  unfold Obligations.NestSlots
  intro lin fits
  refine ⟨fun n ⟨hnd, hbound, hidx, hbelow⟩ => ?_, fun s f => ⟨guarded_goes, guarded_goes, fun h => ?_⟩, ?_⟩
  · intro points m
    have h : n.Fits := ⟨hnd, hbound, hidx, hbelow⟩
    have hstep : m = _ := n.step_of_fits h
    obtain ⟨-, -, hplace, hwrap⟩ := stepIndices_spec (NestSlot.bounds_le h) (NestSlot.indicesBelow h)
    have hpoints : n.bounds.prod = points := n.points_eq_prod.symm.trans (NestSlot.points_eq h)
    obtain ⟨hnd', hbound', hidx', hbelow'⟩ := NestSlot.fits_step h
    have hlin : lin n = placeOfPoint n.bounds n.idx := NestSlot.place_eq h n.idx
    have hlin' : lin m = (lin n + 1) % points := by
      rw [hlin, ← hpoints, ← hplace, hstep]
      exact NestSlot.place_eq h _
    refine ⟨NestSlot.points_eq h, ?_, ⟨hnd', hbound', hidx', hbelow'⟩, hlin', ?_, ?_, ?_, ?_⟩
    · rw [hlin, ← hpoints]
      exact placeOfPoint_lt (NestSlot.bounds_le h) (NestSlot.indicesBelow h)
    · rw [hlin, hstep, ← hpoints, ← hwrap]
    all_goals rw [hstep]
  · refine ⟨_, guarded_goes h, ?_⟩
    rw [NestSlot.offset, foldl_add_eq_sum]
    exact putG_writes ..
  · intro s f l off n h hplace halign hnd hbound hidx hstride hdims hstrides himage hslot hawake
    obtain ⟨ids, htask⟩ := s.noteReads_task ((List.range 128).map (keyCorePad l off + ·))
    have hnests := s.noteReads_nests ((List.range 128).map (keyCorePad l off + ·))
    refine ⟨_, execNset_of_image h hplace halign himage ⟨hnd, hbound, hidx, hstride, hdims, hstrides⟩ hawake, ?_, fun k hk => ?_, ?_, ?_, ?_⟩
    · rw [State.myCore_setCore rfl, Core.setNest, Core.nest, hnests]
      exact getD_set_self hslot _ _
    · rw [State.myCore_setCore rfl, Core.setNest, Core.nest, hnests]
      simp only [List.getD_eq_getElem?_getD, List.getElem?_set_ne hk.symm]
      rfl
    · exact keepsRegisters_of_regs (by rw [State.setCore_task, htask])
    · exact fun a => by simp
    · rw [KeepsSpecials, State.setCore_task, htask]
      exact ⟨rfl, rfl, rfl, rfl⟩

end Sys2Proof.Machine

/-! DEQ, and ENQ of mailbox words (R234 to R237). -/

namespace Sys2Proof.Machine

/-! ### The oldest fault of an engine (R232, R241) -/

/-- The older of a fault that has been found and another one. -/
def olderFault (acc : Option DeferredFault) (x : DeferredFault) : Option DeferredFault :=
  acc.elim (some x) fun y => if x.order < y.order then some x else some y

theorem TaskEng.oldestFault_eq (e : TaskEng) (es : List Nat) :
    e.oldestFault es = (e.faults.filter fun x => es.contains x.engine).foldl olderFault none := by
  unfold TaskEng.oldestFault
  refine congrArg (fun g => List.foldl g none _) (funext fun acc => funext fun x => ?_)
  cases acc <;> rfl

theorem olderFault_spec (acc : Option DeferredFault) (z : DeferredFault) : ∃ x, olderFault acc z = some x ∧ (acc = some x ∨ x = z) ∧
    x.order ≤ z.order ∧ ∀ y, acc = some y → x.order ≤ y.order := by
  cases acc with
  | none => exact ⟨z, rfl, .inr rfl, Nat.le_refl _, fun y hy => nomatch hy⟩
  | some y =>
    by_cases h : z.order < y.order
    · exact ⟨z, if_pos h, .inr rfl, Nat.le_refl _, fun w hw => Option.some.inj hw ▸ Nat.le_of_lt h⟩
    · exact ⟨y, if_neg h, .inl rfl, Nat.not_lt.1 h, fun w hw => Option.some.inj hw ▸ Nat.le_refl _⟩

/-- A search through a list finds one that was found before or stands in the list, and none of them is older. -/
theorem foldl_olderFault {x : DeferredFault} {l : List DeferredFault} {acc : Option DeferredFault}
    (h : l.foldl olderFault acc = some x) : (acc = some x ∨ x ∈ l) ∧ (∀ y, acc = some y → x.order ≤ y.order) ∧
      ∀ y ∈ l, x.order ≤ y.order := by
  induction l generalizing acc with
  | nil =>
    obtain rfl : acc = some x := h
    exact ⟨.inl rfl, fun y hy => Option.some.inj hy ▸ Nat.le_refl _, fun y hy => nomatch hy⟩
  | cons z l ih =>
    obtain ⟨w, hw, hfrom, hz, hbefore⟩ := olderFault_spec acc z
    obtain ⟨hmem, hacc, hl⟩ := ih (acc := olderFault acc z) h
    rw [hw] at hmem hacc
    have hxw := hacc w rfl
    refine ⟨?_, fun y hy => hxw.trans (hbefore y hy), List.forall_mem_cons.2 ⟨hxw.trans hz, hl⟩⟩
    rcases hmem with hmem | hmem
    · obtain rfl := Option.some.inj hmem
      exact hfrom.imp_right fun hx => List.mem_cons.2 (.inl hx)
    · exact .inr (List.mem_cons_of_mem z hmem)

theorem TaskEng.oldestFault_spec {eng : TaskEng} {e : Nat} {x : DeferredFault} (h : eng.oldestFault [e] = some x) :
    x ∈ eng.faults ∧ x.engine = e ∧ ∀ y ∈ eng.faults, y.engine = e → x.order ≤ y.order := by
  rw [oldestFault_eq] at h
  obtain ⟨hmem, -, hleast⟩ := foldl_olderFault h
  obtain ⟨hx, he⟩ := List.mem_filter.1 (hmem.resolve_left (by simp))
  exact ⟨hx, by simpa using he, fun y hy hye => hleast y (List.mem_filter.2 ⟨hy, by simpa using hye⟩)⟩

/-- A fault that surfaces enters the handler and is consumed (R232). -/
theorem State.surface_of_mayTrap {s : State} (h : s.mayTrap) (x : DeferredFault) : Trapped s (s.surface x) x.sclass x.synd ∧
    (s.surface x).task.eng = { s.task.eng with faults := s.task.eng.faults.erase x } := by
  have htake : s.surface x = _ :=
    takeTrap_of_mayTrap (s := s.setEng { s.task.eng with faults := s.task.eng.faults.erase x }) h ⟨x.sclass, x.synd, offWord s.faultPc⟩
  rw [htake]
  exact ⟨⟨rfl, rfl, rfl, rfl, rfl, keepsRegisters_of_regs (by simp), fun _ => rfl, rfl⟩, rfl⟩

/-! ### Elements (R234) -/

theorem Core.box_setBox (c : Core) (part which : Nat) (b : List W32) : (c.setBox part which b).box part which = b := by
  rw [Core.box, Core.setBox, sget_sset, if_pos rfl]

theorem TaskEng.fifo_setFifo (eng : TaskEng) (e : Nat) (l : List Elem) : (eng.setFifo e l).fifo e = l := by
  unfold TaskEng.setFifo TaskEng.fifo
  split <;> simp

/-- The elements of an engine are read back, and those of a mailbox when they are words of it. -/
theorem State.elements_setElements {s : State} {e : Nat} {l : List Elem}
    (hmail : 4 ≤ e → l.map (fun x => (⟨(x.word.setWidth 32).setWidth 64, 0⟩ : Elem)) = l) : (s.setElements e l).elements e = l := by
  unfold State.setElements
  split
  next h =>
    rw [State.elements, if_pos h]
    exact s.task.eng.fifo_setFifo e l
  next h =>
    rw [State.elements, if_neg h, State.myCore_setCore rfl, State.setCore_task, Core.box_setBox, List.map_map]
    exact hmail (Nat.not_lt.1 h)

/-- Words of a mailbox, as elements, are their own low halves. -/
theorem State.elements_words {s : State} {e : Nat} {x : Elem} {rest : List Elem} (he : 4 ≤ e) (h : s.elements e = x :: rest) :
    rest.map (fun x => (⟨(x.word.setWidth 32).setWidth 64, 0⟩ : Elem)) = rest := by
  rw [State.elements, if_neg (Nat.not_lt.2 he)] at h
  refine (List.map_congr_left fun y hy => ?_).trans (List.map_id rest)
  obtain ⟨w, -, rfl⟩ := List.mem_map.1 (h ▸ List.mem_cons_of_mem x hy : y ∈ List.map _ _)
  simp

/-! ### Helpers where they stand -/

theorem find?_map_if {α : Type} {p : α → Bool} {g : α → α} (hg : ∀ a, p (g a) = p a) (l : List α) :
    (l.map fun a => if p a then g a else a).find? p = (l.find? p).map g := by
  induction l with
  | nil => rfl
  | cons a l ih =>
    by_cases h : p a = true
    · rw [List.map_cons, if_pos h, List.find?_cons_of_pos ((hg a).trans h), List.find?_cons_of_pos h, Option.map_some]
    · rw [List.map_cons, if_neg h, List.find?_cons_of_neg h, List.find?_cons_of_neg h, ih]

/-- A helper after a change that leaves its place. -/
theorem State.helperAt_onHelper (s : State) (l w : Nat) {f : Helper → Helper} (hf : ∀ h, (f h).lcore = h.lcore ∧ (f h).which = h.which) :
    (s.onHelper l w f).helperAt l w = f (s.helperAt l w) := by
  unfold State.onHelper
  by_cases hsel : s.hlp.lcore = l ∧ s.hlp.which = w
  · rw [if_pos hsel, State.helperAt, if_pos (by simpa [hf] using hsel), State.helperAt, if_pos hsel]
  · have hfix (h : Helper) : decide ((f h).lcore = l ∧ (f h).which = w) = decide (h.lcore = l ∧ h.which = w) := by
      rw [(hf h).1, (hf h).2]
    rw [if_neg hsel, show s.helperAt l w = _ from if_neg hsel]
    split
    next hany =>
      obtain ⟨h, hmem, hh⟩ := List.any_eq_true.1 hany
      have hmap := find?_map_if (p := fun h : Helper => decide (h.lcore = l ∧ h.which = w)) hfix s.parkedH
      simp only [decide_eq_true_eq] at hmap
      rw [State.helperAt, if_neg hsel, hmap]
      cases hfind : s.parkedH.find? fun h => decide (h.lcore = l ∧ h.which = w) with
      | some h => rfl
      | none => exact absurd (by simpa using hh) (of_decide_eq_false (by simpa using List.find?_eq_none.1 hfind h hmem))
    next hnone =>
      have hfind : s.parkedH.find? (fun h => decide (h.lcore = l ∧ h.which = w)) = none :=
        List.find?_eq_none.2 fun h hmem hh => hnone (List.any_eq_true.2 ⟨h, hmem, by simpa using hh⟩)
      rw [hfind]
      split
      next hreset =>
        rw [State.helperAt, if_neg hsel, hfind]
        exact hreset.symm
      next =>
        rw [State.helperAt, if_neg hsel, List.find?_append, hfind]
        simp [hf, Helper.reset]

/-! ### DEQ (R236) -/

section
variable {s : State} {f : Slot} {e : Nat} (he : f.imm.toNat % 8 = e)
include he

theorem State.dequeue_of_fault {x : DeferredFault} (h : s.task.eng.oldestFault [e] = some x) : s.dequeue f = s.surface x := by
  simp only [State.dequeue, he, h]

variable (hfault : s.task.eng.oldestFault [e] = none)
include hfault

theorem State.dequeue_of_element {x : Elem} {rest : List Elem} (h : s.elements e = x :: rest) :
    let s1 := s.setElements e rest
    let w := s1.task.bolt.work
    s.dequeue f = (s1.setWork { w with popped := w.popped ++ [(e, x)] }).putG f x.word := by
  simp only [State.dequeue, he, hfault, h]

theorem State.dequeue_of_empty (h : s.elements e = []) : s.dequeue f =
    if 4 ≤ e then s.waitFor (.mailbox e) else if s.outstanding e then s.waitFor (.deq e) else s.trapEngine 0x301 0x21 0 e := by
  simp only [State.dequeue, he, hfault, h]

end

/-! ### The statement -/

/-- Settles O39: the branch that DEQ takes, what is read back of an engine's elements behind it, and the mailbox of a helper where it
stands. -/
theorem elementsAndMailboxes : Obligations.ElementsAndMailboxes := by
  intro s f e l which h mine
  have hdeq {t : State} (hgo : s.goes (.deq f) f) (ht : s.dequeue f = t) : exec (.deq f) s = .next t :=
    (guarded_goes hgo).trans (congrArg Host.Outcome.next ht)
  refine ⟨fun x hgo hx hmay => ?_, fun x rest hgo hfault hx he6 => ?_, fun hgo hfault hnil he6 => ⟨fun he => ?_, fun he hout => ?_,
    fun he hout hmay => ?_⟩, fun hgo he he6 hfull => ?_, fun hgo he he6 hroom => ?_⟩
  · obtain ⟨hmem, heng, hleast⟩ := TaskEng.oldestFault_spec hx
    obtain ⟨htrapped, herased⟩ := State.surface_of_mayTrap hmay x
    exact ⟨_, hdeq hgo (State.dequeue_of_fault rfl hx), htrapped, hmem, heng, herased, hleast⟩
  · refine ⟨_, _, hdeq hgo (State.dequeue_of_element rfl hfault hx), putG_writes .., ?_, ?_, fun he => ?_, fun he => ?_⟩
    · exact State.elements_setElements fun he => State.elements_words he hx
    · rw [State.setElements]
      split <;> rfl
    · rw [State.setElements, if_pos he]
      rfl
    · rw [State.setElements, if_neg (Nat.not_lt.2 he)]
      rfl
  · exact hdeq hgo ((State.dequeue_of_empty rfl hfault hnil).trans (if_pos he))
  · exact hdeq hgo ((State.dequeue_of_empty rfl hfault hnil).trans ((if_neg (Nat.not_le.2 he)).trans (if_pos hout)))
  · have ht := (State.dequeue_of_empty rfl hfault hnil).trans ((if_neg (Nat.not_le.2 he)).trans (if_neg (Bool.eq_false_iff.1 hout)))
    exact ⟨_, _, hdeq hgo ht, trapped_of_mayTrap hmay 3 _, syndEngine_cause .., syndEngine_detail ..⟩
  · refine (guarded_goes hgo).trans (congrArg Host.Outcome.next ?_)
    exact if_pos hfull
  · have ht : s.enqueueMail f = _ := if_neg (Nat.not_le.2 hroom)
    refine ⟨_, (guarded_goes hgo).trans (congrArg Host.Outcome.next ht), ?_, State.onHelper_cores .., State.onHelper_mem .., ?_⟩
    · exact congrArg Prod.fst (State.onHelper_work s _ _ _)
    · exact State.helperAt_onHelper s _ _ fun _ => ⟨rfl, rfl⟩

end Sys2Proof.Machine

/-! Chains: the descriptors that they read, move and end (R239, R249 to R251, R313, R321). -/

namespace Sys2Proof.Machine

/-! ### Events that are posted (R301, R313) -/

/-- A record of a kind stands among the events for its decision tick, with its number and its address. -/
def State.Posts (t : State) (now kind w1 : Nat) (w2 : W64) : Prop :=
  ∃ e ∈ t.events, e.tick = now + 512 ∧ ∃ body : BitVec 192, e.kind = .record 0 body ∧
    body.extractLsb' 56 8 = BitVec.ofNat 8 kind ∧ body.extractLsb' 0 56 = BitVec.ofNat 56 w1 ∧ body.extractLsb' 64 64 = w2

theorem recordBody_words {kind w1 w3 : Nat} (hkind : kind < 2 ^ 8) (w2 : W64) :
    (recordBody kind w1 w2.toNat w3).extractLsb' 0 56 = BitVec.ofNat 56 w1 ∧
    (recordBody kind w1 w2.toNat w3).extractLsb' 64 64 = w2 := by
  have h2 := w2.isLt
  refine ⟨BitVec.eq_of_toNat_eq ?_, BitVec.eq_of_toNat_eq ?_⟩
  all_goals
    rw [BitVec.extractLsb'_toNat, recordBody, BitVec.toNat_ofNat, Nat.shiftRight_eq_div_pow]
  · rw [BitVec.toNat_ofNat]
    omega
  · omega

theorem State.post_posts (s : State) {kind : Nat} (hkind : kind < 2 ^ 8) (w1 : Nat) (w2 : W64) (w3 : Nat) :
    (s.post 0 kind w1 w2.toNat w3).Posts s.dcc kind w1 w2 := by
  obtain ⟨hfirst, hsecond⟩ := recordBody_words (w1 := w1) (w3 := w3) hkind w2
  exact ⟨_, List.mem_append_right _ (List.mem_singleton.2 rfl), rfl, _, rfl, (recordBody_fields hkind).1, hfirst, hsecond⟩

/-! ### What the writes of a chain leave alone -/

/-- What a view of the state reads outside the tasks stays under a change of one of them. -/
theorem State.onTask_keeps {β : Type} {g : State → β} (hg : ∀ (s : State) task parked, g { s with task, parked } = g s) (s : State)
    (r : TaskRef) (f : Task → Task) : g (s.onTask r f) = g s := by
  unfold State.onTask
  split
  · exact hg s _ _
  · exact hg s _ _

/-- What a view of the state reads outside the helpers stays under a change of one of them. -/
theorem State.onHelper_keeps {β : Type} {g : State → β} (hg : ∀ (s : State) hlp parkedH, g { s with hlp, parkedH } = g s) (s : State)
    (l w : Nat) (f : Helper → Helper) : g (s.onHelper l w f) = g s := by
  unfold State.onHelper
  split
  · exact hg s _ _
  · split
    · exact hg s _ _
    · split
      · rfl
      · exact hg s _ _

theorem State.onIssuer_keeps {β : Type} {g : State → β} (htask : ∀ (s : State) task parked, g { s with task, parked } = g s)
    (hhelper : ∀ (s : State) hlp parkedH, g { s with hlp, parkedH } = g s) (s : State) (l : Nat) (who : Issuer) (f : BoltWork → BoltWork) :
    g (s.onIssuer l who f) = g s := by
  unfold State.onIssuer
  dsimp only
  split
  · exact State.onTask_keeps htask s _ _
  · exact State.onHelper_keeps hhelper s _ _ _

theorem State.dcc_chunkBlind : ChunkBlind State.dcc where
  core _ _ _ _ _ := rfl
  rest _ _ _ _ _ _ _ := rfl
  issuer s l who f _ := State.onIssuer_keeps (fun _ _ _ => rfl) (fun _ _ _ => rfl) s l who f

@[simp] theorem State.show_dcc (s : State) (cells : List Host.Cell) : (s.show cells).dcc = s.dcc :=
  State.show_chunk State.dcc_chunkBlind s cells

theorem State.show_chain (s : State) (cells : List Host.Cell) (d ch : Nat) : (s.show cells).chain d ch = s.chain d ch := by
  rw [State.chain, s.show_chains]
  rfl

/-- Requests to host memory do not matter to where a range lies. -/
theorem State.skKeys_bus (s : State) (fn : Nat) (write : Bool) (ks : List Nat) (x : SkCtx) (w : Bool) (a : W64) (n : Nat) :
    (s.bus fn write ks).skKeys x w a n = s.skKeys x w a n := by
  have hpages : ∀ fuel va n, (s.bus fn write ks).skPages x w fuel va n = s.skPages x w fuel va n := by
    intro fuel
    induction fuel with
    | zero => exact fun _ _ => rfl
    | succ fuel ih =>
      intro va n
      unfold State.skPages
      simp only [ih]
      rfl
  unfold State.skKeys
  simp only [hpages]
  rfl

theorem State.chainStatus_bus (s : State) (fn : Nat) (write : Bool) (ks : List Nat) (c : Chain) :
    (s.bus fn write ks).chainStatus c = s.chainStatus c := by
  rw [State.chainStatus, State.skKeys_bus]
  rfl

/-! ### A descriptor that fails (R250) -/

/-- Memory behind the status of a failed descriptor. -/
def State.failedMem (s : State) (c : Chain) (code : Nat) : Memory :=
  match s.chainStatus c with
  | some k => s.mem.writeCells (cellsAt (k + 0x28) (bytesOfNat 5 (code * 2 ^ 32)))
  | none => s.mem

section
variable {s : State} {d ch : Nat} (h : ch < (s.die d).chains.length)
include h

/-- A descriptor that fails before it has written anything: its code, the chain behind it, and the *chain fault* event. -/
theorem State.failDesc_spec (code : Nat) : (s.failDesc d ch 0 code).mem = s.failedMem (s.chain d ch) code ∧
    (s.failDesc d ch 0 code).chain d ch = { s.chain d ch with code }.resume 2 ∧
    (s.failDesc d ch 0 code).Posts s.dcc 4 (16 * d + ch) (s.chain d ch).cur := by
  refine ⟨?_, State.failDesc_chain h 0 code, ?_⟩
  · rw [State.failDesc_eq]
    change (s.writeStatus (s.chain d ch) 0 code).mem = _
    unfold State.writeStatus State.failedMem
    cases s.chainStatus (s.chain d ch) <;> simp
  · have hdcc : (s.writeStatus (s.chain d ch) 0 code).dcc = s.dcc := by
      unfold State.writeStatus
      split <;> simp
    rw [State.failDesc_eq, ← hdcc]
    exact State.post_posts _ (by decide) _ _ _

end

/-! ### Reading a descriptor (R249 to R251) -/

theorem State.readChain_unreadable {s : State} {d ch : Nat} (h : s.chainDesc (s.chain d ch) = none) :
    s.readChain d ch = s.failDesc d ch 0 2 := by
  simp only [State.readChain, h]

section
variable {s : State} {d ch k : Nat} (hdesc : s.chainDesc (s.chain d ch) = some k)
include hdesc

/-- The device has read the descriptor of a chain. -/
def State.fetchedDesc (s : State) (d ch k : Nat) : State := s.bus (s.chain d ch).func false ((List.range 64).map (k + ·))

theorem State.readChain_of_desc : s.readChain d ch =
    let c := s.chain d ch
    let u := s.fetchedDesc d ch k
    let m := moveDesc (s.mem.readBytes k 64)
    if m.ctrl % 2 = 0 then (u.setChain d ch (c.resume 2)).post 0 0x03 (16 * d + ch) c.cur.toNat 0
    else if m.defect.isSome then u.failDesc d ch 0 1
    else if !u.chainRangeOk c.lcore m.src m.len || !u.chainRangeOk c.lcore m.dst m.room then u.failDesc d ch 0 2
    else u.setChain d ch { c with cmd := some (c.command ch s.dcc m), out := 0 } := by
  simp only [State.readChain, hdesc]
  rfl

end

/-! ### The end of a descriptor (R251) -/

section
variable {s : State} {d ch k : Nat} (h : ch < (s.die d).chains.length) (hstatus : s.chainStatus (s.chain d ch) = some k)
include h hstatus

/-- A chain behind a descriptor whose data has been written. -/
def Chain.behind (c : Chain) (next : Nat) : Chain :=
  let c1 := { c with code := 0, done := c.done + 1, tries := 0, cmd := none, out := 0 }
  if next = 0 then c1.resume 0 else { c1 with cur := BitVec.ofNat 64 next }

/-- OUTLEN and CODE are written, then OWN is cleared, and the chain goes on (R251). -/
theorem State.endDesc_spec : let c := s.chain d ch
    let m := moveDesc (s.mem.readBytes k 64)
    (s.endDesc d ch).mem = (s.mem.writeCells (cellsAt (k + 0x28) (bytesOfNat 5 c.out))).writeCells
      [(k + 8, BitVec.ofNat 8 (m.ctrl % 256 / 2 * 2))] ∧
    (s.endDesc d ch).chain d ch = c.behind m.next ∧
    (m.ctrl.testBit 1 = true → (s.endDesc d ch).Posts s.dcc 5 (16 * d + ch) c.cur) := by
  intro c m
  let u := (s.show (cellsAt (k + 0x28) (bytesOfNat 5 c.out))).show [(k + 8, BitVec.ofNat 8 (m.ctrl % 256 / 2 * 2))]
  have hchain : u.chain d ch = c := (State.show_chain _ _ d ch).trans (State.show_chain s _ d ch)
  have hlen : ch < (u.die d).chains.length := by
    rw [State.show_chains, State.show_chains]
    exact h
  have hdcc : u.dcc = s.dcc := by simp [u]
  have hmem : u.mem = _ := (show_mem _ _).trans (congrArg (Memory.writeCells · _) (show_mem s _))
  have hend : s.endDesc d ch = if m.ctrl.testBit 1
      then (u.setChain d ch ((u.chain d ch).behind m.next)).post 0 0x05 (16 * d + ch) c.cur.toNat (c.out % 2 ^ 32 * 2 ^ 32)
      else u.setChain d ch ((u.chain d ch).behind m.next) := by
    simp only [State.endDesc, hstatus]
    rfl
  rw [hchain] at hend
  have hnew : (u.setChain d ch (c.behind m.next)).chain d ch = c.behind m.next := State.chain_setChain hlen _
  rw [hend]
  refine ⟨?_, ?_, fun hbit => ?_⟩
  · split <;> exact hmem
  · split <;> exact hnew
  · rw [if_pos hbit, ← hdcc]
    exact State.post_posts (u.setChain d ch (c.behind m.next)) (by decide) _ _ _

end

/-! ### The chunks of a plain descriptor (R239, R251) -/

/-- A plain move of the same bytes. -/
def SkCmd.asMov (c : SkCmd) : SkCmd := { c with kind := .mov }

section
variable {c : SkCmd} {outmax dict dlen : Nat} (hkind : c.kind = .desc none 0 outmax dict dlen)
include hkind

theorem SkCmd.pieces_asMov (fuel pos left : Nat) : c.asMov.pieces fuel pos left = c.pieces fuel pos left := by
  have hat (pos : Nat) : c.asMov.at pos = c.at pos := by
    unfold SkCmd.at
    rw [hkind]
    rfl
  induction fuel generalizing pos left with
  | zero => rfl
  | succ fuel ih => simp only [SkCmd.pieces, hat, ih]

theorem Core.skSize_asMov (x : Core) : x.skSize c = x.skSize c.asMov := by
  unfold Core.skSize
  rw [hkind]
  rfl

/-- A descriptor without a transform is moved as a plain move is. -/
theorem State.skPlan_asMov (s : State) (l : Nat) : s.skPlan l c = s.skPlan l c.asMov := by
  unfold State.skPlan
  simp only [SkCmd.pieces_asMov hkind, Core.skSize_asMov hkind]
  rw [hkind]
  rfl

end

/-! ### What a chunk leaves of the dies -/

theorem State.chargeKeys_dies (s : State) (c : Nat) (ks : List Nat) : (s.chargeKeys c ks).dies = s.dies := by
  unfold State.chargeKeys
  dsimp only
  split <;> rfl

theorem State.touch_dies (s : State) (ks : List Nat) : (s.touch ks).dies = s.dies := foldl_keeps State.dies _ _ s fun _ _ => rfl

theorem State.fillGranules_dies (gs : List (Nat × Nat)) (s : State) : (s.fillGranules gs).dies = s.dies := by
  induction gs generalizing s with
  | nil => rfl
  | cons g gs ih => exact ih _

theorem State.skReads_dies (s : State) (l : Nat) (c : SkCmd) (ks : List Nat) : (s.skReads l c ks).dies = s.dies := by
  unfold State.skReads
  generalize (if c.ofChain then [] else s.writersOf (c.mark l) ks) = ids
  dsimp only
  split
  · exact s.touch_dies ks
  · exact (State.onIssuer_keeps (g := State.dies) (fun _ _ _ => rfl) (fun _ _ _ => rfl) _ l _ _).trans (s.touch_dies ks)

theorem State.skClaim_dies (s : State) (l : Nat) (c : SkCmd) (ks : List Nat) : (s.skClaim l c ks).dies = s.dies :=
  State.onIssuer_keeps (g := State.dies) (fun _ _ _ => rfl) (fun _ _ _ => rfl) (s.setCore _) l _ _

/-- A chunk of a chain writes its bytes at once, and the chains stay as they are. -/
theorem State.skEffect_chain {s : State} {l : Nat} {c : SkCmd} (hchain : c.ofChain = true) (p : SkPlan) :
    (s.skEffect l c p).mem = s.mem.writeCells p.cells ∧ ∀ d, ((s.skEffect l c p).die d).chains = (s.die d).chains := by
  let reads := s.skFetches l c p.size
  let s0 := (s.chargeKeys (l / 12) reads).bus c.func false reads
  let v := ((s0.skReads l c (s.skSourceKeys l c p.size)).skClaim l c p.claims).fillGranules (granulesOf p.fills)
  have hdies : v.dies = s.dies :=
    (State.fillGranules_dies _ _).trans ((State.skClaim_dies _ _ _ _).trans ((State.skReads_dies _ _ _ _).trans (s.chargeKeys_dies _ _)))
  have hmem : v.mem = s.mem := by simp [v, s0]
  have hwrite : s.skEffect l c p =
      ((v.chargeKeys (l / 12) (p.cells.map (·.1))).bus c.func true (p.cells.map (·.1))).show p.cells := if_pos hchain
  refine ⟨by simp [hwrite, hmem], fun d => ?_⟩
  rw [hwrite, State.show_chains]
  refine congrArg (fun ds => Die.chains (sget (fun _ => Die.reset) ds d)) ?_
  exact (v.chargeKeys_dies _ _).trans hdies

section
variable {s : State} {l n ch outmax dict dlen : Nat} {x : Core} {c : SkCmd} {src dst : List Nat}

/-- The chunk of a plain descriptor: its bytes are copied, and the chain counts them. -/
theorem State.chainChunk_plain (hpart : c.who.part = 18 + ch) (hlen : ch < (s.die (l / 96)).chains.length)
    (hkind : c.kind = .desc none 0 outmax dict dlen) (hn : n = Nat.min 2048 (c.len - c.pos))
    (hsrc : s.skKeys (c.ctx l) false (c.src + BitVec.ofNat 64 c.pos) n = (src, none))
    (hdst : s.skKeys (c.ctx l) true (c.dst + BitVec.ofNat 64 c.pos) n = (dst, none)) : let y := s.chain (l / 96) ch
    (s.chainChunk l c).mem = s.mem.writeCells (dst.zip (src.map s.mem.read)) ∧ (s.chainChunk l c).chain (l / 96) ch = { y with
      out := y.out + n
      cmd := some { c with pos := c.pos + n, since := s.dcc, done := decide (c.pos + n = c.len) } } := by
  intro y
  have hchain : c.ofChain = true := decide_eq_true (by omega)
  have hplan : s.skPlan l c = ⟨n, [], [], dst.zip (src.map s.mem.read), none⟩ := by
    subst hn
    exact (State.skPlan_asMov hkind s l).trans (State.skPlan_mov (c := c.asMov) rfl hsrc hdst)
  obtain ⟨hmem, hchains⟩ := State.skEffect_chain (s := s) (l := l) hchain ⟨n, [], [], dst.zip (src.map s.mem.read), none⟩
  generalize hu : s.skEffect l c ⟨n, [], [], dst.zip (src.map s.mem.read), none⟩ = u at hmem hchains
  have hcount : (dst.zip (src.map s.mem.read)).length = n := by
    rw [List.length_zip, List.length_map, State.skKeys_length hsrc, State.skKeys_length hdst, Nat.min_self]
  have hy : u.chain (l / 96) ch = y := by
    rw [State.chain, hchains]
    rfl
  have hch : c.who.part - 18 = ch := by omega
  have hchunk : s.chainChunk l c = u.setChain (l / 96) ch { y with
      out := y.out + n
      cmd := some { c with pos := c.pos + n, since := s.dcc, done := decide (c.pos + n = c.len) } } := by
    unfold State.chainChunk
    simp only [hplan, hu, hch, hy, hcount]
    rfl
  rw [hchunk]
  exact ⟨hmem, State.chain_setChain (by rw [hchains]; exact hlen) _⟩

theorem State.skIdle_dies (s : State) (l : Nat) : (s.skIdle l).dies = s.dies := by
  rcases s.skIdle_eq l with h | h <;> rw [h]
  rfl

theorem execSkidderChunkMove_of_chain (hnext : s.skNext l = some (x, c, n)) (hchain : c.ofChain = true) :
    exec (.skidderChunkMove l) s = .next (((s.setCore x).chainChunk l c).skIdle l) := by
  change execSkidderChunkMove l s = _
  rw [execSkidderChunkMove, hnext]
  dsimp only
  rw [hchain]
  rfl

end

/-! ### A chain that may walk (R186, R233, R251, R260) -/

theorem State.chainReady_spec {s : State} {d ch : Nat} (h : s.chainReady d ch = true) :
    (s.chain d ch).state = 1 ∧ ∀ x, (s.chain d ch).cmd = some x → x.done = true := by
  simp only [State.chainReady, Bool.and_eq_true, beq_iff_eq] at h
  obtain ⟨⟨⟨hstate, -⟩, hdone⟩, -⟩ := h
  exact ⟨hstate, fun x hx => by simpa [hx] using hdone⟩

section
variable {s : State} {d ch : Nat} (hready : s.chainReady d ch = true)
include hready

theorem execChainDescriptorWalk_reads (hcmd : (s.chain d ch).cmd = none) :
    exec (.chainDescriptorWalk d ch) s = .next (s.readChain d ch) := by
  refine congrArg Host.Outcome.next ((if_pos hready).trans ?_)
  simp only [State.walkChain, hcmd]

theorem execChainDescriptorWalk_ends {x : SkCmd} (hcmd : (s.chain d ch).cmd = some x) :
    exec (.chainDescriptorWalk d ch) s = .next (s.endDesc d ch) := by
  refine congrArg Host.Outcome.next ((if_pos hready).trans ?_)
  simp only [State.walkChain, hcmd, (State.chainReady_spec hready).2 x hcmd, if_true]

end

/-! ### The statement -/

/-- Settles O37: the branch that a chain's walk takes at its descriptor, what the status writes leave, and a chunk of a plain descriptor as
the plain move of its bytes. -/
theorem chainsWalk : Obligations.ChainsWalk := by
  refine ⟨fun s d ch hready hlen => ?_, ?_⟩
  · intro c goes posts fails
    obtain ⟨hstate, -⟩ := State.chainReady_spec hready
    have hfails {u : State} (code : Nat) (hu : u = s ∨ ∃ k, u = s.fetchedDesc d ch k)
        (hexec : exec (.chainDescriptorWalk d ch) s = .next (u.failDesc d ch 0 code)) : fails code := by
      rcases hu with rfl | ⟨k, rfl⟩
      · exact ⟨_, hexec, State.failDesc_spec hlen code⟩
      · obtain ⟨hmem, hchain, hposts⟩ := State.failDesc_spec (s := s.fetchedDesc d ch k) hlen code
        refine ⟨_, hexec, hmem.trans ?_, hchain, hposts⟩
        unfold State.failedMem State.fetchedDesc
        rw [State.chainStatus_bus]
        rfl
    refine ⟨hstate, fun hcmd hdesc => ?_, fun hcmd k hdesc => ?_, fun x k hcmd hstatus => ?_⟩
    · exact hfails 2 (.inl rfl) (by rw [execChainDescriptorWalk_reads hready hcmd, State.readChain_unreadable hdesc])
    · intro m within
      have hexec := (execChainDescriptorWalk_reads hready hcmd).trans (congrArg Host.Outcome.next (State.readChain_of_desc hdesc))
      have hrange : within ↔ ¬(!s.chainRangeOk c.lcore m.src m.len || !s.chainRangeOk c.lcore m.dst m.room) = true := by
        simp [within]
      have hran {t : State} (ht : _ = t) := hexec.trans (congrArg Host.Outcome.next ht)
      have hfull (h : m.ctrl % 2 = 1) : ¬m.ctrl % 2 = 0 := by omega
      refine ⟨fun hown => ?_, fun hown hbad => ?_, fun hown hgood hout => ?_, fun hown hgood hin => ?_⟩
      · exact ⟨_, hran (if_pos hown), rfl, State.chain_setChain hlen _,
          State.post_posts ((s.fetchedDesc d ch k).setChain d ch (c.resume 2)) (by decide) _ _ _⟩
      · exact hfails 1 (.inr ⟨k, rfl⟩)
          (hran ((if_neg (hfull hown)).trans (if_pos (Option.isSome_iff_ne_none.2 hbad))))
      all_goals have hsound : ¬m.defect.isSome = true := by simp [hgood]
      · exact hfails 2 (.inr ⟨k, rfl⟩)
          (hran ((if_neg (hfull hown)).trans ((if_neg hsound).trans (if_pos (not_not.1 (mt hrange.2 hout))))))
      · refine ⟨_, hran ((if_neg (hfull hown)).trans ((if_neg hsound).trans (if_neg (hrange.1 hin)))), rfl, c.command ch s.dcc m,
          State.chain_setChain (s := s.fetchedDesc d ch k) hlen _, rfl, rfl, rfl, rfl, rfl, rfl, rfl, rfl, rfl⟩
    · intro m
      obtain ⟨hmem, hchain, hposts⟩ := State.endDesc_spec hlen hstatus
      exact ⟨_, execChainDescriptorWalk_ends hready hcmd, hmem, hchain, hposts⟩
  · intro s l n ch outmax dict dlen x c hnext hpart hlen hkind src dst hsrc hdst hnodup
    obtain ⟨hsize, -, -⟩ := State.skNext_spec hnext
    have hn : n = Nat.min 2048 (c.len - c.pos) := by rw [hsize, Core.skSize_asMov hkind, Core.skSize_mov rfl]; rfl
    obtain ⟨hmem, hchain⟩ := State.chainChunk_plain (s := s.setCore x) hpart hlen hkind hn ((State.skKeys_setCore ..).trans hsrc)
      ((State.skKeys_setCore ..).trans hdst)
    have hdies (u : State) : (u.skIdle l).chain (l / 96) ch = u.chain (l / 96) ch :=
      congrArg (fun ds => (Die.chains (sget (fun _ => Die.reset) ds (l / 96))).getD ch .reset) (u.skIdle_dies l)
    refine ⟨hn, _, execSkidderChunkMove_of_chain hnext (decide_eq_true (by omega)), (hdies _).trans hchain, ?_⟩
    rw [State.skIdle_mem, hmem]
    exact Memory.copied (State.skKeys_length hsrc) (State.skKeys_length hdst) hnodup

end Sys2Proof.Machine

/-! Helper cores: what the shared steps of their instructions leave of each part of the state (R261, R262, R266). -/

namespace Sys2Proof.Machine

/-! ### Registers, pc and waits -/

section
variable (s : State)

@[simp] theorem State.setHx_hlp (n : Nat) (v : W32) :
    (s.setHx n v).hlp = { s.hlp with x := if n = 0 then s.hlp.x else sset (fun _ => 0) s.hlp.x n v } := by
  unfold State.setHx
  split <;> rfl

@[simp] theorem State.setHx_tasks (n : Nat) (v : W32) : (s.setHx n v).tasks = s.tasks := by
  unfold State.setHx
  split <;> rfl

@[simp] theorem State.setHx_dcc (n : Nat) (v : W32) : (s.setHx n v).dcc = s.dcc := by
  unfold State.setHx
  split <;> rfl

@[simp] theorem State.hGo_hlp (pc : W32) : (s.hGo pc).hlp = { s.hlp with
    pc, wait := none, quietAt := s.dcc + 32, mcycle := s.hlp.mcycle + 1, minstret := s.hlp.minstret + 1 } := rfl
@[simp] theorem State.hGo_tasks (pc : W32) : (s.hGo pc).tasks = s.tasks := rfl
@[simp] theorem State.hGo_cores (pc : W32) : (s.hGo pc).cores = s.cores := rfl

theorem State.hNext_eq_hGo (len : Nat) : s.hNext len = s.hGo (s.hlp.pc + BitVec.ofNat 32 len) := rfl

/-- A helper that waits keeps the tick at which its wait began. -/
theorem State.hWait_spec (k : HelperWait) : ∃ since, (s.hWait k).hlp = { s.hlp with
    mcycle := s.hlp.mcycle + 1, wait := some (k, since) } ∧ (s.hlp.wait = none → since = s.dcc) := by
  refine ⟨_, rfl, fun h => ?_⟩
  rw [h]

/-- A helper's exception changes of the helper the registers of its entry alone, and outside it no task, core or byte (R266). -/
theorem State.hTrap_entry (cause : Nat) (tval : W32) : (∃ mstatus mode, (s.hTrap cause tval).hlp = { s.hlp with
    mepc := s.hlp.pc, mcause := BitVec.ofNat 32 cause, mtval := tval, mstatus
    pc := s.hlp.mtvec &&& 0xFFFFFFFC, wait := none, inTrap := true, mcycle := s.hlp.mcycle + 1, mode }) ∧
    (s.hTrap cause tval).mem = s.mem ∧ (s.hTrap cause tval).tasks = s.tasks ∧ (s.hTrap cause tval).cores = s.cores := by
  unfold State.hTrap
  dsimp only
  split
  · exact ⟨⟨_, _, rfl⟩, rfl, rfl, rfl⟩
  · exact ⟨⟨_, _, rfl⟩, rfl, rfl, rfl⟩

end

/-! ### Reads and visible stores -/

/-- What a view of the state reads outside the cores stays when pads are touched. -/
theorem State.touch_blind {β : Type} {g : State → β} (hg : CoreBlind g) (s : State) (ks : List Nat) : g (s.touch ks) = g s :=
  foldl_keeps g _ _ s fun u _ => hg u _

/-- The helper and the tasks of a state. -/
def State.hands (s : State) : Helper × List Task := (s.hlp, s.tasks)

theorem State.hands_blind : CoreBlind State.hands := fun _ _ => rfl

@[simp] theorem State.touch_hlp (s : State) (ks : List Nat) : (s.touch ks).hlp = s.hlp :=
  State.touch_blind (g := State.hlp) (fun _ _ => rfl) s ks

@[simp] theorem State.touch_tasks (s : State) (ks : List Nat) : (s.touch ks).tasks = s.tasks :=
  State.touch_blind (g := State.tasks) (fun _ _ => rfl) s ks

@[simp] theorem State.touch_dcc (s : State) (ks : List Nat) : (s.touch ks).dcc = s.dcc :=
  State.touch_blind (g := State.dcc) (fun _ _ => rfl) s ks

theorem State.hReads_hlp (s : State) (k n : Nat) : ∃ ids, (s.hReads k n).hlp = { s.hlp with work := s.hlp.work.sawWriters ids } := by
  refine ⟨s.writersOf s.hMark ((List.range n).map (k + ·)), ?_⟩
  dsimp only [State.hReads, State.setHlp]
  rw [State.touch_hlp]

@[simp] theorem State.hReads_tasks (s : State) (k n : Nat) : (s.hReads k n).tasks = s.tasks := s.touch_tasks _
@[simp] theorem State.hReads_dcc (s : State) (k n : Nat) : (s.hReads k n).dcc = s.dcc := s.touch_dcc _

theorem State.fillGranules_blind {β : Type} {g : State → β} (hg : CoreBlind g) (gs : List (Nat × Nat)) (s : State) :
    g (s.fillGranules gs) = g s := by
  induction gs generalizing s with
  | nil => rfl
  | cons x gs ih => exact (ih _).trans (hg s _)

/-- A visible store changes neither the helper nor a task. -/
theorem State.show_hands (s : State) (cells : List Host.Cell) : (s.show cells).hands = s.hands := by
  have hold : (s.keepOldCode cells).hands = s.hands := by
    unfold State.keepOldCode
    split <;> rfl
  exact (State.touch_blind State.hands_blind _ _).trans ((State.fillGranules_blind State.hands_blind _ _).trans hold)

@[simp] theorem State.showOf_hlp (s : State) (id : Nat) (cells : List Host.Cell) : (s.showOf id cells).hlp = s.hlp :=
  congrArg Prod.fst (s.show_hands cells)

@[simp] theorem State.showOf_tasks (s : State) (id : Nat) (cells : List Host.Cell) : (s.showOf id cells).tasks = s.tasks :=
  congrArg Prod.snd (s.show_hands cells)

end Sys2Proof.Machine

/-! The RISC-V instructions of a helper core: the fields of a word and the values that instructions compute (R261, log 6). -/

namespace Sys2Proof.Machine

/-! ### Fields and immediates -/

def opOf (w : W32) : Nat := (w.extractLsb' 0 7).toNat
def rdOf (w : W32) : Nat := (w.extractLsb' 7 5).toNat
def f3Of (w : W32) : Nat := (w.extractLsb' 12 3).toNat
def f7Of (w : W32) : Nat := (w.extractLsb' 25 7).toNat
def rs1Of (w : W32) : Nat := (w.extractLsb' 15 5).toNat
def rs2Of (w : W32) : Nat := (w.extractLsb' 20 5).toNat
def csrOf (w : W32) : Nat := (w.extractLsb' 20 12).toNat
def immIOf (w : W32) : W32 := (w.extractLsb' 20 12).signExtend 32
def immSOf (w : W32) : W32 := (w.extractLsb' 25 7 ++ w.extractLsb' 7 5).signExtend 32
def immBOf (w : W32) : W32 :=
  (w.extractLsb' 31 1 ++ w.extractLsb' 7 1 ++ w.extractLsb' 25 6 ++ w.extractLsb' 8 4 ++ (0 : BitVec 1)).signExtend 32
def immJOf (w : W32) : W32 :=
  (w.extractLsb' 31 1 ++ w.extractLsb' 12 8 ++ w.extractLsb' 20 1 ++ w.extractLsb' 21 10 ++ (0 : BitVec 1)).signExtend 32
def immUOf (w : W32) : W32 := w.extractLsb' 12 20 ++ (0 : BitVec 12)

theorem rvBits_eq (w : W32) {hi lo n : Nat} (h : hi - lo + 1 = n) : rvBits w hi lo = (w.extractLsb' lo n).toNat := by
  rw [rvBits, bitsOf, h, BitVec.extractLsb'_toNat, Nat.shiftRight_eq_div_pow]

@[simp] theorem rvBits_op (w : W32) : rvBits w 6 0 = opOf w := rvBits_eq w rfl
@[simp] theorem rvBits_rd (w : W32) : rvBits w 11 7 = rdOf w := rvBits_eq w rfl
@[simp] theorem rvBits_f3 (w : W32) : rvBits w 14 12 = f3Of w := rvBits_eq w rfl
@[simp] theorem rvBits_rs1 (w : W32) : rvBits w 19 15 = rs1Of w := rvBits_eq w rfl
@[simp] theorem rvBits_rs2 (w : W32) : rvBits w 24 20 = rs2Of w := rvBits_eq w rfl
@[simp] theorem rvBits_f7 (w : W32) : rvBits w 31 25 = f7Of w := rvBits_eq w rfl
@[simp] theorem rvBits_csr (w : W32) : rvBits w 31 20 = csrOf w := rvBits_eq w rfl

/-- An immediate is the sign extension of its pattern. -/
theorem rvImm_eq {n x : Nat} (hn : 0 < n) {y : BitVec n} (h : x = y.toNat) : rvImm n x = y.signExtend 32 := by
  rw [rvImm, intOf_true_eq_toInt hn, h, BitVec.ofNat_toNat, BitVec.setWidth_eq]
  rfl

@[simp] theorem rvImmI_eq (w : W32) : rvImmI w = immIOf w := rvImm_eq (by decide) (rvBits_csr w)

@[simp] theorem rvImmS_eq (w : W32) : rvImmS w = immSOf w := by
  rw [rvImmS, rvBits_f7, rvBits_rd]
  exact rvImm_eq (by decide) (toNat_append_eq (w.extractLsb' 25 7) (w.extractLsb' 7 5)).symm

@[simp] theorem rvImmB_eq (w : W32) : rvImmB w = immBOf w := by
  rw [rvImmB, rvBits_eq w (n := 1) rfl, rvBits_eq w (n := 1) rfl, rvBits_eq w (n := 6) rfl, rvBits_eq w (n := 4) rfl]
  refine rvImm_eq (by decide) ?_
  simp only [toNat_append_eq, BitVec.ofNat_eq_ofNat, BitVec.toNat_ofNat]
  omega

@[simp] theorem rvImmJ_eq (w : W32) : rvImmJ w = immJOf w := by
  rw [rvImmJ, rvBits_eq w (n := 1) rfl, rvBits_eq w (n := 8) rfl, rvBits_eq w (n := 1) rfl, rvBits_eq w (n := 10) rfl]
  refine rvImm_eq (by decide) ?_
  simp only [toNat_append_eq, BitVec.ofNat_eq_ofNat, BitVec.toNat_ofNat]
  omega

@[simp] theorem rvImmU_eq (w : W32) : rvImmU w = immUOf w := by
  have hw : w = w.extractLsb' 12 20 ++ w.extractLsb' 0 12 := by
    apply BitVec.eq_of_toNat_eq
    simp only [toNat_append_eq, BitVec.extractLsb'_toNat, Nat.shiftRight_eq_div_pow]
    omega
  have hmask : (0xFFFFF000 : W32) = BitVec.allOnes 20 ++ (0 : BitVec 12) := by decide
  have hand : (w.extractLsb' 12 20 ++ w.extractLsb' 0 12) &&& (BitVec.allOnes 20 ++ (0 : BitVec 12)) =
      (w.extractLsb' 12 20 &&& BitVec.allOnes 20) ++ (w.extractLsb' 0 12 &&& (0 : BitVec 12)) := BitVec.and_append
  rw [BitVec.and_allOnes, BitVec.ofNat_eq_ofNat, BitVec.and_zero] at hand
  rw [rvImmU, immUOf, hmask, BitVec.ofNat_eq_ofNat, ← hand, ← hw]

/-! ### Values (RV32I, RV32M) -/

/-- The word that a load of `n` bytes gives. -/
theorem ofInt_intOf {n : Nat} (hn : 0 < n) (signed : Bool) (x : Nat) : BitVec.ofInt 32 (intOf n signed x) =
    if signed then (BitVec.ofNat n x).signExtend 32 else (BitVec.ofNat n x).setWidth 32 := by
  cases signed
  · rw [intOf_false_eq_toNat, BitVec.ofInt_natCast, BitVec.ofNat_toNat]
    rfl
  · rw [intOf_true_eq_toInt hn]
    rfl

/-- The high half of a product of 64 bits. -/
theorem ofInt_high (z : Int) : BitVec.ofInt 32 (z / 2 ^ 32) = (BitVec.ofInt 64 z).extractLsb' 32 32 := by
  apply BitVec.eq_of_toNat_eq
  rw [BitVec.extractLsb'_toNat, Nat.shiftRight_eq_div_pow, BitVec.toNat_ofInt, BitVec.toNat_ofInt]
  omega

theorem ofInt_mul_signed (a b : W32) : BitVec.ofInt 64 (a.toInt * b.toInt) = a.signExtend 64 * b.signExtend 64 := BitVec.ofInt_mul ..

theorem ofInt_mul_mixed (a b : W32) : BitVec.ofInt 64 (a.toInt * b.toNat) = a.signExtend 64 * b.setWidth 64 := by
  rw [BitVec.ofInt_mul, BitVec.ofInt_natCast, BitVec.ofNat_toNat]
  rfl

theorem ofInt_mul_unsigned (a b : W32) : BitVec.ofInt 64 ((a.toNat * b.toNat : Nat) : Int) = a.setWidth 64 * b.setWidth 64 := by
  rw [Nat.cast_mul, BitVec.ofInt_mul, BitVec.ofInt_natCast, BitVec.ofInt_natCast, BitVec.ofNat_toNat, BitVec.ofNat_toNat]

theorem ofInt_tdiv (a b : W32) : BitVec.ofInt 32 (a.toInt.tdiv b.toInt) = a.sdiv b := by
  apply BitVec.eq_of_toInt_eq
  rw [BitVec.toInt_ofInt, BitVec.toInt_sdiv]

theorem ofInt_tmod (a b : W32) : BitVec.ofInt 32 (a.toInt.tmod b.toInt) = a.srem b := by
  rw [← BitVec.toInt_srem, BitVec.ofInt_toInt]

theorem rvAlu_slt (alt : Bool) (a b : W32) : rvAlu 2 alt a b = if a.slt b then 1 else 0 := by
  simp only [rvAlu, BitVec.slt_eq_decide, decide_eq_true_eq]

theorem rvAlu_ult (alt : Bool) (a b : W32) : rvAlu 3 alt a b = if a.ult b then 1 else 0 := by
  simp only [rvAlu, BitVec.ult_eq_decide, decide_eq_true_eq]

/-- The shift count of a register is its low five bits. -/
theorem shiftCount_eq (y : W32) : y.toNat % 32 = (y.extractLsb' 0 5).toNat := by
  rw [BitVec.extractLsb'_toNat, Nat.shiftRight_zero]

/-- A branch's condition (RV32I). -/
theorem rvTaken_eq {f3 : Nat} {a b : W32} {taken : Bool} (h : f3 = 0 ∧ taken = decide (a = b) ∨ f3 = 1 ∧ taken = decide (a ≠ b) ∨
    f3 = 4 ∧ taken = a.slt b ∨ f3 = 5 ∧ (taken = !a.slt b) ∨ f3 = 6 ∧ taken = a.ult b ∨ f3 = 7 ∧ (taken = !a.ult b)) :
    rvTaken f3 a b = some taken := by
  rcases h with ⟨rfl, rfl⟩ | ⟨rfl, rfl⟩ | ⟨rfl, rfl⟩ | ⟨rfl, rfl⟩ | ⟨rfl, rfl⟩ | ⟨rfl, rfl⟩
  all_goals refine congrArg some ?_
  · exact beq_eq_decide a b
  · exact Bool.eq_iff_iff.2 (by simp)
  · rfl
  · rw [BitVec.slt_eq_decide, ← decide_not, decide_eq_decide, not_lt]
  · rfl
  · rw [BitVec.ult_eq_decide, ← decide_not, decide_eq_decide, not_lt]

/-! ### The base instructions that 16-bit ones stand for -/

theorem opOf_ofNat (n : Nat) : opOf (BitVec.ofNat 32 n) = n % 128 := by
  rw [opOf, BitVec.extractLsb'_toNat, BitVec.toNat_ofNat, Nat.shiftRight_zero]
  omega

section
variable (f7 f3 rd rs1 rs2 : Nat) (imm : W32)

theorem rvI_op (op : Nat) : opOf (rvI op f3 rd rs1 imm) = op % 128 := by
  rw [rvI, opOf_ofNat]
  omega

theorem rvR_op : opOf (rvR f7 f3 rd rs1 rs2) = 0x33 := by
  rw [rvR, opOf_ofNat]
  omega

theorem rvS_op (off : Nat) : opOf (rvS f3 rs1 rs2 off) = 0x23 := by
  rw [rvS, opOf_ofNat]
  omega

theorem rvB_op : opOf (rvB f3 rs1 imm) = 0x63 := by
  rw [rvB, opOf_ofNat]
  omega

theorem rvJ_op : opOf (rvJ rd imm) = 0x6F := by
  rw [rvJ, opOf_ofNat]
  omega

theorem rvU_op : opOf (BitVec.ofNat 32 (imm.toNat % 2 ^ 20 * 4096 + rd * 128 + 0x37)) = 0x37 := by
  rw [opOf_ofNat]
  omega

end

/-- None of the base instructions accesses a CSR: only EBREAK is one of SYSTEM. -/
def NoCsrAccess (o : Option W32) : Prop := ∀ x, o = some x → opOf x ≠ 0x73 ∨ x = 0x00100073

theorem noCsrAccess_none : NoCsrAccess none := fun _ h => nomatch h

theorem noCsrAccess_of_op {x : W32} {op : Nat} (h : opOf x = op) (hop : op ≠ 0x73) : NoCsrAccess (some x) :=
  fun _ hx => Option.some.inj hx ▸ .inl (h ▸ hop)

theorem noCsrAccess_ite {p : Prop} [Decidable p] {a b : Option W32} (ha : NoCsrAccess a) (hb : NoCsrAccess b) :
    NoCsrAccess (if p then a else b) := by
  split
  · exact ha
  · exact hb

section
variable {f7 f3 rd rs1 rs2 : Nat} {imm : W32}

theorem noCsrAccess_imm : NoCsrAccess (some (rvI 0x13 f3 rd rs1 imm)) := noCsrAccess_of_op (rvI_op ..) (by decide)
theorem noCsrAccess_load : NoCsrAccess (some (rvI 0x03 f3 rd rs1 imm)) := noCsrAccess_of_op (rvI_op ..) (by decide)
theorem noCsrAccess_jalr : NoCsrAccess (some (rvI 0x67 f3 rd rs1 imm)) := noCsrAccess_of_op (rvI_op ..) (by decide)
theorem noCsrAccess_reg : NoCsrAccess (some (rvR f7 f3 rd rs1 rs2)) := noCsrAccess_of_op (rvR_op ..) (by decide)
theorem noCsrAccess_store {off : Nat} : NoCsrAccess (some (rvS f3 rs1 rs2 off)) := noCsrAccess_of_op (rvS_op ..) (by decide)
theorem noCsrAccess_branch : NoCsrAccess (some (rvB f3 rs1 imm)) := noCsrAccess_of_op (rvB_op ..) (by decide)
theorem noCsrAccess_jump : NoCsrAccess (some (rvJ rd imm)) := noCsrAccess_of_op (rvJ_op ..) (by decide)
theorem noCsrAccess_upper : NoCsrAccess (some (BitVec.ofNat 32 (imm.toNat % 2 ^ 20 * 4096 + rd * 128 + 0x37))) :=
  noCsrAccess_of_op (rvU_op ..) (by decide)

end

theorem rvc0_noCsrAccess (w : W32) : NoCsrAccess (rvc0 w) := by
  unfold rvc0
  dsimp only
  split
  · exact noCsrAccess_ite noCsrAccess_none noCsrAccess_imm
  · exact noCsrAccess_load
  · exact noCsrAccess_store
  · exact noCsrAccess_none

theorem rvc1_noCsrAccess (w : W32) : NoCsrAccess (rvc1 w) := by
  unfold rvc1
  dsimp only
  split
  · exact noCsrAccess_imm
  · exact noCsrAccess_jump
  · exact noCsrAccess_imm
  · exact noCsrAccess_ite (noCsrAccess_ite noCsrAccess_none noCsrAccess_imm) (noCsrAccess_ite noCsrAccess_none noCsrAccess_upper)
  · split
    · exact noCsrAccess_ite noCsrAccess_none noCsrAccess_imm
    · exact noCsrAccess_ite noCsrAccess_none noCsrAccess_imm
    · exact noCsrAccess_imm
    · refine noCsrAccess_ite noCsrAccess_none ?_
      split <;> exact noCsrAccess_reg
  · exact noCsrAccess_jump
  · exact noCsrAccess_branch
  · exact noCsrAccess_branch

theorem rvc2_noCsrAccess (w : W32) : NoCsrAccess (rvc2 w) := by
  have hebreak : NoCsrAccess (some 0x00100073) := fun _ hx => .inr (Option.some.inj hx).symm
  unfold rvc2
  dsimp only
  split
  · exact noCsrAccess_ite noCsrAccess_none noCsrAccess_imm
  · exact noCsrAccess_ite noCsrAccess_none noCsrAccess_load
  · exact noCsrAccess_ite (noCsrAccess_ite (noCsrAccess_ite noCsrAccess_none noCsrAccess_jalr) noCsrAccess_reg)
      (noCsrAccess_ite (noCsrAccess_ite hebreak noCsrAccess_jalr) noCsrAccess_reg)
  · exact noCsrAccess_store
  · exact noCsrAccess_none

/-- A 16-bit instruction accesses no CSR: only C.EBREAK stands for an instruction of SYSTEM. -/
theorem rvExpand_noCsrAccess (w : W32) : NoCsrAccess (rvExpand w) := by
  unfold rvExpand
  split
  · exact rvc0_noCsrAccess w
  · exact rvc1_noCsrAccess w
  · exact rvc2_noCsrAccess w

end Sys2Proof.Machine

/-! The RISC-V instructions of a helper core (R261, R262, R265, R266, log 6). -/

namespace Sys2Proof.Machine

/-! ### What an instruction leaves -/

/-- The bolt, the words and elements that wait, and the tasks stay. -/
def State.RvKeeps (s t : State) : Prop := t.hlp.work.num = s.hlp.work.num ∧ t.hlp.boltpc = s.hlp.boltpc ∧
  t.hlp.inbox = s.hlp.inbox ∧ t.hlp.elems = s.hlp.elems ∧ t.tasks = s.tasks

/-- Memory, the CSRs and what the bolt holds stay. -/
def State.RvStill (s t : State) : Prop := t.mem = s.mem ∧ t.hlp.mepc = s.hlp.mepc ∧ t.hlp.mcause = s.hlp.mcause ∧
  t.hlp.mtval = s.hlp.mtval ∧ t.hlp.mtvec = s.hlp.mtvec ∧ t.hlp.mscratch = s.hlp.mscratch ∧ t.hlp.mstatus = s.hlp.mstatus ∧
  t.hlp.work.hold = s.hlp.work.hold

/-- The helper has gone on at a pc, with the value that its instruction gives `rd`. -/
def State.RvGone (s t : State) (rd : Nat) (pc : W32) (v : Option W32) : Prop := s.RvKeeps t ∧ t.hlp.pc = pc ∧ t.hlp.wait = none ∧
  t.hlp.quietAt = s.dcc + 32 ∧ ∀ n, t.hx n = if n = rd ∧ n ≠ 0 then v.getD (s.hx n) else s.hx n

/-- The helper has entered its trap handler (R266). -/
def State.RvTrapped (s t : State) (cause : Nat) (tval : W32) : Prop := s.RvKeeps t ∧ t.hlp.pc = s.hlp.mtvec &&& 0xFFFFFFFC ∧
  t.hlp.mepc = s.hlp.pc ∧ t.hlp.mcause = BitVec.ofNat 32 cause ∧ t.hlp.mtval = tval ∧ t.hlp.inTrap = true ∧ t.mem = s.mem ∧
  ∀ n, t.hx n = s.hx n

theorem State.hTrap_trapped (s : State) (cause : Nat) (tval : W32) : s.RvTrapped (s.hTrap cause tval) cause tval := by
  obtain ⟨⟨mstatus, mode, hhlp⟩, hmem, htasks, -⟩ := s.hTrap_entry cause tval
  unfold State.RvTrapped State.RvKeeps State.hx
  rw [hhlp]
  exact ⟨⟨rfl, rfl, rfl, rfl, htasks⟩, rfl, rfl, rfl, rfl, rfl, hmem, fun _ => rfl⟩

/-- A state behind some reads of the helper's bolt (R353). -/
structure State.AfterReads (s u : State) : Prop where
  hlp : ∃ reads, u.hlp = { s.hlp with work := { s.hlp.work with reads } }
  mem : u.mem = s.mem
  tasks : u.tasks = s.tasks
  dcc : u.dcc = s.dcc

theorem State.afterReads_refl (s : State) : s.AfterReads s := ⟨⟨s.hlp.work.reads, rfl⟩, rfl, rfl, rfl⟩

theorem State.afterReads_hReads (s : State) (k n : Nat) : s.AfterReads (s.hReads k n) := by
  obtain ⟨ids, h⟩ := s.hReads_hlp k n
  exact ⟨⟨_, h⟩, s.hReads_mem k n, s.hReads_tasks k n, s.hReads_dcc k n⟩

section
variable {s u : State} (h : s.AfterReads u)
include h

/-- An instruction that writes `rd` and nothing else. -/
theorem State.AfterReads.writes (rd : Nat) (v pc : W32) :
    s.RvGone ((u.setHx rd v).hGo pc) rd pc (some v) ∧ s.RvStill ((u.setHx rd v).hGo pc) := by
  obtain ⟨⟨reads, hhlp⟩, hmem, htasks, hdcc⟩ := h
  have hx (n : Nat) : u.hx n = s.hx n := by rw [State.hx, hhlp]; rfl
  simp [State.RvGone, State.RvStill, State.RvKeeps, hhlp, hmem, htasks, hdcc, hx]

theorem State.AfterReads.computes (rd len : Nat) (v : W32) :
    s.RvGone ((u.setHx rd v).hNext len) rd (s.hlp.pc + BitVec.ofNat 32 len) (some v) ∧ s.RvStill ((u.setHx rd v).hNext len) := by
  have hpc : (u.setHx rd v).hlp.pc = s.hlp.pc := by
    obtain ⟨⟨reads, hhlp⟩, -⟩ := h
    simp [hhlp]
  rw [State.hNext_eq_hGo, hpc]
  exact h.writes rd v _

end

/-- An instruction that writes no register. -/
theorem State.hGo_gone (s : State) (rd : Nat) (pc : W32) : s.RvGone (s.hGo pc) rd pc none ∧ s.RvStill (s.hGo pc) := by
  simp [State.RvGone, State.RvStill, State.RvKeeps]

/-! ### The 32-bit instruction of a word -/

theorem execHelperRiscv_32 {w : W32} (h : w.extractLsb' 0 2 = (3 : BitVec 2)) (s : State) :
    exec (.helperRiscvInstruction w) s = .next (s.rvExec w w 4) := by
  refine congrArg Host.Outcome.next (if_pos ?_)
  rw [rvBits_eq w (n := 2) rfl, h]
  rfl

section
variable {w : W32} (h : w.extractLsb' 0 2 ≠ (3 : BitVec 2)) (s : State)
include h

theorem rvBits_length : rvBits w 1 0 ≠ 3 := by
  rw [rvBits_eq w (n := 2) rfl]
  exact fun h3 => h (BitVec.eq_of_toNat_eq h3)

theorem execHelperRiscv_16 {x : W32} (hx : rvExpand w = some x) :
    exec (.helperRiscvInstruction w) s = .next (s.rvExec x w 2) := by
  refine congrArg Host.Outcome.next ((if_neg (rvBits_length h)).trans ?_)
  rw [hx]

theorem execHelperRiscv_illegal (hx : rvExpand w = none) : exec (.helperRiscvInstruction w) s = .next (s.hTrap 2 w) := by
  refine congrArg Host.Outcome.next ((if_neg (rvBits_length h)).trans ?_)
  rw [hx]

end

/-! ### Instructions of 32 bits by opcode -/

section
variable (s : State) {x : W32} (w : W32) (len : Nat)

theorem State.rvExec_lui (hop : opOf x = 0x37) : s.rvExec x w len = (s.setHx (rdOf x) (immUOf x)).hNext len := by
  simp [State.rvExec, hop]

theorem State.rvExec_auipc (hop : opOf x = 0x17) : s.rvExec x w len = (s.setHx (rdOf x) (s.hlp.pc + immUOf x)).hNext len := by
  simp [State.rvExec, hop]

theorem State.rvExec_jal (hop : opOf x = 0x6F) : s.rvExec x w len =
    (s.setHx (rdOf x) (s.hlp.pc + BitVec.ofNat 32 len)).hGo (s.hlp.pc + immJOf x) := by
  simp [State.rvExec, hop]

theorem State.rvExec_jalr (hop : opOf x = 0x67) (hf3 : f3Of x = 0) : s.rvExec x w len =
    (s.setHx (rdOf x) (s.hlp.pc + BitVec.ofNat 32 len)).hGo ((s.hx (rs1Of x) + immIOf x) &&& 0xFFFFFFFE) := by
  simp [State.rvExec, hop, hf3]

theorem State.rvExec_branch (hop : opOf x = 0x63) {taken : Bool}
    (h : rvTaken (f3Of x) (s.hx (rs1Of x)) (s.hx (rs2Of x)) = some taken) :
    s.rvExec x w len = s.hGo (if taken then s.hlp.pc + immBOf x else s.hlp.pc + BitVec.ofNat 32 len) := by
  cases taken <;> simp [State.rvExec, hop, h, State.hNext_eq_hGo]

/-- Where OP and OP-IMM have an operation of RV32I: `alt` is the form of SUB and SRA. -/
def AluForm (x : W32) (alt : Bool) : Prop :=
  opOf x = 0x13 ∧ (f3Of x = 1 → f7Of x = 0) ∧ (f3Of x = 5 → f7Of x = 0 ∨ f7Of x = 0x20) ∧ alt = decide (f3Of x = 5 ∧ f7Of x = 0x20) ∨
  opOf x = 0x33 ∧ (f7Of x = 0 ∧ alt = false ∨ f7Of x = 0x20 ∧ (f3Of x = 0 ∨ f3Of x = 5) ∧ alt = true)

theorem State.rvExec_alu {alt : Bool} (h : AluForm x alt) : s.rvExec x w len =
    (s.setHx (rdOf x) (rvAlu (f3Of x) alt (s.hx (rs1Of x)) (if opOf x = 0x13 then immIOf x else s.hx (rs2Of x)))).hNext len := by
  rcases h with ⟨hop, h1, h5, rfl⟩ | ⟨hop, ⟨hf7, rfl⟩ | ⟨hf7, hf3, rfl⟩⟩
  · have hlegal : ¬((f3Of x = 1 ∧ ¬f7Of x = 0) ∨ (f3Of x = 5 ∧ ¬f7Of x = 0 ∧ ¬f7Of x = 0x20)) := by tauto
    simp [State.rvExec, hop, hlegal]
  · simp [State.rvExec, hop, hf7]
  · simp [State.rvExec, hop, hf7, hf3]

theorem State.rvExec_mulDiv (hop : opOf x = 0x33) (hf7 : f7Of x = 1) : s.rvExec x w len =
    (s.setHx (rdOf x) (rvMulDiv (f3Of x) (s.hx (rs1Of x)) (s.hx (rs2Of x)))).hNext len := by
  simp [State.rvExec, hop, hf7]

theorem State.rvExec_fence (hop : opOf x = 0x0F) (hf3 : f3Of x = 0) : s.rvExec x w len = s.hNext len := by
  simp [State.rvExec, hop, hf3]

theorem State.rvExec_system (hop : opOf x = 0x73) (hf3 : f3Of x = 0) : s.rvExec x w len = s.rvSystem x len := by
  simp [State.rvExec, hop, hf3]

theorem State.rvExec_csr (hop : opOf x = 0x73) (h0 : f3Of x ≠ 0) (h4 : f3Of x ≠ 4) : s.rvExec x w len = s.rvCsr x := by
  simp [State.rvExec, hop, h0, h4]

theorem State.rvExec_unknown (h : ∀ k ∈ [0x37, 0x17, 0x6F, 0x67, 0x63, 0x03, 0x23, 0x13, 0x33, 0x0F, 0x73], opOf x ≠ k) :
    s.rvExec x w len = s.hTrap 2 w := by
  simp only [List.forall_mem_cons] at h
  obtain ⟨h1, h2, h3, h4, h5, h6, h7, h8, h9, h10, h11, -⟩ := h
  simp only [State.rvExec, rvBits_op]

/-! ### Loads (R262) -/

section
variable {n : Nat} {signed : Bool} (hop : opOf x = 0x03) (hload : rvLoad (f3Of x) = some (n, signed))
include hop hload

/-- The address of a load. -/
def State.loadAddress (s : State) (x : W32) : W32 := s.hx (rs1Of x) + immIOf x

theorem State.rvExec_load_misaligned (h : (s.loadAddress x).toNat % n ≠ 0) : s.rvExec x w len = s.hTrap 4 (s.loadAddress x) := by
  have hfail : s.hLoad (s.hx (rs1Of x) + immIOf x) n = .error (4, s.loadAddress x) := if_pos h
  simp [State.rvExec, hop, hload, hfail]

variable (halign : (s.loadAddress x).toNat % n = 0)
include halign

theorem State.rvExec_load_unmapped (h : s.hKey (s.loadAddress x) n = none) : s.rvExec x w len = s.hTrap 5 (s.loadAddress x) := by
  have hfail : s.hLoad (s.hx (rs1Of x) + immIOf x) n = .error (5, s.loadAddress x) := by
    refine (if_neg (not_not.2 halign)).trans ?_
    rw [show s.hKey (s.hx (rs1Of x) + immIOf x) n = none from h]
    rfl
  simp [State.rvExec, hop, hload, hfail]

theorem State.rvExec_load_mapped {k : Nat} (h : s.hKey (s.loadAddress x) n = some k) : s.rvExec x w len =
    if s.hAsleep k then s.hWaitPad
    else ((s.hReads k n).setHx (rdOf x) (BitVec.ofInt 32 (intOf (8 * n) signed
      (natOfBytes ((List.range n).map fun i => s.hByte (k + i)))))).hNext len := by
  have hkey : s.hKey (s.hx (rs1Of x) + immIOf x) n = some k := h
  have hok : s.hLoad (s.hx (rs1Of x) + immIOf x) n = .ok (natOfBytes ((List.range n).map fun i => s.hByte (k + i))) := by
    refine (if_neg (not_not.2 halign)).trans ?_
    rw [hkey]
  simp [State.rvExec, hop, hload, hok, hkey]

end

/-! ### Stores (R262, R265) -/

/-- The address of a store. -/
def State.storeAddress (s : State) (x : W32) : W32 := s.hx (rs1Of x) + immSOf x

theorem State.rvExec_store (hop : opOf x = 0x23) (hf3 : f3Of x ≤ 2) :
    s.rvExec x w len = s.hStore (s.storeAddress x) (2 ^ f3Of x) (s.hx (rs2Of x)) len := by
  simp [State.rvExec, hop, hf3, State.storeAddress]

end

/-- The cells of a word's low bytes. -/
theorem cellsAt_word (k n : Nat) (v : W32) :
    cellsAt k (bytesOfNat n v.toNat) = (List.range n).map fun i => (k + i, v.extractLsb' (8 * i) 8) := by
  have hbytes (m x : Nat) (k : Nat) : cellsAt k (bytesOfNat m x) = (List.range m).map fun i => (k + i, BitVec.ofNat 8 (x / 256 ^ i)) := by
    induction m generalizing x k with
    | zero => rfl
    | succ m ih =>
      rw [bytesOfNat, cellsAt, ih, List.range_succ_eq_map, List.map_cons, List.map_map, Nat.pow_zero, Nat.div_one]
      refine congrArg _ (List.map_congr_left fun i _ => ?_)
      simp only [Function.comp, Nat.div_div_eq_div_mul, ← Nat.pow_succ', Nat.add_assoc, Nat.add_comm 1]
  rw [hbytes]
  refine List.map_congr_left fun i _ => congrArg (Prod.mk _) (BitVec.eq_of_toNat_eq ?_)
  rw [BitVec.toNat_ofNat, BitVec.extractLsb'_toNat, Nat.shiftRight_eq_div_pow, Nat.pow_mul]

section
variable {s : State} {a : W32} {n : Nat} (v : W32) (len : Nat)

theorem State.hStore_misaligned (h : a.toNat % n ≠ 0) : s.hStore a n v len = s.hTrap 6 a := if_pos h

variable (halign : a.toNat % n = 0)
include halign

theorem State.hStore_unmapped (h : s.hKey a n = none) : s.hStore a n v len = s.hTrap 7 a := by
  refine (if_neg (not_not.2 halign)).trans ?_
  rw [h]

theorem State.hStore_mapped {k : Nat} (h : s.hKey a n = some k) : s.hStore a n v len =
    let cells := (List.range n).map fun i => (k + i, v.extractLsb' (8 * i) 8)
    if (corePadOf k).isSome then
      if s.hAsleep k then s.hWaitPad
      else if (granulesOf (cells.map Prod.fst)).any (s.writeStalls s.hMark) then s.hWait .store
      else (s.showOf (boltId s.hMark s.hlp.work.num) cells).hNext len
    else s.hHold (.store cells) n len := by
  refine (if_neg (not_not.2 halign)).trans ?_
  simp only [h, cellsAt_word]

end

@[simp] theorem State.showOf_dcc (s : State) (id : Nat) (cells : List Host.Cell) : (s.showOf id cells).dcc = s.dcc :=
  s.show_dcc cells

/-- A store that is visible at once. -/
theorem State.showOf_gone (s : State) (id : Nat) (cells : List Host.Cell) (rd len : Nat) :
    s.RvGone ((s.showOf id cells).hNext len) rd (s.hlp.pc + BitVec.ofNat 32 len) none ∧
      ((s.showOf id cells).hNext len).mem = s.mem.writeCells cells ∧ ((s.showOf id cells).hNext len).hlp.work.hold = s.hlp.work.hold := by
  simp [State.RvGone, State.RvKeeps, State.hNext_eq_hGo, State.hx, State.showOf_mem]

/-- An effect that the bolt holds. -/
theorem State.hHold_gone {s : State} {n : Nat} (h : s.hlp.holdb + n ≤ 65536) (i : HoldItem) (rd len : Nat) :
    s.RvGone (s.hHold i n len) rd (s.hlp.pc + BitVec.ofNat 32 len) none ∧ (s.hHold i n len).mem = s.mem ∧
      (s.hHold i n len).hlp.work.hold = s.hlp.work.hold ++ [i] ∧ (s.hHold i n len).hlp.holdb = s.hlp.holdb + n := by
  have hheld : s.hHold i n len = _ := if_neg (Nat.not_lt.2 h)
  rw [hheld]
  exact ⟨⟨⟨rfl, rfl, rfl, rfl, rfl⟩, rfl, rfl, rfl, fun n => by simp [State.hx, State.setHlp, State.hNext_eq_hGo]⟩, rfl, rfl, rfl⟩

/-- A helper that waits. -/
theorem State.hWait_waits (s : State) (k : HelperWait) : ∃ since, (s.hWait k).hlp.pc = s.hlp.pc ∧
    (s.hWait k).hlp.wait = some (k, since) ∧ (s.hWait k).mem = s.mem := ⟨_, rfl, rfl, rfl⟩

end Sys2Proof.Machine

/-! The RISC-V instructions of a helper core: its CSRs, and the obligation (R261, R262, R265, R266, log 6). -/

namespace Sys2Proof.Machine

/-! ### CSRs (Zicsr) -/

/-- What a CSR write leaves of a helper. -/
theorem Helper.setCsr_keeps (h : Helper) (n : Nat) (v : W32) : (h.setCsr n v).work = h.work ∧ (h.setCsr n v).boltpc = h.boltpc ∧
    (h.setCsr n v).inbox = h.inbox ∧ (h.setCsr n v).elems = h.elems ∧ (h.setCsr n v).x = h.x ∧ (h.setCsr n v).pc = h.pc ∧
    (h.setCsr n v).wait = h.wait ∧ (h.setCsr n v).quietAt = h.quietAt := by
  unfold Helper.setCsr
  split <;> exact ⟨rfl, rfl, rfl, rfl, rfl, rfl, rfl, rfl⟩

/-- The CSRs behind a write of one of them. -/
theorem Helper.setCsr_csrs (h : Helper) (n : Nat) (v : W32) :
    (h.setCsr n v).mscratch = (if n = 0x340 then v else h.mscratch) ∧
    (h.setCsr n v).mtvec = (if n = 0x305 then v &&& 0xFFFFFFFD else h.mtvec) ∧
    (h.setCsr n v).mepc = (if n = 0x341 then v &&& 0xFFFFFFFE else h.mepc) ∧
    (h.setCsr n v).mcause = (if n = 0x342 then v else h.mcause) ∧
    (h.setCsr n v).mtval = (if n = 0x343 then v else h.mtval) ∧
    (h.setCsr n v).mie = (if n = 0x304 then v &&& 0x888 else h.mie) := by
  unfold Helper.setCsr
  split <;> simp_all

/-- Where the value that a CSR instruction writes comes from. -/
def State.csrSource (s : State) (x : W32) : W32 := if 4 ≤ f3Of x then BitVec.ofNat 32 (rs1Of x) else s.hx (rs1Of x)

/-- The instruction writes its CSR. -/
abbrev CsrWrites (x : W32) : Prop := f3Of x % 4 = 1 ∨ rs1Of x ≠ 0

/-- The value that a CSR instruction writes. -/
def State.csrNew (s : State) (x old : W32) : W32 :=
  if f3Of x % 4 = 1 then s.csrSource x else if f3Of x % 4 = 2 then old ||| s.csrSource x else old &&& ~~~s.csrSource x

section
variable (s : State) (x : W32)

theorem State.rvCsr_missing (h : s.hlp.csr (csrOf x) = none) : s.rvCsr x = s.hTrap 2 x := by
  simp [State.rvCsr, h]

theorem State.rvCsr_readOnly {old : W32} (h : s.hlp.csr (csrOf x) = some old) (hw : CsrWrites x) (hro : 0xC00 ≤ csrOf x) :
    s.rvCsr x = s.hTrap 2 x := by
  have hillegal : (f3Of x % 4 = 1 ∨ rs1Of x ≠ 0) ∧ 0xC00 ≤ csrOf x := ⟨hw, hro⟩
  simp only [State.rvCsr, rvBits_csr, h, rvBits_f3, rvBits_rs1, if_pos hillegal]

theorem State.rvCsr_goes {old : W32} (h : s.hlp.csr (csrOf x) = some old) (hok : ¬(CsrWrites x ∧ 0xC00 ≤ csrOf x)) :
    s.rvCsr x = if CsrWrites x then ((s.setHx (rdOf x) old).hNext 4).setHlp
      (((s.setHx (rdOf x) old).hNext 4).hlp.setCsr (csrOf x) (s.csrNew x old)) else (s.setHx (rdOf x) old).hNext 4 := by
  have hlegal : ¬((f3Of x % 4 = 1 ∨ rs1Of x ≠ 0) ∧ 0xC00 ≤ csrOf x) := hok
  simp only [State.rvCsr, rvBits_csr, h, rvBits_f3, rvBits_rs1, rvBits_rd, if_neg hlegal, State.csrNew, State.csrSource, CsrWrites]
  refine if_congr Iff.rfl (congrArg (State.setHlp _) (congrArg (Helper.setCsr _ _) ?_)) rfl
  generalize (if 4 ≤ f3Of x then BitVec.ofNat 32 (rs1Of x) else s.hx (rs1Of x)) = src
  split
  next h1 => rw [if_pos h1]
  next h2 => rw [if_neg (by omega), if_pos h2]
  next h1 h2 => rw [if_neg h1, if_neg h2]

/-- What a CSR instruction that is not illegal does. -/
theorem State.rvCsr_gone {old : W32} (h : s.hlp.csr (csrOf x) = some old) (hok : ¬(CsrWrites x ∧ 0xC00 ≤ csrOf x)) :
    s.RvGone (s.rvCsr x) (rdOf x) (s.hlp.pc + BitVec.ofNat 32 4) (some old) ∧ (s.rvCsr x).mem = s.mem ∧
      (s.rvCsr x).hlp.work = s.hlp.work ∧
      (s.rvCsr x).hlp.mscratch = (if CsrWrites x ∧ csrOf x = 0x340 then s.csrNew x old else s.hlp.mscratch) ∧
      (s.rvCsr x).hlp.mtvec = (if CsrWrites x ∧ csrOf x = 0x305 then s.csrNew x old &&& 0xFFFFFFFD else s.hlp.mtvec) ∧
      (s.rvCsr x).hlp.mepc = (if CsrWrites x ∧ csrOf x = 0x341 then s.csrNew x old &&& 0xFFFFFFFE else s.hlp.mepc) ∧
      (s.rvCsr x).hlp.mcause = (if CsrWrites x ∧ csrOf x = 0x342 then s.csrNew x old else s.hlp.mcause) ∧
      (s.rvCsr x).hlp.mtval = (if CsrWrites x ∧ csrOf x = 0x343 then s.csrNew x old else s.hlp.mtval) ∧
      (s.rvCsr x).hlp.mie = (if CsrWrites x ∧ csrOf x = 0x304 then s.csrNew x old &&& 0x888 else s.hlp.mie) := by
  rw [s.rvCsr_goes x h hok]
  obtain ⟨hgone, -⟩ := s.afterReads_refl.computes (rdOf x) 4 old
  set u := (s.setHx (rdOf x) old).hNext 4 with hu
  have hsame : u.mem = s.mem ∧ u.hlp.work = s.hlp.work ∧ u.hlp.mscratch = s.hlp.mscratch ∧ u.hlp.mtvec = s.hlp.mtvec ∧
      u.hlp.mepc = s.hlp.mepc ∧ u.hlp.mcause = s.hlp.mcause ∧ u.hlp.mtval = s.hlp.mtval ∧ u.hlp.mie = s.hlp.mie := by
    simp [hu, State.hNext_eq_hGo]
  by_cases hw : CsrWrites x
  · obtain ⟨hmem, hwork, hscratch, htvec, hepc, hcause, htval, hie⟩ := hsame
    obtain ⟨kwork, kboltpc, kinbox, kelems, kx, kpc, kwait, kquiet⟩ := u.hlp.setCsr_keeps (csrOf x) (s.csrNew x old)
    obtain ⟨cscratch, ctvec, cepc, ccause, ctval, cie⟩ := u.hlp.setCsr_csrs (csrOf x) (s.csrNew x old)
    rw [hscratch] at cscratch
    rw [htvec] at ctvec
    rw [hepc] at cepc
    rw [hcause] at ccause
    rw [htval] at ctval
    rw [hie] at cie
    rw [if_pos hw]
    simp only [hw, true_and]
    refine ⟨?_, hmem, kwork.trans hwork, cscratch, ctvec, cepc, ccause, ctval, cie⟩
    obtain ⟨⟨hnum, hboltpc, hinbox, helems, htasks⟩, hpc, hwait, hquiet, hhx⟩ := hgone
    refine ⟨⟨kwork ▸ hnum, kboltpc.trans hboltpc, kinbox.trans hinbox, kelems.trans helems, htasks⟩, kpc.trans hpc,
      kwait.trans hwait, kquiet.trans hquiet, fun n => (?_ : _ = u.hx n).trans (hhx n)⟩
    rw [State.hx, State.setHlp, kx, State.hx]
  · rw [if_neg hw]
    simp only [hw, false_and, if_false]
    exact ⟨hgone, hsame⟩

end

/-! ### SYSTEM and the values of OP and OP-IMM -/

/-- MRET (R266): issue goes on at `mepc`, out of the trap handler, with the interrupt enable that the entry saved. -/
theorem State.rvSystem_mret (s : State) (rd len : Nat) : s.RvGone (s.rvSystem 0x30200073 len) rd s.hlp.mepc none ∧
    (s.rvSystem 0x30200073 len).hlp.inTrap = false ∧
    (s.rvSystem 0x30200073 len).hlp.mstatus.getLsbD 3 = s.hlp.mstatus.getLsbD 7 ∧
    (s.rvSystem 0x30200073 len).hlp.mstatus.getLsbD 7 = true ∧ (s.rvSystem 0x30200073 len).mem = s.mem := by
  refine ⟨⟨⟨rfl, rfl, rfl, rfl, rfl⟩, rfl, rfl, rfl, fun n => by simp [State.hx, State.rvSystem, State.setHlp]⟩, rfl, ?_, ?_, rfl⟩
  · simp [State.rvSystem, State.setHlp]
  · simp [State.rvSystem, State.setHlp]

/-- The width and the sign extension of a load by funct3. -/
theorem rvLoad_eq {f3 n : Nat} {signed : Bool} (h : f3 = 0 ∧ n = 1 ∧ signed = true ∨ f3 = 1 ∧ n = 2 ∧ signed = true ∨
    f3 = 2 ∧ n = 4 ∧ signed = true ∨ f3 = 4 ∧ n = 1 ∧ signed = false ∨ f3 = 5 ∧ n = 2 ∧ signed = false) :
    rvLoad f3 = some (n, signed) ∧ 0 < n := by
  rcases h with ⟨rfl, rfl, rfl⟩ | ⟨rfl, rfl, rfl⟩ | ⟨rfl, rfl, rfl⟩ | ⟨rfl, rfl, rfl⟩ | ⟨rfl, rfl, rfl⟩
  all_goals exact ⟨rfl, by decide⟩

/-- An OP or OP-IMM operation that is not SUB or SRA. -/
theorem aluForm_plain {x : W32} (hop : opOf x = 0x13 ∨ opOf x = 0x33) (hplain : opOf x = 0x13 ∨ f7Of x = 0)
    (hshift : f3Of x = 1 ∨ f3Of x = 5 → f7Of x = 0) : AluForm x false := by
  rcases hop with hop | hop
  · refine .inl ⟨hop, fun h1 => hshift (.inl h1), fun h5 => .inl (hshift (.inr h5)), ?_⟩
    have hsra : ¬(f3Of x = 5 ∧ f7Of x = 0x20) := fun ⟨h5, h7⟩ => by simp [hshift (.inr h5)] at h7
    exact (decide_eq_false hsra).symm
  · exact .inr ⟨hop, .inl ⟨hplain.resolve_left (by simp [hop]), rfl⟩⟩

/-- SUB and SRA. -/
theorem aluForm_alt {x : W32} (hf7 : f7Of x = 0x20)
    (h : f3Of x = 5 ∧ (opOf x = 0x13 ∨ opOf x = 0x33) ∨ f3Of x = 0 ∧ opOf x = 0x33) : AluForm x true := by
  rcases h with ⟨h5, hop | hop⟩ | ⟨h0, hop⟩
  · exact .inl ⟨hop, fun h1 => absurd (h1.symm.trans h5) (by decide), fun _ => .inr hf7, (decide_eq_true ⟨h5, hf7⟩).symm⟩
  · exact .inr ⟨hop, .inr ⟨hf7, .inr h5, rfl⟩⟩
  · exact .inr ⟨hop, .inr ⟨hf7, .inl h0, rfl⟩⟩

/-- A CSR instruction is one of 32 bits. -/
theorem length_of_csrAccess {w x : W32} {len : Nat} (h : w.extractLsb' 0 2 = (3 : BitVec 2) ∧ x = w ∧ len = 4 ∨
    w.extractLsb' 0 2 ≠ (3 : BitVec 2) ∧ rvExpand w = some x ∧ len = 2) (hop : opOf x = 0x73) (hf3 : f3Of x ≠ 0) : len = 4 := by
  rcases h with ⟨-, -, h4⟩ | ⟨-, hx, -⟩
  · exact h4
  · rcases rvExpand_noCsrAccess w x hx with hno | rfl
    · exact absurd hop hno
    · exact absurd (by decide) hf3

/-! ### The obligation -/

/-- Settles O44: an equation per opcode for `rvExec`, and one rule for each way an instruction ends. -/
theorem helperRiscv : Obligations.HelperRiscv := by
  intro s w x len h op f3 f7 rd a b immI immS immB immJ immU behind keeps goes still computes rests traps
  have htraps {cause : Nat} {tval : W32} (he : exec (.helperRiscvInstruction w) s = .next (s.hTrap cause tval)) :
      traps cause tval := ⟨_, he, s.hTrap_trapped cause tval⟩
  refine ⟨fun h16 hx => htraps (execHelperRiscv_illegal h16 s hx), fun hform => ?_⟩
  have hexec : exec (.helperRiscvInstruction w) s = .next (s.rvExec x w len) := by
    rcases hform with ⟨h32, rfl, rfl⟩ | ⟨h16, hx, rfl⟩
    · exact execHelperRiscv_32 h32 s
    · exact execHelperRiscv_16 h16 s hx
  have hends {t : State} (ht : s.rvExec x w len = t) : exec (.helperRiscvInstruction w) s = .next t := ht ▸ hexec
  have hgoes {t : State} {pc : W32} {v : Option W32} {p : State → Prop} (ht : s.rvExec x w len = t) (hgone : s.RvGone t rd pc v)
      (hp : p t) : goes pc v p := by
    obtain ⟨hkeeps, hpc, hwait, hquiet, hhx⟩ := hgone
    exact ⟨t, hends ht, hkeeps, hpc, hwait, hquiet, hhx, hp⟩
  have hcomputes {v : W32} (ht : s.rvExec x w len = (s.setHx rd v).hNext len) : computes v :=
    let ⟨hgone, hstill⟩ := s.afterReads_refl.computes rd len v
    hgoes ht hgone hstill
  have hrests (ht : s.rvExec x w len = s.hWaitPad) : rests := by
    obtain ⟨since, hpc, hwait, hmem⟩ := s.hWait_waits (.pad s.hlp.lcore)
    exact ⟨_, since, hends ht, hpc, hwait, hmem⟩
  have hnext (ht : s.rvExec x w len = s.hNext len) : goes behind none still :=
    let ⟨hgone, hstill⟩ := s.hGo_gone rd behind
    hgoes ht hgone hstill
  refine ⟨fun hop => hcomputes (s.rvExec_lui w len hop), fun hop => hcomputes (s.rvExec_auipc w len hop), fun hop => ?jal,
    fun hop hf3 => ?jalr, fun hop taken htaken => ?branch, fun hop => ?alu, fun hop hf7 => ?mulDiv, fun hop n signed hload => ?load,
    fun hop hf3 => ?store, fun hop hf3 => hnext (s.rvExec_fence w len hop hf3), ?ecall, ?ebreak, ?wfi, ?mret,
    fun hop h0 h4 => ?csr, fun hop => htraps (hends (s.rvExec_unknown w len hop))⟩
  case jal =>
    obtain ⟨hgone, hstill⟩ := s.afterReads_refl.writes rd behind (h.pc + immJ)
    exact hgoes (s.rvExec_jal w len hop) hgone hstill
  case jalr =>
    obtain ⟨hgone, hstill⟩ := s.afterReads_refl.writes rd behind ((a + immI) &&& 0xFFFFFFFE)
    exact hgoes (s.rvExec_jalr w len hop hf3) hgone hstill
  case branch =>
    obtain ⟨hgone, hstill⟩ := s.hGo_gone rd (if taken then h.pc + immB else behind)
    exact hgoes (s.rvExec_branch w len hop (rvTaken_eq htaken)) hgone hstill
  case alu =>
    intro y alt plain
    have halu {alt : Bool} {v : W32} (hform : AluForm x alt) (hv : rvAlu f3 alt a y = v) : computes v :=
      hcomputes (hv ▸ s.rvExec_alu w len hform)
    have hplain {n : Nat} (hf3 : f3 = n) (hn : n ≠ 1 ∧ n ≠ 5) (hp : plain) : AluForm x false :=
      aluForm_plain hop hp fun h15 => h15.elim (fun h1 => absurd (hf3.symm.trans h1) hn.1) (fun h5 => absurd (hf3.symm.trans h5) hn.2)
    have hshift (hf7 : f7 = 0) : AluForm x false := aluForm_plain hop (.inr hf7) fun _ => hf7
    refine ⟨fun hf3 hp => halu (hplain hf3 (by decide) hp) ?_, fun hf3 hop hf7 => halu (aluForm_alt hf7 (.inr ⟨hf3, hop⟩)) ?_,
      fun hf3 hf7 => halu (hshift hf7) ?_, fun hf3 hp => halu (hplain hf3 (by decide) hp) ?_,
      fun hf3 hp => halu (hplain hf3 (by decide) hp) ?_, fun hf3 hp => halu (hplain hf3 (by decide) hp) ?_,
      fun hf3 hp => halu (hplain hf3 (by decide) hp) ?_, fun hf3 hp => halu (hplain hf3 (by decide) hp) ?_,
      fun hf3 hf7 => halu (hshift hf7) ?_, fun hf3 hf7 => halu (aluForm_alt hf7 (.inl ⟨hf3, hop⟩)) ?_⟩
    all_goals rw [hf3]
    case refine_1 | refine_6 | refine_7 | refine_8 => rfl
    case refine_2 =>
      have hy : y = b := if_neg fun h13 : op = 0x13 => absurd (hop.symm.trans h13) (by decide)
      rw [hy]
      rfl
    case refine_3 | refine_9 | refine_10 => simp only [rvAlu, shiftCount_eq, if_true, Bool.false_eq_true, if_false]
    case refine_4 => exact rvAlu_slt false a y
    case refine_5 => exact rvAlu_ult false a y
  case mulDiv =>
    have hmul {v : W32} (hv : rvMulDiv f3 a b = v) : computes v := hcomputes (hv ▸ s.rvExec_mulDiv w len hop hf7)
    refine ⟨fun hf3 => hmul ?_, fun hf3 => hmul ?_, fun hf3 => hmul ?_, fun hf3 => hmul ?_, fun hf3 => hmul ?_,
      fun hf3 => hmul ?_, fun hf3 => hmul ?_, fun hf3 => hmul ?_⟩
    all_goals rw [hf3]
    case refine_1 | refine_6 | refine_8 => rfl
    case refine_2 => exact (ofInt_high _).trans (by rw [ofInt_mul_signed])
    case refine_3 => exact (ofInt_high _).trans (by rw [ofInt_mul_mixed])
    case refine_4 => exact (ofInt_high _).trans (by rw [ofInt_mul_unsigned])
    case refine_5 => simp only [rvMulDiv, ofInt_tdiv]
    case refine_7 => simp only [rvMulDiv, ofInt_tmod]
  case load =>
    intro e
    obtain ⟨hwidth, hn⟩ := rvLoad_eq hload
    refine ⟨fun hmis => htraps (hends (s.rvExec_load_misaligned w len hop hwidth hmis)),
      fun halign hkey => htraps (hends (s.rvExec_load_unmapped w len hop hwidth halign hkey)),
      fun k halign hkey hasleep => hrests ?_, fun k halign hkey hawake => ?_⟩
    · rw [s.rvExec_load_mapped w len hop hwidth halign hkey, if_pos hasleep]
    · intro v
      have hmapped := s.rvExec_load_mapped w len hop hwidth halign hkey
      rw [hawake, if_neg (by decide), ofInt_intOf (by omega)] at hmapped
      obtain ⟨hgone, hstill⟩ := (s.afterReads_hReads k n).computes rd len (if signed then v.signExtend 32 else v.setWidth 32)
      exact hgoes hmapped hgone hstill
  case store =>
    intro n e
    have hstore := s.rvExec_store w len hop hf3
    refine ⟨fun hmis => htraps (hends (hstore.trans (State.hStore_misaligned b len hmis))),
      fun halign hkey => htraps (hends (hstore.trans (State.hStore_unmapped b len halign hkey))), fun k halign hkey => ?_⟩
    intro cells
    have hmapped := hstore.trans (State.hStore_mapped b len halign hkey)
    dsimp only at hmapped
    refine ⟨fun hown hasleep => hrests ?_, fun hown hawake hfree => ?_, fun hown hawake hstall => ?_, fun hout hroom => ?_,
      fun hout hfull => ?_⟩
    · rw [hmapped, if_pos hown, if_pos hasleep]
    · rw [if_pos hown, hawake, if_neg (by decide), if_neg (by simpa [cells] using hfree)] at hmapped
      obtain ⟨hgone, hmem, hhold⟩ := s.showOf_gone (boltId s.hMark s.hlp.work.num) cells rd len
      exact hgoes hmapped hgone ⟨hmem, hhold⟩
    · rw [if_pos hown, hawake, if_neg (by decide), if_pos (by simpa [cells] using hstall)] at hmapped
      obtain ⟨since, hpc, hwait, hmem⟩ := s.hWait_waits .store
      exact ⟨_, since, hends hmapped, hpc, hwait, hmem⟩
    · rw [if_neg (by simp [hout])] at hmapped
      obtain ⟨hgone, hmem, hhold, hbytes⟩ := State.hHold_gone hroom (.store cells) rd len
      exact hgoes hmapped hgone ⟨hmem, hhold, hbytes⟩
    · rw [if_neg (by simp [hout])] at hmapped
      exact htraps (hends (hmapped.trans (if_pos hfull)))
  case ecall =>
    rintro rfl
    exact htraps (hends ((s.rvExec_system w len (by decide) (by decide)).trans rfl))
  case ebreak =>
    rintro rfl
    exact htraps (hends ((s.rvExec_system w len (by decide) (by decide)).trans rfl))
  case wfi =>
    rintro rfl
    exact hnext ((s.rvExec_system w len (by decide) (by decide)).trans rfl)
  case mret =>
    rintro rfl
    obtain ⟨hgone, hmret⟩ := s.rvSystem_mret rd len
    exact hgoes (s.rvExec_system w len (by decide) (by decide)) hgone hmret
  case csr =>
    intro n z src writes
    have hcsr := s.rvExec_csr w len hop h0 h4
    refine ⟨fun hmissing => htraps (hends (hcsr.trans (s.rvCsr_missing x hmissing))),
      fun old hold hw hro => htraps (hends (hcsr.trans (s.rvCsr_readOnly x hold hw hro))), fun old hold hok => ?_⟩
    intro new
    obtain ⟨hgone, hcsrs⟩ := s.rvCsr_gone x hold hok
    have hlen : len = 4 := length_of_csrAccess hform hop h0
    have hbehind : s.hlp.pc + BitVec.ofNat 32 4 = behind := congrArg (fun n => s.hlp.pc + BitVec.ofNat 32 n) hlen.symm
    exact hgoes hcsr (hbehind ▸ hgone) hcsrs

end Sys2Proof.Machine

/-! The hsk instructions of a helper core (R264 to R266, R186, R258, R309). -/

namespace Sys2Proof.Machine

/-! ### How an instruction ends -/

/-- Memory, the place of the helper, its trap set-up, the start of its bolt and the tasks stay. -/
def State.HskKeeps (s t : State) : Prop := t.mem = s.mem ∧ t.hlp.lcore = s.hlp.lcore ∧ t.hlp.which = s.hlp.which ∧
  t.hlp.mtvec = s.hlp.mtvec ∧ t.hlp.mscratch = s.hlp.mscratch ∧ t.hlp.mie = s.hlp.mie ∧ t.hlp.boltpc = s.hlp.boltpc ∧
  t.hlp.retry = s.hlp.retry ∧ t.tasks = s.tasks

/-- The instruction is over: `rd` has its value, if it gives one, and every other register and CSR what it had. -/
def State.HskRan (s t : State) (rd : Nat) (v : Option W32) : Prop := s.HskKeeps t ∧ t.hlp.pc = s.hlp.pc + 4 ∧
  t.hlp.wait = none ∧ t.hlp.quietAt = s.dcc + 32 ∧ t.hlp.mepc = s.hlp.mepc ∧ t.hlp.mcause = s.hlp.mcause ∧
  t.hlp.mtval = s.hlp.mtval ∧ t.hlp.mstatus = s.hlp.mstatus ∧ ∀ n, t.hx n = if n = rd ∧ n ≠ 0 then v.getD (s.hx n) else s.hx n

/-- A state before the end of an instruction: apart from the cores, only what the helper's bolt has gathered, what waits for
the helper, its latch and its tags have changed. -/
structure State.Within (s u : State) : Prop where
  hlp : ∃ work elems inbox latch holdb tags, u.hlp = { s.hlp with work, elems, inbox, latch, holdb, tags }
  mem : u.mem = s.mem
  tasks : u.tasks = s.tasks
  dcc : u.dcc = s.dcc

theorem State.within_refl (s : State) : s.Within s := ⟨⟨_, _, _, _, _, _, rfl⟩, rfl, rfl, rfl⟩

section
variable {s u : State} (h : s.Within u)
include h

theorem State.Within.setCore (c : Core) : s.Within (u.setCore c) := ⟨h.hlp, h.mem, h.tasks, h.dcc⟩

theorem State.Within.hReads (k n : Nat) : s.Within (u.hReads k n) := by
  obtain ⟨⟨work, elems, inbox, latch, holdb, tags, hhlp⟩, hmem, htasks, hdcc⟩ := h
  obtain ⟨ids, hreads⟩ := u.hReads_hlp k n
  rw [hhlp] at hreads
  exact ⟨⟨_, _, _, _, _, _, hreads⟩, (u.hReads_mem k n).trans hmem, (u.hReads_tasks k n).trans htasks, (u.hReads_dcc k n).trans hdcc⟩

theorem State.Within.hClaim (g : Nat) : s.Within (u.hClaim g) := by
  unfold State.hClaim
  dsimp only
  split
  · obtain ⟨⟨work, elems, inbox, latch, holdb, tags, hhlp⟩, hmem, htasks, hdcc⟩ := h
    exact ⟨⟨_, _, _, _, _, _, by rw [State.setHlp, State.setCore_hlp, hhlp]⟩, hmem, htasks, hdcc⟩
  · exact h

theorem State.Within.ran_next (rd : Nat) : s.HskRan (u.hNext 4) rd none := by
  obtain ⟨⟨work, elems, inbox, latch, holdb, tags, hhlp⟩, hmem, htasks, hdcc⟩ := h
  simp [State.HskRan, State.HskKeeps, State.hNext_eq_hGo, State.hx, hhlp, hmem, htasks, hdcc]

theorem State.Within.ran_writes (rd : Nat) (v : W32) : s.HskRan ((u.setHx rd v).hNext 4) rd (some v) := by
  obtain ⟨⟨work, elems, inbox, latch, holdb, tags, hhlp⟩, hmem, htasks, hdcc⟩ := h
  have hx (n : Nat) : u.hx n = s.hx n := by rw [State.hx, hhlp]; rfl
  simp [State.HskRan, State.HskKeeps, State.hNext_eq_hGo, hhlp, hmem, htasks, hdcc, hx]

end

/-! What the bolt has gathered and what waits for the helper, behind an instruction that writes a register. -/

section
variable (u : State) (rd : Nat) (v : W32)

theorem State.written_elems : ((u.setHx rd v).hNext 4).hlp.elems = u.hlp.elems := by simp [State.hNext_eq_hGo]
theorem State.written_inbox : ((u.setHx rd v).hNext 4).hlp.inbox = u.hlp.inbox := by simp [State.hNext_eq_hGo]
theorem State.written_latch : ((u.setHx rd v).hNext 4).hlp.latch = u.hlp.latch := by simp [State.hNext_eq_hGo]
theorem State.written_holdb : ((u.setHx rd v).hNext 4).hlp.holdb = u.hlp.holdb := by simp [State.hNext_eq_hGo]
theorem State.written_tags : ((u.setHx rd v).hNext 4).hlp.tags = u.hlp.tags := by simp [State.hNext_eq_hGo]

theorem State.written_core (l : Nat) : ((u.setHx rd v).hNext 4).core l = u.core l := by
  rw [State.core, hNext_cores, setHx_cores, State.core]

end

/-- What a helper's instruction has taken or gathered. -/
theorem State.within_setHlp (s : State) (work : BoltWork) (elems : List Elem) (inbox : List (Nat × W32 × Bool × Nat)) (latch : W32)
    (holdb tags : Nat) : s.Within (s.setHlp { s.hlp with work, elems, inbox, latch, holdb, tags }) :=
  ⟨⟨_, _, _, _, _, _, rfl⟩, rfl, rfl, rfl⟩

/-- The helper waits at its instruction, from this tick on or from the one at which its wait began. -/
def State.HskWaiting (s t : State) (k : HelperWait) (since : Nat) : Prop := s.HskKeeps t ∧ t.hlp.pc = s.hlp.pc ∧
  t.hlp.wait = some (k, since) ∧ (s.hlp.wait = none → since = s.dcc) ∧ t.hlp.work = s.hlp.work ∧ (∀ n, t.hx n = s.hx n) ∧
  t.cores = s.cores

theorem State.hWait_waiting (s : State) (k : HelperWait) : ∃ since, s.HskWaiting (s.hWait k) k since := by
  obtain ⟨since, hhlp, hsince⟩ := s.hWait_spec k
  refine ⟨since, ?_⟩
  unfold State.HskWaiting State.HskKeeps State.hx
  rw [hhlp]
  exact ⟨⟨rfl, rfl, rfl, rfl, rfl, rfl, rfl, rfl, rfl⟩, rfl, rfl, hsince, rfl, fun _ => rfl, rfl⟩

/-- The helper has entered its trap handler, and its bolt goes on (R266). -/
def State.HskTrapped (s t : State) (cause : Nat) (tval : W32) : Prop := s.HskKeeps t ∧ t.hlp.pc = s.hlp.mtvec &&& 0xFFFFFFFC ∧
  t.hlp.mepc = s.hlp.pc ∧ t.hlp.mcause = BitVec.ofNat 32 cause ∧ t.hlp.mtval = tval ∧ t.hlp.inTrap = true ∧
  t.hlp.work = s.hlp.work ∧ (∀ n, t.hx n = s.hx n) ∧ t.cores = s.cores

theorem State.hTrap_hskTrapped (s : State) (cause : Nat) (tval : W32) : s.HskTrapped (s.hTrap cause tval) cause tval := by
  obtain ⟨⟨mstatus, mode, hhlp⟩, hmem, htasks, hcores⟩ := s.hTrap_entry cause tval
  unfold State.HskTrapped State.HskKeeps State.hx
  rw [hhlp]
  exact ⟨⟨hmem, rfl, rfl, rfl, rfl, rfl, rfl, rfl, htasks⟩, rfl, rfl, rfl, rfl, rfl, rfl, fun _ => rfl, hcores⟩

/-! ### Cores -/

/-- What a field of a core other than the tick of its last access holds stays when pads are touched. -/
theorem State.touch_core {γ : Type} {ρ : Core → γ} (h : ∀ c touched, ρ { c with touched } = ρ c) (s : State) (ks : List Nat) (l : Nat) :
    ρ ((s.touch ks).core l) = ρ (s.core l) :=
  foldl_keeps (fun u => ρ (u.core l)) _ _ s fun _ _ => State.setCore_keeps (h _ _) l

theorem State.hReads_core {γ : Type} {ρ : Core → γ} (h : ∀ c touched, ρ { c with touched } = ρ c) (s : State) (k n l : Nat) :
    ρ ((s.hReads k n).core l) = ρ (s.core l) := State.touch_core h s _ l

theorem State.hReads_lcore (s : State) (k n : Nat) : (s.hReads k n).hlp.lcore = s.hlp.lcore := by
  obtain ⟨ids, h⟩ := s.hReads_hlp k n
  rw [h]

theorem State.hReads_mark (s : State) (k n : Nat) : (s.hReads k n).hMark = s.hMark := by
  obtain ⟨ids, h⟩ := s.hReads_hlp k n
  rw [State.hMark, State.hPart, h]
  rfl

/-- A claim of the helper on a granule of its own pad (R186). -/
theorem State.hClaim_claim (s : State) (g : Nat) : ((s.hClaim g).core s.hlp.lcore).claim g =
    if (s.core s.hlp.lcore).fullFor g s.hMark then s.hMark else (s.core s.hlp.lcore).claim g := by
  unfold State.hClaim
  dsimp only
  by_cases hfull : (s.core s.hlp.lcore).fullFor g s.hMark = true
  · have hset : (s.setCore ((s.core s.hlp.lcore).setClaim g s.hMark)).core s.hlp.lcore = (s.core s.hlp.lcore).setClaim g s.hMark :=
      State.core_setCore_of_eq rfl
    rw [if_pos hfull]
    split
    · change (State.core (State.setCore _ _) _).claim g = _
      rw [hset, claim_setClaim, if_pos rfl]
    · next hclaimed =>
      have hmine : (s.core s.hlp.lcore).claim g = 0 ∨ (s.core s.hlp.lcore).claim g = s.hMark := by
        simpa using (Bool.and_eq_true_iff.1 hfull).2
      exact hmine.resolve_left fun h0 => hclaimed (by simp [hfull, h0])
  · rw [if_neg hfull, if_neg (by simp [hfull])]

theorem State.hClaim_isFull (s : State) (g k l : Nat) : ((s.hClaim g).core l).isFull k = (s.core l).isFull k := by
  unfold State.hClaim
  dsimp only
  split
  · exact State.setCore_keeps (ρ := fun c => c.isFull k) rfl l
  · rfl

/-! ### hsk.enq (R264) -/

/-- What hsk.enq charges to the hold for the bytes that its move writes outside the own core pad. -/
def State.enqCharge (s : State) (d : MoveDesc) : Nat := if s.hOwnRange d.dst d.room then 0 else d.room

/-- The command that hsk.enq gives to the skidder. -/
def State.enqCommand (s : State) (ctl : W32) (d : MoveDesc) : SkCmd where
  who := ⟨s.hPart, s.hlp.work.num, s.hlp.tags, s.hlp.pc, s.hlp.tags % 65536⟩
  op := 0x300
  path := 1
  cls := ctl.toNat % 4
  kind := d.kind 0
  src := d.src
  dst := d.dst
  len := d.len
  pos := 0
  func := s.hlp.func
  det := 0
  res := ctl.getLsbD 9
  con := ctl.getLsbD 8
  sib := false
  since := s.dcc
  done := false
  conDone := false
  entered := s.dcc

/-- The helper has read its descriptor and given its move to the skidder. -/
def State.enqEnter (s : State) (k : Nat) (ctl : W32) (d : MoveDesc) : State :=
  let s0 := s.hReads k 64
  let c := s0.core s.hlp.lcore
  let s1 := s0.setCore { c with sq := c.sq ++ [s.enqCommand ctl d] }
  s1.setHlp { s1.hlp with tags := s.hlp.tags + 1, holdb := s.hlp.holdb + s.enqCharge d }

theorem State.enqEnter_within (s : State) (k : Nat) (ctl : W32) (d : MoveDesc) : s.Within (s.enqEnter k ctl d) := by
  obtain ⟨⟨work, elems, inbox, latch, holdb, tags, hhlp⟩, hmem, htasks, hdcc⟩ := s.within_refl.hReads k 64
  exact ⟨⟨_, _, _, _, _, _, by rw [State.enqEnter, State.setHlp, State.setCore_hlp, hhlp]⟩, hmem, htasks, hdcc⟩

theorem State.enqEnter_sq (s : State) (k : Nat) (ctl : W32) (d : MoveDesc) :
    ((s.enqEnter k ctl d).core s.hlp.lcore).sq = (s.core s.hlp.lcore).sq ++ [s.enqCommand ctl d] := by
  have hset (u : State) (sq : List SkCmd) : ((u.setCore { u.core s.hlp.lcore with sq }).core s.hlp.lcore).sq = sq := by
    rw [State.core_setCore_of_eq (l := s.hlp.lcore) rfl]
  exact (hset _ _).trans (congrArg (· ++ _) (State.hReads_core (ρ := Core.sq) (fun _ _ => rfl) s k 64 s.hlp.lcore))

section
variable (rd rs1 rs2 : BitVec 5) (s : State)

theorem execHskEnq_mapped {k : Nat} (halign : (s.hx rs1.toNat).toNat % 64 = 0) (hkey : s.hKey (s.hx rs1.toNat) 64 = some k) :
    exec (.hskEnq rd rs1 rs2) s = .next (
      let d := moveDesc (s.mem.readBytes k 64)
      if s.hAsleep k then s.hWaitPad
      else if !s.hRangeOk d.src d.len || !s.hRangeOk d.dst d.room then s.hTrap 24 (s.hx rs1.toNat)
      else if 65536 < s.hlp.holdb + s.enqCharge d then s.hTrap 26 (BitVec.ofNat 32 (s.enqCharge d))
      else if 16 ≤ s.hMoves.length then s.hWait .enq
      else ((s.enqEnter k (s.hx rs2.toNat) d).setHx rd.toNat (BitVec.ofNat 32 (s.hlp.tags % 65536))).hNext 4) := by
  change execHskEnq rd rs1 rs2 s = _
  simp only [execHskEnq, if_pos halign, hkey]
  rfl

theorem execHskEnq_unmapped (h : (s.hx rs1.toNat).toNat % 64 ≠ 0 ∨ s.hKey (s.hx rs1.toNat) 64 = none) :
    exec (.hskEnq rd rs1 rs2) s = .next (s.hTrap 24 (s.hx rs1.toNat)) := by
  have hnone : (if (s.hx rs1.toNat).toNat % 64 = 0 then s.hKey (s.hx rs1.toNat) 64 else none) = none := by
    rcases h with h | h
    · rw [if_neg h]
    · rw [h, ite_self]
  change execHskEnq rd rs1 rs2 s = _
  simp only [execHskEnq, hnone]

end

/-! ### hsk.deq and hsk.mbr (R264) -/

section
variable (rd rs1 : BitVec 5) (s : State)

theorem execHskDeq_empty (h0 : s.hx rs1.toNat = 0) (he : s.hlp.elems = []) : exec (.hskDeq rd rs1) s = .next (s.hWait .deq) := by
  change execHskDeq rd rs1 s = _
  simp only [execHskDeq, if_pos h0, he]

/-- The helper has taken an element from its queue. -/
def State.deqTake (s : State) (x : Elem) (rest : List Elem) : State :=
  s.setHlp { s.hlp with elems := rest, work := { s.hlp.work with popped := s.hlp.work.popped ++ [(1, x)] } }

theorem execHskDeq_first {x : Elem} {rest : List Elem} (h0 : s.hx rs1.toNat = 0) (he : s.hlp.elems = x :: rest) :
    exec (.hskDeq rd rs1) s = .next (((s.deqTake x rest).setHx rd.toNat (x.word.setWidth 32)).hNext 4) := by
  change execHskDeq rd rs1 s = _
  simp only [execHskDeq, if_pos h0, he]
  rfl

theorem execHskDeq_count (h1 : s.hx rs1.toNat = 1) :
    exec (.hskDeq rd rs1) s = .next ((s.setHx rd.toNat (BitVec.ofNat 32 s.hlp.elems.length)).hNext 4) := by
  change execHskDeq rd rs1 s = _
  simp only [execHskDeq, h1, if_true, if_neg (by decide : (1 : W32) ≠ 0)]

theorem execHskDeq_free (h : 1 < (s.hx rs1.toNat).toNat) :
    exec (.hskDeq rd rs1) s = .next ((s.setHx rd.toNat (Config.freeBits s.epoch 1024 32)).hNext 4) := by
  have h0 : s.hx rs1.toNat ≠ 0 := fun h0 => by simp [h0] at h
  have h1 : s.hx rs1.toNat ≠ 1 := fun h1 => by simp [h1] at h
  change execHskDeq rd rs1 s = _
  simp only [execHskDeq, if_neg h0, if_neg h1]

/-- A sealed word from a partition (R235). -/
abbrev SealedFrom (p : Nat) (z : Nat × W32 × Bool × Nat) : Prop := z.1 = p ∧ z.2.2.1 = true

theorem takeInbox_none {p : Nat} : ∀ {l : List (Nat × W32 × Bool × Nat)}, (∀ z ∈ l, ¬SealedFrom p z) → takeInbox p l = none
  | [], _ => rfl
  | z :: l, h => by
    rw [takeInbox, if_neg (h z List.mem_cons_self), takeInbox_none fun w hw => h w (List.mem_cons_of_mem _ hw)]
    rfl

theorem takeInbox_first {p : Nat} {z : Nat × W32 × Bool × Nat} {l2 : List (Nat × W32 × Bool × Nat)} (hz : SealedFrom p z) :
    ∀ {l1 : List (Nat × W32 × Bool × Nat)}, (∀ w ∈ l1, ¬SealedFrom p w) →
      takeInbox p (l1 ++ z :: l2) = some ((z.1, z.2.1, z.2.2.2), l1 ++ l2)
  | [], _ => by rw [List.nil_append, takeInbox, if_pos hz, List.nil_append]
  | w :: l1, h => by
    rw [List.cons_append, takeInbox, if_neg (h w List.mem_cons_self), takeInbox_first hz fun v hv => h v (List.mem_cons_of_mem _ hv)]
    rfl

/-- The bits of the mask of partitions with a sealed word. -/
theorem inboxMask_bit (l : List (Nat × W32 × Bool × Nat)) {k : Nat} (hk : k < 32) :
    (BitVec.ofNat 32 (inboxMask l)).getLsbD k = true ↔ k < 16 ∧ ∃ w ∈ l, SealedFrom k w := by
  rw [BitVec.getLsbD_ofNat, decide_eq_true hk, Bool.true_and]
  by_cases h16 : k < 16
  · have hbit : (inboxMask l).testBit k = l.any fun x => x.1 == k && x.2.2.1 :=
      packLanes_bit (g := fun p => l.any fun x => x.1 == p && x.2.2.1) h16
    simp [hbit, h16, SealedFrom]
  · have hlt : inboxMask l < 2 ^ k := (packLanes_lt 1 _ 16).trans_le (Nat.pow_le_pow_right (by decide) (by omega))
    simp [Nat.testBit_lt_two_pow hlt, h16]

/-- The helper has taken a word from its mailbox. -/
def State.mbrTake (s : State) (w : Nat × W32 × Nat) (rest : List (Nat × W32 × Bool × Nat)) : State :=
  s.setHlp { s.hlp with inbox := rest, work := { s.hlp.work with mail := s.hlp.work.mail ++ [w] } }

theorem execHskMbr_empty (hp : (s.hx rs1.toNat).toNat < 16) (h : takeInbox (s.hx rs1.toNat).toNat s.hlp.inbox = none) :
    exec (.hskMbr rd rs1) s = .next (s.hWait (.mbr (s.hx rs1.toNat).toNat)) := by
  change execHskMbr rd rs1 s = _
  simp only [execHskMbr, if_pos hp, h]

theorem execHskMbr_word {w : Nat × W32 × Nat} {rest : List (Nat × W32 × Bool × Nat)} (hp : (s.hx rs1.toNat).toNat < 16)
    (h : takeInbox (s.hx rs1.toNat).toNat s.hlp.inbox = some (w, rest)) :
    exec (.hskMbr rd rs1) s = .next (((s.mbrTake w rest).setHx rd.toNat w.2.1).hNext 4) := by
  change execHskMbr rd rs1 s = _
  simp only [execHskMbr, if_pos hp, h]
  rfl

theorem execHskMbr_mask (hp : (s.hx rs1.toNat).toNat = 16) :
    exec (.hskMbr rd rs1) s = .next ((s.setHx rd.toNat (BitVec.ofNat 32 (inboxMask s.hlp.inbox))).hNext 4) := by
  change execHskMbr rd rs1 s = _
  simp [execHskMbr, hp]

theorem execHskMbr_free (hp : 16 < (s.hx rs1.toNat).toNat) :
    exec (.hskMbr rd rs1) s = .next ((s.setHx rd.toNat (Config.freeBits s.epoch 1025 32)).hNext 4) := by
  change execHskMbr rd rs1 s = _
  simp only [execHskMbr, if_neg (by omega : ¬(s.hx rs1.toNat).toNat < 16), if_neg hp.ne']

end

/-! ### hsk.few and hsk.fes (R264, R258) -/

section
variable (rd rs1 : BitVec 5) (clear : Bool) (s : State)

theorem State.hFew_misaligned (h : (s.hx rs1.toNat).toNat % 4 ≠ 0) : s.hFew rd rs1 clear = s.hTrap 4 (s.hx rs1.toNat) := if_pos h

theorem State.hFew_outside (h : (s.hx rs1.toNat).toNat % 4 = 0) (hout : 0x200000 < (s.hx rs1.toNat).toNat + 4) :
    s.hFew rd rs1 clear = s.hTrap 5 (s.hx rs1.toNat) := by
  simp only [State.hFew, h, hout, ne_eq, not_true_eq_false, if_false, if_true]

theorem State.hFew_reads (h : (s.hx rs1.toNat).toNat % 4 = 0) (hin : (s.hx rs1.toNat).toNat + 4 ≤ 0x200000) :
    s.hFew rd rs1 clear =
      if s.hAsleep (keyCorePad s.hlp.lcore (s.hx rs1.toNat).toNat) then s.hWaitPad
      else if !(s.core s.hlp.lcore).fullFor ((s.hx rs1.toNat).toNat / 16) s.hMark
        then s.hWait (.few (s.hx rs1.toNat).toNat rd.toNat clear)
      else s.hFewLoad (s.hx rs1.toNat).toNat rd.toNat clear := by
  simp only [State.hFew, h, Nat.not_lt.2 hin, ne_eq, not_true_eq_false, if_false]

/-- The helper has read a word of its pad, with or without a claim on its granule. -/
def State.fewRead (s : State) (clear : Bool) (a : Nat) : State :=
  if clear then (s.hReads (keyCorePad s.hlp.lcore a) 4).hClaim (a / 16) else s.hReads (keyCorePad s.hlp.lcore a) 4

theorem State.hFewLoad_eq (a rd : Nat) : s.hFewLoad a rd clear = ((s.fewRead clear a).setHx rd
    (BitVec.ofNat 32 (natOfBytes (s.mem.readBytes (keyCorePad s.hlp.lcore a) 4)))).hNext 4 := rfl

theorem State.fewRead_within (a : Nat) : s.Within (s.fewRead clear a) := by
  have hreads := s.within_refl.hReads (keyCorePad s.hlp.lcore a) 4
  unfold State.fewRead
  split
  · exact hreads.hClaim _
  · exact hreads

theorem State.hFewLoad_ran (a rd : Nat) : s.HskRan (s.hFewLoad a rd clear) rd
    (some (BitVec.ofNat 32 (natOfBytes (s.mem.readBytes (keyCorePad s.hlp.lcore a) 4)))) :=
  (s.fewRead_within clear a).ran_writes rd _

theorem State.fewRead_isFull (a l g : Nat) : ((s.fewRead clear a).core l).isFull g = (s.core l).isFull g := by
  have hreads := State.hReads_core (ρ := fun c => c.isFull g) (fun _ _ => rfl) s (keyCorePad s.hlp.lcore a) 4 l
  unfold State.fewRead
  split
  · exact (State.hClaim_isFull _ _ _ _).trans hreads
  · exact hreads

theorem State.fewRead_claim {a : Nat} (hfull : (s.core s.hlp.lcore).fullFor (a / 16) s.hMark = true) :
    ((s.fewRead clear a).core s.hlp.lcore).claim (a / 16) = if clear then s.hMark else (s.core s.hlp.lcore).claim (a / 16) := by
  have hfor := State.hReads_core (ρ := fun c => c.fullFor (a / 16) s.hMark) (fun _ _ => rfl) s (keyCorePad s.hlp.lcore a) 4 s.hlp.lcore
  have hclaim := State.hReads_core (ρ := fun c => c.claim (a / 16)) (fun _ _ => rfl) s (keyCorePad s.hlp.lcore a) 4 s.hlp.lcore
  unfold State.fewRead
  split
  · have hclaimed := (s.hReads (keyCorePad s.hlp.lcore a) 4).hClaim_claim (a / 16)
    rw [s.hReads_lcore, s.hReads_mark] at hclaimed
    exact hclaimed.trans (if_pos (hfor.trans hfull))
  · exact hclaim

theorem State.hFewLoad_granule {a : Nat} (rd : Nat) (hfull : (s.core s.hlp.lcore).fullFor (a / 16) s.hMark = true) :
    ((s.hFewLoad a rd clear).core s.hlp.lcore).isFull (a / 16) = true ∧
    ((s.hFewLoad a rd clear).core s.hlp.lcore).claim (a / 16) =
      if clear then s.hMark else (s.core s.hlp.lcore).claim (a / 16) := by
  rw [State.hFewLoad_eq, State.written_core]
  exact ⟨(s.fewRead_isFull clear a _ _).trans (Bool.and_eq_true_iff.1 hfull).1, s.fewRead_claim clear hfull⟩

end

section
variable (rs1 rs2 : BitVec 5) (s : State)

theorem execHskFes_outside (h : 0x200000 ≤ (s.hx rs1.toNat).toNat) :
    exec (.hskFes rs1 rs2) s = .next (s.hTrap 7 (s.hx rs1.toNat)) := congrArg Host.Outcome.next (if_pos h)

theorem execHskFes_asleep (h : (s.hx rs1.toNat).toNat < 0x200000)
    (hasleep : s.hAsleep (keyCorePad s.hlp.lcore (s.hx rs1.toNat).toNat) = true) :
    exec (.hskFes rs1 rs2) s = .next s.hWaitPad :=
  congrArg Host.Outcome.next ((if_neg (Nat.not_le.2 h)).trans (if_pos hasleep))

variable (h : (s.hx rs1.toNat).toNat < 0x200000)
  (hawake : s.hAsleep (keyCorePad s.hlp.lcore (s.hx rs1.toNat).toNat) = false)
include h hawake

theorem execHskFes_sets (hbit : (s.hx rs2.toNat).getLsbD 0 = true) : exec (.hskFes rs1 rs2) s = .next (
    if s.writeStalls s.hMark (s.hlp.lcore, (s.hx rs1.toNat).toNat / 16) then s.hWait .store
    else (s.setCore ((s.core s.hlp.lcore).setFull ((s.hx rs1.toNat).toNat / 16) true)).hNext 4) :=
  congrArg Host.Outcome.next ((if_neg (Nat.not_le.2 h)).trans ((if_neg (by simp [hawake])).trans (if_pos hbit)))

theorem execHskFes_clears (hbit : (s.hx rs2.toNat).getLsbD 0 = false) : exec (.hskFes rs1 rs2) s = .next (
    (s.hClaim ((s.hx rs1.toNat).toNat / 16)).hNext 4) :=
  congrArg Host.Outcome.next ((if_neg (Nat.not_le.2 h)).trans ((if_neg (by simp [hawake])).trans (if_neg (hbit ▸ Bool.false_ne_true))))

end

/-! ### hsk.mbw (R264, R265) -/

section
variable (rs1 rs2 : BitVec 5) (s : State)

theorem execHskMbw_none (h : 16 ≤ (s.hx rs1.toNat).toNat) : exec (.hskMbw rs1 rs2) s = .next (s.hNext 4) :=
  congrArg Host.Outcome.next (if_pos h)

theorem execHskMbw_box (h : (s.hx rs1.toNat).toNat < 16) : exec (.hskMbw rs1 rs2) s = .next (
    if 8 ≤ ((s.core s.hlp.lcore).box (s.hx rs1.toNat).toNat s.hlp.which).length + heldMail (s.hx rs1.toNat).toNat s.hlp.work.hold
    then s.hWait (.mbw (s.hx rs1.toNat).toNat) else s.hHold (.mail (s.hx rs1.toNat).toNat (s.hx rs2.toNat)) 16 4) :=
  congrArg Host.Outcome.next (if_neg (Nat.not_le.2 h))

/-- The helper's bolt has taken an effect into its hold. -/
def State.holds (s : State) (i : HoldItem) (n : Nat) : State :=
  s.setHlp { s.hlp with holdb := s.hlp.holdb + n, work := { s.hlp.work with hold := s.hlp.work.hold ++ [i] } }

theorem State.hHold_held {s : State} {n : Nat} (h : s.hlp.holdb + n ≤ 65536) (i : HoldItem) (len : Nat) :
    s.hHold i n len = (s.holds i n).hNext len := if_neg (Nat.not_lt.2 h)

end

end Sys2Proof.Machine

/-! The seals of helper bolts, the watchdog of a helper and the replay of its bolt (R264 to R266, R188, R313). -/

namespace Sys2Proof.Machine

/-! ### What a release leaves of the helpers -/

@[simp] theorem State.show_hlp (s : State) (cells : List Host.Cell) : (s.show cells).hlp = s.hlp := congrArg Prod.fst (s.show_hands cells)

@[simp] theorem State.chargeKeys_hlp (s : State) (c : Nat) (ks : List Nat) : (s.chargeKeys c ks).hlp = s.hlp := by
  unfold State.chargeKeys
  dsimp only
  split <;> rfl

theorem State.showOpen_hlp (s : State) (l fn : Nat) (cells : List Host.Cell) : (s.showOpen l fn cells).hlp = s.hlp :=
  (State.show_hlp _ _).trans (s.chargeKeys_hlp _ _)

/-- No held effect changes the helper that is selected. -/
@[simp] theorem State.releaseItem_hlp (s : State) (r : Releaser) (i : HoldItem) : (s.releaseItem r i).hlp = s.hlp := by
  cases i with
  | store cells | moved cells => exact s.showOpen_hlp _ _ _
  | pxfer plot st ow =>
    unfold State.releaseItem State.transferPlot
    dsimp only
    split <;> rfl
  | opreq rail op =>
    unfold State.releaseItem State.flagCapped
    dsimp only
    split <;> rfl
  | zenter | zleave => exact State.onTask_keeps (g := State.hlp) (fun _ _ _ => rfl) s _ _
  | push | post | launch | spec | decide | cord | skqset | skchn | mail => rfl

/-- The state once the held effects of the helper's bolt have been released in held order. -/
def State.hReleased (s : State) : State := s.hlp.work.hold.foldl (fun acc i => acc.releaseItem s.hReleaser i) s

theorem State.hReleased_hlp (s : State) : s.hReleased.hlp = s.hlp := foldl_keeps State.hlp _ _ s fun u i => u.releaseItem_hlp _ i

/-! ### Claims -/

/-- The claims of a bolt are resolved: their granules are claimed by nobody, and their full bits have a value. -/
def State.Claimed (s : State) (full : Bool) (ks : List Nat) : Prop := ∀ k ∈ ks, ∀ l o, corePadOf k = some (l, o) →
  (s.core l).isFull (o / 16) = full ∧ (s.core l).claim (o / 16) = 0

theorem State.claimed_of_cores {s : State} {t : State} {full : Bool} {ks : List Nat}
    (h : t.cores = (s.resolveClaims full ks).cores) : t.Claimed full ks := by
  intro k hk l o hpad
  have hresolved := State.resolvedAt_resolveClaims ks (s := s) (full := full) (l := l) (g := o / 16) (.inr ⟨k, hk, o, hpad, rfl⟩)
  rw [State.resolvedAt, State.core, ← h] at hresolved
  exact hresolved.symm

/-! ### hsk.seal (R264, R265) -/

/-- The helper's bolt has sealed at its instruction, and its next bolt begins behind it. -/
def State.HSealed (t u : State) : Prop := u.hlp.pc = t.hlp.pc + 4 ∧ u.hlp.boltpc = t.hlp.pc + 4 ∧ u.hlp.holdb = 0 ∧
  u.hlp.retry = 0 ∧ u.hlp.wait = none ∧ u.hlp.work.hold = [] ∧ u.hlp.work.claims = [] ∧ u.hlp.work.num = t.hlp.work.num + 1 ∧
  u.mem = t.hReleased.mem ∧ u.Claimed false t.hlp.work.claims ∧ ∀ n, u.hx n = t.hx n

/-- The helper's seal has raised the exception of a failed move with its tag. -/
def State.HFails (t u : State) (x : Nat × Nat) : Prop := x ∈ t.hlp.faults ∧ x.1 = t.hlp.work.num ∧ u.mem = t.mem ∧
  u.hlp.pc = t.hlp.mtvec &&& 0xFFFFFFFC ∧ u.hlp.mepc = t.hlp.pc ∧ u.hlp.mcause = 24 ∧ u.hlp.mtval = BitVec.ofNat 32 x.2 ∧
  u.hlp.faults = t.hlp.faults.erase x ∧ u.hlp.work = t.hlp.work ∧ u.hlp.inTrap = true ∧ ∀ n, u.hx n = t.hx n

/-- The state behind the end of the helper's bolt, before its next bolt begins. -/
def State.hResolved (s : State) : State :=
  (s.hReleased.resolveClaims false s.hlp.work.claims).forgetWriter (boltId s.hMark s.hlp.work.num)

theorem State.hResolved_hlp (s : State) : s.hResolved.hlp = s.hlp :=
  (State.resolveClaims_blind (π := State.hlp) (fun _ _ => rfl) false _ _).trans s.hReleased_hlp

theorem State.hSealNow_hlp (s : State) : ∃ quietAt, s.hSealNow.hlp = { s.hlp with
    work := .fresh (s.hlp.work.num + 1), holdb := 0, retry := 0, boltpc := s.hlp.pc + 4, boltTrap := s.hlp.inTrap
    pc := s.hlp.pc + 4, wait := none, quietAt, mcycle := s.hlp.mcycle + 1, minstret := s.hlp.minstret + 1 } := by
  have hnow : s.hSealNow.hlp = { s.hResolved.hlp with
      work := .fresh (s.hlp.work.num + 1), holdb := 0, retry := 0, boltpc := s.hResolved.hlp.pc + 4
      boltTrap := s.hResolved.hlp.inTrap, pc := s.hResolved.hlp.pc + 4, wait := none, quietAt := s.hResolved.dcc + 32
      mcycle := s.hResolved.hlp.mcycle + 1, minstret := s.hResolved.hlp.minstret + 1 } := rfl
  rw [s.hResolved_hlp] at hnow
  exact ⟨_, hnow⟩

theorem State.hSealNow_sealed (s : State) : s.HSealed s.hSealNow := by
  obtain ⟨quietAt, hnow⟩ := s.hSealNow_hlp
  unfold State.HSealed State.hx
  rw [hnow]
  exact ⟨rfl, rfl, rfl, rfl, rfl, rfl, rfl, rfl, State.resolveClaims_mem .., State.claimed_of_cores rfl, fun _ => rfl⟩

theorem State.hSealEnd_of_none {s : State} (h : s.hFault = none) : s.hSealEnd = s.hSealNow := by
  rw [State.hSealEnd, h]

theorem State.hSealEnd_fails {s : State} {x : Nat × Nat} (h : s.hFault = some x) : s.HFails s.hSealEnd x := by
  have hnum : x.1 = s.hlp.work.num := by simpa using List.find?_some h
  rw [State.hSealEnd, h]
  obtain ⟨⟨mstatus, mode, hhlp⟩, hmem, -⟩ :=
    State.hTrap_entry (s.setHlp { s.hlp with faults := s.hlp.faults.erase x }) 24 (BitVec.ofNat 32 x.2)
  unfold State.HFails State.hx
  dsimp only
  rw [hhlp]
  exact ⟨List.mem_of_find?_eq_some h, hnum, hmem, rfl, rfl, rfl, rfl, rfl, rfl, rfl, fun _ => rfl⟩

/-! ### The helpers that a step serves -/

theorem State.findHelper_spec {s t : State} {test : State → Bool} (h : s.findHelper test = some t) :
    (∃ x ∈ s.helpers, t = s.selectHelper x.lcore x.which) ∧ t.hlp.mode = .running ∧ test t = true := by
  obtain ⟨x, hx, hsel⟩ := List.mem_map.1 (List.mem_of_find?_eq_some h)
  obtain ⟨hmode, htest⟩ := Bool.and_eq_true_iff.1 (List.find?_some (p := fun t : State => t.hlp.mode == .running && test t) h)
  exact ⟨⟨x, hx, hsel.symm⟩, beq_iff_eq.1 hmode, htest⟩

/-- A helper that HELPER_SEAL_RELEASE serves waits at its seal, and its bolt is quiet or has a fault to raise. -/
theorem State.hSealWaits_spec {t : State} (h : t.hSealWaits = true) : (∃ since, t.hlp.wait = some (.seal, since)) ∧
    (t.hFault = none → t.hlp.quietAt ≤ t.dcc ∧ t.hQuiet = true) := by
  simp only [State.hSealWaits, Bool.and_eq_true, Bool.or_eq_true, decide_eq_true_eq] at h
  obtain ⟨⟨⟨hwait, -⟩, -⟩, hdue⟩ := h
  refine ⟨?_, fun hnone => hdue.resolve_left (by simp [hnone])⟩
  obtain ⟨⟨k, since⟩, hw, hk⟩ := Option.any_eq_true .. |>.1 hwait
  exact ⟨since, hw.trans (congrArg (fun k => some (k, since)) (beq_iff_eq.1 hk))⟩

/-- A helper whose watchdog ends its wait has waited for 2^24 ticks where a watchdog counts. -/
theorem State.hLate_spec {t : State} (h : t.hLate = true) :
    ∃ k since n, t.hlp.wait = some (k, since) ∧ k.selector = some n ∧ since + 2 ^ 24 ≤ t.dcc := by
  simp only [State.hLate, Bool.and_eq_true] at h
  obtain ⟨⟨k, since⟩, hw, hk⟩ := Option.any_eq_true .. |>.1 h.2
  obtain ⟨hselector, hlate⟩ := Bool.and_eq_true_iff.1 hk
  obtain ⟨n, hn⟩ := Option.isSome_iff_exists.1 hselector
  exact ⟨k, since, n, hw, hn, of_decide_eq_true hlate⟩

/-! ### Exceptions in the trap handler (R266, R313) -/

/-- An exception in the trap handler stops the helper and posts its record. -/
theorem State.hTrap_stops {s : State} (h : s.hlp.inTrap = true) (cause : Nat) (tval : W32) :
    (s.hTrap cause tval).hlp.mode = .stopped ∧ ∃ e ∈ (s.hTrap cause tval).events, ∃ body : BitVec 192,
      e.kind = .record 0 body ∧ body.extractLsb' 56 8 = (6 : BitVec 8) := by
  unfold State.hTrap
  dsimp only
  rw [if_pos h, if_pos h]
  exact ⟨rfl, _, List.mem_append_right _ (List.mem_singleton.2 rfl), _, rfl, (recordBody_fields (by decide)).1⟩

theorem State.hTrap_mode {s : State} (h : s.hlp.inTrap = false) (cause : Nat) (tval : W32) :
    (s.hTrap cause tval).hlp.mode = s.hlp.mode := by
  unfold State.hTrap
  dsimp only
  rw [h]
  rfl

/-! ### The replay of a helper's bolt (R188, R265) -/

/-- The commands of the helper's bolt, which its replay cancels. -/
def State.hBoltIssuer (s : State) (x : Issuer) : Bool := x.part == 16 + s.hlp.which && x.bolt == s.hlp.work.num

/-- The state once the moves of the helper's bolt are gone and its claims are full again. -/
def State.hUndone (s : State) : State :=
  ((s.cancel s.hlp.lcore s.hBoltIssuer).resolveClaims true s.hlp.work.claims).forgetWriter (boltId s.hMark s.hlp.work.num)

theorem State.hUndone_hlp (s : State) : s.hUndone.hlp = s.hlp :=
  (State.resolveClaims_blind (π := State.hlp) (fun _ _ => rfl) true _ _).trans
    (State.cancel_blind (π := State.hlp) (fun _ _ => rfl) s _ _)

/-- The claims of a bolt concern no command of a core. -/
theorem State.resolveClaims_sq (full : Bool) (l : Nat) : ∀ (ks : List Nat) (s : State),
    ((s.resolveClaims full ks).core l).sq = (s.core l).sq
  | [], _ => rfl
  | k :: ks, s => by
    rw [State.resolveClaims, State.resolveClaims_sq full l ks]
    split
    · exact State.setCore_keeps (ρ := Core.sq) rfl l
    · rfl

theorem State.hUndone_sq (s : State) : ∀ c ∈ (s.hUndone.core s.hlp.lcore).sq,
    ¬(c.who.part = 16 + s.hlp.which ∧ c.who.bolt = s.hlp.work.num) := by
  intro c hc ⟨hpart, hbolt⟩
  have hkept : (s.hUndone.core s.hlp.lcore).sq = ((s.cancel s.hlp.lcore s.hBoltIssuer).core s.hlp.lcore).sq :=
    State.resolveClaims_sq true _ _ _
  have hother := (s.without_of_cancel s.hlp.lcore s.hBoltIssuer).1 c (hkept ▸ hc)
  simp [State.hBoltIssuer, hpart, hbolt] at hother

theorem State.hReplay_hlp (s : State) : s.hReplay.hlp = { s.hlp with
    elems := (s.hlp.work.popped.map (·.2)).filter (·.bolt ≠ s.hlp.work.num) ++ s.hlp.elems.filter (·.bolt ≠ s.hlp.work.num)
    inbox := s.hlp.work.mail.map (fun m => (m.1, m.2.1, true, m.2.2)) ++ s.hlp.inbox
    faults := s.hlp.faults.filter (·.1 ≠ s.hlp.work.num)
    inTrap := s.hlp.boltTrap
    work := { BoltWork.fresh s.hlp.work.num with replayed := true }
    holdb := 0, retry := s.hlp.retry + 1, pc := s.hlp.boltpc, wait := none, charged := none } := by
  have hreplay : s.hReplay.hlp = { s.hUndone.hlp with
      elems := (s.hlp.work.popped.map (·.2)).filter (·.bolt ≠ s.hlp.work.num) ++ s.hlp.elems.filter (·.bolt ≠ s.hlp.work.num)
      inbox := s.hlp.work.mail.map (fun m => (m.1, m.2.1, true, m.2.2)) ++ s.hlp.inbox
      faults := s.hlp.faults.filter (·.1 ≠ s.hlp.work.num)
      inTrap := s.hlp.boltTrap
      work := { BoltWork.fresh s.hlp.work.num with replayed := true }
      holdb := 0, retry := s.hlp.retry + 1, pc := s.hlp.boltpc, wait := none, charged := none } := rfl
  rw [hreplay, s.hUndone_hlp]

/-- No element of the bolt waits for the helper behind its replay. -/
theorem State.hReplay_elems (s : State) : ∀ e ∈ s.hReplay.hlp.elems, e.bolt ≠ s.hlp.work.num := by
  rw [s.hReplay_hlp]
  intro e he
  rcases List.mem_append.1 he with he | he
  · exact of_decide_eq_true (List.mem_filter.1 he).2
  · exact of_decide_eq_true (List.mem_filter.1 he).2

end Sys2Proof.Machine

/-! Helper cores: their hsk instructions, their seals, their watchdog and their replay (R264 to R266, R186, R188, R258, R309, R313). -/

namespace Sys2Proof.Machine

/-- Settles O43: a rule for each way an instruction ends, an equation per outcome of each instruction, and what a seal, an
exception and a replay leave. -/
theorem helperInstructions : Obligations.HelperInstructions := by
  refine ⟨fun s rd rs1 rs2 => ?instructions, fun s => ?bolts⟩
  case instructions =>
    intro h x y c mine keeps runs waits traps granule few sealed
    have hruns {i : Instr} {t : State} {v : Option W32} {p : State → Prop} (he : exec i s = .next t)
        (hran : s.HskRan t rd.toNat v) (hp : p t) : runs i v p := by
      obtain ⟨hkeeps, hpc, hwait, hquiet, hmepc, hmcause, hmtval, hmstatus, hhx⟩ := hran
      exact ⟨t, he, hkeeps, hpc, hwait, hquiet, hmepc, hmcause, hmtval, hmstatus, hhx, hp⟩
    have hwaits {i : Instr} {k : HelperWait} (he : exec i s = .next (s.hWait k)) : waits i k := by
      obtain ⟨since, hwaiting⟩ := s.hWait_waiting k
      exact ⟨_, since, he, hwaiting⟩
    have htraps {i : Instr} {cause : Nat} {tval : W32} (he : exec i s = .next (s.hTrap cause tval)) : traps i cause tval :=
      ⟨_, he, s.hTrap_hskTrapped cause tval⟩
    have hfew {i : Instr} {clears : Bool} (he : exec i s = .next (s.hFew rd rs1 clears)) : few i clears := by
      refine ⟨fun hmis => htraps (he.trans (congrArg _ (s.hFew_misaligned rd rs1 clears hmis))),
        fun halign hout => htraps (he.trans (congrArg _ (s.hFew_outside rd rs1 clears halign hout))), ?_⟩
      intro reads awake
      refine ⟨fun ⟨halign, hin⟩ hasleep => hwaits ?_, fun ⟨halign, hin⟩ hawake hempty => hwaits ?_,
        fun ⟨halign, hin⟩ hawake hfull => ?_⟩
      all_goals rw [s.hFew_reads rd rs1 clears halign hin] at he
      · rw [he, if_pos (Bool.not_eq_false _ ▸ hasleep)]
        rfl
      · rw [he, if_neg (hawake ▸ Bool.false_ne_true), if_pos (by simpa using hempty)]
      · rw [if_neg (hawake ▸ Bool.false_ne_true), if_neg (by simpa using hfull)] at he
        exact hruns he (s.hFewLoad_ran clears _ _) (s.hFewLoad_granule clears _ hfull)
    refine ⟨fun k halign hkey hasleep => hwaits ?enqAsleep, fun k halign hkey hawake => ?enq,
      fun hbad => htraps (execHskEnq_unmapped rd rs1 rs2 s hbad), fun k halign hkey hawake => ?enqWindow,
      fun h0 hempty => hwaits (execHskDeq_empty rd rs1 s h0 hempty), fun e rest h0 helems => ?deq,
      fun h1 => hruns (execHskDeq_count rd rs1 s h1) (s.within_refl.ran_writes _ _) (s.written_elems _ _),
      fun h1 => ⟨_, hruns (execHskDeq_free rd rs1 s h1) (s.within_refl.ran_writes _ _) (s.written_elems _ _)⟩,
      hfew rfl, hfew rfl, fun hout => htraps (execHskFes_outside rs1 rs2 s hout),
      fun hin hasleep => hwaits (execHskFes_asleep rs1 rs2 s hin hasleep), fun hin hawake => ?fes,
      fun l1 z l2 hp hinbox hz hfirst => ?mbr, fun hp hnone => hwaits (execHskMbr_empty rd rs1 s hp (takeInbox_none hnone)),
      fun h16 => ?mask,
      fun hp => ⟨_, hruns (execHskMbr_free rd rs1 s hp) (s.within_refl.ran_writes _ _) (s.written_inbox _ _)⟩,
      fun hp => hruns (execHskMbw_none rs1 rs2 s hp) (s.within_refl.ran_next _) rfl,
      fun hp => ?mbw, ?dcc, ?dccHi, fun hnone hbusy => ?sealWait⟩
    case enqAsleep =>
      rw [execHskEnq_mapped rd rs1 rs2 s halign hkey]
      exact congrArg Host.Outcome.next (if_pos hasleep)
    case enq =>
      intro d hsrc hdst charge
      have henq := execHskEnq_mapped rd rs1 rs2 s halign hkey
      dsimp only at henq
      rw [if_neg (hawake ▸ Bool.false_ne_true),
        if_neg (Bool.eq_false_iff.1 (Bool.or_eq_false_iff.2 ⟨congrArg Bool.not hsrc, congrArg Bool.not hdst⟩))] at henq
      refine ⟨fun hover => htraps (henq.trans (congrArg _ (if_pos hover))),
        fun hin hfull => hwaits (henq.trans (congrArg _ ((if_neg (Nat.not_lt.2 hin)).trans (if_pos hfull)))), fun hin hroom => ?_⟩
      exact hruns (henq.trans (congrArg _ ((if_neg (Nat.not_lt.2 hin)).trans (if_neg (Nat.not_le.2 hroom)))))
        ((s.enqEnter_within k y d).ran_writes _ _) ⟨State.written_holdb _ _ _, State.written_tags _ _ _, s.enqCommand y d,
          (congrArg Core.sq (State.written_core _ _ _ _)).trans (s.enqEnter_sq k y d), rfl, rfl, rfl, rfl, rfl, rfl, rfl, rfl, rfl, rfl⟩
    case enqWindow =>
      intro d hbad
      refine htraps ((execHskEnq_mapped rd rs1 rs2 s halign hkey).trans (congrArg _ ?_))
      refine (if_neg (hawake ▸ Bool.false_ne_true)).trans (if_pos ?_)
      rcases hbad with hsrc | hdst
      · exact Bool.or_eq_true_iff.2 (.inl (congrArg Bool.not hsrc))
      · exact Bool.or_eq_true_iff.2 (.inr (congrArg Bool.not hdst))
    case deq =>
      exact hruns (execHskDeq_first rd rs1 s h0 helems) ((s.within_setHlp ..).ran_writes _ _) (State.written_elems _ _ _)
    case fes =>
      refine ⟨fun hbit hstall => hwaits ?_, fun hbit hfree => ?_, fun hbit => ?_⟩
      · rw [execHskFes_sets rs1 rs2 s hin hawake hbit, if_pos hstall]
      · have hset := execHskFes_sets rs1 rs2 s hin hawake hbit
        rw [if_neg (hfree ▸ Bool.false_ne_true)] at hset
        have hcore : (((s.setCore (c.setFull granule true)).hNext 4).core h.lcore) = c.setFull granule true :=
          State.core_setCore_of_eq rfl
        refine hruns hset ((s.within_refl.setCore _).ran_next _) ⟨?_, ?_⟩
        · exact (congrArg (Core.isFull · granule) hcore).trans ((isFull_setFull c granule granule true).trans (if_pos rfl))
        · exact congrArg (fun c => (s.setCore c).cores) hcore.symm
      · exact hruns (execHskFes_clears rs1 rs2 s hin hawake hbit) ((s.within_refl.hClaim _).ran_next _) (s.hClaim_claim _)
    case mbr =>
      have htake : takeInbox (s.hx rs1.toNat).toNat s.hlp.inbox = some ((z.1, z.2.1, z.2.2.2), l1 ++ l2) :=
        (congrArg _ hinbox).trans (takeInbox_first hz hfirst)
      exact hruns (execHskMbr_word rd rs1 s hp htake) ((s.within_setHlp ..).ran_writes _ _) (State.written_inbox _ _ _)
    case mask =>
      have hmask := execHskMbr_mask rd rs1 s (congrArg BitVec.toNat h16)
      exact ⟨_, hruns hmask (s.within_refl.ran_writes _ _) (s.written_inbox _ _), fun k hk => inboxMask_bit s.hlp.inbox hk⟩
    case mbw =>
      intro used
      have hbox := execHskMbw_box rs1 rs2 s hp
      refine ⟨fun hfull => hwaits (hbox.trans ?_), fun hroom hover => htraps (hbox.trans ?_), fun hroom hin => ?_⟩
      · exact congrArg Host.Outcome.next (if_pos hfull)
      · rw [if_neg (Nat.not_le.2 hroom)]
        exact congrArg Host.Outcome.next (if_pos hover)
      · rw [if_neg (Nat.not_le.2 hroom), State.hHold_held hin] at hbox
        exact hruns hbox ((s.within_setHlp ..).ran_next _) ⟨rfl, rfl⟩
    case dcc =>
      exact hruns rfl ((s.within_setHlp ..).ran_writes _ _) (State.written_latch _ _ _)
    case dccHi =>
      exact hruns rfl (s.within_refl.ran_writes _ _) (s.written_latch _ _)
    case sealWait =>
      refine hwaits (congrArg Host.Outcome.next (if_neg ?_))
      rw [hnone]
      exact fun hdue => hbusy (hdue.resolve_left (by decide))
  case bolts =>
    intro claimed sealed fails
    refine ⟨fun hnone hquietAt hquiet => ⟨s.hSealNow, ?now, s.hSealNow_sealed⟩,
      fun x hfault => ⟨s.hSealEnd, ?fault, State.hSealEnd_fails hfault⟩,
      fun t hfound => ?release, fun t hfound => ?watchdog, fun t hfound => ?replay, fun hnone => ?noSeal, fun hnone => ?noneLate,
      fun hnone => ?noneCharged⟩
    case now =>
      exact congrArg Host.Outcome.next ((if_pos (.inr ⟨hquietAt, hquiet⟩)).trans (State.hSealEnd_of_none hnone))
    case fault =>
      exact congrArg Host.Outcome.next (if_pos (.inl (hfault ▸ rfl)))
    case release =>
      obtain ⟨hselected, hmode, hwaits⟩ := State.findHelper_spec hfound
      obtain ⟨hwait, hdue⟩ := State.hSealWaits_spec hwaits
      have hexec : exec .helperSealRelease s = .next t.hSealEnd := by
        refine congrArg Host.Outcome.next ?_
        rw [hfound]
        rfl
      refine ⟨_, hexec, hwait, hselected, hmode, fun hnone => ⟨(hdue hnone).1, ?_⟩, fun x hfault => State.hSealEnd_fails hfault⟩
      rw [State.hSealEnd_of_none hnone]
      exact t.hSealNow_sealed
    case watchdog =>
      obtain ⟨-, -, hlate⟩ := State.findHelper_spec hfound
      obtain ⟨k, since, n, hwait, hselector, hsince⟩ := State.hLate_spec hlate
      have hexec : exec .helperWatchdog s = .next (t.hTrap 25 (BitVec.ofNat 32 n)) := by
        refine congrArg Host.Outcome.next ?_
        rw [hfound]
        simp only [hwait, Option.bind_some, hselector, Option.getD_some]
      obtain ⟨hmepc, hmcause, hmtval, hpc, hinTrap, hnowait, hmem, hhx⟩ := hTrap_hlp t 25 (BitVec.ofNat 32 n)
      exact ⟨k, since, n, hwait, hselector, hsince, _, hexec, hpc, hmepc, hmcause, hmtval, hnowait, hinTrap, hmem, hhx,
        fun h => State.hTrap_stops h 25 _, fun h => State.hTrap_mode h 25 _⟩
    case replay =>
      intro h
      have hexec : exec .helperBoltReplay s = .next (if h.retry < 3 then t.hReplay
          else t.shedCore (t.hostOf h.lcore).1 (t.hostOf h.lcore).2) := by
        refine congrArg Host.Outcome.next ?_
        rw [hfound]
      refine ⟨fun h3 => hexec.trans (congrArg _ (if_neg (Nat.not_lt.2 h3))),
        fun h3 => ⟨t.hReplay, hexec.trans (congrArg _ (if_pos h3)), ?_⟩⟩
      have hreplay := t.hReplay_hlp
      refine ⟨t.hReplay_mem, ?_, ?_, ?_, ?_, ?_, ?_, ?_, ?_, ?_, State.claimed_of_cores rfl, ?_, t.hReplay_elems, t.hUndone_sq⟩
      all_goals rw [hreplay]
      all_goals rfl
    case noSeal =>
      refine congrArg Host.Outcome.next ?_
      rw [hnone]
      rfl
    case noneLate =>
      refine congrArg Host.Outcome.next ?_
      rw [hnone]
    case noneCharged =>
      refine congrArg Host.Outcome.next ?_
      rw [hnone]

end Sys2Proof.Machine
